-- ==== Sys2Proof/Word.lean ====
section
/-!
DEFINITION. The word types of the device and their plainest arithmetic: bytes, 32-bit register words, 128-bit entries
(R44), time values (R306), and slicing of bit fields out of numbers.
-/
namespace Sys2Proof

/-- One byte. -/
abbrev Byte := BitVec 8

/-- One 32-bit register word. -/
abbrev Word := BitVec 32

/-- One 128-bit queue entry (R44, R58). -/
abbrev Entry := BitVec 128

/-- A time value as a count of 2^−16 ns units: (SEC × 10^9 + NS) × 65,536 + FRAC (R306). -/
abbrev TimeVal := Nat

/-- Bits `[lo + w - 1 : lo]` of a number. -/
def bitsOf (x lo w : Nat) : Nat := (x >>> lo) % 2 ^ w

/-- Bit `i` of a number. -/
def bitAt (x i : Nat) : Bool := x.testBit i

/-- Adds `d` to a counter that saturates at `top`. -/
def satAdd (top x d : Nat) : Nat := min top (x + d)

/-- The ceiling of a division. -/
def ceilDiv (a b : Nat) : Nat := (a + b - 1) / b

/-- The little-endian number held by a list of bytes. -/
def leNat : List Byte → Nat
  | [] => 0
  | b :: bs => b.toNat + 256 * leNat bs

/-- The `n` little-endian bytes of a number. -/
def natLe : Nat → Nat → List Byte
  | 0, _ => []
  | n + 1, x => BitVec.ofNat 8 x :: natLe n (x / 256)

/-- The signed reading of the low `w` bits of a number. -/
def signedOf (w x : Nat) : Int :=
  let y := x % 2 ^ w
  if y < 2 ^ (w - 1) then (y : Int) else (y : Int) - (2 ^ w : Nat)

/-- The low `w` bits of an integer in two's complement. -/
def unsignedOf (w : Nat) (x : Int) : Nat := (x % ((2 ^ w : Nat) : Int)).toNat

/-- An integer clamped to a range. -/
def clampInt (lo hi x : Int) : Int := max lo (min hi x)

end Sys2Proof
end

