-- ==== Sys2Proof/Operand.lean ====
section
/-!
DEFINITION. The operands of commands: places in the fabric, and the messages, frames and blocks that arrive from
outside.
-/
namespace Sys2Proof

/-- A mark at the pins: of the first line bit of a block or character, or of an edge (R34, R292, R319, R328). It lies `ago` TIME cycles
before the cycle of its command, `phase` ÷ 64 of a cycle into that one. -/
structure Mark where
  ago : Nat := 0
  phase : Fin 64 := 0
  deriving DecidableEq, Repr

/-- A cluster: 44 × die + 11 v + u for the compute dies, 880 for the dandy's (R18, R690). -/
abbrev ClusterId := Fin 881

/-- A tile index 8 j + i (R39). -/
abbrev TileId := Fin 64

/-- A store index (R40). -/
abbrev OpIx := Fin 64

/-- The place of an entry that can move one hop (R49, R57): the outgoing direction of a tile, the cluster pass-through
register of an outgoing link stream, or the head of the crossing queue of that stream. Directions: N 0, E 1, S 2, W 3. -/
inductive Hop where
  | tile (c : ClusterId) (t : TileId) (d : Fin 4)
  | link (c : ClusterId) (d : Fin 4) (stream : Fin 2)
  | crossing (c : ClusterId) (d : Fin 4) (stream : Fin 2)
  deriving DecidableEq, Repr

/-- The units that emit a result as several entries (R155, R164, R201). -/
inductive EmitUnit where
  | mul | alu | siz
  deriving DecidableEq, Repr

/-- A CAPS ordered set (R281). -/
structure CapsMsg where
  role : BitVec 8
  rates : BitVec 8
  lanes : BitVec 8
  spare : BitVec 8
  failed : BitVec 8
  version : BitVec 8
  deriving DecidableEq, Repr

/-- What a lane receives that is no message of a command of its own (R278, R282, R284): a block, descrambled, with the removed
stuff bits that were not of the opposite value; an ordered set; a code or disparity error. -/
inductive LaneUnit where
  | block (head : BitVec 2) (payload : BitVec 96) (wrong : Fin 5)
  | orderedSet (type : Byte)
  | codeError
  deriving DecidableEq, Repr

/-- A stock frame as received (R348): SOF, TS, sample blocks, EOF. `stray` marks a control block other than IDLE, or
a new SOF, before EOF. `mark` is the lane mark of the SOF. `staging` is a staging SRAM line found uncorrectable, with the sample block that
it held (R590). -/
structure StockFrame where
  sid : BitVec 10
  seq : BitVec 16
  fmt : BitVec 4
  nsamp : BitVec 13
  ts : BitVec 96
  blocks : List (BitVec 96)
  stray : Bool
  eofSid : BitVec 10
  eofSeq : BitVec 16
  crc : BitVec 32
  mark : Mark
  staging : Option (Fin 131072 × Nat) := none
  deriving DecidableEq, Repr

/-- What the best master clock algorithm of the root firmware decides for a port on an Announce (R317). -/
inductive Bmca where
  | master | slave | passive
  deriving DecidableEq, Repr

/-- PTP message kinds (R317, R320). -/
inductive PtpKind where
  | sync | followUp | delayReq | delayResp | pdelayReq | pdelayResp | pdelayFollowUp | announce | other
  deriving DecidableEq, Repr

/-- A frame received on a time port (R317–R319). Times are in 2^−16 ns; `mark` is the /S/ mark at
the pins, `logInterval` the logMessageInterval. -/
structure PtpFrame where
  isPtp : Bool
  fcsOk : Bool
  tags : Nat
  udp : Bool
  kind : PtpKind
  twoStep : Bool
  domain : BitVec 8
  source : BitVec 80
  gm : BitVec 64
  seq : BitVec 16
  origin : TimeVal
  correction : Int
  utc : BitVec 8
  logInterval : Int
  decision : Bmca
  mark : Mark
  deriving DecidableEq, Repr

/-- A Xomos packet as received (R530, R531): the fields of HEAD, the data blocks, SEQ and CRC of TAIL. -/
structure XPkt where
  seq : BitVec 12
  cls : BitVec 4
  dst : BitVec 15
  src : BitVec 15
  kind : BitVec 4
  tag : BitVec 32
  len : BitVec 6
  data : List (BitVec 96)
  tailSeq : BitVec 12
  crc : BitVec 32
  deriving DecidableEq, Repr

/-- A COORD control block (R531). -/
structure CoordMsg where
  origin : BitVec 32
  x : BitVec 5
  y : BitVec 5
  z : BitVec 5
  dx : BitVec 5
  dy : BitVec 5
  dz : BitVec 5
  skip : Bool
  epoch : BitVec 8
  parent : BitVec 4
  hops : BitVec 6
  late : Bool
  deriving DecidableEq, Repr

/-- A TSYNC control block with the lane mark of its arrival (R531, R547). -/
structure TsyncMsg where
  exch : BitVec 8
  stage : BitVec 2
  time : TimeVal
  mark : Mark
  deriving DecidableEq, Repr

/-- A CALIGN control block with the lane mark of its arrival (R531, R549, R567). -/
structure CalignMsg where
  nk : BitVec 32
  na : BitVec 32
  ofs : BitVec 16
  mark : Mark
  deriving DecidableEq, Repr

/-- What the other members of a collective present and hold (R554, R557): bytes 0x00–0x07 of each matching request in
member order, and the SRC bytes of each. -/
structure CollPeer where
  head : List Byte
  src : List Byte
  deriving DecidableEq, Repr

/-- One of the two 32 B bursts of a 64 B line: the line, and whether it is the second, high half (R240). -/
structure HalfLine where
  line : Nat
  high : Bool
  deriving DecidableEq, Repr

/-- A burst of the ECC line of a line's group (R244, R246): which half, and the erroneous bytes of the whole line once it is read. -/
structure EccHalf where
  line : Nat
  high : Bool
  errs : Fin 4
  deriving DecidableEq, Repr

/-- The read of a group by a device copy (R269): its slot, and the erroneous bytes of its lines, the ECC line being 15; a line that is not
named has none. -/
structure GroupRead where
  slot : Fin 1024
  errs : List (Fin 16 × Fin 4) := []
  deriving DecidableEq, Repr

/-- A use of the context cache of a quarter, with the entry of the context used that is found uncorrectable, if one is (R442, R590). -/
structure CacheUse where
  quarter : Fin 4
  lost : Option (Fin 16384) := none
  deriving DecidableEq, Repr

/-- How a read of host memory by a channel's copy failed: no completion in time, or a poisoned one (R467, R517). -/
structure HostReadEnd where
  chan : Fin 32
  poisoned : Bool
  deriving DecidableEq, Repr

/-- A SPDM request with its transport, DOE or SMBus (R471). -/
structure SpdmReq where
  smbus : Bool
  body : List Byte
  deriving DecidableEq, Repr

end Sys2Proof
end

