-- ==== Sys2Proof/Syntax.lean ====
section
/-!
DEFINITION. The commands of the device: one constructor per row of spec/opcode_table.json, with the row's operands.
-/
namespace Sys2Proof

/-- A command (an operation, an event or a message) that the device meets. -/
inductive Instr where
  /-- LINK_HOP (R49): An entry moves one hop over a neighbour link, cluster link or pass-through register once the receiver has room. -/
  | linkHop (h : Hop)
  /-- MUL (R147): The lane products of A and B replace the accumulators. -/
  | mulOp (c : ClusterId) (t : TileId) (ix : OpIx)
  /-- MAC (R149): The lane products of A and B are added to the accumulators, clamped for integer formats or rounded once to F32. -/
  | mac (c : ClusterId) (t : TileId) (ix : OpIx)
  /-- MACR (R156): Accumulates like MAC and, at every IMM-th firing, reads out the accumulators and clears them. -/
  | macr (c : ClusterId) (t : TileId) (ix : OpIx)
  /-- ACC_RD (R153): Starts a read-out of the accumulators, converted per format with shift s. -/
  | accRd (c : ClusterId) (t : TileId) (ix : OpIx)
  /-- READOUT_ENTRY_EMIT (R155): A further entry of a read-out leaves once the output and destination conditions hold. -/
  | readoutEntryEmit (c : ClusterId) (t : TileId) (u : EmitUnit)
  /-- ACC_CLR (R151): Sets all 64 accumulators to 0. -/
  | accClr (c : ClusterId) (t : TileId) (ix : OpIx)
  /-- FMA (R152): Emits A times B plus register SRC per lane, rounded once. -/
  | fma (c : ClusterId) (t : TileId) (ix : OpIx)
  /-- ADD (R158): Adds A and B lane by lane, clamping integer lanes. -/
  | addOp (c : ClusterId) (t : TileId) (ix : OpIx)
  /-- SUB (R158): Subtracts B from A lane by lane, clamping integer lanes. -/
  | subOp (c : ClusterId) (t : TileId) (ix : OpIx)
  /-- MAX (R160): Emits the lane-wise maximum of A and B. -/
  | maxOp (c : ClusterId) (t : TileId) (ix : OpIx)
  /-- MIN (R160): Emits the lane-wise minimum of A and B. -/
  | minOp (c : ClusterId) (t : TileId) (ix : OpIx)
  /-- SCALE (R152): Multiplies A by register SRC and rounds once. -/
  | scale (c : ClusterId) (t : TileId) (ix : OpIx)
  /-- REDUCE_ADD (R161): Sums all lanes of A exactly into a scalar rounded once. -/
  | reduceAdd (c : ClusterId) (t : TileId) (ix : OpIx)
  /-- REDUCE_MAX (R161): Emits the largest lane of A as a scalar. -/
  | reduceMax (c : ClusterId) (t : TileId) (ix : OpIx)
  /-- AND (R73): Bitwise AND of A and B on 128 bits. -/
  | andOp (c : ClusterId) (t : TileId) (ix : OpIx)
  /-- OR (R73): Bitwise OR of A and B on 128 bits. -/
  | orOp (c : ClusterId) (t : TileId) (ix : OpIx)
  /-- XOR (R73): Bitwise XOR of A and B on 128 bits. -/
  | xorOp (c : ClusterId) (t : TileId) (ix : OpIx)
  /-- SHIFT (R159): Shifts integer lanes left or arithmetically right by signed IMM. -/
  | shift (c : ClusterId) (t : TileId) (ix : OpIx)
  /-- CMP (R162): Compares A with B per the condition, giving all-ones or all-zeros lanes. -/
  | cmp (c : ClusterId) (t : TileId) (ix : OpIx)
  /-- SELECT (R73): Per lane takes A where the mask popped from L1 is all ones, else B. -/
  | selectOp (c : ClusterId) (t : TileId) (ix : OpIx)
  /-- CVT (R163): Converts A to the target format, widening into several entries or packing into one. -/
  | cvt (c : ClusterId) (t : TileId) (ix : OpIx)
  /-- EXP (R175): Computes e to the power x per lane. -/
  | expOp (c : ClusterId) (t : TileId) (ix : OpIx)
  /-- LOG (R175): Computes the natural logarithm per lane. -/
  | logOp (c : ClusterId) (t : TileId) (ix : OpIx)
  /-- RCP (R175): Computes the reciprocal per lane. -/
  | rcp (c : ClusterId) (t : TileId) (ix : OpIx)
  /-- RSQRT (R175): Computes the reciprocal square root per lane. -/
  | rsqrt (c : ClusterId) (t : TileId) (ix : OpIx)
  /-- TANH (R175): Computes the hyperbolic tangent per lane. -/
  | tanh (c : ClusterId) (t : TileId) (ix : OpIx)
  /-- SIGM (R175): Computes the logistic sigmoid per lane. -/
  | sigm (c : ClusterId) (t : TileId) (ix : OpIx)
  /-- PWL (R139): Evaluates a piecewise-linear table at each lane. -/
  | pwl (c : ClusterId) (t : TileId) (ix : OpIx)
  /-- QUANT (R189): Quantises floating-point elements to codes per channel with clip and underflow counting. -/
  | quant (c : ClusterId) (t : TileId) (ix : OpIx)
  /-- DEQUANT (R194): Turns codes back into floating-point values per channel. -/
  | dequant (c : ClusterId) (t : TileId) (ix : OpIx)
  /-- STATS_ACCUMULATE (R200): STATS mode 0 updates the per-channel statistics for each element. -/
  | statsAccumulate (c : ClusterId) (t : TileId) (ix : OpIx)
  /-- STATS_EMIT (R201): STATS mode 1 emits two entries of statistics per channel. -/
  | statsEmit (c : ClusterId) (t : TileId) (ix : OpIx)
  /-- STATS_DERIVE (R202): STATS mode 2 emits derived channel records of scale and offset. -/
  | statsDerive (c : ClusterId) (t : TileId) (ix : OpIx)
  /-- STATS_CLEAR (R200): STATS mode 3 resets the per-channel statistics. -/
  | statsClear (c : ClusterId) (t : TileId) (ix : OpIx)
  /-- LD (R73): Emits the SRAM stream selected by SELA. -/
  | ld (c : ClusterId) (t : TileId) (ix : OpIx)
  /-- ST (R73): Writes A to tile SRAM at the pointer in register DST and advances it. -/
  | st (c : ClusterId) (t : TileId) (ix : OpIx)
  /-- MOV (R73): Copies A to the output directions and destination. -/
  | mov (c : ClusterId) (t : TileId) (ix : OpIx)
  /-- LDI (R73): Writes the sign-extended immediate to register DST. -/
  | ldi (c : ClusterId) (t : TileId) (ix : OpIx)
  /-- TBL_LD (R143): Loads a product table, codebook or piecewise table from the SRAM stream. -/
  | tblLd (c : ClusterId) (t : TileId) (ix : OpIx)
  /-- FAR_RD (R74): Starts reading far lines into tile SRAM. -/
  | farRd (c : ClusterId) (t : TileId) (ix : OpIx)
  /-- FAR_WR (R74): Starts writing tile SRAM to far lines. -/
  | farWr (c : ClusterId) (t : TileId) (ix : OpIx)
  /-- FAR_REQUEST_ENTRY (R75): A far line request enters the far request queue once a return entry is reserved and the port allows. -/
  | farRequestEntry (c : ClusterId) (t : TileId)
  /-- FAR_READ_LINE_COMPLETE (R77): A read line's 64 B reach tile SRAM and its flag is updated per the flag mode. -/
  | farReadLineComplete (c : ClusterId) (t : TileId)
  /-- FAR_WRITE_LINE_COMPLETE (R77): A written far line becomes visible to every later read and its flag is updated. -/
  | farWriteLineComplete (c : ClusterId) (t : TileId)
  /-- FLAG_INC (R82): Adds IMM to a sync flag. -/
  | flagInc (c : ClusterId) (t : TileId) (ix : OpIx)
  /-- WAIT_FLAG (R82): Fires when a flag reaches IMM, subtracts IMM and emits the prior value. -/
  | waitFlag (c : ClusterId) (t : TileId) (ix : OpIx)
  /-- CNT_SET (R108): Sets VALUE and LIMIT of a loop counter. -/
  | cntSet (c : ClusterId) (t : TileId) (ix : OpIx)
  /-- CNT_STEP (R109): Steps a loop counter, wrapping to LIMIT, and emits a step or wrap token. -/
  | cntStep (c : ClusterId) (t : TileId) (ix : OpIx)
  /-- SWITCH (R112): Routes a data entry to the directions and destination named by the head token. -/
  | switchOp (c : ClusterId) (t : TileId) (ix : OpIx)
  /-- MERGE (R112): Takes a data entry from the queue chosen by the head token's choice bit. -/
  | mergeOp (c : ClusterId) (t : TileId) (ix : OpIx)
  /-- REPEAT (R112): Emits the head data entry once per count of the head token and pops it at the last count. -/
  | repeatOp (c : ClusterId) (t : TileId) (ix : OpIx)
  /-- DROP (R112): Passes or discards a data entry according to the head token's choice bit. -/
  | dropOp (c : ClusterId) (t : TileId) (ix : OpIx)
  /-- TOKEN_GENERATE (R103): Generate-form TOKEN emits a token built from SEL and a register. -/
  | tokenGenerate (c : ClusterId) (t : TileId) (ix : OpIx)
  /-- TOKEN_RELAY (R103): Relay-form TOKEN passes a token taken from a data entry into the token queue or out. -/
  | tokenRelay (c : ClusterId) (t : TileId) (ix : OpIx)
  /-- TOKEN_TEST (R103): Test-form TOKEN emits one of two tokens depending on whether A is zero. -/
  | tokenTest (c : ClusterId) (t : TileId) (ix : OpIx)
  /-- TOKEN_ZERO_LEAVE (R114): A token with COUNT 0 at the head of a queue for SWITCH, MERGE or DROP leaves the cycle after it reaches the head. -/
  | tokenZeroLeave (c : ClusterId) (t : TileId)
  /-- RNG (R173): Emits one 128-bit draw of its counter-based random stream. -/
  | rng (c : ClusterId) (t : TileId) (ix : OpIx)
  /-- CHEST_SPILL_BEGIN (R87): A queue full for 64 cycles with an entry waiting begins to spill into the chest. -/
  | chestSpillBegin (c : ClusterId) (t : TileId) (q : Fin 7)
  /-- CHEST_REFILL (R88): After a pop the oldest chest entry of the queue enters the queue. -/
  | chestRefill (c : ClusterId) (t : TileId) (q : Fin 7)
  /-- WATCHDOG_EXPIRY (R92): A cluster without progress for CLC.WDOG.LIMIT non-idle cycles triggers the watchdog. -/
  | watchdogExpiry (c : ClusterId)
  /-- SHEET_END (R735): When every cluster of a non-trigger image is empty and all counted firings are done, all enter DRAIN. -/
  | sheetEnd (h : BitVec 16)
  /-- PARTIAL_PACK_EMIT (R165): Once the image is in drain and quiescent, partly filled packs are emitted with zero lanes. -/
  | partialPackEmit (h : BitVec 16)
  /-- TOKEN_OVERRUN (R119): A draining cluster with no data left but a token of nonzero count aborts the sheet. -/
  | tokenOverrun (c : ClusterId)
  /-- CLUSTER_DRAINED (R98): A draining cluster whose queues, chests and registers are empty becomes DRAINED. -/
  | clusterDrained (c : ClusterId)
  /-- CLC_DRAIN (R97): A write of CLC.CTRL.DRAIN requests the drain of the image. -/
  | clcDrain (c : ClusterId)
  /-- CLC_ABORT (R96): A write of CLC.CTRL.ABORT aborts the sheet and sends the cluster to ABORTED. -/
  | clcAbort (c : ClusterId)
  /-- CONFIG_FETCH (R120): The cluster controller fetches a 64 B line of the configuration stream into its configuration queue. -/
  | configFetch (c : ClusterId)
  /-- CONFIG_ENTRY_DELIVERY (R123): One configuration entry is delivered to the tile it names once the cluster is IDLE or DRAINED. -/
  | configEntryDelivery (c : ClusterId)
  /-- SHEET_RESTORE (R128): A sheet on an unchanged configuration re-applies initial flags, counters, registers and tokens from the refetched stream. -/
  | sheetRestore (c : ClusterId)
  /-- BRIDGE_WIRE_FAILURE (R22): A failed bridge wire is replaced by its group's spare wire. -/
  | bridgeWireFailure (b : Fin 40) (d : Fin 2) (g : Fin 96) (w : Fin 17)
  /-- BRIDGE_SUBSTITUTION (R25): A wire or group substitution takes effect at a calender frame boundary. -/
  | bridgeSubstitution (b : Fin 40) (d : Fin 2)
  /-- FLIT_RETRANSMIT (R26): A flit that fails its check is retransmitted and reported CORRECTED. -/
  | flitRetransmit (b : Fin 40) (d : Fin 2) (g : Fin 96) (w : Option (Fin 17))
  /-- PLL_LOCK_LOSS (R35): A compute die whose active arithmetic PLL loses lock stops its clusters and switches to the spare PLL. -/
  | pllLockLoss (k : Fin 20)
  /-- PLL_SWITCH_COMPLETE (R36): After the PLL switch, interrupted sheets are replayed and pipelines report a gap. -/
  | pllSwitchComplete (k : Fin 20)
  /-- LOAD_IMAGE (R225): The loader checks, maps, claims, copies and patches an image and posts the load outcome. -/
  | loadImage
  /-- GDDR6_BURST (R256): A request of a class is served with a burst in its own calender window. -/
  | gddr6Burst (slot : Fin 1024) (cls : Fin 16) (half : HalfLine) (errs : Fin 4)
  /-- ECC_LINE_FETCH (R246): A partial-group write reads the group's ECC line in the class's next read window. -/
  | eccLineFetch (slot : Fin 1024) (cls : Fin 16) (half : EccHalf)
  /-- EDC_RETRY (R247): A burst with a bad EDC CRC is repeated in the class's next slot. -/
  | edcRetry (slot : Fin 1024) (cls : Fin 16) (half : HalfLine)
  /-- GDDR6_REFRESH (R261): A REF window issues one per-bank refresh to each bank of its quad. -/
  | gddr6Refresh (e : Fin 4) (ch : Fin 24) (slot : Fin 1024)
  /-- PATROL_READ (R267): A COPY window reads groups in ascending order when no copy runs. -/
  | patrolRead (e : Fin 4) (ch : Fin 22) (slot : Fin 1024) (errs : Fin 4)
  /-- DEVICE_COPY_START (R268): A device whose bucket crossed starts being copied to the spare at the next frame boundary. -/
  | deviceCopyStart (e : Fin 4) (m : Fin 12)
  /-- DEVICE_COPY_GROUP (R269): A group read of the copy completes and the channel's copy pointer advances. -/
  | deviceCopyGroup (e : Fin 4) (b : Fin 2) (group : GroupRead)
  /-- DEVICE_SWITCH (R270): When both pointers finish, the logical device moves to the spare and the old position is RETIRED. -/
  | deviceSwitch (e : Fin 4)
  /-- DEVICE_LOST (R271): A device that fails wholly becomes LOST and its regions are lost. -/
  | deviceLost (e : Fin 4) (m : Fin 12)
  /-- SPARE_INIT_COMPLETE (R272): After zeroing, the spare takes the lost logical device at the next frame boundary. -/
  | spareInitComplete (e : Fin 4)
  /-- LNP_ENABLE (R296): Setting LNP.GCTRL.ENABLE takes a lane group from OFF to DETECT. -/
  | lnpEnable (g : Fin 26)
  /-- LNP_DISABLE (R296): Clearing LNP.GCTRL.ENABLE sends a lane group to OFF. -/
  | lnpDisable (g : Fin 26)
  /-- LNP_RETRAIN (R296): A write of LNP.GCTRL.RETRAIN sends a group from FAIL or ACTIVE to DETECT. -/
  | lnpRetrain (g : Fin 26)
  /-- LNP_EIDLE_ENTER (R304): Setting LNP.GCTRL.EIDLE makes the transmit direction send EIDLE blocks and stop driving. -/
  | lnpEidleEnter (g : Fin 26)
  /-- LNP_EIDLE_EXIT (R305): Clearing LNP.GCTRL.EIDLE makes the transmitter send a BURST and resume frames. -/
  | lnpEidleExit (g : Fin 26)
  /-- LOS_ASSERT (R295): The loss-of-signal detector asserts after 256 ns below threshold. -/
  | losAssert (g : Fin 26) (l : Fin 18)
  /-- LOS_DEASSERT (R295): The loss-of-signal detector deasserts after 1 us above threshold. -/
  | losDeassert (g : Fin 26) (l : Fin 18)
  /-- CHARACTER_LOCK (R279): A lane gains character lock after 4 clean aligned ordered sets. -/
  | characterLock (g : Fin 26) (l : Fin 18)
  /-- CHARACTER_LOCK_LOSS (R279): A lane loses character lock after 8 errors in 64 characters. -/
  | characterLockLoss (g : Fin 26) (l : Fin 18) (errs : Fin 65)
  /-- BASE_ACQ_TIMEOUT (R296): 1 ms in BASE_ACQ without lock returns the group to DETECT. -/
  | baseAcqTimeout (g : Fin 26)
  /-- CAPS (R281): A CAPS ordered set is acted on after three identical copies. -/
  | caps (g : Fin 26) (m : CapsMsg)
  /-- OFFER (R297): An OFFER ordered set lowers or confirms the rate in NEGOTIATE. -/
  | offer (g : Fin 26) (rate : Fin 8)
  /-- STEP (R298): A STEP ordered set with countdown 0 switches the receiver to the offered rate. -/
  | step (g : Fin 26) (rate : Fin 8) (count : Fin 64)
  /-- RATE_SWITCH_TIMEOUT (R298): 1 us after its own countdown 0 the receiver switches rate without the peer's. -/
  | rateSwitchTimeout (g : Fin 26)
  /-- BLOCK_LOCK (R286): A lane gains block lock after 64 consecutive valid headers. -/
  | blockLock (g : Fin 26) (l : Fin 18) (hs : List (BitVec 2 × Fin 5))
  /-- BLOCK_LOCK_LOSS (R286): A lane loses block lock after 16 invalid headers in 64. -/
  | blockLockLoss (g : Fin 26) (l : Fin 18) (hs : List (BitVec 2 × Fin 5))
  /-- ALIGN (R291): An ALIGN block marks the frame start and serves deskew. -/
  | align (g : Fin 26) (l : Fin 18) (frame : BitVec 16) (skew : Fin 128)
  /-- EQ_SWEEP_COMPLETE (R294): The CTLE sweep ends and the peaking of each lane is chosen or the lane fails. -/
  | eqSweepComplete (g : Fin 26) (l : Fin 18) (good : BitVec 15)
  /-- READY (R296): Receipt of READY blocks completes EQ and takes the group to ACTIVE. -/
  | ready (g : Fin 26) (spare : Bool) (lane : Fin 128)
  /-- TRAINING_TIMEOUT (R296): 8 ms after countdown 0 without ACTIVE the group falls back to base rate and records the failed rate. -/
  | trainingTimeout (g : Fin 26)
  /-- SPARE_REQUEST (R301): A SPARE request makes the peer acknowledge and copy the lane onto the spare. -/
  | spareRequest (g : Fin 26) (l : Fin 18) (peer : Option (BitVec 16))
  /-- SPARE_ACKNOWLEDGE (R301): A SPARE acknowledge starts the receiver's sweep of the spare on the copied blocks. -/
  | spareAcknowledge (g : Fin 26) (l : Fin 18) (good : BitVec 15)
  /-- SPARE_ABANDON (R302): A SPARE abandon makes the peer stop copying and keep the lane in use. -/
  | spareAbandon (g : Fin 26) (l : Fin 18) (peer : Bool)
  /-- SPARE_SWITCH (R301): At the ALIGN of frame F the receiver takes the lane's data from the spare. -/
  | spareSwitch (g : Fin 26)
  /-- EIDLE (R304): A received EIDLE block puts the receiver into EIDLE. -/
  | eidle (g : Fin 26) (l : Fin 18) (copy : Fin 4)
  /-- BURST (R305): The BURST block with countdown 0 returns the receiver to ACTIVE or to DETECT. -/
  | burst (g : Fin 26) (count : Fin 128)
  /-- SERVO_MEASUREMENT (R309): A completed offset measurement updates the servo integrator and FADJ or the tracked offset. -/
  | servoMeasurement (src : Fin 4) (e : Int)
  /-- ANNOUNCE_TIMEOUT (R314): An announce receipt timeout removes a domain's qualification. -/
  | announceTimeout (d : Fin 2)
  /-- PPS_IN_TIMEOUT (R314): 1.5 s without a PPS_IN edge removes its qualification. -/
  | ppsInTimeout
  /-- PTP_FRAME_RX (R318): A frame received on a time port is timestamped and passed on, or discarded. -/
  | ptpFrameRx (p : Fin 2) (f : PtpFrame)
  /-- PTP_FRAME_TX (R320): A PTP event message is sent with one-step time inserted in line. -/
  | ptpFrameTx (p : Fin 2) (f : PtpFrame)
  /-- PPS_IN_EDGE (R328): An active PPS_IN edge is timestamped and its offset measured. -/
  | ppsInEdge (falling : Bool) (phase : Fin 64)
  /-- PPS_OUT_PULSE (R330): A PPS_OUT pin emits a pulse at its programmed time or skips it. -/
  | ppsOutPulse (n : Fin 4)
  /-- TIMED_START_FIRE (R324): A timed-start unit fires at its START, starts its target and advances or disarms. -/
  | timedStartFire (u : Fin 32)
  /-- TBS_LATCH (R693): A write of TBS.LATCH copies the time value into TBS.LT0-LT2. -/
  | tbsLatch
  /-- TBS_LOCK (R696): Setting TBS.CTRL.LOCK locks the RWL fields of TBS until reset. -/
  | tbsLock
  /-- HELLO (R336): A partner's HELLO is answered with WELCOME. -/
  | hello (g : Fin 16) (pid : BitVec 32) (sources : BitVec 8) (version : BitVec 8)
  /-- SJOIN (R339): A source join is answered with ACCEPT and a SID, or REFUSE with a reason. -/
  | sjoin (g : Fin 16) (lsn : BitVec 8) (fmt : BitVec 4) (fcode : BitVec 4) (rate : BitVec 32)
  /-- SLEAVE (R346): A source leave is answered with LEFT and the stream leaves JOINED or ADMITTED. -/
  | sleave (g : Fin 16) (lsn : BitVec 8) (sid : BitVec 10)
  /-- BYE (R343): A partner's BYE ends all its streams without answer. -/
  | bye (g : Fin 16) (pid : BitVec 32)
  /-- SUSPEND_TIMEOUT (R343): A stream suspended for 1 s without rejoin becomes LEFT or FREE. -/
  | suspendTimeout (sid : Fin 1024)
  /-- STOCK_FRAME (R350): A received stock frame is checked and written to the buffer or discarded. -/
  | stockFrame (g : Fin 16) (f : StockFrame)
  /-- ADMIT (R353): An admission is checked against acquisition and trigger capacity and sets the stream ADMITTED. -/
  | admitPipe
  /-- TRIGGER_BLOCK_DELIVERY (R366): The headbox delivers a block of an admitted bound stream as entries towards the ingress stage. -/
  | triggerBlockDelivery (f : StockFrame) (e : Nat) (pin : Mark)
  /-- INGRESS_PLACEMENT (R369): An entry is placed at the head of the ingress tile's L1 at its pin cycle plus T_in. -/
  | ingressPlacement (p : Fin 64) (port : BitVec 16) (now : Nat)
  /-- DECISION_JUDGE (R374): At an entry set's release cycle the release unit judges its decision entry. -/
  | decisionJudge (p : Fin 64) (arrival : Nat)
  /-- TRIGGER_MESSAGE_SEND (R384): At DUE the trigger message goes to headboxes, TRIG lines and Xomos ports and a TRIGGER event is posted. -/
  | triggerMessageSend (p : Fin 64)
  /-- PIPELINE_RESTART (R390): After the cause ends the root firmware remaps, reconfigures and restarts the pipeline in WARM. -/
  | pipelineRestart (p : Fin 64)
  /-- TRIG_OUT_PULSE (R395): A TRIG line in OUT mode drives a pulse timed to reach its reference point at DUE plus 120 ns. -/
  | trigOutPulse (n : Fin 8)
  /-- TRIG_IN_EDGE (R396): An active edge on a TRIG input yields SOURCE 1 messages for its pipelines. -/
  | trigInEdge (n : Fin 8) (falling : Bool) (mark : Mark)
  /-- TRP_DET_WRITE (R387): A write to TRP.DETA or TRP.DETB takes effect or is ignored with WR_IGN while WARM or LIVE. -/
  | trpDetWrite (p : Fin 64) (b : Bool) (v : Word)
  /-- TRIG_LINE_WRITE (R394): A write to TRP.LCTRL or LMASK takes effect only while the line is claimed. -/
  | trigLineWrite (n : Fin 8) (r : Fin 3) (v : Word)
  /-- HEADBOX_TRIGGER_MESSAGE (R406): A trigger message reaching a headbox opens records or marks retractions. -/
  | headboxTriggerMessage (e : Fin 4)
  /-- RECORD_COMPLETE (R411): A record is complete when W passes the end of its window, or closes early truncated. -/
  | recordComplete (sid : Fin 1024)
  /-- RECORD_HANDOFF (R413): A complete record is read, measured and written to a free slot, then its completion posted. -/
  | recordHandoff (sid : Fin 1024)
  /-- RECORD_LOST (R414): A record overrun by the buffer before it is read is discarded and RECORD_LOST posted. -/
  | recordLost (sid : Fin 1024)
  /-- BUFFER_REALLOCATE (R419): A lost buffer is allocated again when GDDR6 is free and W restarts at 0. -/
  | bufferReallocate (sid : Fin 1024)
  /-- VAT_RUN (R433): A RUN sweep is entered in the vat's pending queue. -/
  | vatRun
  /-- VAT_LOAD (R436): A LOAD sweep is entered to write contexts into the table. -/
  | vatLoad
  /-- VAT_STORE (R436): A STORE sweep is entered to copy contexts out of the table. -/
  | vatStore
  /-- VAT_CLEAR (R436): A CLEAR sweep is entered to zero contexts and possibly change mode. -/
  | vatClear
  /-- VAT_ARM (R434): A VAT_SWEEP with ARM stores the sweep as a template without running it. -/
  | vatArm
  /-- SWEEP_START (R434): The vat starts the oldest pending sweep when no sweep runs. -/
  | sweepStart
  /-- CONTEXT_FETCH (R442): A selected context is fetched into the cache once room is free and given its status. -/
  | contextFetch (q : CacheUse)
  /-- BATCH_DELIVERY (R438): A closed batch is delivered in VAT slots to its port's ingress tile. -/
  | batchDelivery (q : Fin 4)
  /-- CONTEXT_COMMIT (R441): When a batch's returns are all in, its contexts are written back and outputs written. -/
  | contextCommit (m : Fin 16) (port : Fin 16)
  /-- CACHE_WRITEBACK (R443): A dirty cache entry is written to GDDR6 in a VAT write slot. -/
  | cacheWriteback (q : CacheUse)
  /-- SWEEP_COMPLETE (R444): After the last write-back the sweep report is written and completion posted. -/
  | sweepComplete
  /-- PCIE_LINK_UP (R455): The host link enters L0 and a degraded width or rate posts LINK_CHANGE. -/
  | pcieLinkUp (width : Fin 5) (rate : Fin 6) (flit : Bool) (reversed : Bool)
  /-- REGISTER_WRITE (R459): A BAR0 write to a register without a row of its own sets fields, clears W1C flags or is ignored. -/
  | registerWrite (off : BitVec 28) (v : Word) (meets : Bool)
  /-- DOORBELL_SQ_TAIL (R480): An SQ_TAIL doorbell advances the submission tail of a ring pair. -/
  | doorbellSqTail (r : Fin 4096) (v : BitVec 64)
  /-- DOORBELL_CQ_HEAD (R491): A CQ_HEAD doorbell consumes completion entries and frees record slots. -/
  | doorbellCqHead (r : Fin 4096) (v : BitVec 64)
  /-- DOORBELL_EVT_HEAD (R480): An EVT_HEAD doorbell consumes event ring entries. -/
  | doorbellEvtHead (v : BitVec 64)
  /-- DOORBELL_REAM_HEAD (R480): A REAM_HEAD doorbell consumes ream ring entries. -/
  | doorbellReamHead (v : BitVec 64)
  /-- BAR2_BAD_WRITE (R460): A BAR2 write that is not an aligned doorbell QW is discarded and counted. -/
  | bar2BadWrite
  /-- BAR4_READ (R462): A host read of the GDDR6 window is served in DMA slots or answered with UR or CA. -/
  | bar4Read (addr : BitVec 37) (len : Nat)
  /-- BAR4_WRITE (R463): A host write of the GDDR6 window is performed in DMA slots or discarded. -/
  | bar4Write (addr : BitVec 37) (data : List Byte) (poisoned : Bool)
  /-- MSIX_UNMASK (R466): Clearing a vector mask with its pending bit set sends one message. -/
  | msixUnmask (v : Fin 4096)
  /-- COMPLETION_TIMEOUT (R467): A host read without completion ends its DMA work with an error. -/
  | completionTimeout (e : HostReadEnd)
  /-- DOE_REQUEST (R470): A data object in the DOE mailbox is answered. -/
  | doeRequest (object : List Byte)
  /-- DOE_ABORT (R470): DOE Abort discards the request held in the mailbox. -/
  | doeAbort
  /-- GET_VERSION (R668): The SPDM responder returns its supported versions. -/
  | getVersion (q : SpdmReq)
  /-- GET_CAPABILITIES (R668): The SPDM responder returns its capabilities. -/
  | getCapabilities (q : SpdmReq)
  /-- NEGOTIATE_ALGORITHMS (R668): The SPDM responder selects Ed25519 and SHA-512. -/
  | negotiateAlgorithms (q : SpdmReq)
  /-- GET_DIGESTS (R668): The SPDM responder returns certificate chain digests. -/
  | getDigests (q : SpdmReq)
  /-- GET_CERTIFICATE (R668): The SPDM responder returns part of the certificate chain. -/
  | getCertificate (q : SpdmReq)
  /-- CHALLENGE (R668): The SPDM responder signs a challenge with the Alias key. -/
  | challenge (q : SpdmReq)
  /-- GET_MEASUREMENTS (R669): The SPDM responder returns signed measurement blocks. -/
  | getMeasurements (q : SpdmReq)
  /-- PERST (R475): PERST_N asserted resets the host link and the function. -/
  | perst (low : Bool)
  /-- HOT_RESET (R475): A Hot Reset or DL_Down resets the function. -/
  | hotReset (down : Bool)
  /-- FUNCTION_LEVEL_RESET (R473): An FLR resets configuration, MSI-X and ring pairs and keeps the fabric's state. -/
  | functionLevelReset
  /-- D3HOT_ENTRY (R472): Entering D3hot stops all requests to the host while the fabric runs on. -/
  | d3hotEntry
  /-- RING_ENABLE (R478): Setting RNG.CFG.ENABLE resets the indices and makes the ring pair ACTIVE. -/
  | ringEnable (r : Fin 4096) (v : Word)
  /-- RING_DISABLE (R479): Clearing RNG.CFG.ENABLE stops taking descriptors and enters DRAINING. -/
  | ringDisable (r : Fin 4096) (v : Word)
  /-- RING_DRAINED (R479): A draining ring pair enters OFF when its taken work has ended. -/
  | ringDrained (r : Fin 4096)
  /-- EVENT_RING_ENABLE (R492): Setting RGC.EVT_CFG.ENABLE resets the event ring tail and phase. -/
  | eventRingEnable (v : Word)
  /-- REAM_RING_ENABLE (R492): Setting RGC.REAM_CFG.ENABLE resets the ream ring tail and phase. -/
  | reamRingEnable (v : Word)
  /-- DESCRIPTOR_TAKE (R484): A descriptor is taken from a submission ring when its executor has room. -/
  | descriptorTake (r : Fin 4096)
  /-- RUN_SHEET (R499): RUN_SHEET with MODE 0 delivers or restores configuration and starts a sheet of the image. -/
  | runSheet
  /-- DRAIN_SHEET (R500): RUN_SHEET with MODE 1 drains the image and clears aborted clusters. -/
  | drainSheet
  /-- DMA_COPY (R511): A plain DMA copy moves bytes in ascending address in DMA slots. -/
  | dmaCopy (ch : Fin 32)
  /-- DMA_COPY_COMPLETE (R513): A copy completes when its last write has left the channel. -/
  | dmaCopyComplete (ch : Fin 32)
  /-- PACED_COPY (R518): A paced copy moves queue entries on the queue's fill level with hysteresis. -/
  | pacedCopy (ch : Fin 32)
  /-- PACED_POLL (R518): An idle paced copy reads the queue header once per frame and may become active. -/
  | pacedPoll (ch : Fin 32)
  /-- TIME_ACTION_ARM (R506): TIME_ACTION KIND 0 arms a timed-start unit. -/
  | timeActionArm
  /-- TIME_ACTION_DISARM (R326): TIME_ACTION KIND 1 disarms a timed-start unit. -/
  | timeActionDisarm
  /-- TIME_ACTION_PPS (R329): TIME_ACTION KIND 2 programs a PPS_OUT pin. -/
  | timeActionPps
  /-- SEAL (R516): SEAL waits for prior work, makes its writes visible, writes its flag and completes. -/
  | seal (r : Fin 4096)
  /-- FENCE (R487): FENCE completes once every earlier descriptor of the ring has completed. -/
  | fence (r : Fin 4096)
  /-- CLAIM_REGION (R738): A region CLAIM places and records a GDDR6 region for the ring pair. -/
  | claimRegion
  /-- CLAIM_RESOURCE (R509): A CLAIM of a unit, pin, TRIG or GPIO line records its holder. -/
  | claimResource
  /-- RELEASE_RESOURCE (R510): RELEASE of a region, unit, pin or line frees it with its side effects. -/
  | releaseResource
  /-- RELEASE_IMAGE (R510): RELEASE of an image drains it and frees its clusters, regions and pipelines. -/
  | releaseImage
  /-- RELEASE_ADMISSION (R510): RELEASE of an admission moves the stream on and frees its buffer. -/
  | releaseAdmission
  /-- COMPLETION_WRITE (R489): A completion entry is written when its ring has room, then the tail advances. -/
  | completionWrite (r : Fin 4096)
  /-- XOMOS_PACKET_RX (R535): A received packet is accepted in SEQ order or discarded with a NAK. -/
  | xomosPacketRx (p : Fin 8) (k : XPkt)
  /-- XOMOS_ACK (R537): An ACK releases the held packets it covers. -/
  | xomosAck (p : Fin 8) (cls : BitVec 4) (seq : BitVec 12)
  /-- XOMOS_NAK (R537): A NAK makes the transmitter resend from the expected packet. -/
  | xomosNak (p : Fin 8) (cls : BitVec 4) (seq : BitVec 12)
  /-- ACK_TIMER (R536): A receiver holding unacknowledged packets sends ACK at least every 1 us. -/
  | ackTimer (p : Fin 8) (cls : BitVec 4)
  /-- RESEND_TIMEOUT (R537): No ACK within 4 us makes the transmitter resend from its oldest packet. -/
  | resendTimeout (p : Fin 8) (cls : BitVec 4)
  /-- ACK_PROGRESS_TIMEOUT (R538): 100 us without ACK progress fails the port. -/
  | ackProgressTimeout (p : Fin 8)
  /-- LINK (R541): A LINK block of higher LSV updates the link map and is forwarded. -/
  | linkBlock (p : Fin 8) (rank : BitVec 15) (active : BitVec 8) (lsv : BitVec 8)
  /-- ROUTE_INSTALL (R540): New routing tables are installed from the link map. -/
  | routeInstall
  /-- XOMOS_TRIGGER_PACKET (R544): A flooded trigger message is delivered once and forwarded, or discarded as duplicate or stale. -/
  | xomosTriggerPacket (p : Fin 8) (m : BitVec 256) (hops : BitVec 6)
  /-- TSYNC_REQUEST_TIMER (R547): At every frame multiple of 65,536 the device sends TSYNC requests on its active ports. -/
  | tsyncRequestTimer
  /-- TSYNC (R547): A TSYNC stage is answered or completes a link delay and offset measurement. -/
  | tsync (p : Fin 8) (m : TsyncMsg)
  /-- CALIGN (R567): A CALIGN is forwarded and arms the calender alignment, or gives the frame offset. -/
  | calign (p : Fin 8) (m : CalignMsg)
  /-- DISC (R561): A DISC records the neighbour's identity or marks the link MISWIRED. -/
  | disc (p : Fin 8) (devid : BitVec 32) (port : BitVec 4) (version : BitVec 4)
  /-- COORD (R563): An accepted COORD sets the coordinate and parent and is flooded on. -/
  | coord (p : Fin 8) (m : CoordMsg)
  /-- CONFIRM (R565): A CONFIRM from a child adds its count towards the device's own CONFIRM. -/
  | confirm (p : Fin 8) (origin : BitVec 32) (epoch : BitVec 8) (count : BitVec 15)
  /-- GO (R566): GO makes each device flood its LINK block and install tables. -/
  | go (p : Fin 8) (origin : BitVec 32) (epoch : BitVec 8) (count : BitVec 15)
  /-- XMS_START (R562): A write of XMS.SYSCFG.START designates the origin's system start. -/
  | xmsStart (v : Word)
  /-- XMS_LOCK (R696): Setting XMS.SYSCFG.LOCK locks the RWL fields of XMS until reset. -/
  | xmsLock
  /-- ORIGIN_FLOOD (R562): When all ports settle or 50 ms pass, the origin starts the COORD flood. -/
  | originFlood
  /-- SYSTEM_READY (R568): 2 s after alignment with BIST complete the device enters READY. -/
  | systemReady
  /-- COLL_REQUEST (R553): The collective engine takes a request from region 15 and performs it. -/
  | collRequest (h : BitVec 16) (peers : List CollPeer)
  /-- COLL_TIMEOUT (R554): A member absent past CTIMEOUT ends the request with TIMEOUT. -/
  | collTimeout (h : BitVec 16)
  /-- MEMBER_LOST (R559): A member leaving or unreachable ends open requests with MEMBER_LOST. -/
  | memberLost (rank : BitVec 15)
  /-- COLL_REPLAY (R560): Every device of the image aborts and replays the sheet after a cross-device fault. -/
  | collReplay (h : BitVec 16)
  /-- BUCKET_LEAK (R591): At each LEAK period a bucket level falls by 1. -/
  | bucketLeak (k : Fin 5)
  /-- CLUSTER_FENCE (R594): An uncorrectable cluster error stops and fences the cluster. -/
  | clusterFence (c : ClusterId) (cause : Fin 9) (t : TileId)
  /-- SPARE_BIST_COMPLETE (R595): A spare cluster passes BIST and enters service. -/
  | spareBistComplete (c : ClusterId) (pass : Bool)
  /-- FUSE_BURN (R596): A repair is burned into a repair-fuse entry. -/
  | fuseBurn
  /-- CLUSTER_MOVE (R602): A cluster whose bucket crossed is moved to a spare at the next idle point. -/
  | clusterMove (c : ClusterId)
  /-- CHECKPOINT (R606): An active service core writes its checkpoint at least once per 1 ms. -/
  | checkpoint (role : Fin 2)
  /-- CORE_WATCHDOG (R606): A service core watchdog expires after 10 ms. -/
  | coreWatchdog (core : Fin 3)
  /-- DEVICE_FATAL (R611): A device-fatal error stops the fabric and puts the device in FATAL_HALT. -/
  | deviceFatal (cause : Fin 6)
  /-- TRIM_ENTER (R623): Writing PWR.CTRL.TRIM 1 gates unowned in-service clusters. -/
  | trimEnter
  /-- TRIM_EXIT (R623): Writing PWR.CTRL.TRIM 0 ungates every gated cluster. -/
  | trimExit
  /-- PWR_CAP_WRITE (R625): A write of PWR.CAP.WATTS sets the cap, clamped to 600-1,750 W. -/
  | pwrCapWrite (v : Word)
  /-- THROTTLE_UPDATE (R626): Every 10 us the throttle level rises or falls with package power. -/
  | throttleUpdate (watts : BitVec 12) (below : Bool) (temps : Vector (BitVec 8) 25)
  /-- THERMAL_EMERGENCY_START (R630): A junction above 95 C stops clusters and halts pipelines. -/
  | thermalEmergencyStart (die : Fin 25) (tj : BitVec 8)
  /-- THERMAL_EMERGENCY_END (R630): All dies below 92 C for 10 ms end the emergency. -/
  | thermalEmergencyEnd (temps : List (Fin 25 × BitVec 8))
  /-- THERMTRIP (R630): At 105 C the device asserts THERMTRIP_N and goes to Off. -/
  | thermtrip (die : Fin 25) (tj : BitVec 8)
  /-- WATCH (R638): A write of PWR.CTRL.WATCH enters Watch or is refused with a cause. -/
  | watch
  /-- DANDY_WINDOW_START (R634): A schedule tick ungates the dandy and starts a window. -/
  | dandyWindowStart
  /-- DANDY_FRAME (R635): A frame of the watched SID is delivered into the dandy's ingress tile. -/
  | dandyFrame (f : StockFrame)
  /-- DANDY_DECISION (R637): After the drain the decision is popped, scored and the cluster gated. -/
  | dandyDecision
  /-- WAKE (R641): An enabled wake source brings the device out of Watch. -/
  | wake (bit : Fin 8)
  /-- GPIO_WRITE (R644): A write of PWR.GPIOn takes effect only when the line is claimed and FUNC may change. -/
  | gpioWrite (n : Fin 16) (v : Word)
  /-- GPIO_PULSE (R646): A TARGET 6 firing drives a GPIO pulse or merges it. -/
  | gpioPulse (n : Fin 16)
  /-- UPDATE_GO (R659): A write of SEC.UCTRL.GO verifies and stages a firmware set. -/
  | updateGo
  /-- IDENTITY (R665): SMBus IDENTITY returns the device identity and state. -/
  | identity
  /-- CERT (R665): SMBus CERT returns part of the certificate chain. -/
  | cert (off : BitVec 32)
  /-- DEAD_REPORT (R667): SMBus DEAD_REPORT returns a signed report of the start failure. -/
  | deadReport (nonce : BitVec 256)
  /-- REAM_READ (R665): SMBus REAM_READ returns part of the retained ream. -/
  | reamRead (off : BitVec 32)
  /-- SMBUS_WAKE (R640): SMBus WAKE is an edge wake source in Watch. -/
  | smbusWake
  /-- RESET_RELEASE (R671): Reset release starts bring-up with the ROM stage. -/
  | resetRelease
  /-- RESET_ASSERT (R674): RESET_N asserted restarts bring-up from the first stage. -/
  | resetAssert
  /-- PWRGOOD_FALL (R674): PWRGOOD falling takes the device to Off. -/
  | pwrgoodFall
  /-- PCIE_OUT_OF_RESET (R676): The PCI Express controller leaves reset 2-5 ms after reset release. -/
  | pcieOutOfReset
  /-- ROOT_FW_REPORT (R675): The root firmware reports its start and releases the edge dies. -/
  | rootFwReport (ms : BitVec 16)
  /-- ROOT_FW_TIMEOUT (R663): No root firmware report within 250 ms sends the device to Dead. -/
  | rootFwTimeout
  /-- EDGE_REPORT (R675): An edge die reports and completes memory zeroing. -/
  | edgeReport (e : Fin 4) (bistFail : BitVec 12)
  /-- EDGE_TIMEOUT (R663): No edge firmware report within 400 ms sends the device to Dead. -/
  | edgeTimeout (e : Fin 4)
  /-- COMPUTE_BIST_DONE (R678): A compute die completes PLL lock, repairs, BIST and channel training. -/
  | computeBistDone (k : Fin 20) (fail : BitVec 44) (pllFail : Fin 3)
  /-- COMPUTE_TIMEOUT (R678): A compute die not done within 400 ms has every cluster fenced. -/
  | computeTimeout (k : Fin 20)
  /-- DEVICE_READY (R680): When all stages are done the device becomes READY and starts taking work. -/
  | deviceReady (ms : BitVec 16)
  /-- SOFTWARE_RESET (R687): A write of BRU.SWRST with the key causes a device reset. -/
  | softwareReset (v : Word)
  /-- MC_PLL_LOSS (R604): Loss of an edge die's MC PLL, which has no spare, withdraws the quarter and takes the die's stock groups and Xomos ports out of ACTIVE. -/
  | mcPllLoss (e : Fin 4)
  /-- CORRECTED_SRAM_ERROR (R592): A corrected tile SRAM or product-table bit adds to the cluster's bucket and may request a move. -/
  | correctedSramError (c : ClusterId)
  /-- SERVICE_CORE_ERROR (R607): A corrected bit adds to the service core's bucket, and an uncorrectable error in an active core starts the spare's take-over. -/
  | serviceCoreError (core : Fin 3) (corrected : Bool)
  /-- INVALID_HEADER (R592): An invalid header or code error on an ACTIVE lane is counted and adds to the lane's bucket, which may start a SPARE request. -/
  | invalidHeader (g : Fin 26) (l : Fin 18) (u : LaneUnit)
  /-- D0_ENTRY (R472): A return of the function from D3hot to D0 resumes requests to the host with configuration kept. -/
  | d0Entry
  /-- DANDY_LOAD (R633): A change of DND.SRC or of the dandy image in Run reloads the image into the dandy and resets its sheet count. -/
  | dandyLoad
  /-- TBS_CTRL_WRITE (R314): A write of TBS.CTRL that clears a source's SRC_EN bit removes its qualification and may change the active source or enter HOLDOVER. -/
  | tbsCtrlWrite (v : Word)
  /-- WCNT_LO_READ (R693): A read of HBX.WCNT_LO captures HBX.WCNT_HI for the next read of the pair. -/
  | wcntLoRead (sid : Fin 1024)
  /-- BAR0_BAD_READ (R459): A BAR0 read that is not one aligned DW with all byte enables is completed with Unsupported Request and counted in PCX.HACC.BAR0_BAD. -/
  | bar0BadRead
  /-- SUPPLY_WITHIN_LIMITS (R711): The power manager's monitor finding a rail within limits drives the next enable output, PWR_EN_SOC after VDD_AO and PWR_EN_ARITH after VDD_SOC, and anchors the Watch-exit start. -/
  | supplyWithinLimits (rail : Fin 4)
  deriving DecidableEq, Repr

end Sys2Proof
end

