-- ==== Sys2Proof/Decode.lean ====
section
/-!
DEFINITION. The command a table word spells. No row of spec/opcode_table.json gives bits: commands reach the block as
events, register writes, descriptors and messages, each in its own format, so no word spells one.
-/
namespace Sys2Proof

/-- The command that the low `nbits` bits `w` of a table word spell: none, since no row has bits. -/
def decodeTableWord (_nbits _w : Nat) : Option Instr := none

end Sys2Proof
end

