-- ==== Sys2Proof/Machine/Crypto.lean ====
section
/-!
DEFINITION. SHA-512, CRC-32 and Ed25519 (R204, R348, R614, R649, R664), on lists of bytes.
-/
namespace Sys2Proof.Machine

/-- A 64-bit word of SHA-512. -/
abbrev W64 := BitVec 64

/-- The fractions of the cube roots of the first 80 primes, 64 bits each, eight to a number, the first highest. -/
def shaRoots : List Nat :=
  [0x428a2f98d728ae227137449123ef65cdb5c0fbcfec4d3b2fe9b5dba58189dbbc3956c25bf348b53859f111f1b605d019923f82a4af194f9bab1c5ed5da6d8118,
   0xd807aa98a303024212835b0145706fbe243185be4ee4b28c550c7dc3d5ffb4e272be5d74f27b896f80deb1fe3b1696b19bdc06a725c71235c19bf174cf692694,
   0xe49b69c19ef14ad2efbe4786384f25e30fc19dc68b8cd5b5240ca1cc77ac9c652de92c6f592b02754a7484aa6ea6e4835cb0a9dcbd41fbd476f988da831153b5,
   0x983e5152ee66dfaba831c66d2db43210b00327c898fb213fbf597fc7beef0ee4c6e00bf33da88fc2d5a79147930aa72506ca6351e003826f142929670a0e6e70,
   0x27b70a8546d22ffc2e1b21385c26c9264d2c6dfc5ac42aed53380d139d95b3df650a73548baf63de766a0abb3c77b2a881c2c92e47edaee692722c851482353b,
   0xa2bfe8a14cf10364a81a664bbc423001c24b8b70d0f89791c76c51a30654be30d192e819d6ef5218d69906245565a910f40e35855771202a106aa07032bbd1b8,
   0x19a4c116b8d2d0c81e376c085141ab532748774cdf8eeb9934b0bcb5e19b48a8391c0cb3c5c95a634ed8aa4ae3418acb5b9cca4f7763e373682e6ff3d6b2b8a3,
   0x748f82ee5defb2fc78a5636f43172f6084c87814a1f0ab728cc702081a6439ec90befffa23631e28a4506cebde82bde9bef9a3f7b2c67915c67178f2e372532b,
   0xca273eceea26619cd186b8c721c0c207eada7dd6cde0eb1ef57d4f7fee6ed17806f067aa72176fba0a637dc5a2c898a6113f9804bef90dae1b710b35131c471b,
   0x28db77f523047d8432caab7b40c724933c9ebe0a15c9bebc431d67c49c100d4c4cc5d4becb3e42b6597f299cfc657e2a5fcb6fab3ad6faec6c44198c4a475817]

/-- The fractions of the square roots of the first eight primes, likewise. -/
def shaSeed : Nat :=
  0x6a09e667f3bcc908bb67ae8584caa73b3c6ef372fe94f82ba54ff53a5f1d36f1510e527fade682d19b05688c2b3e6c1f1f83d9abfb41bd6b5be0cd19137e2179

/-- The eight words of a number, the highest first. -/
def shaWords (n : Nat) : List W64 := (List.range 8).map fun k => BitVec.ofNat 64 (n >>> (448 - 64 * k))

/-- The big-endian number held by a list of bytes. -/
def beNat (l : List Byte) : Nat := l.foldl (fun n b => 256 * n + b.toNat) 0

/-- The `n` big-endian bytes of a number. -/
def natBe (n x : Nat) : List Byte := (natLe n x).reverse

/-- The message padded to whole blocks of 128 B. -/
def shaPad (m : List Byte) : List Byte :=
  m ++ [0x80#8] ++ List.replicate ((239 - m.length % 128) % 128) 0 ++ natBe 16 (8 * m.length)

/-- A word turned right by three amounts, the results added bit by bit. -/
def turned (p q r : Nat) (x : W64) : W64 := x.rotateRight p ^^^ x.rotateRight q ^^^ x.rotateRight r

/-- A word turned right by two amounts and shifted by a third, the results added bit by bit. -/
def turnedShifted (p q r : Nat) (x : W64) : W64 := x.rotateRight p ^^^ x.rotateRight q ^^^ (x >>> r)

/-- The bits of `y` where `x` is 1 and of `z` where it is 0. -/
def pickBits (x y z : W64) : W64 := z ^^^ (x &&& (y ^^^ z))

/-- The bits that at least two of three words have. -/
def mostBits (x y z : W64) : W64 := (x &&& y) ||| (z &&& (x ||| y))

/-- The eight working variables, in their two halves. -/
structure ShaVars where
  hi : W64 × W64 × W64 × W64
  lo : W64 × W64 × W64 × W64

/-- One round, with the sum of its constant and its schedule word. -/
def ShaVars.round (v : ShaVars) (kw : W64) : ShaVars :=
  match v.hi, v.lo with
  | (p, q, r, s), (t, u, x, y) =>
    let n := y + kw + turned 14 18 41 t + pickBits t u x
    ⟨(n + turned 28 34 39 p + mostBits p q r, p, q, r), (s + n, t, u, x)⟩

/-- The schedule moved on by one word: sixteen words, oldest first. -/
def shaSlide (w : List W64) : List W64 :=
  w.tail ++ [w.getD 0 0 + turnedShifted 1 8 7 (w.getD 1 0) + w.getD 9 0 + turnedShifted 19 61 6 (w.getD 14 0)]

/-- The rounds of a block, one for each constant. -/
def shaRun (ks : List W64) (w : List W64) (v : ShaVars) : ShaVars :=
  match ks with
  | [] => v
  | k :: rest => shaRun rest (shaSlide w) (v.round (k + w.headD 0))

/-- The working variables that a hash value gives. -/
def shaLoad (h : List W64) : ShaVars :=
  ⟨(h.getD 0 0, h.getD 1 0, h.getD 2 0, h.getD 3 0), (h.getD 4 0, h.getD 5 0, h.getD 6 0, h.getD 7 0)⟩

/-- The working variables as a list. -/
def ShaVars.words (v : ShaVars) : List W64 :=
  [v.hi.1, v.hi.2.1, v.hi.2.2.1, v.hi.2.2.2, v.lo.1, v.lo.2.1, v.lo.2.2.1, v.lo.2.2.2]

/-- One block of 128 B into the hash value. -/
def shaBlock (h : List W64) (b : List Byte) : List W64 :=
  let w := (List.range 16).map fun k => BitVec.ofNat 64 (beNat ((b.drop (8 * k)).take 8))
  List.zipWith (· + ·) h (shaRun (shaRoots.flatMap shaWords) w (shaLoad h)).words

/-- SHA-512 as 64 bytes. -/
def sha512 (m : List Byte) : List Byte :=
  let p := shaPad m
  let h := (List.range (p.length / 128)).foldl (fun h k => shaBlock h ((p.drop (128 * k)).take 128)) (shaWords shaSeed)
  h.flatMap fun w => natBe 8 w.toNat

/-- One bit of CRC-32, reflected. -/
def crcBit (c : BitVec 32) : BitVec 32 := if c.getLsbD 0 then (c >>> 1) ^^^ 0xEDB88320 else c >>> 1

/-- One byte of CRC-32. -/
def crcByte (c : BitVec 32) (b : Byte) : BitVec 32 :=
  (List.range 8).foldl (fun c _ => crcBit c) (c ^^^ b.setWidth 32)

/-- CRC-32 of R348: the IEEE 802.3 polynomial, reflected, with initial value and final inversion of all ones. -/
def crc32 (m : List Byte) : BitVec 32 := ~~~(m.foldl crcByte 0xFFFFFFFF)

/-! ## Ed25519 -/

/-- The field prime 2^255 − 19. -/
def edP : Nat := 2 ^ 255 - 19

/-- The order of the base point. -/
def edL : Nat := 2 ^ 252 + 27742317777372353535851937790883648493

/-- `x ^ e` modulo `m` over the low `n` bits of `e`. -/
def powMod (m x : Nat) : Nat → Nat → Nat
  | 0, _ => 1 % m
  | n + 1, e =>
    let h := powMod m (x * x % m) n (e / 2)
    if e % 2 = 1 then x * h % m else h

/-- The inverse in the field. -/
def edInv (x : Nat) : Nat := powMod edP x 256 (edP - 2)

/-- The curve constant d = −121665 ÷ 121666. -/
def edD : Nat := (edP - 121665) * edInv 121666 % edP

/-- A square root of −1. -/
def edI : Nat := powMod edP 2 256 ((edP - 1) / 4)

/-- A curve point in extended coordinates X, Y, Z, T. -/
structure EdPoint where
  x : Nat := 0
  y : Nat := 1
  z : Nat := 1
  t : Nat := 0
  deriving DecidableEq, Repr

/-- Point addition. -/
def EdPoint.add (p q : EdPoint) : EdPoint :=
  let a := (p.y + edP - p.x) * (q.y + edP - q.x) % edP
  let b := (p.y + p.x) * (q.y + q.x) % edP
  let c := 2 * p.t * q.t % edP * edD % edP
  let d := 2 * p.z * q.z % edP
  let e := b + edP - a
  let f := d + edP - c
  let g := d + c
  let h := b + a
  { x := e * f % edP, y := g * h % edP, z := f * g % edP, t := e * h % edP }

/-- Scalar multiplication over the low `n` bits of the scalar. -/
def EdPoint.mul (p : EdPoint) : Nat → Nat → EdPoint
  | 0, _ => {}
  | n + 1, k =>
    let h := (p.add p).mul n (k / 2)
    if k % 2 = 1 then p.add h else h

/-- The x coordinate of a point with a given y and sign, where there is one. -/
def edRecover (y sign : Nat) : Option Nat :=
  let u := (y * y + edP - 1) % edP
  let v := (edD * (y * y % edP) + 1) % edP
  let x2 := u * edInv v % edP
  let r := powMod edP x2 256 ((edP + 3) / 8)
  let x := if r * r % edP = x2 then r else r * edI % edP
  if x * x % edP ≠ x2 ∨ (x = 0 ∧ sign = 1) ∨ y ≥ edP then none
  else some (if x % 2 = sign then x else (edP - x) % edP)

/-- A point from its 32-byte encoding. -/
def edDecode (b : List Byte) : Option EdPoint :=
  let n := leNat (b.take 32)
  let y := n % 2 ^ 255
  (edRecover y (n / 2 ^ 255)).map fun x => { x, y, z := 1, t := x * y % edP }

/-- The 32-byte encoding of a point. -/
def EdPoint.encode (p : EdPoint) : List Byte :=
  let i := edInv p.z
  natLe 32 (p.y * i % edP + p.x * i % edP % 2 * 2 ^ 255)

/-- The base point: y = 4 ÷ 5, even x. -/
def edBase : EdPoint :=
  let y := 4 * edInv 5 % edP
  let x := (edRecover y 0).getD 0
  { x, y, z := 1, t := x * y % edP }

/-- The secret scalar and the prefix of a 32-byte seed. -/
def edExpand (seed : List Byte) : Nat × List Byte :=
  let h := sha512 seed
  let a := leNat (h.take 32)
  (a % 2 ^ 254 / 8 * 8 + 2 ^ 254, h.drop 32)

/-- The public key of a seed. -/
def edPublic (seed : List Byte) : List Byte := (edBase.mul 256 (edExpand seed).1).encode

/-- The 64-byte signature of a message under a seed. -/
def edSign (seed m : List Byte) : List Byte :=
  let k := edExpand seed
  let r := leNat (sha512 (k.2 ++ m)) % edL
  let rb := (edBase.mul 256 r).encode
  let h := leNat (sha512 (rb ++ edPublic seed ++ m)) % edL
  rb ++ natLe 32 ((r + h * k.1) % edL)

/-- Whether a signature of a message verifies under a public key. -/
def edVerify (pub m sig : List Byte) : Bool :=
  match edDecode pub, edDecode (sig.take 32) with
  | some a, some r =>
    let v := leNat (sig.drop 32)
    let h := leNat (sha512 (sig.take 32 ++ pub.take 32 ++ m)) % edL
    decide (sig.length = 64) && decide (pub.length = 32) && decide (v < edL) &&
      (edBase.mul 256 v).encode == (r.add (a.mul 256 h)).encode
  | _, _ => false

end Sys2Proof.Machine
end

