-- ==== Sys2Proof/Config.lean ====
section
/-!
DEFINITION. The free values: constants with no body, one for each value the spec leaves open. Each is named in a log
entry; nothing can be proved of what they are.
-/
namespace Sys2Proof.Config

/-- Which of the values within the bound of R175 an F32 special function gives, by opcode and input bits (log
entry 20). -/
opaque sfuPick (opc bits : Nat) : Nat

/-- The CLC.SROUND bits of a virtual cluster of an image, by the image's SEED and the virtual index (log entry 21). -/
opaque sround (seed vidx : Nat) : BitVec 64

/-- A byte the spec leaves open, by the count of free values taken and its position (log entry 2). -/
opaque freeByte (n pos : Nat) : Byte

/-- A number the spec leaves open, by the count of free values taken (log entry 2). -/
opaque freeNat (n : Nat) : Nat

/-- The crossing fraction of R381 where a sample or the level is infinite, by their binary64 encodings (log entry 2). -/
opaque crossing (prev cur lvl : Nat) : Nat

/-- The check code with which a load completes that a fault of a class ended, by the outcome (R226, log entry 88). -/
opaque loadCheck (outcome : Nat) : BitVec 8

/-- T0 (field 0) of a record without samples and TIDX (field 1) of one whose start was raised past n_t, by its start, n_t and TPOINT
(R415, log entry 2). -/
opaque recordField (field lo nt tpoint : Nat) : Nat

/-- The certificate chain of slot 0, by DeviceID seed and Alias key, as bytes by position; and its length (log
entry 22). -/
opaque certByte (seed alias_ pos : Nat) : Byte

/-- The length of the certificate chain (log entry 22). -/
opaque certLength (seed alias_ : Nat) : Nat

/-- SHA-512 of the ROM (R669, log entry 22). -/
opaque romDigest : BitVec 512

/-- The contents of the root die SRAM, staging SRAM, checkpoints and stacks that a ream copies, by section type,
instance and position (R616, log entry 23). -/
opaque reamByte (type instance_ pos : Nat) : Byte

/-- The bytes of a section of a ream whose layout the spec does not give, of type 7 or 10, by what the device holds for it and the position
(R616, log entry 23). -/
opaque reamLayout (type : Nat) (held : List Nat) (pos : Nat) : Byte

/-- Whether the mesh path between two dies of the array, numbered 5 × row + column, runs along the row first (log entry 42). -/
opaque meshRowFirst (src dst : Nat) : Bool

/-- The digest of the Plovien root certificate, at the head of the SPDM certificate chain (log entry 22). -/
opaque rootDigest : BitVec 512

/-- Which 2 groups of a bridge direction are its reserve groups (R21, log entry 77). -/
opaque reserveGroup (key : Nat) : Nat

/-- The 4 check bytes of a Reed–Solomon codeword, whose generator the spec does not give, by its data bytes (R245, log entry 91). -/
opaque checkBytes (data : List Byte) : Nat

/-- A field of a part of a firmware set whose layout the spec does not give, by part type and field (R656, log entry 58). -/
opaque partField (type field : Nat) (part : List Byte) : Nat

/-- Which instruction of the test access port an opcode names: 0 IDCODE, 1 a scan of the boundary register, 2 debug, another BYPASS (R719,
log entry 96). -/
opaque tapOpcode (bits : List Bool) : Nat

/-- The bits of the port's instruction register past its first two (log entry 96). -/
opaque tapLength : Nat

/-- The cells of the boundary register past its first (log entry 96). -/
opaque boundaryLength : Nat

/-- CTExponent of the SPDM responder (log entry 59). -/
opaque spdmTime : Byte

/-- The transfer size that the SPDM responder states (log entry 59). -/
opaque spdmSize : BitVec 32

/-- The header and prefix logs of AER for an error of a kind at a time (R467). -/
opaque tlpLog (kind time : Nat) : BitVec 256

/-- What margining of a lane answers to a command (R451). -/
opaque marginStatus (lane command : Nat) : BitVec 16

end Sys2Proof.Config
end

