-- ==== Sys2Proof/Machine/SMap.lean ====
section
/-!
DEFINITION. Sparse maps: association lists by a natural-number key. Every write keeps the keys rising and lists no entry equal to
what an unlisted key reads as; for the byte memories the lemmas under Laws show that every step keeps this form.
-/
namespace Sys2Proof.Machine

/-- A sparse map from numbers, in canonical form relative to a default. -/
abbrev SMap (β : Type) := List (Nat × β)

/-- Byte memory: address and byte pairs (R242, R458). -/
abbrev Mem := List Host.Cell

/-! ## Sorting -/

/-- Puts `a` before the first element that it may precede. -/
def insertBy {α : Type} (le : α → α → Bool) (a : α) : List α → List α
  | [] => [a]
  | b :: l => if le a b then a :: b :: l else b :: insertBy le a l

/-- A list in the order of `le`; elements equal in it keep their places. -/
def sortBy {α : Type} (l : List α) (le : α → α → Bool) : List α := l.foldr (insertBy le) []

/-- What a key reads as: its listed value, else the default `d`. -/
def SMap.get {β : Type} (d : β) : SMap β → Nat → β
  | [], _ => d
  | (k, v) :: m, i => if k = i then v else SMap.get d m i

/-- The map without key `i`. -/
def SMap.erase {β : Type} : SMap β → Nat → SMap β
  | [], _ => []
  | (k, v) :: m, i => if k = i then SMap.erase m i else (k, v) :: SMap.erase m i

/-- Puts `v` at key `i`, keeping the keys rising. -/
def SMap.insert {β : Type} : SMap β → Nat → β → SMap β
  | [], i, v => [(i, v)]
  | (k, w) :: m, i, v =>
    if i < k then (i, v) :: (k, w) :: m
    else if i = k then (i, v) :: m
    else (k, w) :: SMap.insert m i v

/-- Writes `v` at key `i`; writing the default removes the entry. -/
def SMap.set {β : Type} [DecidableEq β] (d : β) (m : SMap β) (i : Nat) (v : β) : SMap β :=
  if v = d then m.erase i else m.insert i v

/-- Applies `f` to the value at key `i`. -/
def SMap.modify {β : Type} [DecidableEq β] (d : β) (m : SMap β) (i : Nat) (f : β → β) : SMap β :=
  m.set d i (f (m.get d i))

/-- The canonical form: keys strictly rising, no entry equal to the default. -/
def SMap.wf {β : Type} [DecidableEq β] (d : β) (m : SMap β) : Bool :=
  match m with
  | [] => true
  | (_, v) :: [] => decide (v ≠ d)
  | (k, v) :: (k', v') :: m' => decide (k < k') && decide (v ≠ d) && SMap.wf d ((k', v') :: m')

/-- What an unlisted byte of a memory that resets to zeros reads as. -/
def Mem.zero : Byte := 0

/-- The canonical form of a byte memory whose unlisted bytes read as `d`. -/
def Mem.wf (d : Byte) (m : Mem) : Bool := SMap.wf d m

/-- Reads one byte of a memory whose unlisted bytes read as zero. -/
def Mem.read (m : Mem) (a : Nat) : Byte := SMap.get Mem.zero m a

/-- Writes one byte of a memory whose unlisted bytes read as zero. -/
def Mem.write (m : Mem) (a : Nat) (b : Byte) : Mem := SMap.set Mem.zero m a b

/-- Reads `n` bytes upward from `a`. -/
def Mem.readBytes (m : Mem) (a : Nat) : Nat → List Byte
  | 0 => []
  | n + 1 => m.read a :: m.readBytes (a + 1) n

/-- Writes a list of bytes upward from `a`. -/
def Mem.writeBytes (m : Mem) (a : Nat) : List Byte → Mem
  | [] => m
  | b :: bs => (m.write a b).writeBytes (a + 1) bs

/-- Reads the `n`-byte little-endian number at `a`. -/
def Mem.readLe (m : Mem) (a n : Nat) : Nat := leNat (m.readBytes a n)

/-- Writes an `n`-byte little-endian number at `a`. -/
def Mem.writeLe (m : Mem) (a n x : Nat) : Mem := m.writeBytes a (natLe n x)

end Sys2Proof.Machine
end

