-- ==== Sys2Proof/Machine/StFabric.lean ====
section
/-!
DEFINITION. State of the compute fabric: tiles, clusters, cluster links (spec 02, 03, 04, 05, 06).
-/
namespace Sys2Proof.Machine

/-- The mode of a tile (R46, CLC.TMODE). -/
inductive TileMode where
  | unconfigured | uniform | multiplier | special | memory | io
  deriving DecidableEq, Repr

/-- The state of a cluster (R96). -/
inductive CState where
  | off | idle | config | run | drain | drained | aborted
  deriving DecidableEq, Repr

/-- Why a cluster is or is not in service (CLC.ID.SERVICE). -/
inductive Service where
  | inService | spare | fenced
  deriving DecidableEq, Repr

/-- One codebook slot (R135). The defaults are the contents after reset and at each sheet start. -/
structure Codebook where
  wide : Bool := false
  zero : BitVec 8 := 0xFF
  vals : SMap (BitVec 12) := []
  deriving DecidableEq, Repr

/-- Entries that results of a unit have still to emit, each with the store index of its operation (R155, R164, R165,
R201, R202). -/
structure Emission where
  entries : List (Nat × Entry) := []
  deriving DecidableEq, Repr

/-- A partly filled pack (R165, R180): firings taken so far and the entry filled so far. -/
structure Pack where
  pos : Nat := 0
  entry : Entry := 0
  deriving DecidableEq, Repr

/-- The four window counts of one channel of a held copy (R197). -/
structure Window where
  e : Nat := 0
  c : Nat := 0
  d : Nat := 0
  u : Nat := 0
  deriving DecidableEq, Repr

/-- The held copy of a scale vector of one QUANT or DEQUANT (R184, R197, R198). `posted` holds
`4 × channel + cause` for each event posted in this sheet. -/
structure HeldCopy where
  loaded : Bool := false
  head : Entry := 0
  recs : List Entry := []
  win : SMap Window := []
  posted : List Nat := []
  deriving DecidableEq, Repr

/-- The statistics of one channel (R200). `min` and `max` start at +∞ and −∞. -/
structure ChanStats where
  count : BitVec 32 := 0
  nans : BitVec 32 := 0
  min : BitVec 32 := 0x7F800000
  max : BitVec 32 := 0xFF800000
  sum : BitVec 32 := 0
  sumsq : BitVec 32 := 0
  deriving DecidableEq, Repr

/-- A FAR_RD or FAR_WR whose line requests are not all entered yet (R74, R75). `sram` is a byte address. -/
structure FarJob where
  write : Bool := false
  line : Nat := 0
  left : Nat := 0
  sram : Nat := 0
  flagMode : Nat := 0
  flag : Nat := 0
  deriving DecidableEq, Repr

/-- The data a tile holds about its configuration (R121, R123). -/
structure TileCfg where
  mode : TileMode := .unconfigured
  ops : SMap (BitVec 64) := []
  quota : Nat := 0
  inSink : SMap (BitVec 3) := []
  outReg : SMap Bool := []
  tokens : List (BitVec 32) := []
  deriving DecidableEq, Repr

/-- The sizing unit's state (R184, R196, R200). -/
structure SizUnit where
  held : SMap HeldCopy := []
  clip : SMap (BitVec 24) := []
  ufl : SMap (BitVec 24) := []
  stats : SMap ChanStats := []
  clipTotal : BitVec 16 := 0
  uflTotal : BitVec 16 := 0
  deriving DecidableEq, Repr

/-- One tile (R40, R58). Queues are keyed by the codes of R95: 0–3 input N, E, S, W; 4, 5 local L0, L1. Output and
pass-through registers are keyed by direction, N 0, E 1, S 2, W 3. `spill` marks the queues in spill (bit = code). -/
structure Tile where
  cfg : TileCfg := {}
  regs : SMap (BitVec 32) := []
  sram : Mem := []
  tables : SMap (BitVec 16) := []
  books : SMap Codebook := []
  accs : SMap (BitVec 40) := []
  queues : SMap (List Entry) := []
  tokenQ : List (BitVec 32) := []
  outR : SMap (Option Entry) := []
  passR : SMap (Option Entry) := []
  chest : List (Nat × Entry) := []
  spill : BitVec 7 := 0
  fired : SMap Nat := []
  macrCnt : SMap Nat := []
  draws : SMap (BitVec 37) := []
  packs : SMap Pack := []
  emit : SMap Emission := []
  siz : SizUnit := {}
  satInt : BitVec 16 := 0
  satFp : BitVec 16 := 0
  farJobs : List FarJob := []
  outTurn : Bool := false
  inTurn : Bool := false
  dirty : List Nat := []
  deriving DecidableEq, Repr

/-- Where a far request stands: not yet served by a burst, served, or met by an uncorrectable line. -/
inductive Served where
  | waiting | ok | bad
  deriving DecidableEq, Repr

/-- One line request in the far request queue (R58, R75, R77). `sent` marks it as past the FAR share of the MESH to MC crossing of its
channel (R260). -/
structure FarReq where
  tile : Nat := 0
  write : Bool := false
  line : Nat := 0
  sram : Nat := 0
  data : List Byte := []
  inc : Bool := false
  flag : Nat := 0
  sent : Bool := false
  served : Served := .waiting
  deriving DecidableEq, Repr

/-- A far window of a cluster (R215, CLC.FWIN). -/
structure FWin where
  ibase : BitVec 32 := 0
  lines : BitVec 32 := 0
  pbase : BitVec 32 := 0
  valid : Bool := false
  wr : Bool := false
  rd : Bool := false
  deriving DecidableEq, Repr

/-- A tile group being received (R121, R123). -/
structure TileAsm where
  active : Bool := false
  head : Entry := 0
  payload : List Entry := []
  deriving DecidableEq, Repr

/-- The configuration stream a cluster controller fetches and delivers (R120–R128). `started` holds from the first
delivered entry to CLUSTER_END; `delivered` lists the tiles that have applied theirs. -/
structure CfgUnit where
  fetching : Bool := false
  started : Bool := false
  restore : Bool := false
  index : BitVec 16 := 0
  line : Nat := 0
  linesLeft : Nat := 0
  entriesLeft : Nat := 0
  queue : List Entry := []
  asm : TileAsm := {}
  flags : SMap (BitVec 16) := []
  cnts : SMap (BitVec 48) := []
  gen : Bool := false
  pending : Nat := 0
  delivered : List Nat := []
  deriving DecidableEq, Repr

/-- The CLC registers of a cluster that the loader writes, and those it only reads (R100). -/
structure ClcRegs where
  trigger : Bool := false
  lock : Bool := false
  wdog : BitVec 24 := 0x010000
  event : BitVec 8 := 0
  spills : BitVec 32 := 0
  chestMax : BitVec 9 := 0
  stall : SMap (BitVec 32) := []
  overrun : BitVec 32 := 0
  gen : Bool := false
  sround : BitVec 64 := 0
  seed : BitVec 64 := 0
  sheetCount : BitVec 32 := 0
  rank : BitVec 15 := 0
  vx : BitVec 6 := 0
  vy : BitVec 5 := 0
  sguard : BitVec 64 := 0
  handle : BitVec 16 := 0
  cidx : BitVec 16 := 0xFFFF
  fwin : SMap FWin := []
  faultCause : BitVec 4 := 0
  evtCnt : SMap (BitVec 4) := []
  deriving DecidableEq, Repr

/-- One cluster (R58, R74, R80, R106). CLC.EVTCNT counts the sets of each CLC.EVENT bit (R609). `waitTurn` holds, by flag, the tile of the
WAIT_FLAG on it that fired last (R83). -/
structure Cluster where
  st : CState := .off
  regs : ClcRegs := {}
  flags : SMap (BitVec 16) := []
  cntVal : SMap (BitVec 24) := []
  cntLim : SMap (BitVec 24) := []
  tiles : SMap Tile := []
  farQ : List FarReq := []
  cfg : CfgUnit := {}
  drainHeld : Bool := false
  waitTurn : SMap (Option Nat) := []
  deriving DecidableEq, Repr

/-- The fabric registers of one outgoing cluster-link stream (R57): the cluster pass-through register that feeds it
and, where the link crosses a die edge, the crossing queue at its end. Each entry carries the GEN of its sender. -/
structure LinkSt where
  pass : Option (Bool × Entry) := none
  cross : List (Bool × Entry) := []
  deriving DecidableEq, Repr

/-- One compute die's PLLs (R35) and one bridge direction's wires (R20–R24). -/
structure DieSt where
  pllLost : Bool := false
  spareInUse : Bool := false
  deriving DecidableEq, Repr

/-- Repair state of one bridge direction (R21–R25): by group, the wire in whose place the group's spare wire serves; the groups
retired; by reserve group, the group whose role it has taken; and the replacements that wait for the next calender frame boundary,
each as fault kind (2 wire, 3 group), group and wire. -/
structure BridgeDir where
  wires : SMap (Option Nat) := []
  retired : List Nat := []
  moved : SMap (Option Nat) := []
  waiting : List (Nat × Nat × Nat) := []
  retransmits : Nat := 0
  deriving DecidableEq, Repr

/-- The whole fabric. Clusters are keyed by 44 × die + 11 v + u for 0–879; 880 is the dandy's cluster. Link streams
are keyed by 8 × cluster + 2 × direction + stream. Bridge directions are keyed by 2 × bridge + direction. -/
structure Fabric where
  service : SMap Service := []
  clusters : SMap Cluster := []
  links : SMap LinkSt := []
  dies : SMap DieSt := []
  bridges : SMap BridgeDir := []
  deriving DecidableEq, Repr

end Sys2Proof.Machine
end

