-- ==== Sys2Proof/Machine/StFront.lean ====
section
/-!
DEFINITION. State of the headboxes: partners, streams, circular buffers and records (spec 10, 12, block HBX).
-/
namespace Sys2Proof.Machine

/-- A stock group's partner (R332, HBX.GSTAT, HBX.GPID), and the join message of which the last copies came: its TYPE, its bytes, and how
many identical copies in a row (R337). -/
structure Partner where
  heard : Nat × List Byte := (0, [])
  copies : Nat := 0
  present : Bool := false
  pid : BitVec 32 := 0
  sources : Nat := 0
  deriving DecidableEq, Repr

/-- Stream states (R343). -/
inductive StreamSt where
  | free | joined | admitted | suspended | left
  deriving DecidableEq, Repr

/-- The record programme of an admitted stream (R405). -/
structure RecProg where
  pmask : BitVec 64 := 0
  gmask : BitVec 16 := 0
  wmask : BitVec 30 := 0
  pre : Nat := 0
  post : Nat := 0
  destHost : Bool := true
  dest : Nat := 0
  slot : Nat := 0
  nslot : Nat := 0
  maskName : BitVec 64 := 0
  maskEn : Bool := false
  maskStop : Bool := false
  nmask : Nat := 1
  deriving DecidableEq, Repr

/-- A record of a stream, open or waiting (R406–R418). `nt` is absent while TPOINT's sample is unwritten. `lo`, `hi` bound the window.
`opened` is the write count and the time base's `run` when it opened, `buf` the buffer it was cut from. -/
structure Rec where
  kind : Nat := 1
  pipe : Nat := 0
  source : Nat := 0
  tseq : BitVec 16 := 0
  rank : BitVec 15 := 0
  tpoint : TimeVal := 0
  due : TimeVal := 0
  t0 : TimeVal := 0
  flags : BitVec 16 := 0
  nt : Option Nat := none
  lo : Nat := 0
  hi : Nat := 0
  cause : Nat := 0
  opened : Nat × Nat := (0, 0)
  buf : Nat := 0
  deriving DecidableEq, Repr

/-- An anchor: write count, time of that sample, untimed mark (R402), and the START of the gap that it ends (R345, R352). -/
structure Anchor where
  gapFrom : Option TimeVal := none
  w : Nat := 0
  t : TimeVal := 0
  untimed : Bool := false
  deriving DecidableEq, Repr

/-- The buffer of an admitted stream (R400–R404). `base` is the first physical line, `rgt` its region entry, `gen` counts the buffers that
the admission has had (R419). -/
structure SBuf where
  gen : Nat := 0
  rgt : Nat := 0
  base : Nat := 0
  depth : Nat := 0
  w : Nat := 0
  anchors : List Anchor := []
  nAnchors : Nat := 0
  lost : Bool := false
  quarter : Nat := 0
  deriving DecidableEq, Repr

/-- Record hand-off state (R410–R414, HBX.RSTAT, HBX.RERR). `busy` lists the slots not yet consumed. -/
structure RecSt where
  pstate : BitVec 2 := 0
  openRecs : List Rec := []
  waiting : List Rec := []
  written : List Rec := []
  nextSlot : Nat := 0
  busy : List Nat := []
  done : BitVec 16 := 0
  lost : BitVec 8 := 0
  drop : BitVec 8 := 0
  trunc : BitVec 8 := 0
  maskf : BitVec 8 := 0
  deriving DecidableEq, Repr

/-- Frame-error counters of a stream (HBX.SERRA, HBX.SERRB). -/
structure SErr where
  seqGap : BitVec 16 := 0
  crcErr : BitVec 8 := 0
  frameErr : BitVec 8 := 0
  tsRange : BitVec 8 := 0
  tsJump : BitVec 8 := 0
  rateExcess : BitVec 8 := 0
  seqOld : BitVec 8 := 0
  deriving DecidableEq, Repr

/-- One stream identity (R334, R343). `credit` counts in units of 1 ÷ (10^13 × 65,536 × N) frame, as of `creditT`; `admitT` is when the
stream was last admitted or resumed, both on the time base's `run`; `gaps` are the open
stream gaps: cause and start (R345, R352, R417). -/
structure Stream where
  st : StreamSt := .free
  wasAdmitted : Bool := false
  lsn : BitVec 8 := 0
  fmt : BitVec 4 := 0
  fcode : BitVec 4 := 0
  rate : BitVec 32 := 0
  transit : BitVec 13 := 0
  err : SErr := {}
  credit : Int := 0
  creditT : Nat := 0
  seqSet : Bool := false
  seq : BitVec 16 := 0
  lastTs : TimeVal := 0
  admitT : Nat := 0
  gaps : List (Nat × TimeVal) := []
  ring : BitVec 12 := 0
  tag : BitVec 16 := 0
  port : Option (BitVec 16 × BitVec 16) := none
  mesh : List (Nat × Nat) := []
  meshTrig : List (Nat × Nat) := []
  prog : RecProg := {}
  buf : SBuf := {}
  recs : RecSt := {}
  deriving DecidableEq, Repr

/-- All headboxes: partners keyed by stock group, streams keyed by SID. -/
structure Headbox where
  partners : SMap Partner := []
  streams : SMap Stream := []
  deriving DecidableEq, Repr

end Sys2Proof.Machine
end

