-- ==== Sys2Proof/Machine/StHost.lean ====
section
/-!
DEFINITION. State of the host attachment: PCI Express function, MSI-X, rings, DMA channels, ownership (spec 14, 15;
blocks PCX, RNG, RGC, DMA, OWN).
-/
namespace Sys2Proof.Machine

/-- One MSI-X table entry and its pending bit (R465, R466). -/
structure Vector_ where
  addr : BitVec 64 := 0
  data : BitVec 32 := 0
  masked : Bool := true
  pending : Bool := false
  deriving DecidableEq, Repr

/-- The link and the PCX counters. -/
structure PcxRegs where
  width : BitVec 5 := 0
  rate : BitVec 3 := 0
  flit : Bool := false
  reversed : Bool := false
  degraded : Bool := false
  changes : BitVec 16 := 0
  bar0Bad : BitVec 8 := 0
  bar2Bad : BitVec 8 := 0
  bar4Ur : BitVec 8 := 0
  bar4Ca : BitVec 8 := 0
  perst : BitVec 8 := 0
  hot : BitVec 8 := 0
  flr : BitVec 8 := 0
  doeReqs : BitVec 16 := 0
  doeAborts : BitVec 8 := 0
  deriving DecidableEq, Repr

/-- The fields of configuration space that the function's behaviour reads (R451, R456–R458, R465, R472). Errors
logged under AER are kept as sets of bits, uncorrectable ones in `aer` and corrected ones in `aerCor`, with the first error pointer and
the header and prefix logs (R467; log entry 70). `written` keeps, by offset, the other words that software writes whole,
and `other` those that outlast a function reset. -/
structure Config_ where
  memEn : Bool := true
  busMaster : Bool := false
  d3hot : Bool := false
  msixEn : Bool := true
  funcMask : Bool := false
  relaxed : Bool := true
  bar4Log : BitVec 3 := 7
  mps : BitVec 3 := 0
  mrrs : BitVec 3 := 2
  aer : BitVec 32 := 0
  aerCor : BitVec 32 := 0
  aerFirst : BitVec 5 := 0
  aerLog : BitVec 256 := 0
  written : SMap (BitVec 32) := []
  other : SMap (BitVec 32) := []
  deriving DecidableEq, Repr

/-- The SPDM connection of one transport (R471, R668): its progress, and the messages that the next signatures cover. -/
structure Spdm where
  version : Bool := false
  caps : Bool := false
  algs : Bool := false
  vca : List Byte := []
  certs : List Byte := []
  meas : List Byte := []
  deriving DecidableEq, Repr

/-- The host attachment. -/
structure Pcx where
  regs : PcxRegs := {}
  cfg : Config_ := {}
  msix : SMap Vector_ := []
  doeBusy : Option (List Byte) := none
  spdmDoe : Spdm := {}
  spdmBus : Spdm := {}
  perstLow : Bool := true
  deriving DecidableEq, Repr

/-- Ring pair states (RNG.STAT.STATE). -/
inductive RingSt where
  | off | active | draining | error
  deriving DecidableEq, Repr

/-- A completion waiting for its ring (R488–R490): the entry without PHASE and SQ_HEAD, its QUIET flag, and for a
record its stream and slot. `clear` names the image whose ABORTED clusters are cleared before it is posted (R499). -/
structure Compl where
  opcode : BitVec 8 := 0
  outcome : BitVec 8 := 0
  check : BitVec 8 := 0
  tag : BitVec 16 := 0
  info : BitVec 64 := 0
  quiet : Bool := false
  record : Option (Nat × Nat) := none
  clear : Option (BitVec 16) := none
  deriving DecidableEq, Repr

/-- A descriptor taken but not completed (R484–R487, R516), in the order of taking. -/
structure Taken where
  seqNo : Nat := 0
  opcode : BitVec 8 := 0
  tag : BitVec 16 := 0
  quiet : Bool := false
  bytes : List Byte := []
  deriving DecidableEq, Repr

/-- One ring pair. `sqLoc` and `cqLoc` are the bases latched at ENABLE (R693), `taken` lists the work taken and not yet completed,
`waiting` the completions not yet written, `written` the completion entries written and not consumed. -/
structure Ring where
  sqb : BitVec 64 := 0
  cqb : BitVec 64 := 0
  sqLoc : BitVec 64 := 0
  cqLoc : BitVec 64 := 0
  enable : Bool := false
  sqLog : BitVec 4 := 6
  cqLog : BitVec 4 := 6
  vector : BitVec 12 := 0
  chan : BitVec 5 := 0
  st : RingSt := .off
  sqHead : BitVec 15 := 0
  sqTail : BitVec 15 := 0
  cqTail : BitVec 15 := 0
  cqHead : BitVec 15 := 0
  phase : Bool := true
  cause : BitVec 4 := 0
  dbIgn : BitVec 8 := 0
  taken : List Taken := []
  waiting : List Compl := []
  written : List Compl := []
  nextSeq : Nat := 0
  deriving DecidableEq, Repr

/-- The event ring or the ream ring (RGC). `loc` is the base latched at ENABLE (R693). -/
structure GlobalRing where
  base : BitVec 64 := 0
  loc : BitVec 64 := 0
  enable : Bool := false
  log : BitVec 4 := 6
  vector : BitVec 12 := 0
  tail : BitVec 15 := 0
  head : BitVec 15 := 0
  used : Nat := 0
  phase : Bool := true
  deriving DecidableEq, Repr

/-- Block RGC, with the posted-event count, the LOSS mark, the last 256 events and the base of the ream buffer latched with the ream ring (R521, R522, R616). -/
structure Rgc where
  evt : GlobalRing := {}
  ream : GlobalRing := {}
  buf : BitVec 64 := 0
  bufLoc : BitVec 64 := 0
  mib : BitVec 16 := 0
  lost : BitVec 16 := 0
  seq : BitVec 32 := 0
  loss : Bool := false
  last : List (List Byte) := []
  deriving DecidableEq, Repr

/-- The record programme block of an ADMIT as it was read when the ADMIT was taken (R504): none for PROG 0, its bytes, or the outcome and
check of a block that cannot be read. -/
inductive ProgBlock where
  | none
  | bytes (b : List Byte)
  | refused (e : BitVec 8 × BitVec 8)
  deriving DecidableEq, Repr

/-- A descriptor in an executor's queue: its ring, its number there, its 64 bytes, and for an ADMIT its block (R484, R504). -/
structure Work where
  ring : BitVec 12 := 0
  seqNo : Nat := 0
  bytes : List Byte := []
  prog : ProgBlock := .none
  deriving DecidableEq, Repr

/-- A place that an address names (R495). -/
inductive Loc where
  | host (a : Nat)
  | gddr (a : Nat)
  | sram (c t off : Nat)
  deriving DecidableEq, Repr

/-- DMA channel states (DMA.CH.STATE). -/
inductive ChanSt where
  | idle | copy | pacedIdle | pacedActive
  deriving DecidableEq, Repr

/-- A DMA channel (R486, R518, DMA.CH). `cur` is the copy it performs: `moved` of `total` bytes, or of COUNT entries of a paced copy,
from `src` to `dst`; an ended copy waits with its outcome for its completion. `pollFrame` is the calender frame of the last
header read; `failed` a plain copy that could not write part of an uncorrectable line (R733). -/
structure Channel where
  st : ChanSt := .idle
  cur : Work := {}
  src : Loc := .host 0
  dst : Loc := .host 0
  moved : Nat := 0
  total : Nat := 0
  outcome : BitVec 8 := 0
  check : BitVec 8 := 0
  pollFrame : Option Nat := none
  failed : Bool := false
  queue : List Work := []
  errors : BitVec 10 := 0
  done : BitVec 16 := 0
  deriving DecidableEq, Repr

/-- The ownership table for units, pins, lines (block OWN): holder by resource, keyed by
kind × 64 + index with kinds as CLAIM's. -/
structure Own where
  holder : SMap (Option (BitVec 12)) := []
  deriving DecidableEq, Repr

/-- One packet, record or response leaving the device (the model's own trace of its outputs). A pulse has its line, edge, width and
whether it is active low; a Xomos packet its HEAD fields, data blocks and CRC; a PTP message its origin time and correction. -/
inductive Out where
  | msix (vector : Nat)
  | trig (line : Nat) (at_ : Nat) (width : Nat) (low : Bool)
  | pps (pin : Nat) (at_ : Nat) (width : Nat) (low : Bool)
  | gpio (line : Nat) (at_ : Nat) (width : Nat) (low : Bool)
  | join (group type : Nat) (bytes : List Byte) (copies : Nat)
  | spare (group kind lane frame : Nat)
  | xblock (port type : Nat) (fields : BitVec 96)
  | xpacket (port : Nat) (head : BitVec 88) (data : List (BitVec 96)) (crc : BitVec 32)
  | ptp (port kind : Nat) (origin : TimeVal) (correction : Int) (udpSum : Option (BitVec 16)) (fcsOk : Bool)
  | read (ok : Bool) (data : List Byte)
  | smbus (data : List Byte)
  | doe (data : List Byte)
  | thermtrip
  deriving DecidableEq, Repr

/-- A load that has claimed what it needs and has still to place the image (R225): its handle, the cluster of each virtual one, and the
bytes of the image. -/
structure LoadJob where
  handle : Nat := 0
  map : List Nat := []
  bytes : List Byte := []
  deriving DecidableEq, Repr

/-- Everything between the host and the executors. `bells` holds the doorbells written before READY, as page, page offset and value,
oldest first (R681); `nextRing` is the ring pair that the root firmware visits next (R485); `load` the load that its oldest descriptor asks for, once claimed. -/
structure HostIf where
  rings : SMap Ring := []
  rgc : Rgc := {}
  fw : List Work := []
  load : Option LoadJob := none
  vatIn : List Work := []
  dma : SMap Channel := []
  own : Own := {}
  nextRing : Nat := 0
  bells : List (Nat × Nat × BitVec 64) := []
  deriving DecidableEq, Repr

end Sys2Proof.Machine
end

