-- ==== Sys2Proof/Machine/StImage.lean ====
section
/-!
DEFINITION. What the root firmware keeps of a loaded image (spec 06, R204–R235, R497–R501, R597–R600).
-/
namespace Sys2Proof.Machine

/-- One physical cluster link: cluster, side (N 0, E 1, S 2, W 3), stream (R54, R220). -/
structure PLink where
  cluster : Nat := 0
  dir : Nat := 0
  stream : Nat := 0
  deriving DecidableEq, Repr

/-- The route of one stream of one virtual link (R220): sending virtual cluster index, its side, stream, and the
physical links in order. -/
structure Route where
  src : Nat := 0
  dir : Nat := 0
  stream : Nat := 0
  path : List PLink := []
  deriving DecidableEq, Repr

/-- A region of an image (R212, R214): image base, lines, attributes, its region table entry. -/
structure IRegion where
  ibase : Nat := 0
  lines : Nat := 0
  attr : BitVec 8 := 0
  name : BitVec 64 := 0
  rgt : Nat := 0
  deriving DecidableEq, Repr

/-- A usable configuration section (R208), placed in far memory. -/
structure ICfg where
  vidx : Nat := 0
  index : Nat := 0
  line : Nat := 0
  bytes : Nat := 0
  tiles : Nat := 0
  deriving DecidableEq, Repr

/-- A DECKLE segment (R232). Links are (virtual cluster index, direction, stream). -/
structure Segment where
  src : Nat := 0
  dst : Nat := 0
  pipe : Nat := 0
  latB0 : Nat := 0
  latA1 : Nat := 0
  slack : Nat := 0
  links : List (Nat × Nat × Nat) := []
  deriving DecidableEq, Repr

/-- A STREAMS record (R232). -/
structure StreamRec where
  port : Nat := 0
  pipe : Nat := 0
  vx : Nat := 0
  vy : Nat := 0
  tile : Nat := 0
  deriving DecidableEq, Repr

/-- A PHYS_XY16 relocation kept for remaps (R219): physical byte address and the patched virtual index. -/
structure XyReloc where
  addr : Nat := 0
  vidx : Nat := 0
  deriving DecidableEq, Repr

/-- The sheet an image runs (R498–R500, R599, R600): submitting ring, descriptor number, tag, index, seed, starts made,
whether its drain has been requested (R97), the virtual indices whose clusters have been copied to the replay store in it (R598), and for
descriptors, those that wait for its end. -/
structure Sheet where
  active : Bool := false
  ring : BitVec 12 := 0
  seqNo : Nat := 0
  cidx : Nat := 0
  seed : BitVec 64 := 0
  starts : Nat := 0
  draining : Bool := false
  drainAsked : Bool := false
  copied : List Nat := []
  drains : List (BitVec 12 × Nat) := []
  event : Option Nat := none
  replayWait : Bool := false
  deriving DecidableEq, Repr

/-- The saved state of one tile in the replay store (R597, R598). -/
structure SavedTile where
  sram : Mem := []
  regs : SMap (BitVec 32) := []
  tables : SMap (BitVec 16) := []
  deriving DecidableEq, Repr

/-- A loaded image. `collSeen` is the PROD that the collective engine read last, in the frame `collFrame` (R553). `map` gives the physical cluster of each virtual index, absent under R600, `lost` the clusters, each with the tile of its fault, whose virtual ones have no other yet. `replay` is keyed by
64 × virtual index + tile. `collNext` and `collCnt` count the collective requests taken, in all and per group (R554); `collHead` and `collData` are one more than the request whose head and whose data have been sent,
`collEnded` those ended before their turn (R559); `collBytes`, `collNext0` and
`collCnt0` are region 15 and these counts at the start of the sheet (R560). `gen` is the GEN of the configuration delivered last (R126). -/
structure Image where
  ring : BitVec 12 := 0
  kind : Nat := 0
  level : Nat := 2
  vw : Nat := 1
  vh : Nat := 1
  deckle : Nat := 0
  wdog : BitVec 24 := 0
  seed : BitVec 64 := 0
  granted : BitVec 64 := 0
  farLines : Nat := 0
  map : List (Option Nat) := []
  lost : List (Nat × Nat) := []
  routes : List Route := []
  regions : List IRegion := []
  cfgs : List ICfg := []
  segs : List Segment := []
  streams : List StreamRec := []
  pipes : List Nat := []
  xys : List XyReloc := []
  sheets : Nat := 0
  gen : Bool := false
  sheet : Sheet := {}
  replay : SMap SavedTile := []
  replayBase : Nat := 0
  collNext : Nat := 0
  collSeen : Nat := 0
  collFrame : Option Nat := none
  collHead : Nat := 0
  collData : Nat := 0
  collEnded : List Nat := []
  collCnt : SMap Nat := []
  collBytes : List Byte := []
  collNext0 : Nat := 0
  collCnt0 : SMap Nat := []
  releasing : Option (BitVec 12 × Nat) := none
  deriving DecidableEq, Repr

end Sys2Proof.Machine
end

