-- ==== Sys2Proof/Machine/StLanes.lean ====
section
/-!
DEFINITION. State of the serial lanes: training groups and lanes (spec 08, block LNP).
-/
namespace Sys2Proof.Machine

/-- Training states (R296). -/
inductive GState where
  | off | detect | baseAcq | baseLink | negotiate | step | blockHunt | eq | active | eidle | fail
  deriving DecidableEq, Repr

/-- One lane of a group (LNP.LSTAT, LNP.LCNT). `desk` marks deskew achieved, `swept` a finished sweep, `bad` a lane that failed in the
present state of training (R300), `fresh` a lane whose first block after lock is still to come (R286). `start` is the peaking of the
lane tables (R293). Of the transmitter, `owed` counts the stuffed bits not yet recovered (R288). -/
structure Lane where
  los : Bool := true
  lock : Bool := false
  peak : BitVec 4 := 0
  skew : BitVec 10 := 0
  hdrErr : BitVec 16 := 0
  codeErr : BitVec 16 := 0
  losEvt : BitVec 8 := 0
  lolEvt : BitVec 8 := 0
  stuffLate : BitVec 8 := 0
  stuffErr : BitVec 8 := 0
  desk : Bool := false
  swept : Bool := false
  bad : Bool := false
  fresh : Bool := false
  start : BitVec 4 := 0
  owed : Nat := 0
  deriving DecidableEq, Repr

/-- What the peer's CAPS said (R281). -/
structure PeerCaps where
  seen : Bool := false
  role : BitVec 8 := 0
  rates : BitVec 4 := 0
  lanes : BitVec 8 := 0
  spare : BitVec 8 := 0
  failed : BitVec 4 := 0
  deriving DecidableEq, Repr

/-- The phase of a spare-lane substitution in ACTIVE (R301, R302). -/
inductive SparePhase where
  | none | requested | acknowledged
  deriving DecidableEq, Repr

/-- One group (R276, R296, LNP.GCTRL, LNP.GSTAT). `failed` holds the own failed rates, `offer` the own offer's rate
code, `txSpare` the lane whose blocks the own transmitter also sends on its spare, `txPending` the switch frame of the peer's SPARE
request while it is outstanding. The own transmitter is in slot `txSlot` of its frame `txFrame`, `txBits` bits into it (R287), or has `txBurst` slots of BURST to send
before a new frame (R305). -/
structure LnpGroup where
  enable : Bool := false
  rateMask : BitVec 4 := 0xF
  eidleReq : Bool := false
  st : GState := .off
  rate : BitVec 3 := 0
  spareUsed : Bool := false
  spareFor : BitVec 5 := 0
  attempts : BitVec 3 := 0
  frame : BitVec 16 := 0
  peer : PeerCaps := {}
  failed : BitVec 4 := 0
  offer : BitVec 3 := 0
  readySeen : Bool := false
  joined : Bool := false
  phase : SparePhase := .none
  spareLane : BitVec 5 := 0
  spareFrame : BitVec 16 := 0
  txSpare : Option Nat := none
  txPending : Option (BitVec 16) := none
  txFrame : BitVec 16 := 0
  txSlot : Nat := 0
  txBits : Nat := 0
  txBurst : Nat := 0
  txIdle : Bool := false
  idleHeld : Bool := false
  lanes : SMap Lane := []
  deriving DecidableEq, Repr

end Sys2Proof.Machine
end

