-- ==== Sys2Proof/Machine/StMemory.lean ====
section
/-!
DEFINITION. State of GDDR6 memory, its regions and the calender (spec 07).
-/
namespace Sys2Proof.Machine

/-- The state of one GDDR6 position (MCC.DEVSTAT). -/
inductive DevState where
  | inService | spare | copySrc | copyDst | retired | lost
  deriving DecidableEq, Repr

/-- One physical position: its state and the logical device it serves (15 for none). -/
structure DevPos where
  st : DevState := .inService
  logical : Nat := 15
  deriving DecidableEq, Repr

/-- Error counters of one physical channel (MCC.ERR). -/
structure ChanErr where
  corr : BitVec 16 := 0
  retry : BitVec 12 := 0
  uncorr : BitVec 4 := 0
  deriving DecidableEq, Repr

/-- A copy or spare initialisation of one quarter (R268–R272, MCC.COPY). `logical` is the lost logical device that a spare
under initialisation will take. -/
structure CopySt where
  active : Bool := false
  init : Bool := false
  src : BitVec 4 := 0
  dst : BitVec 4 := 0
  logical : Nat := 15
  ptrA : Nat := 0
  ptrB : Nat := 0
  deriving DecidableEq, Repr

/-- One 32 B burst of a line (R240): class, direction, line, and which half of it. -/
structure Beat where
  cls : Nat := 0
  write : Bool := false
  line : Nat := 0
  high : Bool := false
  deriving DecidableEq, Repr

/-- Requests of a class other than a cluster's far requests: a run of lines still to be moved in slots of the class (R253, R259). -/
structure MemReq where
  cls : Nat := 0
  write : Bool := false
  line : Nat := 0
  n : Nat := 0
  deriving DecidableEq, Repr

/-- One edge die's memory controllers (R239, R246, R247, R267). `repeats` lists the failed repeats of a burst, one entry for each, `halves`
the lines whose first burst has passed, ECC lines under the key of their group; `eccBuf` is keyed by 16 × channel + class and holds group
indices; `wholes` lists the groups (class, channel, index) being written whole, `eccOwed` those whose
ECC line the class has changed and has yet to write; `patrol` is the next channel byte address that the patrol
reads, by logical channel; `refreshed` (refreshes issued) is keyed by 4 × channel + quad. `wanted` lists the positions whose copy is
requested (R268). -/
structure Quarter where
  devs : SMap DevPos := []
  err : SMap ChanErr := []
  copy : CopySt := {}
  withdrawn : Bool := false
  wanted : List Nat := []
  gTable : BitVec 16 := 0
  mTable : BitVec 16 := 0
  repeats : List Beat := []
  halves : List Beat := []
  eccBuf : SMap (List Nat) := []
  wholes : List (Nat × Nat × Nat) := []
  eccOwed : List (Nat × Nat × Nat) := []
  patrol : SMap Nat := []
  refreshed : SMap Nat := []
  deriving DecidableEq, Repr

/-- One entry of the region table (R248, block RGT). -/
structure Rgt where
  base : BitVec 32 := 0
  lines : BitVec 32 := 0
  valid : Bool := false
  lost : Bool := false
  host : Bool := false
  bar4 : Bool := false
  ring : BitVec 12 := 0
  handle : BitVec 16 := 0
  name : BitVec 64 := 0
  deriving DecidableEq, Repr

/-- Far memory the root firmware places outside the region table: configuration sections, image copies, replay
stores (R215, R225, R598). `lost` marks a range on a lost device (R271). -/
structure Hidden where
  base : Nat := 0
  lines : Nat := 0
  handle : BitVec 16 := 0
  lost : Bool := false
  deriving DecidableEq, Repr

/-- GDDR6 and the calender. `bytes` is keyed by physical byte address (R242); `bad` lists the uncorrectable lines in
rising order. `reqs` holds the lines that classes other than a cluster's far requests have still to move in their slots. `gcal` and `mcal` are the installed tables (R254–R266), keyed by slot. `frame` is the phase within a calender
frame, 3 for each TIME cycle, 2,048 for a frame (R252). -/
structure Gddr where
  bytes : Mem := []
  bad : SMap Bool := []
  quarters : SMap Quarter := []
  reqs : List MemReq := []
  rgt : SMap Rgt := []
  hidden : List Hidden := []
  gcal : SMap (BitVec 16) := []
  mcal : SMap (BitVec 16) := []
  frame : Nat := 0
  aligned : Bool := false
  deriving DecidableEq, Repr

end Sys2Proof.Machine
end

