-- ==== Sys2Proof/Machine/StService.lean ====
section
/-!
DEFINITION. State of faults and spares, power, the dandy, security and bring-up (spec 18–21; blocks FLT, PWR, DND,
SEC, BRU).
-/
namespace Sys2Proof.Machine

/-- A fault record (R617) before packing. -/
structure FaultRec where
  time : TimeVal := 0
  kind : BitVec 8 := 0
  cls : BitVec 4 := 0
  action : BitVec 4 := 0
  handle : BitVec 16 := 0
  loc : BitVec 32 := 0
  spare : BitVec 32 := 0xFFFFFFFF
  detail : BitVec 32 := 0
  ring : BitVec 16 := 0xFFFF
  seqNo : BitVec 16 := 0
  deriving DecidableEq, Repr

/-- Service core states (R606–R608). -/
inductive CoreSt where
  | active | spare | fenced | stopped
  deriving DecidableEq, Repr

/-- Block FLT, the buckets, the fault log, the retained ream and the repair fuses. `buckets` is keyed by
2^18 × k + unit; `lowPosted` lists the bucket keys whose SPARE_LOW was posted; `roles` maps role to core. -/
structure Flt where
  halted : Bool := false
  retained : Bool := false
  fuseFull : Bool := false
  cause : BitVec 16 := 0
  fuses : Nat := 0
  repairs : List (BitVec 8 × BitVec 32) := []
  unburned : List (BitVec 8 × BitVec 32) := []
  contained : BitVec 16 := 0
  workFatal : BitVec 8 := 0
  bucketCnt : BitVec 8 := 0
  tsuLate : BitVec 8 := 0
  wrIgn : BitVec 8 := 0
  unclWr : BitVec 8 := 0
  meets : BitVec 8 := 0
  thr : SMap (BitVec 16) := []
  leak : SMap (BitVec 32) := []
  reamSeq : BitVec 32 := 0
  reamCnt : BitVec 16 := 0
  reamForm : BitVec 8 := 0
  reamTrunc : Bool := false
  buckets : SMap (BitVec 16) := []
  lowPosted : List Nat := []
  log : List FaultRec := []
  logSeq : BitVec 16 := 0
  ream : List Byte := []
  deriving DecidableEq, Repr

/-- A spare cluster in BIST (R595): the cluster it replaces, the image and virtual index it is meant for, and whether for a
move (R602). -/
structure Bist where
  spare : Nat := 0
  failed : Nat := 0
  owner : Option (BitVec 16 × Nat) := none
  move : Bool := false
  deriving DecidableEq, Repr

/-- Service cores: state by core and core by role; the clusters whose move is requested (R602); the spares in BIST (R595);
checkpoints written by role (R606). -/
structure Svc where
  cores : SMap CoreSt := []
  roles : SMap Nat := []
  moves : List Nat := []
  bist : List Bist := []
  checkpoints : SMap Nat := []
  deriving DecidableEq, Repr

/-- Power states (R622). -/
inductive PwrSt where
  | run | trim | watch | off
  deriving DecidableEq, Repr

/-- One die's temperature (PWR.THERM). `calm` counts the throttle updates in a row that found it below 98 % of its limit. -/
structure Therm where
  tj : BitVec 8 := 0
  emerg : Bool := false
  level : BitVec 4 := 0
  peak : BitVec 8 := 0
  calm : Nat := 0
  deriving DecidableEq, Repr

/-- One GPIO line (PWR.GPIO). `lastEnd` is the end of its previous pulse, `level` the level at its ball, `want` the firings that ask for a
pulse. -/
structure Gpio where
  func : BitVec 2 := 0
  pol : Bool := false
  width : BitVec 10 := 0x064
  merged : BitVec 8 := 0
  lastEnd : TimeVal := 0
  level : Bool := false
  want : List TimeVal := []
  deriving DecidableEq, Repr

/-- Block PWR. `waking` marks a wake whose rails are still to return, `wakeLow` is the level of WAKE_N. In throttle updates of 10 µs,
`thrWait` and `capWait` count down to when THROTTLE and CAP_UNMET may be posted again and `unmet` counts those with the cap unmet;
`thrDue` marks a level not yet posted. `sinceWait` is the time since cycle W of a Watch entry and `entryEnds` when entry is complete, in
tenths of an SVC cycle. -/
structure Pwr where
  st : PwrSt := .run
  cap : BitVec 16 := 0x06D6
  tlevel : BitVec 4 := 0
  wref : BitVec 4 := 0
  power : BitVec 12 := 0
  mode : BitVec 2 := 0
  tlim : BitVec 8 := 0x5A
  calm : Nat := 0
  lock : Bool := false
  wakeEn : BitVec 8 := 0x1F
  wake : BitVec 8 := 0
  funcIgn : BitVec 8 := 0
  unclWr : BitVec 8 := 0
  therm : SMap Therm := []
  gpio : SMap Gpio := []
  thrDue : Bool := false
  thrWait : Nat := 0
  capWait : Nat := 0
  unmet : Nat := 0
  waking : Bool := false
  wakeLow : Bool := false
  sinceWait : Nat := 0
  entryEnds : Nat := 0
  watchAsked : Bool := false
  deriving DecidableEq, Repr

/-- A window of the dandy in progress (R635): the frames taken, the SEQ expected, whether it has failed. -/
structure DWin where
  active : Bool := false
  frames : Nat := 0
  seqNo : BitVec 16 := 0
  bad : Bool := false
  deriving DecidableEq, Repr

/-- Block DND. `scheduled` marks a firing with TARGET 3, `hits` and `abortRun` count windows in a row, `asserted` is the wake source DANDY,
`loaded` an image in the dandy, `changed` a change of DND.SRC or of the image not yet acted on, `sheets` the sheets since the load, `prog`
the program store, `heldJoin` the watched stream's FMT and FCODE held in Watch. -/
structure Dnd where
  group : BitVec 4 := 0
  sid : BitVec 10 := 0
  itile : BitVec 6 := 0
  otile : BitVec 6 := 0
  nfr : BitVec 8 := 1
  consec : BitVec 4 := 1
  period : BitVec 16 := 0x03E8
  thr : BitVec 32 := 0x3F800000
  imgLo : BitVec 32 := 0
  imgHi : BitVec 5 := 0
  imgBytes : BitVec 32 := 0
  windows : BitVec 16 := 0
  abandoned : BitVec 8 := 0
  aborts : BitVec 8 := 0
  score : BitVec 32 := 0
  scheduled : Bool := false
  hits : Nat := 0
  abortRun : Nat := 0
  asserted : Bool := false
  loaded : Bool := false
  changed : Bool := false
  sheets : Nat := 0
  prog : List Byte := []
  win : DWin := {}
  heldJoin : Option (BitVec 4 × BitVec 4) := none
  deriving DecidableEq, Repr

/-- The fuse block (R648, R651, R662, R663). -/
structure Fuses where
  seed : BitVec 256 := 0
  rootKeys : SMap (BitVec 512) := []
  revoked : BitVec 4 := 0
  antiRollback : Nat := 0
  jtag : BitVec 2 := 0
  dead : Bool := false
  deriving DecidableEq, Repr

/-- States of the test access port's controller (R719). -/
inductive TapSt where
  | reset | idle | selectDr | captureDr | shiftDr | exit1Dr | pauseDr | exit2Dr | updateDr
  | selectIr | captureIr | shiftIr | exit1Ir | pauseIr | exit2Ir | updateIr
  deriving DecidableEq, Repr

/-- Instructions of the test access port (R719). `scan` stands for those that use the boundary register. -/
inductive TapInstr where
  | idcode | bypass | scan | debug
  deriving DecidableEq, Repr

/-- The test access port (R719): the controller's state, the instruction, and the register being shifted, its next bit first. -/
structure Tap where
  st : TapSt := .reset
  instr : TapInstr := .idcode
  shift : List Bool := []
  deriving DecidableEq, Repr

/-- Block SEC, the fuses, the boot flash (unlisted bytes read 0xFF), the keys and measurements of this start. `job` is the address and length
of the update in progress (R659, R660). -/
structure Sec where
  uaddr : BitVec 64 := 0
  ubytes : BitVec 32 := 0
  ustate : BitVec 2 := 0
  ucode : BitVec 4 := 0
  ign : BitVec 8 := 0
  job : Option (Nat × Nat) := none
  setid : BitVec 64 := 0
  svn : BitVec 8 := 0
  pending : Bool := false
  fuses : Fuses := {}
  flash : Mem := []
  serial : BitVec 64 := 0
  alias_ : BitVec 256 := 0
  meas : SMap (BitVec 512) := []
  deadCheck : Nat := 0
  deadPart : Nat := 0
  deadCode : Nat := 0
  tap : Tap := {}
  deriving DecidableEq, Repr

/-- Bring-up stages (R675), and Dead (R663). -/
inductive Stage where
  | rom | rootFw | edge | compute | ready | dead
  deriving DecidableEq, Repr

/-- Whether the root firmware has reported its start (R675, R676). -/
def Stage.reported (g : Stage) : Bool := g == .edge || g == .compute || g == .ready

/-- Block BRU. `held` is the device held in reset, `pcieUp` the PCI Express controller out of it; `cdOut` marks the compute dies that
ran out of time, `fromWatch` a start that follows Watch. -/
structure Bru where
  stage : Stage := .rom
  held : Bool := true
  edgeUp : BitVec 4 := 0
  cdDone : BitVec 20 := 0
  pendingSet : Bool := false
  tRootFw : BitVec 16 := 0
  tReady : BitVec 16 := 0
  cause : BitVec 4 := 0
  pcieUp : Bool := false
  cdOut : BitVec 20 := 0
  fromWatch : Bool := false
  deriving DecidableEq, Repr

end Sys2Proof.Machine
end

