-- ==== Sys2Proof/Machine/StTime.lean ====
section
/-!
DEFINITION. State of the time base, its servo, the domain trackers, timed-start units and PPS pins (spec 09, block TBS).
-/
namespace Sys2Proof.Machine

/-- States of the time base (R311). -/
inductive TbState where
  | invalid | locked | holdover
  deriving DecidableEq, Repr

/-- A servo source's qualification run (R314): consecutive good differences, the last offset, whether one was seen. -/
structure SrcSt where
  qual : Bool := false
  run : Nat := 0
  last : Int := 0
  seen : Bool := false
  deriving DecidableEq, Repr

/-- A domain tracker (R314, R317, TBS.DOMCFG, TBS.DOMSTAT, TBS.DOMOFS). `gm` is the grandmaster identity. `syncRx`, `reqTx`, `reqRx` and
`respRx` hold, by SEQ and in 2^−16 ns, the receive time of the last Sync less its origin time, the transmit time of the last own
delay request, the receive time of the peer's, and the receive time of a two-step Pdelay_Resp less what its Follow_Up completes. -/
structure Domain where
  en : Bool := false
  profile : Bool := false
  udp : Bool := false
  port : Bool := false
  slaveOnly : Bool := true
  domain : BitVec 8 := 0
  prio1 : BitVec 8 := 0x80
  prio2 : BitVec 8 := 0x80
  pstate : BitVec 3 := 0
  utcOfs : BitVec 8 := 0
  gmChanges : BitVec 8 := 0
  ofs : BitVec 32 := 0
  gm : Option (BitVec 64) := none
  parent : Option (BitVec 80) := none
  pathDelay : Int := 0
  syncRx : Option (Nat × Int) := none
  reqTx : Option (Nat × Int) := none
  reqRx : Option (Nat × Int) := none
  respRx : Option (Nat × Int) := none
  deriving DecidableEq, Repr

/-- The timestamp of a PTP event message, sent or received, as it reaches the root firmware with the frame (R320). -/
structure PtpStamp where
  sent : Bool := false
  kind : Nat := 0
  seqNo : Nat := 0
  time : Int := 0
  deriving DecidableEq, Repr

/-- Calibration and counters of one time port (TBS.PORTCAL, TBS.PORTSTAT), and the timestamps of its event messages. -/
structure TimePort where
  rxLat : BitVec 8 := 0
  txLat : BitVec 8 := 0
  asym : BitVec 16 := 0
  discard : BitVec 16 := 0
  events : BitVec 16 := 0
  stamps : List PtpStamp := []
  deriving DecidableEq, Repr

/-- A timed-start unit (R323–R326, TBS.TSU). `n` counts the firings since armed; `passed` marks a START already passed: whether a step
carried the value past it, and the time value then. -/
structure Tsu where
  armed : Bool := false
  late : Bool := false
  target : BitVec 4 := 0
  missed : BitVec 10 := 0
  fired : BitVec 16 := 0
  start : TimeVal := 0
  period : Nat := 0
  count : Nat := 0
  tparam : BitVec 32 := 0
  n : Nat := 0
  passed : Option (Bool × TimeVal) := none
  deriving DecidableEq, Repr

/-- A PPS_OUT pin (R329, R330, TBS.PPS). `lastEnd` is the end of its previous pulse, `edge` the last second-boundary edge dealt with,
`want` the firings that ask for a pulse. -/
structure PpsPin where
  mode : BitVec 2 := 0
  pol : Bool := false
  unit : BitVec 5 := 0
  skipped : BitVec 8 := 0
  offset : Int := 0
  width : Nat := 0
  lastEnd : TimeVal := 0
  edge : Option TimeVal := none
  want : List TimeVal := []
  deriving DecidableEq, Repr

/-- Gains of a servo source (TBS.SERVO). -/
structure Gains where
  kp : BitVec 16 := 0x0300
  ki : BitVec 16 := 0x0140
  deriving DecidableEq, Repr

/-- TBS.CTRL and TBS.LIMITS. -/
structure TbCtrl where
  lock : Bool := false
  srcEn : BitVec 4 := 0
  primary : BitVec 2 := 0
  revert : Bool := false
  falling : Bool := false
  qualN : BitVec 4 := 4
  qualThr : BitVec 8 := 0x64
  deriving DecidableEq, Repr

/-- The time base. `value` counts 2^−32 ns (R308); `integ` is the integrator in 2^−24 (R309). `run` counts as `value` does and is never
stepped, `past` holds it in each of the last cycles, newest first; `stepAt` is `run` in 2^−16 ns at the step of R313 and `stepBy` what
the step added to the value, in 2^−32 ns. `due` lists the completed measurements not yet applied, by source (R309). -/
structure TimeBase where
  value : Nat := 0
  run : Nat := 0
  past : List Nat := []
  stepAt : Nat := 0
  stepBy : Int := 0
  due : List (Nat × Int) := []
  fadj : Int := 0
  integ : Int := 0
  st : TbState := .invalid
  active : Option Nat := none
  switches : BitVec 16 := 0
  ctrl : TbCtrl := {}
  lt0 : Word := 0
  lt1 : Word := 0
  lt2 : Word := 0
  ppsin : Word := 0
  srcs : SMap SrcSt := []
  gains : SMap Gains := []
  domains : SMap Domain := []
  ports : SMap TimePort := []
  tsu : SMap Tsu := []
  pps : SMap PpsPin := []
  deriving DecidableEq, Repr

end Sys2Proof.Machine
end

