-- ==== Sys2Proof/Machine/StTrigger.lean ====
section
/-!
DEFINITION. State of the trigger pipelines and TRIG lines (spec 11, block TRP).
-/
namespace Sys2Proof.Machine

/-- Pipeline states (R387). -/
inductive PState where
  | idle | warm | live | halted | stopped
  deriving DecidableEq, Repr

/-- TRP.DETA, TRP.DETB and TRP.PX of a pipeline. -/
structure PipeCtl where
  thr : BitVec 16 := 0x3C00
  hys : BitVec 16 := 0
  dir : BitVec 2 := 0
  single : Bool := false
  epochReq : Bool := false
  warm : BitVec 12 := 0x040
  holdoff : BitVec 12 := 0
  xout : Bool := false
  groupOut : BitVec 4 := 0
  xin : BitVec 16 := 0
  deriving DecidableEq, Repr

/-- An entry set in flight (R367, R372): its pin time, where that lies on the time base's `run`, its pin cycle and the die on whose deckle
clock it is read; of the reference port's entry the frame TS and first sample index; the frames, by SID and SEQ, of its entries that have
not ended; whether the time base was INVALID at the pin time; the entries that have come; whether a frame of it failed later (R386). -/
structure EntrySet where
  pin : TimeVal := 0
  at_ : Nat := 0
  pinCycle : Nat := 0
  die : Nat := 0
  ts : TimeVal := 0
  first : Nat := 0
  frames : List (Nat × BitVec 16) := []
  untimed : Bool := false
  got : Nat := 0
  hasRef : Bool := false
  bad : Bool := false
  deriving DecidableEq, Repr

/-- A delivered entry on its way to the ingress stage (R365–R369): port, stream, entry, pin time and where it lies on `run`, frame TS and
SEQ, index of its first sample, whether its frame has ended since, and whether it failed (R386). -/
structure Arrival where
  port : BitVec 16 := 0
  sid : Nat := 0
  entry : BitVec 128 := 0
  pin : TimeVal := 0
  at_ : Nat := 0
  ts : TimeVal := 0
  seq : BitVec 16 := 0
  first : Nat := 0
  untimed : Bool := false
  ended : Bool := false
  bad : Bool := false
  deriving DecidableEq, Repr

/-- A port of a pipeline (R362): number, ingress cluster and tile, bound SID, whether its delivery has begun (R371), and the
entries placed since the start. -/
structure Port where
  num : BitVec 16 := 0
  vx : Nat := 0
  vy : Nat := 0
  tile : Nat := 0
  sid : Option Nat := none
  started : Bool := false
  count : Nat := 0
  deriving DecidableEq, Repr

/-- A sent trigger, kept while a frame of its entry set has not ended, so that a retraction can name it (R385). -/
structure SentTrig where
  tseq : BitVec 16 := 0
  sid : Nat := 0
  frames : List (Nat × BitVec 16) := []
  tpoint : TimeVal := 0
  due : TimeVal := 0
  falling : Bool := false
  untimed : Bool := false
  deriving DecidableEq, Repr

/-- A message that waits for DUE (R384). -/
structure TrigMsg where
  tpoint : TimeVal := 0
  due : TimeVal := 0
  tseq : BitVec 16 := 0
  rank : BitVec 15 := 0
  sid : BitVec 10 := 0
  pipe : BitVec 6 := 0
  group : BitVec 4 := 0
  source : BitVec 4 := 0
  line : BitVec 3 := 0
  falling : Bool := false
  untimed : Bool := false
  bad : Bool := false
  deriving DecidableEq, Repr

/-- The running state of a pipeline's detector and release unit (R376–R383). -/
structure Detect where
  armed : Bool := false
  epoch : TimeVal := 0
  rearmed : Bool := true
  since : Option Nat := none
  prev : Option (BitVec 32) := none
  warmLeft : Nat := 0
  minSlack : BitVec 16 := 0xFFFF
  deriving DecidableEq, Repr

/-- One pipeline. `starting` holds from a RUN_SHEET or restart until its clusters run; `warmAt` is when it entered WARM, `gapRun` when its
gap opened, `faults` when it halted with cause FAULT, all on `run`; `judged` counts the entry sets released since WARM. `last` is the
frame time and the samples of it up to the last one judged; `unit` the decision entries in the release unit, with the cycles in which they
reached it (R374). -/
structure Pipe where
  st : PState := .idle
  gap : Bool := false
  cause : BitVec 3 := 0
  gapStart : TimeVal := 0
  gapRun : Nat := 0
  wrIgn : Bool := false
  handle : BitVec 16 := 0
  index : BitVec 8 := 0
  deckle : BitVec 13 := 0
  pad : BitVec 13 := 0
  ctl : PipeCtl := {}
  det : Detect := {}
  triggers : BitVec 16 := 0
  gaps : BitVec 8 := 0
  late : BitVec 8 := 0
  ports : List Port := []
  decVx : Nat := 0
  decVy : Nat := 0
  decTile : Nat := 0
  faults : List Nat := []
  starting : Bool := false
  warmAt : Nat := 0
  judged : Nat := 0
  last : Option (TimeVal × Nat) := none
  inq : List Arrival := []
  sets : List EntrySet := []
  unit : List (BitVec 128 × Nat) := []
  sent : List SentTrig := []
  deriving DecidableEq, Repr

/-- A TRIG line (R394–R397). -/
structure TrigLine where
  mode : BitVec 2 := 0
  pol : Bool := false
  subOfs : Bool := false
  dly : BitVec 9 := 0
  width : BitVec 10 := 0x064
  mask : BitVec 64 := 0
  unclaimedWr : Bool := false
  merged : BitVec 8 := 0
  edges : BitVec 16 := 0
  lastEnd : TimeVal := 0
  sched : List TrigMsg := []
  deriving DecidableEq, Repr

/-- The deckle clock of a compute die (R368): `arith` counts fifths of ARITH cycles, `stampArith` and `stampTime` are its last reading
by the time base, `frames` the calender frames since, modulo 5. -/
structure DeckleClock where
  arith : Nat := 0
  stampArith : Nat := 0
  stampTime : TimeVal := 0
  frames : Nat := 0
  deriving DecidableEq, Repr

/-- Pipelines, lines, messages whose DUE has not come, messages that have reached each edge die's headbox, and by compute die the deckle
clocks. -/
structure Trp where
  clocks : SMap DeckleClock := []
  pipes : SMap Pipe := []
  lines : SMap TrigLine := []
  msgs : List TrigMsg := []
  inbox : SMap (List TrigMsg) := []
  deriving DecidableEq, Repr

end Sys2Proof.Machine
end

