-- ==== Sys2Proof/Machine/StVat.lean ====
section
/-!
DEFINITION. State of the vat (spec 13, block VAT).
-/
namespace Sys2Proof.Machine

/-- A sweep as submitted (R433), with its addresses in the form of R495 and its strides in bytes. -/
structure Sweep where
  op : BitVec 3 := 0
  handle : BitVec 16 := 0
  list : Bool := false
  first : Nat := 0
  count : Nat := 0
  listA : Nat := 0
  data : Nat := 0
  stride : Nat := 0
  out : Nat := 0
  ostride : Nat := 0
  stat : Nat := 0
  report : Nat := 0
  wide : Bool := false
  ring : BitVec 12 := 0
  tag : BitVec 16 := 0
  quiet : Bool := false
  seqNo : Nat := 0
  tpl : Option Nat := none
  deriving DecidableEq, Repr

/-- A port of a model (R431). -/
structure VatPort where
  inXy : BitVec 16 := 0
  inTile : BitVec 8 := 0
  outXy : BitVec 16 := 0
  outTile : BitVec 8 := 0
  deriving DecidableEq, Repr

/-- A model record (R431). -/
structure VatModel where
  inB : Nat := 0
  outB : Nat := 0
  batch : Nat := 0
  ports : List VatPort := []
  deriving DecidableEq, Repr

/-- A context between fetch and commit (R438, R441, R442): its selection index, its number, its old bytes, its input record. -/
structure Ctx where
  sel : Nat := 0
  num : Nat := 0
  old : List Byte := []
  inp : List Byte := []
  deriving DecidableEq, Repr

/-- A batch (R437): model, codebook set, quarter, contexts in order, its number once closed, and whether it has been delivered
before (R447). -/
structure Batch where
  model : Nat := 0
  cbset : Nat := 0
  quarter : Nat := 0
  ctxs : List Ctx := []
  num : Nat := 0
  again : Bool := false
  deriving DecidableEq, Repr

/-- The sweep in progress (R434–R447). `seen` marks the indices that occurred, `status` is keyed by selection index, default 7;
`next` is the next selection index of each quarter, `counts` the batches closed by 4 × model + quarter. `closed` holds the
batches to deliver, `sending` by quarter the port key and the entries still to go of the batch it delivers, `delivered` the
batches whose delivery has begun, with their port keys 16 × model + port, in that order; `ret` the return entries taken so far
by port key. `tend` is the time of the last write-back, `reread` marks a replay before which the model table is read again,
`fault` a sweep that a cluster event ended (R447), `cut` one that a function reset ended (R473), `full` a CLEAR of every
context (R427). -/
structure Run where
  sweep : Sweep := {}
  models : List VatModel := []
  tstart : TimeVal := 0
  seen : SMap Bool := []
  status : SMap Nat := []
  next : SMap Nat := []
  open_ : List Batch := []
  closed : List Batch := []
  sending : SMap (Nat × List Entry) := []
  delivered : List (Nat × Batch) := []
  ret : SMap (List Entry) := []
  counts : SMap Nat := []
  batches : Nat := 0
  hits : Nat := 0
  tend : TimeVal := 0
  reread : Bool := false
  fault : Bool := false
  cut : Bool := false
  full : Bool := false
  deriving DecidableEq, Repr

/-- The vat. Caches are keyed by quarter and hold (context, dirty) in order of use; `held` keeps what the dirty entries of a context have yet
to write back (R443). -/
structure Vat where
  wide : Bool := false
  busy : Bool := false
  op : BitVec 3 := 0
  queue : List Sweep := []
  templates : SMap Sweep := []
  skipped : BitVec 16 := 0
  seq : BitVec 32 := 0
  lost : SMap Bool := []
  inflight : SMap Nat := []
  cache : SMap (List (Nat × Bool)) := []
  held : SMap (List Byte) := []
  hits : SMap (BitVec 32) := []
  readErr : SMap (BitVec 16) := []
  faults : SMap (BitVec 8) := []
  replays : SMap (BitVec 8) := []
  run : Run := {}
  deriving DecidableEq, Repr

end Sys2Proof.Machine
end

