-- ==== Sys2Proof/Machine/StXomos.lean ====
section
/-!
DEFINITION. State of the Xomos ports and of the system they join (spec 16, blocks XMS, XPT).
-/
namespace Sys2Proof.Machine

/-- A packet held until acknowledged (R530, R531, R537). -/
structure Packet where
  seqNo : BitVec 12 := 0
  cls : BitVec 4 := 0
  dst : BitVec 15 := 0
  src : BitVec 15 := 0
  kind : BitVec 4 := 0
  tag : BitVec 32 := 0
  data : List (BitVec 96) := []
  resends : Nat := 0
  deriving DecidableEq, Repr

/-- Retry state of one class of one port (R535–R537): next SEQ to send, packets held, packets waiting for room,
those sent that wait for a segment of their class (R533), next SEQ expected, when the NAK for it went out, whether accepted packets await
an ACK. -/
structure PortCls where
  txSeq : BitVec 12 := 0
  store : List Packet := []
  queue : List Packet := []
  out : List Packet := []
  rxSeq : BitVec 12 := 0
  nakAt : Option Nat := none
  ackDue : Bool := false
  deriving DecidableEq, Repr

/-- A COORD as received on a port (R531, R563, R565). -/
structure CoordRx where
  origin : BitVec 32 := 0
  x : BitVec 5 := 0
  y : BitVec 5 := 0
  z : BitVec 5 := 0
  parent : BitVec 4 := 0
  hops : BitVec 6 := 0
  epoch : BitVec 8 := 0
  deriving DecidableEq, Repr

/-- One Xomos port (block XPT). -/
structure XPort where
  nbValid : Bool := false
  miswired : Bool := false
  nbRank : BitVec 15 := 0
  nbPort : BitVec 3 := 0
  nbId : BitVec 32 := 0
  delay : BitVec 16 := 0
  fofs : BitVec 16 := 0
  asym : BitVec 16 := 0
  resends : BitVec 16 := 0
  naks : BitVec 8 := 0
  downs : BitVec 8 := 0
  drift : Bool := false
  tsync : Option (Nat × TimeVal) := none
  t2 : Option TimeVal := none
  t4 : Option TimeVal := none
  coord : Option CoordRx := none
  confirm : Option (BitVec 15) := none
  cls : SMap PortCls := []
  deriving DecidableEq, Repr

/-- Discovery states (R569). -/
inductive XState where
  | alone | ports | flooded | confirmed | routed | aligned | ready | duplicate
  deriving DecidableEq, Repr

/-- A rank's link state (R540, R541). -/
structure LinkMap where
  active : BitVec 8 := 0
  lsv : BitVec 8 := 0
  deriving DecidableEq, Repr

/-- A trigger key in the cache (R544). -/
structure TrigKey where
  rank : BitVec 15 := 0
  pipe : BitVec 6 := 0
  tseq : BitVec 16 := 0
  bad : Bool := false
  seen : Nat := 0
  deriving DecidableEq, Repr

/-- Block XMS registers. -/
structure XmsRegs where
  enable : Bool := false
  origin : Bool := false
  skip : Bool := false
  dx : BitVec 5 := 0
  dy : BitVec 5 := 0
  dz : BitVec 5 := 0
  lock : Bool := false
  x : BitVec 5 := 0
  y : BitVec 5 := 0
  z : BitVec 5 := 0
  parent : BitVec 4 := 0xF
  originLost : Bool := false
  epoch : BitVec 8 := 0
  rank : BitVec 15 := 0
  count : BitVec 15 := 0
  missing : BitVec 15 := 0
  lsv : BitVec 8 := 0
  originId : BitVec 32 := 0
  frame : BitVec 32 := 0
  ctimeout : BitVec 16 := 0x03E8
  radius : BitVec 6 := 0x2A
  deriving DecidableEq, Repr

/-- XMS counters. -/
structure XmsCnt where
  dup : BitVec 16 := 0
  stale : BitVec 8 := 0
  full : BitVec 8 := 0
  changes : BitVec 16 := 0
  unreach : BitVec 15 := 0
  mismatch : BitVec 8 := 0
  timeout : BitVec 8 := 0
  replays : BitVec 8 := 0
  lost : BitVec 8 := 0
  deriving DecidableEq, Repr

/-- The system as this device sees it. `dims`, `sysSkip` and `hops` come with the COORD held; `routes` gives the next
port by rank; `na` is the alignment frame, `started` a START written, `late` that the device is a late joiner, `dirty` that the link
map is newer than the routes, `last` the rank and LSV of the last LINK block taken, `arrived` the trigger packets accepted and not yet
handled, `gone` the ranks that have left the system, `collIn` the collective packets accepted (R554, R557), `replayDue` the images that COLL_REPLAY is to replay (R560), `segments` the installed table of 32
segments (R255, R534). -/
structure Xms where
  st : XState := .alone
  regs : XmsRegs := {}
  cnt : XmsCnt := {}
  ports : SMap XPort := []
  dims : Nat × Nat × Nat := (1, 1, 1)
  sysSkip : Bool := false
  hops : BitVec 6 := 0
  started : Bool := false
  late : Bool := false
  goSeen : Bool := false
  map : SMap LinkMap := []
  routes : SMap (Option Nat) := []
  dirty : Bool := false
  last : BitVec 15 × BitVec 8 := (0, 0)
  arrived : List (Nat × Packet) := []
  gone : SMap Bool := []
  keys : List TrigKey := []
  na : Option Nat := none
  exch : BitVec 8 := 0
  collIn : List Packet := []
  replayDue : List Nat := []
  segments : SMap (BitVec 16) := []
  deriving DecidableEq, Repr

end Sys2Proof.Machine
end

