-- ==== Sys2Proof/Machine/State.lean ====
section
/-!
DEFINITION. The whole state of the Doltia as plain data, its reset, and the reasons a step can stop.
-/
namespace Sys2Proof.Machine

/-- The state of the device, the host memory it reaches, and the commands that wait. `free` counts the free values
taken, `out` is the model's own trace of what left the device, `wcap` holds the captures of R693, `enables` the
PWR_EN_SOC and PWR_EN_ARITH outputs (R711). -/
structure State where
  pending : List Instr := []
  free : Nat := 0
  out : List Out := []
  host : Mem := []
  fab : Fabric := {}
  gddr : Gddr := {}
  images : SMap Image := []
  lanes : SMap LnpGroup := []
  tb : TimeBase := {}
  hbx : Headbox := {}
  trp : Trp := {}
  vat : Vat := {}
  pcx : Pcx := {}
  hif : HostIf := {}
  xms : Xms := {}
  flt : Flt := {}
  svc : Svc := {}
  pwr : Pwr := {}
  dnd : Dnd := {}
  sec : Sec := {}
  bru : Bru := {}
  wcap : SMap (Option (BitVec 32)) := []
  stepA1 : Bool := false
  enables : BitVec 2 := 0
  deriving DecidableEq, Repr

/-- Why a step faults. No command of the device faults: the spec gives each an effect, and no meaning raises a fault. -/
inductive Fault where
  /-- Kept for a command whose operands no device can carry; no meaning raises it. Safe: nothing is claimed of it. -/
  | illFormed
  deriving DecidableEq, Repr

/-- Why a step is refused. -/
inductive Refusal where
  /-- Kept for an arm of exec without a meaning; there is none. Safe: nothing is claimed of it. -/
  | notModelled (mnemonic : String)
  deriving DecidableEq, Repr

/-- The clusters fused as spare: the four of highest v and u of each die (a DESIGN CHOICE, the fuses record any four,
R18; log entry 3). -/
def fusedSpares : SMap Service :=
  (List.range 20).flatMap fun k => (List.range 4).map fun j => (44 * k + 40 + j, Service.spare)

/-- The state right after power-on, with reset still held (R672–R675, R695): every register at its reset value, the
fuses and the boot flash as manufacture left them. -/
def State.reset : State := { fab := { service := fusedSpares } }

end Sys2Proof.Machine
end

