-- ==== Sys2Proof/Machine/Calender.lean ====
section
/-!
DEFINITION. The calender tables that a manifest carries: the defaults, and the rules that verification holds them to (R253–R266, R533,
R534, R656). The layout of the part is not given: its fields are free values (log entry 58).
-/
namespace Sys2Proof.Machine

/-- CLASS and DIR of each window run of the default GDDR6 table: first slot, end, class, direction (R264). -/
def gddrDefault : List (Nat × Nat × Nat × Nat) :=
  [(0, 16, 2, 0), (16, 80, 3, 0), (80, 144, 5, 0), (144, 208, 4, 0), (208, 272, 5, 0), (272, 288, 2, 0), (288, 352, 1, 1),
   (352, 416, 4, 1), (416, 480, 5, 1), (480, 544, 6, 1), (544, 560, 2, 0), (560, 624, 6, 0), (624, 688, 5, 0), (688, 752, 7, 0),
   (752, 816, 9, 0), (816, 832, 2, 0), (832, 850, 1, 1), (864, 928, 7, 1), (928, 1024, 5, 1)]

/-- An entry of a class and a direction (R254). -/
def calEntry (cls dir : Nat) : BitVec 16 := BitVec.ofNat 16 (4096 * cls + 2048 * dir)

/-- The default GDDR6 table (R264). -/
def gcalDefault : List (BitVec 16) :=
  (List.range 1024).map fun k => match gddrDefault.find? fun r => decide (r.1 ≤ k) && decide (k < r.2.1) with
    | some r => calEntry r.2.2.1 r.2.2.2
    | none => 0

/-- The class of a slot of the default mesh table (R266). -/
def mcalClass (p : Nat) : Nat :=
  if p < 2 then 3 else if p < 4 then 1 else if p < 8 then 4 else if p < 12 then 6 else if p < 16 then 7 else if p = 16 then 8 else 5

/-- The default mesh table (R266). -/
def mcalDefault : List (BitVec 16) := (List.range 1024).map fun k => calEntry (mcalClass (k % 32)) 0

/-- The default table of a Xomos port: its 32 segments (R534). -/
def xcalDefault : List (BitVec 16) := (List.range 32).map fun p => calEntry (if p % 16 = 0 then 3 else if p % 16 = 8 then 8 else 6) 0

/-- The CLASS of an entry (R254). -/
def entryClass (e : BitVec 16) : Nat := e.toNat / 4096

/-- The DIR of an entry (R254). -/
def entryWrites (e : BitVec 16) : Bool := e.getLsbD 11

/-- The slots of a window that are not IDLE (R256). -/
def windowSlots (t : List (BitVec 16)) (k : Nat) : List (BitVec 16) := ((t.drop (16 * k)).take 16).filter fun e => entryClass e != 0

/-- Whether a window carries one class in one direction, apart from its IDLE slots (R256, R258, R261). -/
def windowOk (t : List (BitVec 16)) (k : Nat) : Bool :=
  match windowSlots t k with
  | [] => true
  | e :: rest => rest.all fun x => entryClass x == entryClass e && entryWrites x == entryWrites e

/-- The direction of a window that carries data: not REF, nor IDLE. -/
def windowDir (t : List (BitVec 16)) (k : Nat) : Option Bool :=
  match windowSlots t k with
  | [] => none
  | e :: _ => if entryClass e = 2 then none else some (entryWrites e)

/-- Whether a window that carries no data lies between this data window and the next, where their directions differ; the frame's last
window is followed by its first (R258). -/
def turnOk (t : List (BitVec 16)) (k : Nat) : Bool :=
  match windowDir t k, windowDir t ((k + 1) % 64) with
  | some a, some b => a == b
  | _, _ => true

/-- Whether a quad has a REF window (R256, R261). -/
def quadRefreshed (t : List (BitVec 16)) (q : Nat) : Bool :=
  (List.range 16).any fun j => (windowSlots t (4 * j + q)).any fun e => entryClass e == 2

/-- Whether a GDDR6 table keeps R256–R261. -/
def gddrTableOk (t : List (BitVec 16)) : Bool :=
  (List.range 64).all (fun k => windowOk t k && turnOk t k) && (List.range 4).all (quadRefreshed t)

/-- The entries of a table in a part of TYPE 5, from a field on. -/
def partTable (part : List Byte) (first n : Nat) : List (BitVec 16) :=
  (List.range n).map fun k => BitVec.ofNat 16 (Config.partField 5 (first + k) part)

/-- Where the tables of a part of TYPE 5 begin among its fields; the first three are their identities. -/
def gcalField : Nat := 3
def mcalField : Nat := 1027
def xcalField : Nat := 2051

/-- Whether a part of TYPE 5 passes its content checks: its GDDR6 table keeps R256–R261, and its tables are those of R264, R266 and R534
(R255, R656). -/
def calenderOk (part : List Byte) : Bool :=
  gddrTableOk (partTable part gcalField 1024) && partTable part gcalField 1024 == gcalDefault &&
    partTable part mcalField 1024 == mcalDefault && partTable part xcalField 32 == xcalDefault

/-- A table as the root firmware installs it (R255). -/
def tableMap (t : List (BitVec 16)) : SMap (BitVec 16) := (List.range t.length).zip t

/-- The segment of a Xomos port's calender frame: 32 MESH cycles of the 1,024, with `frame` in 1/3 ns (R533). -/
def State.segment (s : State) : Nat := s.gddr.frame / 64

/-- The class whose packets the blocks of a slot carry that begins now (R533, R534). -/
def State.segmentClass (s : State) : Nat := entryClass (SMap.get 0 s.xms.segments s.segment)

end Sys2Proof.Machine
end

