-- ==== Sys2Proof/Machine/Crossing.lean ====
section
/-!
DEFINITION. The clock domains and the crossings between them: what each holds and how long a transfer takes (R31–R33). Of
these queues State holds those of cluster links and the requests of the memory channels; what passes another arrives within one command
(DESIGN CHOICE, log entry 95).
-/
namespace Sys2Proof.Machine

/-- A clock domain (R31). A LANE domain runs at its group's rate: a rate code of block mode, 0 for the base rate (R281). -/
inductive ClockDomain where
  | arith | mesh | mc | pcie | lane (rate : Nat) | time | svc | dandy
  deriving DecidableEq, Repr

/-- The period of a domain in 1/48 ns (R31): 98 bits of a lane in block mode, 20 at the base rate. -/
def ClockDomain.period : ClockDomain → Nat
  | .arith => 20
  | .mesh | .mc => 32
  | .pcie | .time => 48
  | .lane rate => if rate = 0 then 768 else 48 * 98 / 2 ^ (rate + 1)
  | .svc => 40
  | .dandy => 192

/-- A crossing (R32), named by what crosses. Those of a lane group carry its rate code; `calender` and `start` go from TIME to the domain
named. -/
inductive Crossing where
  | clusterOut | clusterIn | clusterLink (b0 : Bool) | memRequest | memReturn | laneIn (rate : Nat) | laneOut (rate : Nat)
  | marker (rate : Nat) | pulse (reader : ClockDomain) | timeRead | register | response | hostIn | hostOut | dandyCommand | dandyStatus
  | wakeLine | watchData (rate : Nat)
  deriving DecidableEq, Repr

/-- The writing and the reading domain of a crossing (R32). -/
def Crossing.ends : Crossing → ClockDomain × ClockDomain
  | .clusterOut => (.arith, .mesh)
  | .clusterIn => (.mesh, .arith)
  | .clusterLink _ => (.arith, .arith)
  | .memRequest => (.mesh, .mc)
  | .memReturn => (.mc, .mesh)
  | .laneIn rate => (.lane rate, .mesh)
  | .laneOut rate => (.mesh, .lane rate)
  | .marker rate => (.lane rate, .time)
  | .pulse reader => (.time, reader)
  | .timeRead => (.time, .svc)
  | .register => (.svc, .mesh)
  | .response => (.mesh, .svc)
  | .hostIn => (.pcie, .mesh)
  | .hostOut => (.mesh, .pcie)
  | .dandyCommand => (.svc, .dandy)
  | .dandyStatus => (.dandy, .svc)
  | .wakeLine => (.dandy, .svc)
  | .watchData rate => (.lane rate, .dandy)

/-- The entries that a crossing holds, and the bits of each (R32): per cluster, link, channel or lane where the table says so. A single
bit synchroniser holds none. -/
def Crossing.queue : Crossing → Nat × Nat
  | .clusterOut | .clusterIn => (8, 512)
  | .clusterLink _ => (8, 256)
  | .memRequest => (32, 512)
  | .memReturn => (64, 512)
  | .laneIn _ | .laneOut _ => (64, 96)
  | .timeRead => (4, 96)
  | .register | .response => (16, 512)
  | .hostIn | .hostOut => (64, 512)
  | .dandyCommand | .dandyStatus => (8, 64)
  | .watchData _ => (16, 512)
  | .marker _ | .pulse _ | .wakeLine => (0, 1)

/-- The entries that a crossing holds. -/
def Crossing.depth (c : Crossing) : Nat := c.queue.1

/-- The earliest and latest latency of a transfer in 1/48 ns (R32, R33): one writer cycle and two to three reader cycles through a queue,
two to three reader cycles of a single bit, and a fixed number over a cluster link. -/
def Crossing.latency (c : Crossing) : Nat × Nat :=
  let w := c.ends.1.period
  let r := c.ends.2.period
  match c with
  | .clusterLink b0 => ((if b0 then 5 else 6) * r, (if b0 then 5 else 6) * r)
  | .marker _ | .pulse _ | .wakeLine => (2 * r, 3 * r)
  | _ => (w + 2 * r, w + 3 * r)

end Sys2Proof.Machine
end

