-- ==== Sys2Proof/Machine/Numeric.lean ====
section
/-!
DEFINITION. Floating-point values, exact arithmetic on them, and the roundings of R134 and R167 (spec 04).
-/
namespace Sys2Proof.Machine

/-- A binary floating-point format: fraction bits and exponent bits. -/
structure FloatFmt where
  frac : Nat
  expo : Nat
  deriving DecidableEq, Repr

/-- W16 (R130). -/
def w16 : FloatFmt := ⟨9, 6⟩

/-- F32, IEEE 754 binary32 (R132). -/
def f32 : FloatFmt := ⟨23, 8⟩

/-- IEEE 754 binary64 (R420). -/
def f64 : FloatFmt := ⟨52, 11⟩

/-- The exponent bias of a format. -/
def FloatFmt.bias (f : FloatFmt) : Nat := 2 ^ (f.expo - 1) - 1

/-- The encoding of +∞. -/
def FloatFmt.infBits (f : FloatFmt) : Nat := (2 ^ f.expo - 1) * 2 ^ f.frac

/-- The weight of the sign bit. -/
def FloatFmt.signBit (f : FloatFmt) : Nat := 2 ^ (f.frac + f.expo)

/-- The canonical NaN: 0x7F00 in W16, 0x7FC0_0000 in F32 (R133). -/
def FloatFmt.nanBits (f : FloatFmt) : Nat := f.infBits + 2 ^ (f.frac - 1)

/-- An exact value: NaN, an infinity, or sign × mag × 2^ex. -/
inductive FVal where
  | nan
  | inf (neg : Bool)
  | fin (neg : Bool) (mag : Nat) (ex : Int)
  deriving DecidableEq, Repr

/-- The value of an encoding (R131, R132). -/
def FVal.ofBits (f : FloatFmt) (b : Nat) : FVal :=
  let neg := bitAt b (f.frac + f.expo)
  let e := bitsOf b f.frac f.expo
  let m := bitsOf b 0 f.frac
  if e = 2 ^ f.expo - 1 then (if m = 0 then .inf neg else .nan)
  else if e = 0 then .fin neg m (1 - (f.bias : Int) - f.frac)
  else .fin neg (2 ^ f.frac + m) ((e : Int) - f.bias - f.frac)

/-- The value of an integer. -/
def FVal.ofInt (x : Int) : FVal := .fin (decide (x < 0)) x.natAbs 0

/-- The value num × 2^ex of an integer and a power of two. -/
def FVal.ofDyadic (x : Int) (ex : Int) : FVal := .fin (decide (x < 0)) x.natAbs ex

/-- The opposite value. -/
def FVal.neg : FVal → FVal
  | .nan => .nan
  | .inf n => .inf (!n)
  | .fin n m e => .fin (!n) m e

/-- The magnitude with its sign, as an integer. -/
def signedMag (neg : Bool) (m : Nat) : Int := if neg then -(m : Int) else m

/-- Exact sum (R134: a zero sum of equal-signed zeros keeps the sign, any other exact zero is +0). -/
def FVal.add : FVal → FVal → FVal
  | .nan, _ => .nan
  | _, .nan => .nan
  | .inf a, .inf b => if a = b then .inf a else .nan
  | .inf a, _ => .inf a
  | _, .inf b => .inf b
  | .fin a m e, .fin b n k =>
    let x := min e k
    let s := signedMag a (m * 2 ^ (e - x).toNat) + signedMag b (n * 2 ^ (k - x).toNat)
    if s = 0 then .fin (a && b && (m == 0) && (n == 0)) 0 0 else .fin (decide (s < 0)) s.natAbs x

/-- Exact difference. -/
def FVal.sub (a b : FVal) : FVal := a.add b.neg

/-- Exact product (R134: a zero product has the exclusive or of the signs). -/
def FVal.mul : FVal → FVal → FVal
  | .nan, _ => .nan
  | _, .nan => .nan
  | .inf a, .inf b => .inf (a != b)
  | .inf a, .fin b n _ => if n = 0 then .nan else .inf (a != b)
  | .fin a m _, .inf b => if m = 0 then .nan else .inf (a != b)
  | .fin a m e, .fin b n k => .fin (a != b) (m * n) (e + k)

/-- Whether a value is NaN. -/
def FVal.isNan : FVal → Bool
  | .nan => true
  | _ => false

/-- The order of two values that are not NaN, −0 equal to +0 (R162). -/
def FVal.compare : FVal → FVal → Ordering
  | .inf a, .inf b => if a = b then .eq else if a then .lt else .gt
  | .inf a, _ => if a then .lt else .gt
  | _, .inf b => if b then .gt else .lt
  | .fin a m e, .fin b n k =>
    let x := min e k
    Ord.compare (signedMag a (m * 2 ^ (e - x).toNat)) (signedMag b (n * 2 ^ (k - x).toNat))
  | _, _ => .eq

/-- a < b, false where either is NaN. -/
def FVal.lt (a b : FVal) : Bool := !a.isNan && !b.isNan && (a.compare b == .lt)

/-- a ≤ b, false where either is NaN. -/
def FVal.le (a b : FVal) : Bool := !a.isNan && !b.isNan && (a.compare b != .gt)

/-- a = b, false where either is NaN. -/
def FVal.eqv (a b : FVal) : Bool := !a.isNan && !b.isNan && (a.compare b == .eq)

/-- The order with −0 below +0, for MAX and MIN (R160). -/
def FVal.below (a b : FVal) : Bool :=
  a.lt b ||
    match a, b with
    | .fin true 0 _, .fin false 0 _ => true
    | _, _ => false

/-- floor(log2(n ÷ d)) for n, d above 0. -/
def ratLog2 (n d : Nat) : Int :=
  let k : Int := (Nat.log2 n : Int) - Nat.log2 d
  if n * 2 ^ (-k).toNat < d * 2 ^ k.toNat then k - 1 else k

/-- How a magnitude is rounded: to nearest even, by 16 random bits (R167), or towards zero. -/
inductive RoundMode where
  | nearest
  | random (u : Nat)
  | down
  deriving DecidableEq, Repr

/-- The kept integer of n ÷ d under a rounding. -/
def roundKept (mode : RoundMode) (n d : Nat) : Nat :=
  let k := n / d
  let r := n % d
  match mode with
  | .nearest => if 2 * r > d || (2 * r == d && k % 2 == 1) then k + 1 else k
  | .random u => if r * 65536 / d + u % 65536 ≥ 65536 then k + 1 else k
  | .down => k

/-- The magnitude bits of n ÷ d > 0 in a format, not yet cut at infinity. -/
def roundMag (f : FloatFmt) (mode : RoundMode) (n d : Nat) : Nat :=
  let q : Int := max (ratLog2 n d - f.frac) (1 - (f.bias : Int) - f.frac)
  let kept := roundKept mode (n * 2 ^ (-q).toNat) (d * 2 ^ q.toNat)
  (q + f.frac + f.bias - 1).toNat * 2 ^ f.frac + kept

/-- The encoding of ± n ÷ d rounded once, and whether a finite value became infinite. -/
def roundRat (f : FloatFmt) (mode : RoundMode) (neg : Bool) (n d : Nat) : Nat × Bool :=
  let s := if neg then f.signBit else 0
  if n = 0 then (s, false)
  else
    let m := roundMag f mode n d
    if m ≥ f.infBits then (s + f.infBits, true) else (s + m, false)

/-- The encoding of an exact value rounded once, and whether a finite value became infinite (R133, R134). -/
def FVal.round (f : FloatFmt) (mode : RoundMode) : FVal → Nat × Bool
  | .nan => (f.nanBits, false)
  | .inf n => ((if n then f.signBit else 0) + f.infBits, false)
  | .fin neg m e => roundRat f mode neg (m * 2 ^ e.toNat) (2 ^ (-e).toNat)

/-- The encoding rounded to nearest even. -/
def FVal.toBits (f : FloatFmt) (v : FVal) : Nat := (v.round f .nearest).1

/-- An exact rational: integer numerator, denominator above 0. -/
structure Ratio where
  num : Int
  den : Nat
  deriving DecidableEq, Repr

/-- The rational of a finite value; 0 for others. -/
def FVal.ratio : FVal → Ratio
  | .fin neg m e => ⟨signedMag neg (m * 2 ^ e.toNat), 2 ^ (-e).toNat⟩
  | _ => ⟨0, 1⟩

/-- Sum of rationals. -/
def Ratio.add (a b : Ratio) : Ratio := ⟨a.num * b.den + b.num * a.den, a.den * b.den⟩

/-- Difference of rationals. -/
def Ratio.sub (a b : Ratio) : Ratio := ⟨a.num * b.den - b.num * a.den, a.den * b.den⟩

/-- Product of rationals. -/
def Ratio.mul (a b : Ratio) : Ratio := ⟨a.num * b.num, a.den * b.den⟩

/-- Quotient of rationals, the divisor not 0. -/
def Ratio.div (a b : Ratio) : Ratio :=
  if b.num < 0 then ⟨-(a.num * b.den), a.den * b.num.natAbs⟩ else ⟨a.num * b.den, a.den * b.num.natAbs⟩

/-- a < b. -/
def Ratio.lt (a b : Ratio) : Bool := decide (a.num * b.den < b.num * a.den)

/-- a = b. -/
def Ratio.eqv (a b : Ratio) : Bool := decide (a.num * b.den = b.num * a.den)

/-- The absolute value. -/
def Ratio.abs (a : Ratio) : Ratio := ⟨a.num.natAbs, a.den⟩

/-- A rational rounded once; an exact zero is +0. -/
def Ratio.round (f : FloatFmt) (a : Ratio) : Nat × Bool :=
  roundRat f .nearest (decide (a.num < 0)) a.num.natAbs a.den

/-- A rational rounded to the nearest integer, ties to even. -/
def Ratio.roundInt (a : Ratio) : Int :=
  signedMag (decide (a.num < 0)) (roundKept .nearest a.num.natAbs a.den)

/-- Square root, bit by bit from bit `b`. -/
def isqrtFrom : Nat → Nat → Nat → Nat
  | 0, n, acc => if (acc + 1) * (acc + 1) ≤ n then acc + 1 else acc
  | b + 1, n, acc =>
    let t := acc + 2 ^ (b + 1)
    isqrtFrom b n (if t * t ≤ n then t else acc)

/-- floor(√n). -/
def isqrt (n : Nat) : Nat := isqrtFrom (Nat.log2 n / 2) n 0

end Sys2Proof.Machine
end

