-- ==== Sys2Proof/Machine/Flags.lean ====
section
/-!
DEFINITION. Flag and counter computations: saturating counters, the sync flags, the event bits of a cluster, the counts
of clamped lanes and of overflows (R82, R84, R99, R134, R149, R158, R609).
-/
namespace Sys2Proof.Machine

/-- A counter of `w` bits that saturates at all ones, raised by `d`. -/
def satBump {w : Nat} (x : BitVec w) (d : Nat) : BitVec w := BitVec.ofNat w (satAdd (2 ^ w - 1) x.toNat d)

/-- Flag `f` of a cluster (R80). -/
def Cluster.flag (x : Cluster) (f : Nat) : BitVec 16 := SMap.get 0 x.flags f

/-- Sets flag `f`. -/
def Cluster.setFlag (x : Cluster) (f : Nat) (v : BitVec 16) : Cluster := { x with flags := SMap.set 0 x.flags f v }

/-- Adds to a flag; an update above 65,535 is not made (R82, R84). -/
def Cluster.flagAdd (x : Cluster) (f n : Nat) : Option Cluster :=
  let v := (x.flag f).toNat + n
  if v > 65535 then none else some (x.setFlag f (BitVec.ofNat 16 v))

/-- The events of R99 with their codes in the CLUSTER_EVENT record (R523). -/
inductive ClCode where
  | stallDeadlock | routeError | farRange | sramRange | flagOverflow | tokenOverrun
  deriving DecidableEq, Repr

/-- The code of an event in its record (R523). -/
def ClCode.code : ClCode → Nat
  | .stallDeadlock => 0
  | .routeError => 1
  | .farRange => 2
  | .sramRange => 3
  | .flagOverflow => 4
  | .tokenOverrun => 5

/-- The bit of an event in CLC.EVENT. -/
def ClCode.bit : ClCode → Nat
  | .stallDeadlock => 0
  | .routeError => 2
  | .farRange => 3
  | .tokenOverrun => 4
  | .flagOverflow => 5
  | .sramRange => 6

/-- A cluster event to raise: its code, CAUSE, DETAIL, and the queues listed as (tile, code) (R94, R523). -/
structure ClEvent where
  code : ClCode
  cause : Nat := 0
  detail : Nat := 0
  queues : List (Nat × Nat) := []
  deriving DecidableEq, Repr

/-- Sets bit `n` of CLC.EVENT and counts the set (R609). -/
def ClcRegs.setEvent (r : ClcRegs) (n : Nat) : ClcRegs :=
  { r with event := r.event ||| BitVec.ofNat 8 (2 ^ n), evtCnt := SMap.modify 0 r.evtCnt n fun k => satBump k 1 }

/-- Counts clamped lanes and overflows in CLC.SAT (R134, R149, R158). -/
def Tile.countSat (x : Tile) (ints fps : Nat) : Tile :=
  { x with satInt := satBump x.satInt ints, satFp := satBump x.satFp fps }

/-- How many of a list of flags hold. -/
def countTrue (l : List Bool) : Nat := l.countP id

end Sys2Proof.Machine
end

