-- ==== Sys2Proof/Machine/Operands.lean ====
section
/-!
DEFINITION. The tile operation word, its input selectors, lanes, and the tables and accumulators that operands come from
(R44, R66–R71, R101, R110, R129–R138, R157, R170).
-/
namespace Sys2Proof.Machine

/-- OPC, bits [63:58] (R66). -/
def opOpc (o : BitVec 64) : Nat := bitsOf o.toNat 58 6
/-- SELA, bits [57:54]. -/
def opSelA (o : BitVec 64) : Nat := bitsOf o.toNat 54 4
/-- SELB, bits [53:50]. -/
def opSelB (o : BitVec 64) : Nat := bitsOf o.toNat 50 4
/-- OUT, bits [49:46]: N in bit 3 down to W in bit 0. -/
def opOut (o : BitVec 64) : Nat := bitsOf o.toNat 46 4
/-- DST, bits [45:40]. -/
def opDst (o : BitVec 64) : Nat := bitsOf o.toNat 40 6
/-- SRC, bits [39:34]. -/
def opSrc (o : BitVec 64) : Nat := bitsOf o.toNat 34 6
/-- FMT, bits [33:32]: 0 C4, 1 C8, 2 W16, 3 F32. -/
def opFmt (o : BitVec 64) : Nat := bitsOf o.toNat 32 2
/-- SEL, bits [31:24]. -/
def opSel (o : BitVec 64) : Nat := bitsOf o.toNat 24 8
/-- IMM, bits [23:0]. -/
def opImm (o : BitVec 64) : Nat := bitsOf o.toNat 0 24

/-- Whether a 4-bit direction mask names direction `d` (N 0, E 1, S 2, W 3), N in bit 3. -/
def maskHas (mask d : Nat) : Bool := d < 4 && bitAt mask (3 - d)

/-- The issue units (R40, R46). -/
inductive TUnit where
  | none | mul | alu | sfu | siz | mem | far | sync | steer
  deriving DecidableEq, Repr

/-- The unit of an opcode (R73). -/
def unitOf (opc : Nat) : TUnit :=
  if opc = 0 then .none
  else if opc ≤ 0x06 then .mul
  else if opc ≤ 0x14 then .alu
  else if opc ≤ 0x1B then .sfu
  else if opc ≤ 0x1E then .siz
  else if opc = 0x21 then .alu
  else if opc ≤ 0x23 then .mem
  else if opc ≤ 0x25 then .far
  else if opc ≤ 0x29 then .sync
  else if opc ≤ 0x2E then .steer
  else if opc = 0x2F then .alu
  else .none

/-- Whether a tile mode provides a unit (R46). -/
def unitIn (m : TileMode) (u : TUnit) : Bool :=
  match m, u with
  | .unconfigured, _ => false
  | _, .none => false
  | .multiplier, .sfu | .multiplier, .siz => false
  | .special, .mul => false
  | .memory, .mul | .memory, .sfu => false
  | .io, .mul | .io, .sfu | .io, .siz => false
  | _, _ => true

/-- Operations a unit issues in a cycle in a tile mode (R46, R62). -/
def issueWidth (m : TileMode) (u : TUnit) : Nat :=
  match m, u with
  | .multiplier, .mul | .special, .sfu | .memory, .mem => 2
  | _, _ => 1

/-- Bits of a lane in a format (R44). -/
def laneBits (fmt : Nat) : Nat := 4 * 2 ^ fmt

/-- Lanes of an entry in a format (R44). -/
def laneCount (fmt : Nat) : Nat := 32 / 2 ^ fmt

/-- Lane `k` of an entry in a format. -/
def lane (fmt x k : Nat) : Nat := bitsOf x (laneBits fmt * k) (laneBits fmt)

/-- Lanes packed from the lowest upward, `w` bits each. -/
def packLanes (w : Nat) : List Nat → Nat
  | [] => 0
  | x :: xs => x % 2 ^ w + 2 ^ w * packLanes w xs

/-- An entry built lane by lane in a format. -/
def buildLanes (fmt : Nat) (f : Nat → Nat) : Nat :=
  packLanes (laneBits fmt) ((List.range (laneCount fmt)).map f)

/-- The floating-point format of FMT 2 and 3. -/
def fmtFloat (fmt : Nat) : FloatFmt := if fmt = 2 then w16 else f32

/-- An entry with a value in every lane. -/
def broadcast (fmt v : Nat) : Nat := buildLanes fmt fun _ => v

/-- Register Gn; G0 reads as 0 (R41). -/
def Tile.reg (x : Tile) (n : Nat) : BitVec 32 := if n = 0 then 0 else SMap.get 0 x.regs n

/-- Writes register Gn; a write to G0 is discarded (R41). -/
def Tile.setReg (x : Tile) (n : Nat) (v : BitVec 32) : Tile :=
  if n = 0 then x else { x with regs := SMap.set 0 x.regs n v }

/-- The operation word at a store index. -/
def Tile.op (x : Tile) (i : Nat) : BitVec 64 := SMap.get 0 x.cfg.ops i

/-- Word `w` of table `n` (R138, R139). -/
def Tile.tableWord (x : Tile) (n w : Nat) : BitVec 16 := SMap.get 0 x.tables (256 * n + w)

/-- Codebook slot `k` (R135). -/
def Tile.book (x : Tile) (k : Nat) : Codebook := SMap.get {} x.books k

/-- The value of a code in a slot (R135–R137). -/
def Codebook.value (b : Codebook) (code : Nat) : Int :=
  if code = b.zero.toNat then 0
  else if !b.wide && code ≥ 16 then 0
  else (SMap.get 0 b.vals code).toInt

/-- Accumulator `k` (R146). -/
def Tile.acc (x : Tile) (k : Nat) : BitVec 40 := SMap.get 0 x.accs k

/-- Accumulator `k` as an F32 encoding (R146). -/
def Tile.accF (x : Tile) (k : Nat) : Nat := (x.acc k).toNat % 2 ^ 32

/-- The queue codes R67 selectors 0x1–0x6 name (R95). -/
def selQueue (sel : Nat) : Option Nat := if 1 ≤ sel ∧ sel ≤ 6 then some (sel - 1) else none

/-- The queues that operations outside STEER select: A, B, and L1 for SELECT's mask; one that A and B share counts once
(R63, R73). -/
def opQueues (o : BitVec 64) : List Nat :=
  let a := (selQueue (opSelA o)).toList
  let b := (selQueue (opSelB o)).toList
  (a ++ b ++ (if opOpc o = 0x13 then [5] else [])).eraseDups

/-- Whether an operation streams from SRAM (selector 0xA). -/
def opStreams (o : BitVec 64) : Bool := opSelA o = 0xA || opSelB o = 0xA

/-- Bytes of the SRAM stream per firing: 32 for a C4 product's B, else 16 (R45, R67). -/
def streamBytes (o : BitVec 64) : Nat :=
  if 1 ≤ opOpc o ∧ opOpc o ≤ 3 ∧ opFmt o = 0 ∧ opSelB o = 0xA then 32 else 16

/-- A W16 encoding as the lane value of an immediate: in F32, the same value in F32 (R67). -/
def immLane (fmt imm : Nat) : Nat :=
  if fmt = 3 then (FVal.ofBits w16 (imm % 65536)).toBits f32 else imm

/-- A 40-bit integer × 2^−s as an F32 encoding, rounded to nearest even (R153). -/
def accToF32 (a : BitVec 40) (s : Nat) : Nat := (FVal.ofDyadic a.toInt (-(s : Int))).toBits f32

/-- Entry 0 of the accumulators in a format with s 0, rounded to nearest even (R153, R157). R157 does not say whether a lane that becomes
infinite here counts as an overflow: none is counted (DESIGN CHOICE, log entry 89). -/
def Tile.accEntry (x : Tile) (fmt : Nat) : Nat :=
  if fmt = 2 then buildLanes 2 fun k => (FVal.ofBits f32 (x.accF k)).toBits w16
  else if fmt = 3 then buildLanes 3 fun k => x.accF k
  else buildLanes 3 fun k => accToF32 (x.acc k) 0

/-- The data of an input selector (R67), given the head of each queue and the stream bytes. -/
def Tile.input (x : Tile) (o : BitVec 64) (sel stream : Nat) : Nat :=
  match selQueue sel with
  | some q => ((SMap.get [] x.queues q).headD 0).toNat
  | none =>
    if sel = 0x8 then broadcast (opFmt o) (x.reg (opSrc o)).toNat
    else if sel = 0x9 then broadcast (opFmt o) (immLane (opFmt o) (opImm o))
    else if sel = 0xA then stream
    else if sel = 0xB then x.accEntry (opFmt o)
    else 0

/-- One round of the generator (R170). -/
def rngRound (k0 k1 : BitVec 32) (x : BitVec 128) : BitVec 128 :=
  let x0 := x.extractLsb' 0 32
  let x1 := x.extractLsb' 32 32
  let x2 := x.extractLsb' 64 32
  let x3 := x.extractLsb' 96 32
  let p0 : BitVec 64 := 0xB4E15C93#64 * x0.setWidth 64
  let p1 : BitVec 64 := 0xE7A23D61#64 * x2.setWidth 64
  let y0 := p1.extractLsb' 32 32 ^^^ x1 ^^^ k0
  let y1 := p1.extractLsb' 0 32
  let y2 := p0.extractLsb' 32 32 ^^^ x3 ^^^ k1
  let y3 := p0.extractLsb' 0 32
  y3 ++ y2 ++ y1 ++ y0

/-- The rounds of the generator with the keys advanced between them (R170). -/
def rngRounds : Nat → BitVec 32 → BitVec 32 → BitVec 128 → BitVec 128
  | 0, _, _, x => x
  | n + 1, k0, k1, x => rngRounds n (k0 + 0x9E3779B9) (k1 + 0xB7E15163) (rngRound k0 k1 x)

/-- The draw of a counter under a seed (R170). -/
def rngDraw (seed : BitVec 64) (x : BitVec 128) : BitVec 128 :=
  rngRounds 10 (seed.extractLsb' 0 32) (seed.extractLsb' 32 32) x

/-- The counter words of a draw: stream kind `p` and identity `id`, index `n` (R169). -/
def rngCounter (r : ClcRegs) (tile p id : Nat) (n : BitVec 37) : BitVec 128 :=
  let x0 : BitVec 32 := n.extractLsb' 0 32
  let x1 : BitVec 32 := r.sheetCount
  let x2 : BitVec 32 := r.vx ++ r.vy ++ BitVec.ofNat 6 tile ++ BitVec.ofNat 2 p ++ BitVec.ofNat 8 id ++ n.extractLsb' 32 5
  let x3 : BitVec 32 := r.rank ++ (0 : BitVec 17)
  x3 ++ x2 ++ x1 ++ x0

/-- The COUNT of a control token (R101). -/
def tokCount (k : BitVec 32) : Nat := bitsOf k.toNat 0 24
/-- The ROUTE of a control token, N in bit 3. -/
def tokRoute (k : BitVec 32) : Nat := bitsOf k.toNat 28 4
/-- The LOCAL bit of a control token. -/
def tokLocal (k : BitVec 32) : Bool := bitAt k.toNat 27
/-- The choice bit C of a control token. -/
def tokChoice (k : BitVec 32) : Bool := bitAt k.toNat 28

/-- A control token from ROUTE and LOCAL (five bits, LOCAL lowest) and COUNT, with its RSV bits 0 (R101, R110). -/
def mkToken (routeLocal count : Nat) : BitVec 32 :=
  BitVec.ofNat 32 (routeLocal % 32 * 2 ^ 27 + count % 2 ^ 24)

end Sys2Proof.Machine
end

