-- ==== Sys2Proof/Machine/Tile.lean ====
section
/-!
DEFINITION. What the operations of a tile share: queues and the chest (R58, R85–R88), SRAM (R85, R598), when an operation
is ready (R60–R64, R112), taking its inputs and sending its result (R63, R65, R69).
-/
namespace Sys2Proof.Machine

/-- Tile `t` of a cluster. -/
def Cluster.tile (x : Cluster) (t : Nat) : Tile := SMap.get {} x.tiles t

/-- Replaces tile `t`. -/
def Cluster.setTile (x : Cluster) (t : Nat) (y : Tile) : Cluster := { x with tiles := SMap.set {} x.tiles t y }

/-- Whether a tile runs: it is configured and, while a stream is delivered, has applied its part (R123, R124). -/
def Cluster.tileOpen (x : Cluster) (t : Nat) : Bool :=
  (x.tile t).cfg.mode != .unconfigured && (!x.cfg.started || x.cfg.delivered.contains t)

/-- Whether operations of a cluster fire: in RUN and, but for the sources that a drain stops, in DRAIN and DRAINED (R97;
log entry 27). -/
def Cluster.fires (x : Cluster) : Bool := x.st == .run || x.st == .drain || x.st == .drained

/-- The depth of an input, local or token queue (R58). -/
def queueDepth (q : Nat) : Nat := if q < 4 then 4 else 8

/-- The entries of queue `q` (codes of R95, 0–5). -/
def Tile.queue (y : Tile) (q : Nat) : List Entry := SMap.get [] y.queues q

/-- How many entries queue `q` holds, the token queue included. -/
def Tile.queueLen (y : Tile) (q : Nat) : Nat := if q = 6 then y.tokenQ.length else (y.queue q).length

/-- Whether a queue is in spill (R88). -/
def Tile.inSpill (y : Tile) (q : Nat) : Bool := y.spill.getLsbD q

/-- Whether the chest has a free entry (R85). -/
def Tile.chestRoom (y : Tile) : Bool := decide (y.chest.length < y.cfg.quota)

/-- Whether an arrival to a queue has a place: in the queue, or in the chest while it spills (R60, R87, R88). -/
def Tile.room (y : Tile) (q : Nat) : Bool :=
  if y.inSpill q then y.chestRoom else decide (y.queueLen q < queueDepth q)

/-- Puts an entry at the tail of a queue. -/
def Tile.enqueue (y : Tile) (q : Nat) (e : Entry) : Tile :=
  if q = 6 then { y with tokenQ := y.tokenQ ++ [e.setWidth 32] }
  else { y with queues := SMap.set [] y.queues q (y.queue q ++ [e]) }

/-- Removes the head of a queue. -/
def Tile.pop (y : Tile) (q : Nat) : Tile :=
  if q = 6 then { y with tokenQ := y.tokenQ.tail }
  else { y with queues := SMap.set [] y.queues q (y.queue q).tail }

/-- An arrival at a queue: to its tail, or to the chest tail while it spills, counted in CLC.SPILLS (R88). The spec gives no layout of
the chest's SRAM bytes: the model keeps its entries as a list apart and leaves the bytes as they were (DESIGN CHOICE, log entry 78). -/
def Cluster.push (x : Cluster) (t q : Nat) (e : Entry) : Cluster :=
  let y := x.tile t
  if y.inSpill q then
    let y' := { y with chest := y.chest ++ [(q, e)] }
    { x.setTile t y' with
      regs := { x.regs with
        spills := satBump x.regs.spills 1
        chestMax := BitVec.ofNat 9 (max x.regs.chestMax.toNat y'.chest.length) } }
  else x.setTile t (y.enqueue q e)

/-- The bytes of SRAM below the chest (R85). -/
def Tile.sramLimit (y : Tile) : Nat := 12288 - 16 * y.cfg.quota

/-- Whether an access lies below the chest and 12 KiB (R85). -/
def Tile.sramOk (y : Tile) (a n : Nat) : Bool := decide (a + n ≤ y.sramLimit)

/-- Marks the 64 B lines that a write of `n` bytes at `a` touches (R598). -/
def markLines (dirty : List Nat) (a n : Nat) : List Nat :=
  if n = 0 then dirty
  else (List.range ((a + n - 1) / 64 - a / 64 + 1)).foldl
    (fun l k => if l.contains (a / 64 + k) then l else l ++ [a / 64 + k]) dirty

/-- Writes bytes to tile SRAM and marks their lines. -/
def Tile.sramWrite (y : Tile) (a : Nat) (bs : List Byte) : Tile :=
  { y with sram := y.sram.writeBytes a bs, dirty := markLines y.dirty a bs.length }

/-- The event of an access that R85 forbids. -/
def sramRange (t a : Nat) : ClEvent := { code := .sramRange, detail := a % 2 ^ 14 + t * 2 ^ 32 }

/-- How the result of an opcode leaves (R69, R102). -/
inductive ResultKind where
  | none | vector | scalar | token
  deriving DecidableEq, Repr

/-- MODE of a STATS word (R178). -/
def statsMode (o : BitVec 64) : Nat := bitsOf (opImm o) 22 2

/-- The result kind of a word outside STEER (R69, R102, R178). -/
def resultKind (o : BitVec 64) : ResultKind :=
  let k := opOpc o
  if k = 0x0C ∨ k = 0x0D ∨ k = 0x27 then .scalar
  else if k = 0x29 ∨ k = 0x2E then .token
  else if [0, 1, 2, 5, 0x20, 0x22, 0x23, 0x24, 0x25, 0x26, 0x28].contains k then .none
  else if k = 0x1E ∧ (statsMode o = 0 ∨ statsMode o = 3) then .none
  else .vector

/-- The queue a vector or token result goes to in its own tile (R69, R102). -/
def localDest (o : BitVec 64) : Option Nat :=
  match resultKind o with
  | .vector => if opDst o = 1 then some 4 else if opDst o = 2 then some 5 else none
  | .token => if opDst o = 7 then some 6 else none
  | _ => none

/-- The direction mask a result is copied to (R69). OUT of an operation without a result is not used; of ST and LDI it is accepted all
the same (DESIGN CHOICE, log entry 79). -/
def outMask (o : BitVec 64) : Nat :=
  match resultKind o with
  | .none => 0
  | _ => opOut o

/-- Whether every output register of a mask is empty (R60). -/
def Tile.outsFree (y : Tile) (mask : Nat) : Bool :=
  (List.range 4).all fun d => !maskHas mask d || (SMap.get none y.outR d).isNone

/-- Whether a local destination has room, taking the queue `skip` as having it (R60, R87). -/
def Tile.destRoom (y : Tile) (dest skip : Option Nat) : Bool :=
  match dest with
  | none => true
  | some q => skip == some q || y.room q

/-- Copies an entry into the output registers of a mask. -/
def Tile.drive (y : Tile) (mask : Nat) (e : Entry) : Tile :=
  { y with outR := (List.range 4).foldl (fun m d => if maskHas mask d then SMap.set none m d (some e) else m) y.outR }

/-- Copies an entry to the registers of a mask and to a local destination (R65). -/
def Cluster.send (x : Cluster) (t mask : Nat) (dest : Option Nat) (e : Entry) : Cluster :=
  let x' := x.setTile t ((x.tile t).drive mask e)
  match dest with
  | none => x'
  | some q => x'.push t q e

/-- What a STEER operation does with its head token (R112–R115). -/
structure SteerStep where
  queue : Nat := 0
  popData : Bool := true
  emit : Bool := true
  mask : Nat := 0
  toDst : Bool := false
  error : Bool := false
  deriving DecidableEq, Repr

/-- The local queue a DST of 1 or 2 names. -/
def dstQueue (o : BitVec 64) : Option Nat := if opDst o = 1 then some 4 else if opDst o = 2 then some 5 else none

/-- The step of SWITCH, MERGE, REPEAT or DROP on its head token, none where a token of COUNT 0 leaves without a firing
(R112, R114, R115). -/
def steerStep (o : BitVec 64) (k : BitVec 32) : Option SteerStep :=
  let b := opSelB o - 1
  let dst := (dstQueue o).isSome
  match opOpc o with
  | 0x2A =>
    if tokCount k = 0 then none
    else some { queue := b, mask := tokRoute k, toDst := tokLocal k
                error := (List.range 4).any (fun d => maskHas (tokRoute k) d && !maskHas (opOut o) d) ||
                  (tokLocal k && !dst) }
  | 0x2B =>
    if tokCount k = 0 then none
    else some { queue := if tokChoice k then bitsOf (opImm o) 0 4 - 1 else b, mask := opOut o, toDst := dst }
  | 0x2C =>
    if tokCount k = 0 then some { queue := b, emit := false }
    else some { queue := b, popData := tokCount k == 1, mask := opOut o, toDst := dst }
  | 0x2D =>
    if tokCount k = 0 then none
    else if tokChoice k then some { queue := b, emit := false }
    else some { queue := b, mask := opOut o, toDst := dst }
  | _ => none

/-- The firings an operation without a queue input may make in a sheet: none for no bound (R64). -/
def fireLimit (o : BitVec 64) : Option Nat :=
  if opOpc o = 0x1F ∨ opOpc o = 0x2F ∨ opOpc o = 0x2E then (if opImm o = 0 then none else some (opImm o)) else some 1

/-- Firings operation `i` has made in this sheet. -/
def Tile.firedN (y : Tile) (i : Nat) : Nat := SMap.get 0 y.fired i

/-- Whether an operation that selects no queue has firings left (R64, R97). -/
def Cluster.sourceLeft (x : Cluster) (t i : Nat) : Bool :=
  match fireLimit ((x.tile t).op i) with
  | none => x.st == .run
  | some n => (x.st == .run || x.st == .drain) && decide ((x.tile t).firedN i < n)

/-- Whether some multi-entry result of a unit has entries left, so that the unit is busy (R155, R164). -/
def Tile.unitBusy (y : Tile) (u : TUnit) : Bool :=
  match u with
  | .mul => (SMap.get {} y.emit 0).entries != []
  | .alu => (SMap.get {} y.emit 1).entries != []
  | .siz => (SMap.get {} y.emit 2).entries != []
  | .far => y.farJobs != []
  | _ => false

/-- Whether the conditions of R60 (for STEER, R112 and R115) hold for an operation, the room of queue `skip` taken as
given. A bad SWITCH token raises its error once its data entry is present, whatever room there is, and never at COUNT 0 (DESIGN
CHOICE, log entry 80). -/
def Cluster.readyBut (x : Cluster) (t i : Nat) (skip : Option Nat) : Bool :=
  let y := x.tile t
  let o := y.op i
  let u := unitOf (opOpc o)
  unitIn y.cfg.mode u && !y.unitBusy u && x.tileOpen t &&
  if [0x2A, 0x2B, 0x2C, 0x2D].contains (opOpc o) then
    match y.tokenQ with
    | [] => false
    | k :: _ =>
      match steerStep o k with
      | none => false
      | some st =>
        y.queueLen st.queue != 0 &&
        (st.error || !st.emit || (y.outsFree st.mask && y.destRoom (if st.toDst then dstQueue o else none) skip))
  else
    (opQueues o).all (fun q => y.queueLen q != 0) &&
    (opQueues o != [] || x.sourceLeft t i) &&
    y.outsFree (outMask o) && y.destRoom (localDest o) skip &&
    (opOpc o != 0x27 || decide (bitsOf (opImm o) 0 16 ≤ (x.flag (bitsOf (opSel o) 0 6)).toNat))

/-- Whether the conditions of R60 hold for an operation. -/
def Cluster.ready (x : Cluster) (t i : Nat) : Bool := x.readyBut t i none

/-- Whether an operation is ready and among the operations of its unit in its tile that the cycle may issue: the lowest store
indices (R62). -/
def Cluster.issuesIn (x : Cluster) (t i : Nat) : Bool :=
  let y := x.tile t
  let u := unitOf (opOpc (y.op i))
  x.ready t i &&
    decide ((y.cfg.ops.filter fun p => decide (p.1 < i) && (unitOf (opOpc p.2) == u) && x.ready t p.1).length
      < issueWidth y.cfg.mode u)

/-- Whether a word is a WAIT_FLAG on a flag. -/
def waitsOn (f : Nat) (o : BitVec 64) : Bool := opOpc o == 0x27 && bitsOf (opSel o) 0 6 == f

/-- Whether a tile's WAIT_FLAGs on a flag have had their turn of the cycle before tile `t`: the last to fire was one of that tile or
after it, and of a tile before `t` (R62, R83). -/
def Cluster.hadTurn (x : Cluster) (f t u : Nat) : Bool :=
  (SMap.get none x.waitTurn f).any fun l => decide (u ≤ l) && decide (l < t)

/-- Whether the cycle may issue an operation: its tile may, and no tile of lower index has a WAIT_FLAG on the flag of this one to issue
whose turn of the cycle is still to come (R62, R83). -/
def Cluster.issues (x : Cluster) (t i : Nat) : Bool :=
  let o := (x.tile t).op i
  let f := bitsOf (opSel o) 0 6
  x.issuesIn t i && (opOpc o != 0x27 || !x.tiles.any fun p =>
    decide (p.1 < t) && !x.hadTurn f t p.1 && p.2.cfg.ops.any fun q => waitsOn f q.2 && x.issuesIn p.1 q.1)

/-- An operation in its firing: its cluster with the inputs taken, its place, its word, and the data of A, B and L1. -/
structure Fire where
  x : Cluster := {}
  t : Nat := 0
  i : Nat := 0
  o : BitVec 64 := 0
  a : Nat := 0
  b : Nat := 0
  mask : Nat := 0
  deriving DecidableEq, Repr

/-- The tile of a firing. -/
def Fire.tile (f : Fire) : Tile := f.x.tile f.t

/-- Counts a firing. -/
def Tile.countFire (y : Tile) (i : Nat) : Tile := { y with fired := SMap.modify 0 y.fired i (· + 1) }

/-- Takes the inputs of an operation outside STEER: pops each selected queue once and advances a stream pointer, after
the range check (R63, R67, R85). -/
def Cluster.take (x : Cluster) (t i : Nat) : Except ClEvent Fire :=
  let y := x.tile t
  let o := y.op i
  let p := (y.reg (opSrc o)).toNat
  let n := if opOpc o = 0x23 then 0 else streamBytes o
  if opStreams o && !y.sramOk p n then .error (sramRange t p)
  else
    let w := if opStreams o then leNat (y.sram.readBytes p n) else 0
    let y' := (opQueues o).foldl (fun z q => z.pop q) y
    let y' := if opStreams o then y'.setReg (opSrc o) (BitVec.ofNat 32 (p + n)) else y'
    .ok { x := x.setTile t (y'.countFire i), t, i, o
          a := y.input o (opSelA o) w, b := y.input o (opSelB o) w
          mask := ((y.queue 5).headD 0).toNat }

/-- Sends the first entry of a result and keeps the rest for later cycles under key `u` (R155, R164). -/
def Fire.emitAll (f : Fire) (u : Nat) (l : List Nat) : Cluster :=
  match l with
  | [] => f.x
  | e :: rest =>
    let x := f.x.send f.t (outMask f.o) (localDest f.o) (BitVec.ofNat 128 e)
    let y := x.tile f.t
    x.setTile f.t { y with emit := SMap.set {} y.emit u { entries := rest.map fun e => (f.i, BitVec.ofNat 128 e) } }

/-- Sends a one-entry result (R65). -/
def Fire.emit (f : Fire) (e : Nat) : Cluster := f.x.send f.t (outMask f.o) (localDest f.o) (BitVec.ofNat 128 e)

/-- The firing with its tile replaced. -/
def Fire.withTile (f : Fire) (y : Tile) : Fire := { f with x := f.x.setTile f.t y }

/-- Sends a scalar: to the register DST names and, in bits [31:0] of an entry, to the directions (R69). -/
def Fire.emitScalar (f : Fire) (v : Nat) : Cluster :=
  let f' := f.withTile (f.tile.setReg (opDst f.o) (BitVec.ofNat 32 v))
  f'.x.send f.t (outMask f.o) none (BitVec.ofNat 128 (v % 2 ^ 32))

/-- Sends a token: to the own token queue with DST 7, and to the directions as an entry (R102). -/
def Fire.emitToken (f : Fire) (k : BitVec 32) : Cluster := f.x.send f.t (outMask f.o) (localDest f.o) (k.setWidth 128)

/-- Takes the next draw of a random stream, kind `p` and identity `id` (R168–R171). -/
def Fire.draw (f : Fire) (p id : Nat) : BitVec 128 × Fire :=
  let y := f.tile
  let n := SMap.get 0 y.draws (256 * p + id)
  (rngDraw f.x.regs.seed (rngCounter f.x.regs f.t p id n),
   f.withTile { y with draws := SMap.set 0 y.draws (256 * p + id) (n + 1) })

/-- Whether the tile rounds stochastically (R166). -/
def Fire.sround (f : Fire) : Bool := f.x.regs.sround.getLsbD f.t

/-- The rounding of lane `k` under a draw, nearest where there is none (R166–R168). -/
def drawMode (d : Option (BitVec 128)) (k : Nat) : RoundMode :=
  match d with
  | none => .nearest
  | some u => .random (bitsOf u.toNat (16 * k) 16)

/-- The draw of a firing for a rounding that R166 lists, taken where the tile rounds stochastically (R168). -/
def Fire.roundDraw (f : Fire) : Option (BitVec 128) × Fire :=
  if f.sround then let r := f.draw 1 f.i; (some r.1, r.2) else (none, f)

end Sys2Proof.Machine
end

