-- ==== Sys2Proof/Machine/Ops.lean ====
section
/-!
DEFINITION. The shared operations on the whole state: places in the package, GDDR6 bytes, time values, the event ring and
MSI-X, fault records, completions, coverage gaps, aborting and ending sheets.
-/
namespace Sys2Proof.Machine

/-! ## Places (R17, R18) -/

/-- The column and row of compute die CDk in the 5 × 5 array (R17). -/
def diePos (k : Nat) : Nat × Nat :=
  [(0, 0), (1, 0), (3, 0), (4, 0), (0, 1), (1, 1), (2, 1), (3, 1), (4, 1), (1, 2), (3, 2), (0, 3), (1, 3), (2, 3),
   (3, 3), (4, 3), (0, 4), (1, 4), (3, 4), (4, 4)].getD k (9, 9)

/-- The compute die at a column and row (R17). -/
def dieAt (c r : Nat) : Option Nat := (List.range 20).find? fun k => diePos k == (c, r)

/-- Physical x of a cluster (R18); 0 for the dandy's, which R18 gives no place (DESIGN CHOICE, log entry 108). -/
def physX (c : Nat) : Nat := if c < 880 then 11 * (diePos (c / 44)).1 + c % 44 % 11 else 0

/-- Physical y of a cluster (R18); 0 for the dandy's (DESIGN CHOICE, log entry 108). -/
def physY (c : Nat) : Nat := if c < 880 then 4 * (diePos (c / 44)).2 + c % 44 / 11 else 0

/-- The cluster at P(x,y) (R18). -/
def clusterAt (x y : Nat) : Option Nat := (dieAt (x / 11) (y / 4)).map fun k => 44 * k + 11 * (y % 4) + x % 11

/-- The neighbour of a cluster in direction `d`: none across the edge dies, the root die and the rim (R18, R21, R54). -/
def clusterNeighbour (c d : Nat) : Option Nat :=
  if c ≥ 880 then none
  else
    let x := physX c
    let y := physY c
    match d with
    | 0 => if y = 0 then none else clusterAt x (y - 1)
    | 1 => clusterAt (x + 1) y
    | 2 => clusterAt x (y + 1)
    | _ => if x = 0 then none else clusterAt (x - 1) y

/-- Mesh distance of two positions of the array, in die hops. -/
def hops (a b : Nat × Nat) : Nat := ((a.1 : Int) - b.1).natAbs + ((a.2 : Int) - b.2).natAbs

/-! ## Access to parts of the state -/

/-- The cluster of a key. -/
def State.cl (s : State) (c : Nat) : Cluster := SMap.get {} s.fab.clusters c

/-- Replaces a cluster. -/
def State.setCl (s : State) (c : Nat) (x : Cluster) : State :=
  { s with fab := { s.fab with clusters := SMap.set {} s.fab.clusters c x } }

/-- CLC.ID.SERVICE of a cluster. -/
def State.service (s : State) (c : Nat) : Service := SMap.get .inService s.fab.service c

/-- Sets CLC.ID.SERVICE. -/
def State.setService (s : State) (c : Nat) (v : Service) : State :=
  { s with fab := { s.fab with service := SMap.set .inService s.fab.service c v } }

/-- A stream's registers on a cluster link. -/
def State.link (s : State) (k : Nat) : LinkSt := SMap.get {} s.fab.links k

/-- Replaces a stream's registers on a cluster link. -/
def State.setLink (s : State) (k : Nat) (v : LinkSt) : State :=
  { s with fab := { s.fab with links := SMap.set {} s.fab.links k v } }

/-- The key of a link stream. -/
def PLink.key (l : PLink) : Nat := 8 * l.cluster + 2 * l.dir + l.stream

/-- A loaded image by handle. -/
def State.image (s : State) (h : Nat) : Image := SMap.get {} s.images h

/-- Whether a handle names a loaded image. -/
def State.loaded (s : State) (h : Nat) : Bool := (s.image h).map != []

/-- Replaces an image. -/
def State.setImage (s : State) (h : Nat) (im : Image) : State := { s with images := SMap.set {} s.images h im }

/-- The physical clusters of an image. -/
def Image.clusters (im : Image) : List Nat := im.map.filterMap id

/-- A trigger pipeline. -/
def State.pipe (s : State) (p : Nat) : Pipe := SMap.get {} s.trp.pipes p

/-- Replaces a trigger pipeline. -/
def State.setPipe (s : State) (p : Nat) (q : Pipe) : State :=
  { s with trp := { s.trp with pipes := SMap.set {} s.trp.pipes p q } }

/-- A stream by SID. -/
def State.stream (s : State) (i : Nat) : Stream := SMap.get {} s.hbx.streams i

/-- Replaces a stream. -/
def State.setStream (s : State) (i : Nat) (x : Stream) : State :=
  { s with hbx := { s.hbx with streams := SMap.set {} s.hbx.streams i x } }

/-- A ring pair. -/
def State.ring (s : State) (r : Nat) : Ring := SMap.get {} s.hif.rings r

/-- Replaces a ring pair. -/
def State.setRing (s : State) (r : Nat) (x : Ring) : State :=
  { s with hif := { s.hif with rings := SMap.set {} s.hif.rings r x } }

/-- An edge die's memory controllers. -/
def State.quarter (s : State) (e : Nat) : Quarter := SMap.get {} s.gddr.quarters e

/-- Replaces an edge die's memory controllers. -/
def State.setQuarter (s : State) (e : Nat) (q : Quarter) : State :=
  { s with gddr := { s.gddr with quarters := SMap.set {} s.gddr.quarters e q } }

/-- A region table entry. -/
def State.region (s : State) (n : Nat) : Rgt := SMap.get {} s.gddr.rgt n

/-- Replaces a region table entry. -/
def State.setRegion (s : State) (n : Nat) (x : Rgt) : State :=
  { s with gddr := { s.gddr with rgt := SMap.set {} s.gddr.rgt n x } }

/-- Adds to the model's trace of what left the device. -/
def State.emit (s : State) (o : Out) : State := { s with out := s.out ++ [o] }

/-- Takes the next free value. -/
def State.takeFree (s : State) : Nat × State := (Config.freeNat s.free, { s with free := s.free + 1 })

/-! ## Time values (R306) -/

/-- The time value: the time base without the bits that are never read (R306, R308). -/
def State.now (s : State) : TimeVal := s.tb.value / 65536

/-- The time since the time base started, without the step of R313, in 2^−16 ns: what durations and orders of events are measured by. -/
def State.runNow (s : State) : Nat := s.tb.run / 65536

/-- `run` at the start of the cycle `k` TIME cycles ago; beyond what is kept, at the present rate. -/
def TimeBase.runAgo (t : TimeBase) (k : Nat) : Nat :=
  if k = 0 then t.run
  else match t.past[k - 1]? with
    | some v => v
    | none => ((t.run : Int) - k * (2 ^ 32 + t.fadj)).toNat

/-- Where a mark lies on `run`, in 2^−16 ns, with its phase in steps of 1/64 TIME cycle (R34). -/
def State.markRun (s : State) (m : Mark) : Nat := s.tb.runAgo m.ago / 65536 + m.phase.val * 1024

/-- The timestamp of a mark: the time value of its cycle and its phase, with a resolution of 1/64 ns (R34, R292, R328, R331). A mark from
before the step of R313 has the value as it was then. -/
def State.markTime (s : State) (m : Mark) : TimeVal :=
  let t := s.tb
  let back := (t.value : Int) - ((t.run : Int) - t.runAgo m.ago) - if s.markRun m < t.stepAt then t.stepBy else 0
  (back.toNat / 65536 + m.phase.val * 1024) / 1024 * 1024

/-- A time value in its stored layout (R306). -/
def timeWord (t : TimeVal) : Nat := t / 65536 / 10 ^ 9 % 2 ^ 48 * 2 ^ 48 + t / 65536 % 10 ^ 9 * 2 ^ 16 + t % 65536

/-- The time value of a stored layout, none where NS is above 999,999,999 (R306, R307). -/
def timeOfWord (w : Nat) : Option TimeVal :=
  if bitsOf w 16 30 ≥ 10 ^ 9 then none
  else some ((bitsOf w 48 48 * 10 ^ 9 + bitsOf w 16 30) * 65536 + bitsOf w 0 16)

/-- The time `n` sample periods after `t`, at `rate` samples a second: the whole sum to the nearest 2^−16 ns, ties to even (R403). -/
def timeAfter (t : TimeVal) (n rate : Nat) : TimeVal := roundKept .nearest (t * max rate 1 + n * 10 ^ 9 * 65536) (max rate 1)

/-- Samples per frame of an FCODE (R336). -/
def frameSamples (fcode : Nat) : Nat := 16 * 2 ^ fcode

/-- Whether a calender frame begins in this TIME cycle (R252): the frames run once they are aligned. -/
def State.frameBoundary (s : State) : Bool := s.gddr.aligned && decide (s.gddr.frame < 3)

/-! ## GDDR6 bytes (R242, R245, R733) -/

/-- Lines of a quarter of the line space (R242). -/
def quarterLines : Nat := 346030080

/-- The quarter of a physical line. -/
def lineQuarter (l : Nat) : Nat := l / quarterLines

/-- Whether a line lies in a valid region that is LOST, or in other far memory that was lost (R271). -/
def State.lineLost (s : State) (l : Nat) : Bool :=
  s.gddr.rgt.any (fun p => p.2.valid && p.2.lost && decide (p.2.base.toNat ≤ l) && decide (l < p.2.base.toNat + p.2.lines.toNat)) ||
    s.gddr.hidden.any fun k => k.lost && decide (k.base ≤ l) && decide (l < k.base + k.lines)

/-- Whether a read of a line is uncorrectable: the line is marked, its region LOST or its quarter withdrawn (R245, R271,
R274). -/
def State.lineBad (s : State) (l : Nat) : Bool :=
  SMap.get false s.gddr.bad l || s.lineLost l || (s.quarter (lineQuarter l)).withdrawn

/-- Whether any line that a byte range touches is uncorrectable. -/
def State.rangeBad (s : State) (a n : Nat) : Bool :=
  n != 0 && (List.range ((a + n - 1) / 64 - a / 64 + 1)).any fun k => s.lineBad (a / 64 + k)

/-- Bytes of GDDR6 by physical byte address. -/
def State.gddrRead (s : State) (a n : Nat) : List Byte := s.gddr.bytes.readBytes a n

/-- Writes one line's part: a part of an uncorrectable line is discarded, a whole line clears its mark (R733). -/
def State.gddrWriteLine (s : State) (a : Nat) (bs : List Byte) : State :=
  if s.lineBad (a / 64) && decide (bs.length < 64) then s
  else { s with gddr := { s.gddr with
          bytes := s.gddr.bytes.writeBytes a bs
          bad := if bs.length = 64 then SMap.set false s.gddr.bad (a / 64) false else s.gddr.bad } }

/-- Writes bytes line by line in ascending address; `fuel` bounds the lines. -/
def State.gddrWriteFrom (s : State) : Nat → Nat → List Byte → State
  | 0, _, _ => s
  | fuel + 1, a, bs =>
    if bs = [] then s
    else (s.gddrWriteLine a (bs.take (64 - a % 64))).gddrWriteFrom fuel (a + (64 - a % 64)) (bs.drop (64 - a % 64))

/-- Writes bytes of GDDR6 by physical byte address. -/
def State.gddrWrite (s : State) (a : Nat) (bs : List Byte) : State := s.gddrWriteFrom (bs.length / 64 + 2) a bs

/-- The uncorrectable lines of a byte range that a write of it covers only in part, and so leaves unwritten (R733). -/
def State.unwritten (s : State) (a n : Nat) : List Nat :=
  (if n = 0 then [] else [a / 64, (a + n - 1) / 64].eraseDups).filter fun l =>
    s.lineBad l && !(decide (a ≤ 64 * l) && decide (64 * l + 64 ≤ a + n))

/-- Asks for slots of a class for the lines that a byte range touches (R253, R259): the data move with the command that asks, the lines
take their bursts after it (DESIGN CHOICE, log entry 34). -/
def State.asks (s : State) (cls : Nat) (write : Bool) (a n : Nat) : State :=
  if n = 0 then s
  else { s with gddr := { s.gddr with reqs := s.gddr.reqs ++ [{ cls, write, line := a / 64, n := (a + n - 1) / 64 - a / 64 + 1 }] } }

/-- The codes of the classes that move data of the device's units (R253). -/
def classAcq : Nat := 1
/-- Class TRIG (R253). -/
def classTrig : Nat := 3
/-- Class VAT (R253). -/
def classVat : Nat := 4
/-- Class FAR (R253). -/
def classFar : Nat := 5
/-- Class COLL (R253). -/
def classColl : Nat := 6
/-- Class DMA (R253). -/
def classDma : Nat := 7

/-- A range of physical lines full of zeros, uncorrectable marks gone (R249). -/
def State.gddrClear (s : State) (line n : Nat) : State :=
  { s with gddr := { s.gddr with
      bytes := s.gddr.bytes.filter fun p => decide (p.1 < 64 * line) || decide (64 * (line + n) ≤ p.1)
      bad := s.gddr.bad.filter fun p => decide (p.1 < line) || decide (line + n ≤ p.1) } }

/-- Zeroes a range of physical lines in DMA slots, as root firmware traffic (R249, R253, R510). -/
def State.gddrZero (s : State) (line n : Nat) : State := (s.gddrClear line n).asks classDma true (64 * line) (64 * n)

/-! ## The host (R453, R465, R466, R472, R521, R522) -/

/-- Whether the function may send requests to the host (R466, R472, R473). -/
def State.hostUp (s : State) : Bool :=
  s.pcx.regs.width != 0 && s.pcx.cfg.busMaster && !s.pcx.cfg.d3hot && !s.pcx.perstLow

/-- What a word that software writes whole holds before any write: Extended Tag Field Enable, target speed 64.0 GT/s, and the masks and
severities of AER. -/
def configDefault (off : Nat) : Word :=
  match off with
  | 0x78 => 0x0100
  | 0xA0 => 6
  | 0x108 => 0x00400000
  | 0x10C => 0x00462030
  | 0x114 => 0xE000
  | _ => if 0x1C0 ≤ off ∧ off < 0x200 then 0x9C38 else 0

/-- A word that software wrote. -/
def Config_.kept (c : Config_) (off : Nat) : Nat := (SMap.get 0 c.written off ^^^ configDefault off).toNat

/-- A word that keeps its value through a function reset (R473). -/
def Config_.sticky (c : Config_) (off : Nat) : Nat := (SMap.get 0 c.other off ^^^ configDefault off).toNat

/-- Logs an uncorrectable error: bit `n` of the status register of the PCI Express base specification, and for the first unmasked one
the header and prefix logs (R467). A logged error stays the first until its status bit is cleared (PRESUMED, log entry 70). -/
def Config_.logError (c : Config_) (n : Nat) (log : BitVec 256) : Config_ :=
  let first := !bitAt (c.sticky 0x108) n && !c.aer.getLsbD c.aerFirst.toNat
  { c with
    aer := c.aer ||| BitVec.ofNat 32 (2 ^ n)
    aerFirst := if first then BitVec.ofNat 5 n else c.aerFirst
    aerLog := if first then log else c.aerLog }

/-- An uncorrectable error of the host link (R467, R468). The bits of its TLP's header are free: no command carries them (log entry 70). -/
def State.aerError (s : State) (n : Nat) : State :=
  { s with pcx := { s.pcx with cfg := s.pcx.cfg.logError n (Config.tlpLog n s.now) } }

/-- A corrected error of the host link (R467): bit `n` of the correctable error status register. -/
def State.aerCorrected (s : State) (n : Nat) : State :=
  { s with pcx := { s.pcx with cfg := { s.pcx.cfg with aerCor := s.pcx.cfg.aerCor ||| BitVec.ofNat 32 (2 ^ n) } } }

/-- Signals an MSI-X vector: sent, or kept pending under a mask (R453, R466). -/
def State.signal (s : State) (v : Nat) : State :=
  let e := SMap.get {} s.pcx.msix v
  if s.pcx.cfg.msixEn && s.hostUp && !e.masked && !s.pcx.cfg.funcMask then s.emit (.msix v)
  else { s with pcx := { s.pcx with msix := SMap.set {} s.pcx.msix v { e with pending := true } } }

/-- Entries of a ring of LOG2 6–15; other values act as 6 (R477, RNG.CFG). -/
def ringSize (log : Nat) : Nat := 2 ^ (if 6 ≤ log then log else 6)

/-- Writes bytes of host memory. -/
def State.hostWrite (s : State) (a : Nat) (bs : List Byte) : State := { s with host := s.host.writeBytes a bs }

/-- Puts an entry at a global ring's tail and advances it, with PHASE as bit 7 of byte 2 (R492, R521). -/
def GlobalRing.advance (g : GlobalRing) : GlobalRing :=
  let t := (g.tail.toNat + 1) % ringSize g.log.toNat
  { g with tail := BitVec.ofNat 15 t, used := g.used + 1, phase := if t = 0 then !g.phase else g.phase }

/-- Whether a global ring can take an entry. -/
def GlobalRing.room (g : GlobalRing) : Bool := g.enable && decide (g.used < ringSize g.log.toNat)

/-- The 64 bytes of an event entry (R521). -/
def eventBytes (type loss phase seq : Nat) (t : TimeVal) (ring handle body : Nat) : List Byte :=
  natLe 2 type ++ natLe 1 (loss + 128 * phase) ++ natLe 1 0 ++ natLe 4 seq ++ natLe 12 (timeWord t) ++
    natLe 2 ring ++ natLe 2 handle ++ natLe 40 body

/-- Posts an event: written to the event ring, or dropped and counted (R521, R522). SEQ counts the events posted, this
one included (DEDUCED, log entry 25). -/
def State.postEvent (s : State) (type ring handle body : Nat) : State :=
  let g := s.hif.rgc
  let seq := g.seq + 1
  let bit := fun b : Bool => if b then 1 else 0
  let e := eventBytes type (bit g.loss) (bit g.evt.phase) seq.toNat s.now ring handle body
  let last := (g.last ++ [e]).drop (g.last.length + 1 - 256)
  if g.evt.room && s.hostUp then
    let s1 := s.hostWrite (g.evt.loc.toNat + 64 * g.evt.tail.toNat) e
    let s2 := { s1 with hif := { s1.hif with rgc := { g with seq, loss := false, last, evt := g.evt.advance } } }
    s2.signal g.evt.vector.toNat
  else { s with hif := { s.hif with rgc := { g with seq, loss := true, last, lost := satBump g.lost 1 } } }

/-- The ring field of an event that concerns no ring pair. -/
def noRing : Nat := 0xFFFF

/-! ## Fault records (R617, R621) -/

/-- A fault record as its 256 bits (R617). -/
def FaultRec.pack (r : FaultRec) : Nat :=
  timeWord r.time * 2 ^ 160 + r.kind.toNat * 2 ^ 152 + r.cls.toNat * 2 ^ 148 + r.action.toNat * 2 ^ 144 +
    r.handle.toNat * 2 ^ 128 + r.loc.toNat * 2 ^ 96 + r.spare.toNat * 2 ^ 64 + r.detail.toNat * 2 ^ 32 +
    r.ring.toNat % 2 ^ 12 * 2 ^ 20 + r.seqNo.toNat

/-- Writes a fault record to the log and posts it as a FAULT event, counted by class (R617, R621, FLT.COUNT). -/
def State.faultRecord (s : State) (r : FaultRec) : State :=
  let r := { r with time := s.now, seqNo := s.flt.logSeq }
  let f := s.flt
  let s1 : State := { s with flt := { f with
      log := (f.log ++ [r]).drop (f.log.length + 1 - 1024)
      logSeq := f.logSeq + 1
      contained := satBump f.contained (if r.cls.toNat = 1 then 1 else 0)
      workFatal := satBump f.workFatal (if r.cls.toNat = 3 then 1 else 0) } }
  s1.postEvent 0x0040 r.ring.toNat r.handle.toNat r.pack

/-- A write by a unit that ends no work for it: a part of an uncorrectable line is not written, and the line is reported (R590, R733;
DESIGN CHOICE, log entry 114). -/
def State.unitWrite (s : State) (cls a : Nat) (bs : List Byte) : State :=
  (s.unwritten a bs.length).foldl (fun s l => s.faultRecord { kind := 6, cls := 3, action := 0, loc := BitVec.ofNat 32 l })
    ((s.gddrWrite a bs).asks cls true a bs.length)

/-- LOC of a cluster in a fault record (R618). -/
def clusterLoc (c : Nat) : BitVec 32 := BitVec.ofNat 32 (physX c * 2 ^ 26 + physY c * 2 ^ 21)

/-! ## Completions (R487–R490, R520) -/

/-- The outcome values of R520 that completions carry. -/
def outDone : BitVec 8 := 0x00
def outFormat : BitVec 8 := 0x01
def outFit : BitVec 8 := 0x05
def outConflict : BitVec 8 := 0x08
def outState : BitVec 8 := 0x0B
def outAborted : BitVec 8 := 0x0D
def outFatal : BitVec 8 := 0x11

/-- The outcome of a contained fault (R520). -/
def outContained : BitVec 8 := 0x10

/-- Puts a completion that no descriptor of the ring waits for behind the ring's other completions (R490). -/
def State.pushCompletion (s : State) (r : Nat) (c : Compl) : State :=
  let g := s.ring r
  s.setRing r { g with waiting := g.waiting ++ [c] }

/-- Clears every ABORTED cluster of an image to IDLE (R96, R499). -/
def State.clearAborted (s : State) (h : Nat) : State :=
  (s.image h).clusters.foldl
    (fun s c => if (s.cl c).st = .aborted then s.setCl c { s.cl c with st := .idle } else s) s

/-- Ends the taken descriptor `n` of ring `r` with an outcome. Its completion waits to be written, or, in a ring pair that
drains, is not written (R479, R489, R490). `clear` names an image to clear before the completion is posted (R499). -/
def State.finish (s : State) (r n : Nat) (outcome check : BitVec 8) (info : Nat) (clear : Option (BitVec 16) := none) :
    State :=
  let g := s.ring r
  match g.taken.find? (fun k => k.seqNo == n) with
  | none => match clear with
    | none => s
    | some h => s.clearAborted h.toNat
  | some k =>
    let g1 := { g with taken := g.taken.filter fun j => j.seqNo != n }
    if g.st = .draining then
      let s1 := s.setRing r g1
      match clear with
      | none => s1
      | some h => s1.clearAborted h.toNat
    else
      s.setRing r { g1 with waiting := g.waiting ++
        [{ opcode := k.opcode, outcome, check, tag := k.tag, info := BitVec.ofNat 64 info, quiet := k.quiet, clear }] }

/-! ## Coverage gaps of pipelines and records (R388, R392, R417) -/

/-- Whether a record programme records anything (R405). -/
def RecProg.records (p : RecProg) : Bool := p.pmask != 0 || p.gmask != 0 || p.wmask != 0

/-- Enters a gap record in the hand-off order of a stream that has a record area (R417). -/
def State.gapRecord (s : State) (sid kind pipe cause : Nat) (start stop : TimeVal) : State :=
  let x := s.stream sid
  if x.prog.records then
    s.setStream sid { x with recs := { x.recs with
      waiting := x.recs.waiting ++ [{ kind, pipe, cause, due := start, t0 := stop }] } }
  else s

/-- The reference port of a pipeline: the bound port of lowest number (R362). -/
def Pipe.refPort (q : Pipe) : Option Port := q.ports.head?

/-- The stream bound to a pipeline's reference port. -/
def Pipe.refSid (q : Pipe) : Option Nat := q.refPort.bind (·.sid)

/-- The expected time of a stream's next frame (R352). -/
def Stream.expected (x : Stream) : TimeVal :=
  timeAfter x.lastTs (frameSamples x.fcode.toNat) x.rate.toNat

/-- The time of the first sample that a pipeline has not judged (R352, R392): the first of its oldest entry set in flight, else of the
oldest entry of its reference port on the way; where none is there, the one after the last judged, else the expected next frame of the
reference port's stream. -/
def State.firstUnjudged (s : State) (q : Pipe) : TimeVal :=
  let rate := match q.refSid with
    | none => 1
    | some i => (s.stream i).rate.toNat
  match q.sets.find? (·.hasRef), q.inq.find? (fun a => q.refPort.any fun p => p.num == a.port), q.last with
  | some e, _, _ => timeAfter e.ts e.first rate
  | none, some a, _ => timeAfter a.ts a.first rate
  | none, none, some (t, n) => timeAfter t n rate
  | none, none, none => match q.refSid with
    | none => s.now
    | some i => if (s.stream i).seqSet then (s.stream i).expected else s.now

/-- Opens a gap of a pipeline and posts GAP_OPEN; no pair of scores spans it (R378, R388, R392). A cause of a lower code that arises in the
same cycle takes the place of an open gap's; any other leaves it as it is. -/
def State.openGap (s : State) (p cause : Nat) (start : TimeVal) : State :=
  let q := s.pipe p
  if q.gap then
    if q.gapRun = s.runNow ∧ cause < q.cause.toNat then s.setPipe p { q with cause := BitVec.ofNat 3 cause } else s
  else
    (s.setPipe p { q with gap := true, cause := BitVec.ofNat 3 cause, gapStart := start, gapRun := s.runNow, gaps := satBump q.gaps 1
                          det := { q.det with prev := none } }).postEvent
      0x0004 noRing q.handle.toNat (p % 64 + 2 ^ 8 * cause + 2 ^ 32 * timeWord start)

/-- Closes the open gap of a pipeline and writes its gap record (R392, R417). -/
def State.closeGap (s : State) (p : Nat) (stop : TimeVal) : State :=
  let q := s.pipe p
  if !q.gap then s
  else
    let s1 := s.setPipe p { q with gap := false }
    match q.refSid with
    | none => s1
    | some i => s1.gapRecord i 3 p q.cause.toNat q.gapStart stop

/-- Whether a tile holds no data: tokens in its token queue and its chest aside (R119, R735). A result with entries still to emit and a
far operation with lines still to request count as data (DESIGN CHOICE, log entry 112). -/
def Tile.dataFree (y : Tile) : Bool :=
  y.queues.all (fun p => p.2.isEmpty) && y.chest.all (fun p => p.1 == 6) && y.outR.all (fun p => p.2.isNone) &&
    y.passR.all (fun p => p.2.isNone) && y.emit.all (fun p => p.2.entries.isEmpty) && y.farJobs.isEmpty

/-- Whether no tile of a cluster holds data and no far request is outstanding. -/
def Cluster.dataFree (x : Cluster) : Bool := x.tiles.all (fun p => p.2.dataFree) && x.farQ.isEmpty

/-- Whether some operation of a tile holds a partly filled pack (R165). STATS derivations are results of one firing. -/
def Tile.holdsPack (y : Tile) : Bool :=
  y.packs.any fun p => (opOpc (y.op p.1) == 0x14 || opOpc (y.op p.1) == 0x1C) && p.2.pos != 0

/-- Whether a virtual place of an image has a physical cluster. -/
def Image.clusterOf (im : Image) (vx vy : Nat) : Option Nat := im.map.getD (vy * im.vw + vx) none

/-- Whether a cluster meets R98. Its pass-through registers are those of its tiles (DESIGN CHOICE, log entry 82). -/
def Cluster.empty (x : Cluster) : Bool :=
  x.dataFree && x.tiles.all fun p => p.2.tokenQ.isEmpty && p.2.chest.isEmpty && !p.2.holdsPack

/-- Whether the routes of an image hold no entry. -/
def State.routesFree (s : State) (im : Image) : Bool :=
  im.routes.all fun r => r.path.all fun l => (s.link l.key).pass.isNone && (s.link l.key).cross.isEmpty

/-! ## Aborting clusters and sheets (R99, R387–R389, R499, R500) -/

/-- A tile after an abort: queues, tokens, chest, registers of the router and accumulators empty, codebooks at their
reset (R105, R135, R151). -/
def Tile.clear (y : Tile) : Tile :=
  { y with accs := [], books := [], queues := [], tokenQ := [], outR := [], passR := [], chest := [], spill := 0,
           packs := [], emit := [], farJobs := [], outTurn := false, inTurn := false,
           siz := { y.siz with held := [] } }

/-- The registers of a cluster whose delivery is cut short: it holds no configuration whole, and the GEN of the one cut short counts as
used (R126, R227; DEDUCED, log entry 30). -/
def Cluster.cutShort (x : Cluster) : ClcRegs :=
  if x.cfg.fetching then { x.regs with gen := x.cfg.gen, cidx := 0xFFFF } else x.regs

/-- What an abort leaves in a cluster of its sheet, whatever the cluster's state: flags and counters 0, token queues empty (R80, R105,
R106). -/
def Cluster.zeroed (x : Cluster) : Cluster :=
  { x with flags := [], cntVal := [], cntLim := []
           tiles := x.tiles.map fun p => (p.1, { p.2 with tokenQ := [], chest := p.2.chest.filter fun e => e.1 != 6 }) }

/-- A cluster after an abort: ABORTED, its flags and counters 0 (R80, R96, R106). -/
def Cluster.abort (x : Cluster) : Cluster :=
  { x with st := .aborted, flags := [], cntVal := [], cntLim := [], farQ := [], cfg := { gen := x.cfg.gen }, regs := x.cutShort,
           drainHeld := false, waitTurn := [], tiles := x.tiles.map fun p => (p.1, p.2.clear) }

/-- Whether a cluster runs or is being configured, so that an abort takes it to ABORTED. -/
def Cluster.working (x : Cluster) : Bool := x.st == .config || x.st == .run || x.st == .drain

/-- Whether a configuration, or its initial values, are still to come to a cluster that has not begun to take them. -/
def Cluster.awaits (x : Cluster) : Bool := (x.cfg.fetching || x.cfg.restore) && !x.cfg.started && (x.st == .idle || x.st == .drained)

/-- A delivery that has not begun is given up as its sheet is aborted (DEDUCED, log entry 17). -/
def Cluster.giveUp (x : Cluster) : Cluster := { x with cfg := { gen := x.cfg.gen }, regs := x.cutShort, drainHeld := false }

/-- Aborts a cluster of a sheet. Line writes it has issued reach memory, in FAR slots; its reads are dropped (DEDUCED, log entry 26). One
that is DRAINED or IDLE keeps its state, with flags, counters and tokens as an abort leaves them (R80, R96, R105, R106; log entry 17). -/
def State.abortCluster (s : State) (c : Nat) : State :=
  let x := s.cl c
  if !x.working then s.setCl c (if x.awaits then x.giveUp else x).zeroed
  else
    let s1 := x.farQ.foldl (fun s q =>
      if q.write && q.served == .waiting then (s.gddrWrite (64 * q.line) q.data).asks classFar true (64 * q.line) 64 else s) s
    s1.setCl c x.abort

/-- Empties the registers and crossing queues of routes. -/
def State.clearPaths (s : State) (rs : List Route) : State :=
  rs.foldl (fun s r => r.path.foldl
    (fun s l => s.setLink l.key {}) s) s

/-- Empties the registers and crossing queues of an image's routes. -/
def State.clearRoutes (s : State) (im : Image) : State := s.clearPaths im.routes

/-- The index of the neighbour of virtual cluster `v` on a side of a virtual grid `vw` wide (R220). -/
def virtualBeside (vw v d : Nat) : Nat :=
  match d with
  | 0 => v - vw
  | 1 => v + 1
  | 2 => v + vw
  | _ => v - 1

/-- The routes of an image that start or end at one of a set of clusters. -/
def Image.routesAt (im : Image) (cs : List Nat) : List Route :=
  im.routes.filter fun r =>
    ((im.map.getD r.src none).any cs.contains) || (im.map.getD (virtualBeside im.vw r.src r.dir) none).any cs.contains

/-- The pipelines of the device that a cluster of a trigger image serves: those whose STREAMS records name a tile of it
or whose segments' links start or end at it; every pipeline of the image where none does so (R736). -/
def State.pipesServed (s : State) (h c : Nat) : List Nat :=
  let im := s.image h
  let v := (im.map.findIdx? (· == some c)).getD im.map.length
  let far := fun (l : Nat × Nat × Nat) => virtualBeside im.vw l.1 l.2.1
  let names := fun p =>
    im.streams.any (fun r => r.pipe == p && r.vy * im.vw + r.vx == v) ||
      im.segs.any (fun g => g.pipe == p && g.links.any fun l => l.1 == v || far l == v)
  let idx := (List.range im.pipes.length).filter names
  (if idx = [] then List.range im.pipes.length else idx).filterMap fun k => im.pipes[k]?

/-- The clusters that serve a pipeline (R736). -/
def State.pipeClusters (s : State) (p : Nat) : List Nat :=
  let h := (s.pipe p).handle.toNat
  (s.image h).clusters.filter fun c => (s.pipesServed h c).contains p

/-- One second in 2^−16 ns. -/
def second : Nat := 10 ^ 9 * 65536

/-- INFO of a RUN_SHEET completion (R488). -/
def sheetInfo (h : Nat) (im : Image) (code : Nat) : Nat :=
  (im.sheets - 1) % 2 ^ 32 + min (im.sheet.starts - 1) 255 * 2 ^ 32 + code * 2 ^ 40 + h * 2 ^ 48

/-- Ends the waiting RUN_SHEET of an image's sheet with an outcome (R499, R500, R600). -/
def State.endSheet (s : State) (h : Nat) (outcome check : BitVec 8) (code : Nat) (clear : Bool) : State :=
  let im := s.image h
  if !im.sheet.active then s
  else
    let s1 := s.setImage h { im with sheet := { im.sheet with active := false, replayWait := false } }
    s1.finish im.sheet.ring.toNat im.sheet.seqNo outcome check (sheetInfo h im code)
      (if clear then some (BitVec.ofNat 16 h) else none)

/-- The start of the sheet of a trigger image fails: the pipelines that have not entered WARM stay IDLE, the clusters that serve no
other are aborted, and the RUN_SHEET completes ABORTED (R99, R387, R499; DEDUCED, log entry 81). -/
def State.failStart (s : State) (h code : Nat) : State :=
  let im := s.image h
  let mine := im.pipes.filter fun p => (s.pipe p).starting && (s.pipe p).st == .idle
  if mine = [] then s
  else
    let up := im.pipes.filter fun p => (s.pipe p).st == .warm || (s.pipe p).st == .live
    let cs := (mine.flatMap s.pipeClusters).eraseDups.filter fun c => !up.any fun p => (s.pipeClusters p).contains c
    let s1 := (cs.foldl State.abortCluster s).clearPaths (im.routesAt cs)
    (mine.foldl (fun s p => s.setPipe p { s.pipe p with starting := false }) s1).endSheet h outAborted 0xA2 code true

/-- Halts a pipeline for a cause (R387–R389): its gap opens, its clusters are aborted, its entry sets discarded with what their routes
hold, and a fourth halt with cause FAULT within 1 s stops it. A FAULT while it starts or restarts ends that start (log entry 81); a cause
of a lower code in the cycle of its halt takes that one's place (R388). -/
def State.haltPipe (s : State) (p cause : Nat) : State :=
  let q := s.pipe p
  let stop := fun s : State =>
    let cs := s.pipeClusters p
    (cs.foldl State.abortCluster s).clearPaths ((s.image q.handle.toNat).routesAt cs)
  if q.st = .warm ∨ q.st = .live then
    let s2 := stop (s.openGap p cause (s.firstUnjudged q))
    let q := s2.pipe p
    let recent := q.faults.filter fun t => decide (s.runNow < t + second)
    let faults := if cause = 1 then recent ++ [s.runNow] else recent
    s2.setPipe p { q with
      st := if cause = 1 ∧ faults.length ≥ 4 then .stopped else .halted
      inq := [], sets := [], unit := [], faults, ports := q.ports.map fun t => { t with started := false }
      det := { q.det with prev := none } }
  else if cause = 1 ∧ q.starting then
    if q.st = .idle then s.failStart q.handle.toNat 0
    else
      let s1 := stop s
      s1.setPipe p { s1.pipe p with starting := false }
  else if q.st = .halted ∧ q.gapRun = s.runNow ∧ cause < q.cause.toNat then
    let s1 := s.openGap p cause q.gapStart
    let q := s1.pipe p
    let faults := (q.faults.filter fun t => decide (s.runNow < t + second)) ++ if cause = 1 then [s.runNow] else []
    s1.setPipe p { q with faults, st := if cause = 1 ∧ faults.length ≥ 4 then .stopped else .halted }
  else s

/-- Frees a region table entry; its lines are zeroed before reuse (R510). -/
def State.freeRegion (s : State) (n : Nat) : State :=
  let g := s.region n
  (s.gddrZero g.base.toNat g.lines.toNat).setRegion n {}

/-- Frees what a loaded image holds: clusters to IDLE, regions not SHARED, its other far memory, its pipelines, whose open
gaps close now (R387, R392, R510, R696). -/
def State.freeImage (s : State) (h : Nat) : State :=
  let im := s.image h
  let s1 := im.pipes.foldl (fun s p => (s.closeGap p s.now).setPipe p { ctl := (s.pipe p).ctl, wrIgn := (s.pipe p).wrIgn }) s
  let s2 := im.clusters.foldl (fun s c =>
    let x := s.cl c
    s.setCl c { x with
      st := if x.st = .off ∨ s.pwr.st = .trim then .off else .idle
      regs := { x.regs with handle := 0, cidx := 0xFFFF, lock := false, trigger := false, fwin := [] } }) s1
  let s3 := im.regions.foldl (fun s r =>
    if bitAt r.attr.toNat 2 then s.setRegion r.rgt { s.region r.rgt with handle := 0 } else s.freeRegion r.rgt) s2
  let mine := s3.gddr.hidden.filter fun k => k.handle.toNat == h
  let s4 := mine.foldl (fun s k => s.gddrZero k.base k.lines) s3
  let s5 := (s4.clearRoutes im).setImage h {}
  let unbind := fun (x : Stream) => match x.port with
    | some (g, _) => if g.toNat = h then { x with port := none } else x
    | none => x
  { s5 with
    gddr := { s5.gddr with hidden := s5.gddr.hidden.filter fun k => k.handle.toNat != h }
    hbx := { s5.hbx with streams := s5.hbx.streams.map fun p => (p.1, unbind p.2) } }

/-- Whether a sweep of the vat names an image (R449). -/
def State.vatNames (s : State) (h : Nat) : Bool := s.vat.busy && s.vat.run.sweep.handle.toNat == h

/-- Whether a virtual cluster of an image has no work left for a drain: IDLE, DRAINED, OFF, or without a cluster (R500), with no
configuration still to come and no entry that came late (DEDUCED, log entries 27, 53). -/
def State.rests (s : State) (v : Option Nat) : Bool :=
  match v with
  | none => true
  | some c => !(s.cl c).awaits && ((s.cl c).st == .idle || (s.cl c).st == .off || ((s.cl c).st == .drained && (s.cl c).empty))

/-- Completes a requested drain once every cluster of the image rests, ABORTED ones cleared first; the waiting RUN_SHEET
and the drain descriptors complete, and an image under RELEASE is freed unless a sweep names it (R449, R500, R510). -/
def State.checkDrain (s : State) (h : Nat) : State :=
  if !(s.image h).sheet.draining then s
  else
    let s1 := s.clearAborted h
    let im := s1.image h
    if !im.map.all s1.rests then s1
    else
      let s2 := s1.endSheet h outDone 0 0 false
      let s3 := im.sheet.drains.foldl (fun s d => s.finish d.1.toNat d.2 outDone 0 (sheetInfo h im 0)) s2
      let im := s3.image h
      let s4 := s3.setImage h { im with sheet := { im.sheet with draining := false, drains := [] } }
      match im.releasing with
      | none => s4
      | some d =>
        if s4.vatNames h then s4
        else (s4.freeImage h).finish d.1.toNat d.2 outDone 0 0

/-- Marks the running sweep that names an image as ended by a fault of it (R447). -/
def State.vatFault (s : State) (h : Nat) : State :=
  if s.vatNames h then { s with vat := { s.vat with run := { s.vat.run with fault := true } } } else s

/-- Aborts the sheet of an image that has no pipelines: every working cluster is ABORTED and the RUN_SHEET completes
(R99, R499). -/
def State.abortSheet (s : State) (h : Nat) (outcome check : BitVec 8) (code : Nat) : State :=
  let im := s.image h
  let s1 := (im.clusters.foldl State.abortCluster s).clearRoutes im
  ((s1.endSheet h outcome check code true).vatFault h).checkDrain h

/-- The ring pair an image's events concern (R521). -/
def State.imageRing (s : State) (h : Nat) : Nat :=
  if s.loaded h then (if (s.image h).sheet.active then (s.image h).sheet.ring.toNat else (s.image h).ring.toNat)
  else noRing

/-- Whether every pipeline of a trigger image is IDLE and none starts, so that its sheet can only be in its drain (R97, R387). -/
def State.onlyDrains (s : State) (h : Nat) : Bool := (s.image h).pipes.all fun p => (s.pipe p).st == .idle && !(s.pipe p).starting

/-- Ends the sheet of an image for an event in a cluster: its pipelines halt with cause FAULT, or its sheet, in a drain too, is aborted
(R99, R388, R500, R736). -/
def State.abortFor (s : State) (h c : Nat) (outcome check : BitVec 8) (code : Nat) : State :=
  if (s.image h).kind = 1 ∧ s.onlyDrains h then
    (((s.image h).clusters.foldl State.abortCluster s).clearRoutes (s.image h)).checkDrain h
  else if (s.image h).kind = 1 then
    let start := (s.pipesServed h c).any fun p => (s.pipe p).starting && (s.pipe p).st == .idle
    let s1 := if start then s.failStart h code else s
    ((s.pipesServed h c).foldl (fun s p => s.haltPipe p 1) s1).abortCluster c
  else if s.loaded h then s.abortSheet h outcome check code
  else s.abortCluster c

/-- The queue list of a CLUSTER_EVENT, 12 bits each (R523). -/
def queueList : List (Nat × Nat) → Nat
  | [] => 0
  | (t, q) :: rest => t * 64 + q * 2 + 2 ^ 12 * queueList rest

/-- A cluster event in the dandy (R636): it abandons the window and is counted in ABORTS, not in ABANDONED (DEDUCED, log entry 63). -/
def Dnd.abort (d : Dnd) : Dnd :=
  { d with aborts := satBump d.aborts 1, abortRun := d.abortRun + 1, hits := 0, win := {} }

/-- Raises a cluster event (R94, R99, R523): its bit of CLC.EVENT, the event record, and the end of the sheet, or of the dandy's window. -/
def State.clusterEvent (s : State) (c : Nat) (ev : ClEvent) : State :=
  let x := s.cl c
  let r := x.regs
  let s1 := s.setCl c { x with regs := r.setEvent ev.code.bit }
  let qs := ev.queues.take 16
  let body := physX c * 2 ^ 26 + physY c * 2 ^ 21 + r.vx.toNat * 2 ^ 15 + r.vy.toNat * 2 ^ 10 + ev.code.code * 2 ^ 7 +
    ev.cause * 2 ^ 4 + qs.length * 2 ^ 32 + ev.detail % 2 ^ 64 * 2 ^ 64 + queueList qs * 2 ^ 128
  let s2 := s1.postEvent 0x0001 (s.imageRing r.handle.toNat) r.handle.toNat body
  let s3 : State := if c = 880 then { s2 with dnd := s2.dnd.abort } else s2
  s3.abortFor r.handle.toNat c outAborted 0xA2 ev.code.code

/-- Whether a thermal emergency stops a cluster: one of its die, or of an edge die or the root die (R630). -/
def State.tooHot (s : State) (c : Nat) : Bool :=
  s.pwr.therm.any fun p => p.2.emerg && (decide (20 ≤ p.1) || (p.1 == c / 44 && decide (c < 880)))

/-- Whether a cluster and the links around it are clocked: its die has a locked PLL and the device is not halted (R35, R611). -/
def State.clocked (s : State) (c : Nat) : Bool := !s.flt.halted && !(SMap.get {} s.fab.dies (c / 44)).pllLost

/-- Whether a cluster's operations may fire: it is clocked and no thermal emergency holds it. What has been fired, and the entries on the
move, go on in one (R630). -/
def State.fabricRuns (s : State) (c : Nat) : Bool := s.clocked c && !s.tooHot c

end Sys2Proof.Machine
end

