-- ==== Sys2Proof/Machine/Way.lean ====
section
/-!
DEFINITION. Where an entry goes from where it stands: neighbour links, cluster links and crossings (R49–R57, R124, R126, R220, R737),
the claims on a chest (R89), and when an operation fires (R60–R65).
-/
namespace Sys2Proof.Machine

/-- The direction opposite to one. -/
def opposite (d : Nat) : Nat := (d + 2) % 4

/-- The tile next to a tile in a direction, none at the edge of the cluster (R39). -/
def tileNeighbour (t d : Nat) : Option Nat :=
  match d with
  | 0 => if t < 8 then none else some (t - 8)
  | 1 => if t % 8 = 7 then none else some (t + 1)
  | 2 => if t ≥ 56 then none else some (t + 8)
  | _ => if t % 8 = 0 then none else some (t - 1)

/-- The tile that a stream of a side attaches to (R54). -/
def attachTile (d stream : Nat) : Nat :=
  match d with
  | 0 => 3 + stream
  | 1 => 8 * (3 + stream) + 7
  | 2 => 59 + stream
  | _ => 8 * (3 + stream)

/-- The tile that takes a stream arriving on side `d`, and whether it alternates the side's streams as an I/O-role tile
does (R56, R737). -/
def Cluster.sideTile (x : Cluster) (d stream : Nat) : Nat × Bool :=
  if (x.tile (attachTile d 0)).cfg.mode = .io then (attachTile d 0, true)
  else if (x.tile (attachTile d 1)).cfg.mode = .io then (attachTile d 1, true)
  else (attachTile d stream, false)

/-- The stream on which a tile's outward entry leaves on side `d`, none where the port is unconnected: it is where the other attached
tile of the side is in the I/O role (R54–R56, R737). A tile that has not yet applied its part counts by the mode it still has (DESIGN
CHOICE, log entry 83). -/
def Cluster.outStream (x : Cluster) (t d : Nat) : Option Nat :=
  let y := x.tile t
  let k := if t = attachTile d 0 then some 0 else if t = attachTile d 1 then some 1 else none
  match k with
  | none => none
  | some k =>
    if (x.tile (attachTile d (1 - k))).cfg.mode = .io then none
    else if y.cfg.mode = .io then some (if y.outTurn then 1 else 0)
    else some k

/-- Whether a cluster link crosses a die edge (R27, R57). -/
def crossesDie (l : PLink) : Bool :=
  match clusterNeighbour l.cluster l.dir with
  | none => false
  | some c => c / 44 != l.cluster / 44

/-- Where an entry goes next: into a crossing queue, a cluster pass-through register, or a tile's sink. -/
inductive Place where
  | cross (l : PLink)
  | pass (l : PLink)
  | sink (c t d : Nat) (stream : Option Nat)
  | nowhere
  deriving DecidableEq, Repr

/-- What is left of a route from some link on: the links and the virtual side and stream that it ends at (R220). -/
structure Way where
  path : List PLink := []
  dir : Nat := 0
  stream : Nat := 0
  deriving DecidableEq, Repr

/-- The place at the far end of a link whose route goes on over `w`. The last link enters the attachment tile of the virtual
link, whatever physical side it arrives at (R54, R220). -/
def landing (l : PLink) (w : Way) : Place :=
  match w.path with
  | m :: _ => .pass m
  | [] => match clusterNeighbour l.cluster l.dir with
    | none => .nowhere
    | some c => .sink c (attachTile (opposite w.dir) w.stream) (opposite w.dir) (some w.stream)

/-- The place an entry about to cross the first link of a way goes to (R57). -/
def overLink (w : Way) : Place :=
  match w.path with
  | [] => .nowhere
  | l :: rest => if crossesDie l then .cross l else landing l { w with path := rest }

/-- The route of a virtual link's stream from a cluster (R220). -/
def State.routeFrom (s : State) (c d stream : Nat) : Way :=
  let im := s.image (s.cl c).regs.handle.toNat
  match im.map.findIdx? (· == some c) with
  | none => {}
  | some v => match im.routes.find? (fun r => r.src == v && r.dir == d && r.stream == stream) with
    | none => {}
    | some r => { path := r.path, dir := d, stream }

/-- The rest of the route that uses a link stream, from that link on (R220: at most one does). -/
def State.routeAt (s : State) (l : PLink) : Way :=
  match s.images.findSome? (fun p => p.2.routes.find? fun r => r.path.contains l) with
  | none => {}
  | some r => { path := r.path.dropWhile (· != l), dir := r.dir, stream := r.stream }

/-- The entry at the source of a hop, the GEN it carries, and the place it goes to (R49, R57, R126). Only the configured source of an
outgoing direction feeds it (R51): an entry that an operation puts into an output register which is not that source stays there (DESIGN
CHOICE, log entry 84). -/
def State.hopSource (s : State) (h : Hop) : Option (Entry × Bool × Place) :=
  match h with
  | .tile c t d =>
    let x := s.cl c
    let y := x.tile t
    let r := if SMap.get false y.cfg.outReg d then SMap.get none y.outR d else SMap.get none y.passR d
    r.map fun e => (e, x.regs.gen,
      match tileNeighbour t d with
      | some u => .sink c u (opposite d) none
      | none => match x.outStream t d with
        | none => .nowhere
        | some k => overLink (s.routeFrom c d k))
  | .link c d k =>
    let l : PLink := { cluster := c, dir := d, stream := k }
    (s.link l.key).pass.map fun p => (p.2, p.1, overLink (s.routeAt l))
  | .crossing c d k =>
    let l : PLink := { cluster := c, dir := d, stream := k }
    (s.link l.key).cross.head?.map fun p => (p.2, p.1, landing l { s.routeAt l with path := (s.routeAt l).path.tail })

/-- Whether a cluster takes entries into its tiles (R53, R96, R126). -/
def Cluster.takes (x : Cluster) : Bool := x.working || x.st == .drained

/-- The places from which an entry can enter a cluster: the tiles' own, and on each side the registers, crossings and attached tiles of
the neighbour there. -/
def State.gates (s : State) (c : Nat) : List Hop :=
  let hop := fun b t d : Nat => if h : b < 881 ∧ t < 64 ∧ d < 4 then [Hop.tile ⟨b, h.1⟩ ⟨t, h.2.1⟩ ⟨d, h.2.2⟩] else []
  let link := fun b d k : Nat => if h : b < 881 ∧ d < 4 ∧ k < 2 then
    [Hop.link ⟨b, h.1⟩ ⟨d, h.2.1⟩ ⟨k, h.2.2⟩, Hop.crossing ⟨b, h.1⟩ ⟨d, h.2.1⟩ ⟨k, h.2.2⟩] else []
  (s.cl c).tiles.flatMap (fun p => (List.range 4).flatMap fun d => hop c p.1 d) ++
    (List.range 4).flatMap fun d => match clusterNeighbour c d with
      | none => []
      | some b => (List.range 2).flatMap fun k => link b (opposite d) k ++
          (List.range 4).flatMap fun e => hop b (attachTile e k) e

/-- Whether the entry at the source of a hop is held there for its place in input queue `d` of a tile (R49, R87, R126, R737). -/
def State.waitsFor (s : State) (c t d : Nat) (h : Hop) : Bool :=
  let x := s.cl c
  match s.hopSource h with
  | some (_, gen, .sink c' u d' k) =>
    c' == c && d' == d && SMap.get 0 (x.tile t).cfg.inSink d == 1 && x.tileOpen t &&
      match k with
      | none => u == t
      | some k => (x.sideTile d k).1 == t && x.takes && gen == x.regs.gen && (!(x.sideTile d k).2 || (k == 1) == (x.tile t).inTurn)
  | _ => false

/-- Whether an entry is held at a sender for its place in input queue `d` of a tile (R87). -/
def State.incoming (s : State) (c t d : Nat) : Bool := (s.gates c).any (s.waitsFor c t d)

/-- The queue of its own tile that the result of an operation goes to (R69, R102; of a STEER, R112 and R115). -/
def Tile.ownDest (y : Tile) (o : BitVec 64) : Option Nat :=
  if [0x2A, 0x2B, 0x2C, 0x2D].contains (opOpc o) then
    match y.tokenQ with
    | [] => none
    | k :: _ => match steerStep o k with
      | none => none
      | some st => if st.emit && st.toDst then dstQueue o else none
  else localDest o

/-- Whether a queue in spill has a claim on the chest's write: an entry held for it at a sender, or an operation ready for it (R60, R87–R89). -/
def State.claims (s : State) (c t q : Nat) : Bool :=
  let x := s.cl c
  let y := x.tile t
  y.inSpill q && if q < 4 then s.incoming c t q else y.cfg.ops.any fun p => y.ownDest p.2 == some q && x.ready t p.1

/-- Whether no queue of a lower code claims the chest's write before queue `q` (R89). -/
def State.chestFirst (s : State) (c t q : Nat) : Bool := !(List.range q).any (s.claims c t)

/-- Whether a result for a queue of its own tile is served now: it does not go to the chest, or no lower code claims its write (R89). -/
def State.served (s : State) (c t : Nat) (dest : Option Nat) : Bool :=
  dest.all fun q => !((s.cl c).tile t).inSpill q || s.chestFirst c t q

/-- Whether an operation may issue in its cluster now (R35, R60–R62, R83, R89, R97, R611, R630). -/
def State.mayFire (s : State) (c t i : Nat) : Bool :=
  let x := s.cl c
  s.fabricRuns c && x.fires && x.issues t i && s.served c t ((x.tile t).ownDest ((x.tile t).op i))

/-- One firing of an operation outside STEER with opcode `opc`, if it may issue (R60–R65). -/
def State.fireOp (s : State) (opc : Nat) (body : Fire → Except ClEvent Cluster) (c t i : Nat) : State :=
  let x := s.cl c
  if opOpc ((x.tile t).op i) = opc ∧ s.mayFire c t i then
    match (x.take t i).bind body with
    | .ok x' => s.setCl c x'
    | .error ev => s.clusterEvent c ev
  else s

end Sys2Proof.Machine
end

