-- ==== Sys2Proof/Machine/Route.lean ====
section
/-!
DEFINITION. Entries on the move: hops over neighbour links, cluster links and crossings (R49–R57, R124, R126, R737),
multi-entry results (R155), far line requests (R74–R78, R215), tokens of COUNT 0 (R114), the chest (R87–R93).
-/
namespace Sys2Proof.Machine

/-- The event of a routing error in a tile (R53). -/
def routeError (t : Nat) : ClEvent := { code := .routeError, detail := t * 2 ^ 32 }

/-- An arrival at a tile from direction `d`: taken into its sink, held at the sender (`none`), or discarded with an event
(R50, R52, R53, R124). -/
def Cluster.arrive (x : Cluster) (t d : Nat) (e : Entry) : Except (Option ClEvent) Cluster :=
  let y := x.tile t
  let sink := (SMap.get 0 y.cfg.inSink d).toNat
  if x.cfg.started && !x.cfg.delivered.contains t then .error none
  else if y.cfg.mode = .unconfigured ∨ sink = 0 ∨ sink > 5 then .error (some (routeError t))
  else if sink = 1 then
    if y.room d then .ok (x.push t d e) else .error none
  else if (SMap.get none y.passR (sink - 2)).isSome then .error none
  else .ok (x.setTile t { y with passR := SMap.set none y.passR (sink - 2) (some e) })

/-- Removes the entry at the source of a hop; an I/O-role tile's turn passes to the other stream (R737). -/
def State.hopLeave (s : State) (h : Hop) : State :=
  match h with
  | .tile c t d =>
    let x := s.cl c
    let y := x.tile t
    let y1 := if SMap.get false y.cfg.outReg d then { y with outR := SMap.set none y.outR d none }
      else { y with passR := SMap.set none y.passR d none }
    let y2 := if y.cfg.mode = .io ∧ tileNeighbour t d = none then { y1 with outTurn := !y.outTurn } else y1
    s.setCl c (x.setTile t y2)
  | .link c d k =>
    let n := 8 * c.val + 2 * d.val + k.val
    s.setLink n { s.link n with pass := none }
  | .crossing c d k =>
    let n := 8 * c.val + 2 * d.val + k.val
    s.setLink n { s.link n with cross := (s.link n).cross.tail }

/-- The cluster at whose registers a hop's source stands. -/
def hopAt : Hop → Nat
  | .tile c _ _ => c
  | .link c _ _ => c
  | .crossing c _ _ => c

/-- The cluster and tile that sent the entry at the source of a hop, where an error of its route is raised: of an entry on a route, the
cluster and the attached tile that the route begins at (R53, R220). -/
def State.hopHome (s : State) (h : Hop) : Nat × Nat :=
  let from_ := fun l : PLink => match s.images.findSome? (fun p => (p.2.routes.find? fun r => r.path.contains l).bind fun r =>
      (p.2.map.getD r.src none).map fun c => (c, attachTile r.dir r.stream)) with
    | some o => o
    | none => (l.cluster, 0)
  match h with
  | .tile c t _ => (c, t)
  | .link c d k => from_ { cluster := c, dir := d, stream := k }
  | .crossing c d k => from_ { cluster := c, dir := d, stream := k }

/-- Whether a cluster that takes no entries will: its configuration is on the way, or its sheet is to be replayed (R120, R126, R599). An
entry for it waits; one for another such cluster meets an unconfigured cluster (R53; DEDUCED, log entry 85). -/
def State.willTake (s : State) (c : Nat) : Bool := (s.cl c).awaits || (s.image (s.cl c).regs.handle.toNat).sheet.replayWait

/-- The state after an entry left the source of a hop for nowhere (R53). -/
def State.hopLost (s : State) (h : Hop) : State := (s.hopLeave h).clusterEvent (s.hopHome h).1 (routeError (s.hopHome h).2)

/-- Whether an entry for an input queue in spill waits since a queue of a lower code claims the chest's write (R89). -/
def State.chestTaken (s : State) (c t d : Nat) : Bool := SMap.get 0 ((s.cl c).tile t).cfg.inSink d == 1 && !s.served c t (some d)

/-- A hop into a tile's sink: none where the entry waits (R49, R50, R53, R89, R126, R737). -/
def State.hopSink (s : State) (h : Hop) (e : Entry) (gen : Bool) (c t d : Nat) (stream : Option Nat) : Option State :=
  let x := s.cl c
  let side := match stream with
    | none => (t, false)
    | some k => x.sideTile d k
  let turn := match stream with
    | none => true
    | some k => !side.2 || (k == 1) == (x.tile side.1).inTurn
  if stream.isSome && (s.service c == .fenced || (!x.takes && !s.willTake c)) then some (s.hopLost h)
  else if stream.isSome && (!x.takes || gen != x.regs.gen || !turn) then none
  else if s.chestTaken c side.1 d then none
  else
    match (((s.hopLeave h).cl c).arrive side.1 d e) with
    | .error none => none
    | .error (some ev) => some ((s.hopLeave h).clusterEvent c ev)
    | .ok x' =>
      let y := x'.tile side.1
      some ((s.hopLeave h).setCl c (if side.2 then x'.setTile side.1 { y with inTurn := !y.inTurn } else x'))

/-- One hop (R49): none where there is no entry or its receiver has no room, so that it waits; else the state after it moved, or was
discarded with ROUTE_ERROR (R53). -/
def State.hopTo (s : State) (h : Hop) : Option State :=
  match s.hopSource h with
  | none => none
  | some (e, gen, place) =>
    match place with
    | .nowhere => some (s.hopLost h)
    | .cross l =>
      if (s.link l.key).cross.length < (Crossing.clusterLink true).depth then
        let s1 := s.hopLeave h
        some (s1.setLink l.key { s1.link l.key with cross := (s1.link l.key).cross ++ [(gen, e)] })
      else none
    | .pass l =>
      if (s.link l.key).pass.isNone then
        let s1 := s.hopLeave h
        some (s1.setLink l.key { s1.link l.key with pass := some (gen, e) })
      else none
    | .sink c t d stream => s.hopSink h e gen c t d stream

/-- One hop, if its entry can move. -/
def State.hop (s : State) (h : Hop) : State := (s.hopTo h).getD s

/-- LINK_HOP (R49–R57, R126, R630, R734, R737). -/
def execLinkHop (h : Hop) (s : State) : Host.Outcome State Fault Refusal :=
  .next (if s.clocked (hopAt h) then s.hop h else s)

/-- The key of a unit's emission in a tile. -/
def EmitKey (u : EmitUnit) : Nat :=
  match u with
  | .mul => 0
  | .alu => 1
  | .siz => 2

/-- The next entry of a multi-entry result leaves, if its outputs and destination allow (R155, R164). -/
def Cluster.emitNext (x : Cluster) (t u : Nat) : Cluster :=
  let y := x.tile t
  match (SMap.get {} y.emit u).entries with
  | [] => x
  | (i, e) :: rest =>
    let o := y.op i
    if y.outsFree (outMask o) && y.destRoom (localDest o) none then
      (x.setTile t { y with emit := SMap.set {} y.emit u { entries := rest } }).send t (outMask o) (localDest o) e
    else x

/-- READOUT_ENTRY_EMIT (R89, R155, R164, R201, R202). -/
def execReadoutEntryEmit (c : ClusterId) (t : TileId) (u : EmitUnit) (s : State) : Host.Outcome State Fault Refusal :=
  let y := (s.cl c).tile t
  let next := (SMap.get {} y.emit (EmitKey u)).entries.head?.bind fun e => localDest (y.op e.1)
  .next (if s.clocked c && s.served c t next then s.setCl c ((s.cl c).emitNext t (EmitKey u)) else s)

/-! ## Far requests -/

/-- The physical line of a far line in a cluster, through the first window that covers it (R215). -/
def ClcRegs.translate (r : ClcRegs) (write : Bool) (a : Nat) : Option Nat :=
  match r.fwin.find? (fun p => p.2.valid && decide (p.2.ibase.toNat ≤ a) && decide (a < p.2.ibase.toNat + p.2.lines.toNat)) with
  | none => none
  | some (_, w) => if (if write then w.wr else w.rd) then some (w.pbase.toNat + a - w.ibase.toNat) else none

/-- Whether the far queues can take a request: 32 requests wait at most, 64 returns are reserved at most (R58, R75). -/
def Cluster.farRoom (x : Cluster) (write : Bool) : Bool :=
  decide ((x.farQ.filter fun q => q.served == .waiting).length < 32) &&
    (write || decide ((x.farQ.filter fun q => !q.write).length < 64))

/-- The next line request of a tile's far job (R74–R78). -/
def State.farRequest (s : State) (c t : Nat) : State :=
  let x := s.cl c
  let y := x.tile t
  match y.farJobs with
  | [] => s
  | j :: rest =>
    if !x.farRoom j.write then s
    else
      match x.regs.translate j.write j.line with
      | none => s.clusterEvent c { code := .farRange, detail := j.line % 2 ^ 32 + t * 2 ^ 32 }
      | some l =>
        let q : FarReq := { tile := t, write := j.write, line := l, sram := j.sram
                            data := if j.write then y.sram.readBytes j.sram 64 else []
                            inc := j.flagMode == 2 || (j.flagMode == 1 && j.left == 1), flag := j.flag }
        let j' := { j with line := j.line + 1, left := j.left - 1, sram := j.sram + 64 }
        let y' := { y with farJobs := if j.left ≤ 1 then rest else j' :: rest }
        s.setCl c { x.setTile t y' with farQ := x.farQ ++ [q] }

/-- FAR_REQUEST_ENTRY (R75, R78). -/
def execFarRequestEntry (c : ClusterId) (t : TileId) (s : State) : Host.Outcome State Fault Refusal :=
  .next (if s.clocked c then s.farRequest c t else s)

/-- Removes the first element that satisfies a predicate. -/
def removeFirst {α : Type} (p : α → Bool) : List α → List α
  | [] => []
  | a :: l => if p a then l else a :: removeFirst p l

/-- Applies the flag update of a completed line (R74, R77, R84). -/
def State.farFlag (s : State) (c t : Nat) (q : FarReq) : State :=
  if !q.inc then s
  else
    match (s.cl c).flagAdd q.flag 1 with
    | none => s.clusterEvent c { code := .flagOverflow, detail := q.flag + t * 2 ^ 32 }
    | some x => s.setCl c x

/-- The fault record of an uncorrectable GDDR6 line that ends work (R590, R617, R618). -/
def State.lineFault (s : State) (line h : Nat) : State :=
  s.faultRecord { kind := 6, cls := 3, action := 8, handle := BitVec.ofNat 16 h, loc := BitVec.ofNat 32 line
                  ring := BitVec.ofNat 16 (s.imageRing h) }

/-- Completes the oldest far request of a tile, if it is of this kind and has been served (R76, R77); a read of an
uncorrectable line ends the sheet (R590). -/
def State.farComplete (s : State) (c t : Nat) (write : Bool) : State :=
  let x := s.cl c
  match x.farQ.find? (fun q => q.tile == t) with
  | none => s
  | some q =>
    if q.write != write then s
    else
      let x1 := { x with farQ := removeFirst (fun r => r.tile == t) x.farQ }
      match q.served with
      | .waiting => s
      | .bad =>
        let h := x.regs.handle.toNat
        (((s.setCl c x1).lineFault q.line h)).abortFor h c outFatal 0xA5 0
      | .ok =>
        let x2 := if write then x1 else x1.setTile t ((x1.tile t).sramWrite q.sram q.data)
        (s.setCl c x2).farFlag c t q

/-- FAR_READ_LINE_COMPLETE (R76, R77, R82, R84). -/
def execFarReadLineComplete (c : ClusterId) (t : TileId) (s : State) : Host.Outcome State Fault Refusal :=
  .next (s.farComplete c t false)

/-- FAR_WRITE_LINE_COMPLETE (R76, R77, R82, R84). -/
def execFarWriteLineComplete (c : ClusterId) (t : TileId) (s : State) : Host.Outcome State Fault Refusal :=
  .next (s.farComplete c t true)

/-! ## Tokens of COUNT 0 and the chest -/

/-- Whether the consumer of a tile's token queue is SWITCH, MERGE or DROP (R59, R114). -/
def Tile.dropsZero (y : Tile) : Bool := y.cfg.ops.any fun p => [0x2A, 0x2B, 0x2D].contains (opOpc p.2)

/-- TOKEN_ZERO_LEAVE (R114): the head token of COUNT 0 leaves without a firing. -/
def execTokenZeroLeave (c : ClusterId) (t : TileId) (s : State) : Host.Outcome State Fault Refusal :=
  let x := s.cl c
  let y := x.tile t
  match y.tokenQ with
  | [] => .next s
  | k :: _ => .next (if tokCount k = 0 ∧ y.dropsZero ∧ s.clocked c then s.setCl c (x.setTile t (y.pop 6)) else s)

/-- The hop whose receiver is a tile's input from direction `d`. -/
def State.sender (_s : State) (c t d : Nat) : Option Hop :=
  match tileNeighbour t d with
  | some u => if h : c < 881 ∧ u < 64 ∧ opposite d < 4 then
      some (.tile ⟨c, h.1⟩ ⟨u, h.2.1⟩ ⟨opposite d, h.2.2⟩) else none
  | none => none

/-- Whether an entry waits to enter a queue (R87): for an input queue, one held at a sender; for a local or token queue,
an operation of the tile that is ready but for room in it. -/
def State.entryWaits (s : State) (c t q : Nat) : Bool :=
  let x := s.cl c
  if q < 4 then s.incoming c t q
  else (x.tile t).cfg.ops.any fun p => x.readyBut t p.1 (some q) && !x.ready t p.1

/-- Whether a queue meets the spill condition but for time: full, not in spill, with an entry waiting (R87). -/
def State.spillDue (s : State) (c t q : Nat) : Bool :=
  let y := (s.cl c).tile t
  !y.inSpill q && decide (y.queueLen q = queueDepth q) && s.entryWaits c t q

/-- The queues of a tile that R94 lists as full, input, local and token. -/
def Tile.fullQueues (y : Tile) : List Nat := (List.range 7).filter fun q => decide (y.queueLen q = queueDepth q)

/-- The output and pass-through registers of a tile that hold an entry (R94, R95). -/
def Tile.fullRegs (y : Tile) : List Nat :=
  ((List.range 4).filter fun d => (SMap.get none y.outR d).isSome).map (8 + ·) ++
    ((List.range 4).filter fun d => (SMap.get none y.passR d).isSome).map (12 + ·)

/-- The full queues of a cluster in the order of R94, as (tile, code). -/
def Cluster.fullList (x : Cluster) : List (Nat × Nat) :=
  x.tiles.flatMap (fun p => p.2.fullQueues.map fun q => (p.1, q)) ++
    x.tiles.flatMap (fun p => p.2.fullRegs.map fun q => (p.1, q)) ++
    (if (x.farQ.filter fun q => q.served == .waiting).length ≥ 32 then [(0, 16)] else []) ++
    (if (x.farQ.filter fun q => !q.write && q.served != .waiting).length ≥ 64 then [(0, 17)] else [])

/-- The flags that WAIT_FLAG operations ready except for their flag wait on, in tile and store order (R92, R94). -/
def Cluster.waitedFlags (x : Cluster) : List Nat :=
  x.tiles.flatMap fun p => p.2.cfg.ops.filterMap fun r =>
    let f := bitsOf (opSel r.2) 0 6
    let free : Cluster := { x with flags := SMap.set 0 x.flags f 0xFFFF }
    if opOpc r.2 = 0x27 ∧ free.ready p.1 r.1 ∧ !x.ready p.1 r.1 then some f else none

/-- Raises STALL_DEADLOCK with a cause: the stall information of the cluster and the event (R94). Where ready WAIT_FLAGs wait on several
flags, FLAG of the stall information is the first by tile and store index, the same in every entry (DESIGN CHOICE, log entry 99). -/
def State.stall (s : State) (c cause : Nat) : State :=
  let x := s.cl c
  let qs := x.fullList.take 16
  let fs := x.waitedFlags
  let word := fun k : Nat =>
    match qs[k]? with
    | none => (0 : BitVec 32)
    | some (t, q) => BitVec.ofNat 32 (2 ^ 31 + cause * 2 ^ 28 + t % 8 * 2 ^ 25 + t / 8 * 2 ^ 22 + q * 2 ^ 17 + fs.headD 0 * 2 ^ 11)
  let info := (List.range 4).foldl (fun m k => SMap.set 0 m k (word k)) x.regs.stall
  let detail := (fs.eraseDups.map (2 ^ ·)).sum
  (s.setCl c { x with regs := { x.regs with stall := info } }).clusterEvent c
    { code := .stallDeadlock, cause, detail, queues := qs }

/-- Whether a queue needs to spill while its tile's chest has no free entry: it is full, or in spill already, and an entry waits to
enter it (R88, R91). -/
def State.chestShort (s : State) (c t q : Nat) : Bool :=
  let y := (s.cl c).tile t
  !y.chestRoom && (y.inSpill q || decide (y.queueLen q = queueDepth q)) && s.entryWaits c t q

/-- CHEST_SPILL_BEGIN (R87, R89, R91, R93): the queue enters spill and an entry held at a neighbour goes to the chest; an
exhausted chest is marked CHEST_FULL, once; a trigger cluster stalls with cause 2. -/
def execChestSpillBegin (c : ClusterId) (t : TileId) (q : Fin 7) (s : State) : Host.Outcome State Fault Refusal :=
  let x := s.cl c
  let y := x.tile t
  if !s.clocked c || !x.working then .next s
  else if x.regs.trigger then .next (if s.spillDue c t q then s.stall c 2 else s)
  else if s.chestShort c t q then .next (if x.regs.event.getLsbD 7 then s else s.setCl c { x with regs := x.regs.setEvent 7 })
  else if !s.spillDue c t q || !s.chestFirst c t q then .next s
  else
    let y1 := { y with spill := y.spill ||| BitVec.ofNat 7 (2 ^ q.val) }
    let s1 := s.setCl c { x.setTile t y1 with regs := x.regs.setEvent 1 }
    match s.sender c t q with
    | none => .next s1
    | some h => .next (if q.val < 4 then s1.hop h else s1)

/-- CHEST_REFILL (R88): the oldest chest entry of a queue enters it; the queue leaves spill with its last. -/
def execChestRefill (c : ClusterId) (t : TileId) (q : Fin 7) (s : State) : Host.Outcome State Fault Refusal :=
  let x := s.cl c
  let y := x.tile t
  match y.chest.find? (fun p => p.1 == q.val) with
  | none => .next s
  | some p =>
    if y.queueLen q < queueDepth q ∧ s.clocked c then
      let rest := removeFirst (fun p => p.1 == q.val) y.chest
      let z := { y.enqueue q p.2 with chest := rest }
      let more := rest.any fun p => p.1 == q.val
      .next (s.setCl c (x.setTile t (if more then z else { z with spill := z.spill &&& ~~~(BitVec.ofNat 7 (2 ^ q.val)) })))
    else .next s

end Sys2Proof.Machine
end

