-- ==== Sys2Proof/Machine/Sheet.lean ====
section
/-!
DEFINITION. The life of a sheet in its clusters: the watchdog, the end of the sheet, drain and abort (R90–R99, R119, R165,
R732, R735), and the delivery or restoring of configurations (R120–R128, R598).
-/
namespace Sys2Proof.Machine

/-! ## What a cluster holds -/

/-- Whether every operation that selects no queue has made its firings (R64, R735). -/
def Cluster.sourcesDone (x : Cluster) : Bool :=
  x.tiles.all fun p => p.2.cfg.ops.all fun r =>
    [0, 0x2A, 0x2B, 0x2C, 0x2D].contains (opOpc r.2) || opQueues r.2 != [] || !x.sourceLeft p.1 r.1

/-- Whether some operation of a cluster may issue. -/
def Cluster.anyIssues (x : Cluster) : Bool := x.tiles.any fun p => p.2.cfg.ops.any fun r => x.issues p.1 r.1

/-! ## The delivery of a configuration: what can be next (R48, R120–R124) -/

/-- Whether the queues, the registers of the router and the chest of a tile are empty (R48). -/
def Tile.rested (y : Tile) : Bool :=
  y.queues.all (fun p => p.2.isEmpty) && y.tokenQ.isEmpty && y.chest.isEmpty && y.outR.all (fun p => p.2.isNone) &&
    y.passR.all (fun p => p.2.isNone)

/-- Whether a tile may take a mode: it has it, or it rests (R48). -/
def Tile.mayTake (y : Tile) (m : TileMode) : Bool := y.cfg.mode == m || y.rested

/-- A configuration entry's KIND (R121). -/
def entryKind (e : Entry) : Nat := bitsOf e.toNat 124 4

/-- A tile mode by its code (R46). -/
def modeOf (k : Nat) : TileMode :=
  match k with
  | 1 => .uniform
  | 2 => .multiplier
  | 3 => .special
  | 4 => .memory
  | 5 => .io
  | _ => .unconfigured

/-- OP_COUNT of a TILE_HEAD. -/
def headOps (e : Entry) : Nat := bitsOf e.toNat 107 7

/-- TOKENS of a TILE_HEAD. -/
def headTokens (e : Entry) : Nat := bitsOf e.toNat 78 4

/-- The number of register values that a TILE_HEAD's REG_MASK counts. -/
def headPop (e : Entry) : Nat := countTrue ((List.range 64).map fun n => bitAt e.toNat n)

/-- The payload entries of a TILE_HEAD (R121). -/
def headPayload (e : Entry) : Nat := ceilDiv (headOps e) 2 + ceilDiv (headPop e) 4 + ceilDiv (headTokens e) 4

/-- Whether the group of a TILE_HEAD that is complete can be applied: its tile may take the mode (R48). -/
def Cluster.headFits (x : Cluster) (e : Entry) : Bool :=
  (x.tile (bitsOf e.toNat 118 6)).mayTake (modeOf (bitsOf e.toNat 114 4))

/-- Whether the next entry of the stream can be delivered. One that would change the mode of a tile waits until the tile rests (R48). -/
def Cluster.entryFits (x : Cluster) (e : Entry) : Bool :=
  let u := x.cfg
  if u.asm.active then u.asm.payload.length + 1 != headPayload u.asm.head || x.headFits u.asm.head
  else match entryKind e with
    | 4 => headPayload e != 0 || x.headFits e
    | 5 => x.tiles.all fun p => u.delivered.contains p.1 || p.2.mayTake .unconfigured
    | _ => true

/-- Whether a line of the stream can be fetched (R120). -/
def CfgUnit.canFetch (u : CfgUnit) : Bool :=
  u.fetching && u.entriesLeft != 0 && decide (u.queue.length + min 4 u.entriesLeft ≤ 64)

/-- Whether the next entry of a cluster's configuration queue can be delivered (R48, R120). -/
def Cluster.canDeliver (x : Cluster) : Bool :=
  match x.cfg.queue with
  | [] => false
  | e :: _ => !x.cfg.restore && (x.cfg.started || x.st == .idle || x.st == .drained) && x.entryFits e

/-! ## Watchdog, drain and abort -/

/-- Whether a cluster is idle in the sense of the watchdog (R732). -/
def Cluster.idle (x : Cluster) : Bool :=
  x.dataFree && x.tiles.all (fun p => p.2.tokenQ.isEmpty && p.2.chest.isEmpty) && x.cfg.queue.isEmpty &&
    x.waitedFlags.isEmpty

/-- Whether a queue of a cluster needs to spill while its chest has no free entry (R91). -/
def State.chestExhausted (s : State) (c : Nat) : Bool :=
  !(s.cl c).regs.trigger && (s.cl c).tiles.any fun p => (List.range 7).any fun q => s.chestShort c p.1 q

/-- Whether something in a tile of a cluster can move on by itself: an entry of a unit's result, a line of its far job, its head token of
COUNT 0, an entry of its chest or one for it, an entry in an output register (R90). -/
def State.tileMoves (s : State) (c t : Nat) : Bool :=
  let x := s.cl c
  let y := x.tile t
  [0, 1, 2].any (fun u => decide (x.emitNext t u ≠ x)) ||
    (match y.farJobs with
      | [] => false
      | j :: _ => x.farRoom j.write) ||
    (match y.tokenQ with
      | [] => false
      | k :: _ => tokCount k == 0 && y.dropsZero) ||
    y.chest.any (fun p => decide (y.queueLen p.1 < queueDepth p.1)) ||
    (y.chestRoom && !x.regs.trigger && (List.range 7).any fun q => s.spillDue c t q) ||
    (match x.farQ.find? (fun q => q.tile == t) with
      | none => false
      | some q => q.served != .waiting) ||
    (List.range 4).any fun d => SMap.get false y.cfg.outReg d && (if h : c < 881 ∧ t < 64 ∧ d < 4 then
      (s.hopTo (.tile ⟨c, h.1⟩ ⟨t, h.2.1⟩ ⟨d, h.2.2⟩)).isSome else false)

/-- Whether an entry on the way to a cluster by a hop enters one of its queues (R90): pass-through movements do not count. -/
def State.enters (s : State) (c : Nat) (h : Hop) : Bool :=
  match s.hopSource h with
  | some (_, _, .sink c' t d k) =>
    let u := match k with
      | none => t
      | some k => ((s.cl c).sideTile d k).1
    c' == c && SMap.get 0 ((s.cl c).tile u).cfg.inSink d == 1 && (s.hopTo h).isSome
  | _ => false

/-- The clusters of an image, by its handle; of handle 0, the dandy's (R632, R633; log entry 102). -/
def State.drainClusters (s : State) (h : Nat) : List Nat := if h = 0 then [880] else (s.image h).clusters

/-- A tile whose L1 has been taken, with what spilled from it. -/
def Tile.l1Taken (y : Tile) : Tile :=
  { y with queues := SMap.set [] y.queues 5 [], chest := y.chest.filter fun p => p.1 != 5, spill := y.spill &&& ~~~(BitVec.ofNat 7 32) }

/-- A cluster as its drain looks at it: in the dandy the decision entries, which are popped after the drain, are set aside (R98, R635). -/
def State.drainView (s : State) (c : Nat) : Cluster :=
  let x := s.cl c
  if c = 880 then x.setTile s.dnd.otile.toNat (x.tile s.dnd.otile.toNat).l1Taken else x

/-- Whether every cluster of an image drains and is quiescent (R165). A cluster already DRAINED counts (DEDUCED, log entry 27); control
tokens are set aside, as R119 and R735 do for data entries (DESIGN CHOICE, log entry 102). -/
def State.quiescent (s : State) (h : Nat) : Bool :=
  (s.drainClusters h).all (fun c => ((s.cl c).st == .drain || (s.cl c).st == .drained) && (s.drainView c).dataFree) && s.routesFree (s.image h)

/-- Whether partly filled packs of an image are due (R165). -/
def State.packsDue (s : State) (h : Nat) : Bool :=
  s.quiescent h && (s.drainClusters h).any fun c => (s.cl c).tiles.any fun p => p.2.holdsPack

/-- Whether a pipeline is due to put an entry into a queue of a cluster, or to take one out (R90): an entry for an ingress tile's L1 that has
room, a decision entry of an entry set. -/
def State.pipeMoves (s : State) (c : Nat) : Bool :=
  s.trp.pipes.any fun p =>
    let q := p.2
    let im := s.image q.handle.toNat
    (q.st == .warm || q.st == .live) &&
      ((q.ports.any fun r => r.started && im.clusterOf r.vx r.vy == some c && ((s.cl c).tile r.tile).room 5 && q.inq.any fun a => a.port == r.num) ||
        (im.clusterOf q.decVx q.decVy == some c && decide (q.unit.length < q.sets.length) && (((s.cl c).tile q.decTile).queue 5) != []))

/-- Whether a cluster can make progress by itself: an operation may issue, an entry can enter or leave one of its queues, its
configuration queue included, a far line can complete, its chest is due a read or a write, or a partly filled pack is due (R90, R127,
R165). -/
def State.canProgress (s : State) (c : Nat) : Bool :=
  let x := s.cl c
  x.anyIssues || x.canDeliver || x.cfg.canFetch || x.tiles.any (fun p => s.tileMoves c p.1) || (s.gates c).any (s.enters c) ||
    s.pipeMoves c || s.packsDue x.regs.handle.toNat

/-- Whether the watchdog of a cluster is suspended: a cluster of its image is stopped by heat (R630, R732), or its own die is. -/
def State.watchHeld (s : State) (c : Nat) : Bool :=
  !s.fabricRuns c || (s.image (s.cl c).regs.handle.toNat).clusters.any s.tooHot

/-- WATCHDOG_EXPIRY (R90–R92, R127, R732). -/
def execWatchdogExpiry (c : ClusterId) (s : State) : Host.Outcome State Fault Refusal :=
  let x := s.cl c
  if !x.working || x.idle || s.canProgress c || s.watchHeld c then .next s
  else
    .next (s.stall c (if s.chestExhausted c then 0 else if x.waitedFlags ≠ [] then 1 else if x.st = .drain then 3 else 4))

/-- Requests the drain of an image (R97): clusters in RUN go to DRAIN, those in CONFIG hold the request, and no other is changed by it. The
request stands for the image, so that a cluster which enters CONFIG later holds it then (DEDUCED, log entry 53). Pipelines become IDLE
(R387). -/
def State.requestDrain (s : State) (h : Nat) : State :=
  let im := s.image h
  let s0 := s.setImage h { im with sheet := { im.sheet with drainAsked := true } }
  let s1 := im.clusters.foldl (fun s c =>
    let x := s.cl c
    if x.st = .run then s.setCl c { x with st := .drain }
    else if x.st = .config then s.setCl c { x with drainHeld := true }
    else s) s0
  im.pipes.foldl (fun s p =>
    let q := s.pipe p
    s.setPipe p { q with st := .idle, starting := false, inq := [], sets := [], unit := []
                         ports := q.ports.map fun t => { t with started := false } }) s1

/-- SHEET_END (R735). -/
def execSheetEnd (h : BitVec 16) (s : State) : Host.Outcome State Fault Refusal :=
  let im := s.image h.toNat
  let ends := fun c =>
    let x := s.cl c
    x.st == .run && !x.cfg.started && x.dataFree && x.sourcesDone
  if im.kind ≠ 1 ∧ im.sheet.active ∧ im.map.all Option.isSome ∧ im.clusters.all ends ∧ s.routesFree im then
    .next (s.requestDrain h.toNat)
  else .next s

/-- The key of the unit that emits a pack: ALU for CVT, SIZ for QUANT. -/
def packUnit (o : BitVec 64) : Nat := if opOpc o = 0x14 then 1 else 2

/-- Emits the partly filled packs of a tile with zeros in the unfilled lanes: a pack whose outputs are taken waits behind its
unit's emission (R165). -/
def Cluster.emitPacks (x : Cluster) (t : Nat) : Cluster :=
  let y := x.tile t
  let ps := y.packs.filter fun p => p.2.pos != 0 && (opOpc (y.op p.1) == 0x14 || opOpc (y.op p.1) == 0x1C)
  let x0 := x.setTile t { y with packs := ps.foldl (fun m p => SMap.set {} m p.1 {}) y.packs }
  ps.foldl (fun x p =>
    let y := x.tile t
    let o := y.op p.1
    let u := packUnit o
    let e := SMap.get {} y.emit u
    if e.entries.isEmpty && y.outsFree (outMask o) && y.destRoom (localDest o) none then
      x.send t (outMask o) (localDest o) p.2.entry
    else x.setTile t { y with emit := SMap.set {} y.emit u { entries := e.entries ++ [(p.1, p.2.entry)] } }) x0

/-- PARTIAL_PACK_EMIT (R165, R180, R633). -/
def execPartialPackEmit (h : BitVec 16) (s : State) : Host.Outcome State Fault Refusal :=
  if s.quiescent h.toNat then
    .next ((s.drainClusters h.toNat).foldl (fun s c =>
      let x := s.cl c
      s.setCl c (x.tiles.foldl (fun z p => z.emitPacks p.1) x)) s)
  else .next s

/-- The first token of a tile with COUNT above 0, in its queue or its chest. -/
def Tile.liveToken (y : Tile) : Option (BitVec 32) :=
  (y.tokenQ ++ (y.chest.filter fun p => p.1 == 6).map fun p => p.2.setWidth 32).find? fun k => tokCount k != 0

/-- TOKEN_OVERRUN (R119). -/
def execTokenOverrun (c : ClusterId) (s : State) : Host.Outcome State Fault Refusal :=
  let x := s.cl c
  if x.st ≠ .drain ∨ !(s.drainView c).dataFree ∨ x.tiles.any (fun p => p.2.holdsPack) then .next s
  else
    match x.tiles.findSome? (fun p => p.2.liveToken.map fun k => (p.1, tokCount k)) with
    | none => .next s
    | some (t, n) =>
      let w := BitVec.ofNat 32 (2 ^ 31 + t % 8 * 2 ^ 28 + t / 8 * 2 ^ 25 + n % 2 ^ 24)
      .next ((s.setCl c { x with regs := { x.regs with overrun := w } }).clusterEvent c
        { code := .tokenOverrun, detail := n + t * 2 ^ 32 })

/-- The ends that follow when a cluster of an image has drained: its sheet (R499) and a requested drain (R500). -/
def State.drainedCheck (s : State) (h : Nat) : State :=
  let im := s.image h
  if im.sheet.active ∧ !im.sheet.draining ∧ im.kind ≠ 1 ∧
      im.clusters.all (fun c => (s.cl c).st == .drained && (s.cl c).empty && !(s.cl c).awaits) ∧ s.routesFree im then
    s.endSheet h outDone 0 0 false
  else s.checkDrain h

/-- CLUSTER_DRAINED (R98, R499, R500). -/
def execClusterDrained (c : ClusterId) (s : State) : Host.Outcome State Fault Refusal :=
  let x := s.cl c
  if (x.st = .drain ∨ x.st = .drained) ∧ x.empty then
    .next ((s.setCl c { x with st := .drained }).drainedCheck x.regs.handle.toNat)
  else .next s

/-- CLC_DRAIN (R97): for the whole image of the cluster. -/
def execClcDrain (c : ClusterId) (s : State) : Host.Outcome State Fault Refusal :=
  let x := s.cl c
  if s.flt.halted then .next s
  else if s.loaded x.regs.handle.toNat then .next (s.requestDrain x.regs.handle.toNat)
  else if x.st = .run then .next (s.setCl c { x with st := .drain })
  else if x.st = .config then .next (s.setCl c { x with drainHeld := true })
  else .next s

/-- CLC_ABORT (R96): the sheet is aborted and the cluster goes to ABORTED. -/
def execClcAbort (c : ClusterId) (s : State) : Host.Outcome State Fault Refusal :=
  let h := (s.cl c).regs.handle.toNat
  .next (if s.flt.halted then s else if s.loaded h then (s.abortSheet h outAborted 0xA2 0).abortCluster c else s.abortCluster c)

/-! ## Delivery of configurations -/

/-- A tile at the start of a sheet: what R135, R151, R156, R165, R171, R180, R196 and R737 restart. -/
def Tile.startSheet (y : Tile) : Tile :=
  { y with accs := [], books := [], fired := [], macrCnt := [], draws := [], packs := [], emit := [], siz := {},
           satInt := 0, satFp := 0, farJobs := [], outTurn := false, inTurn := false }

/-- A cluster at the start of a sheet: its per-sheet counters and its tiles restart. -/
def Cluster.startSheet (x : Cluster) : Cluster :=
  { x with tiles := x.tiles.map fun p => (p.1, p.2.startSheet), waitTurn := []
           regs := { x.regs with spills := 0, chestMax := 0, sguard := 0 } }

/-- The registers that a TILE_HEAD initialises, in rising order (R121). -/
def headRegs (e : Entry) : List Nat := (List.range 64).filter fun n => n != 0 && bitAt e.toNat n

/-- Field `k` of width `w` of a run of entries, low bits first. -/
def payloadField (l : List Entry) (w k : Nat) : Nat :=
  bitsOf ((l.getD (k / (128 / w)) 0).toNat) (w * (k % (128 / w))) w

/-- The register values of a tile group. -/
def groupRegs (e : Entry) (l : List Entry) : List (Nat × Nat) :=
  let l' := l.drop (ceilDiv (headOps e) 2)
  (headRegs e).mapIdx fun k n => (n, payloadField l' 32 k)

/-- The initial tokens of a tile group (R105). -/
def groupTokens (e : Entry) (l : List Entry) : List (BitVec 32) :=
  let l' := l.drop (ceilDiv (headOps e) 2 + ceilDiv (headPop e) 4)
  (List.range (headTokens e)).map fun k => BitVec.ofNat 32 (payloadField l' 32 k)

/-- The configuration of a tile group (R121). -/
def groupCfg (e : Entry) (l : List Entry) : TileCfg :=
  { mode := modeOf (bitsOf e.toNat 114 4)
    ops := (List.range (headOps e)).foldl (fun m k => SMap.set 0 m k (BitVec.ofNat 64 (payloadField l 64 k))) []
    quota := bitsOf e.toNat 98 9
    inSink := (List.range 4).foldl (fun m d => SMap.set 0 m d (BitVec.ofNat 3 (bitsOf e.toNat (95 - 3 * d) 3))) []
    outReg := (List.range 4).foldl (fun m d => SMap.set false m d (bitAt e.toNat (85 - d))) []
    tokens := groupTokens e l }

/-- A tile applies the registers and tokens of its group, and unless the sheet restores, its configuration (R123, R128). -/
def Tile.apply (y : Tile) (restore : Bool) (e : Entry) (l : List Entry) : Tile :=
  let y1 := (groupRegs e l).foldl (fun z p => z.setReg p.1 (BitVec.ofNat 32 p.2)) y
  let y2 := { y1 with tokenQ := groupTokens e l }
  if restore then y2 else { y2 with cfg := groupCfg e l }

/-- The flags and counters of a sheet's start (R80, R106, R125, R128). -/
def Cluster.initials (x : Cluster) : Cluster :=
  { x with flags := x.cfg.flags
           cntVal := x.cfg.cnts.foldl (fun m p => SMap.set 0 m p.1 (BitVec.ofNat 24 p.2.toNat)) []
           cntLim := x.cfg.cnts.foldl (fun m p => SMap.set 0 m p.1 (BitVec.ofNat 24 (bitsOf p.2.toNat 24 24))) [] }

/-- The snapshot of a tile (R598): its marked lines, all registers and all tables over what the store held. -/
def Tile.snapshot (y : Tile) (old : SavedTile) : SavedTile :=
  { sram := y.dirty.foldl (fun m k => m.writeBytes (64 * k) (y.sram.readBytes (64 * k) 64)) old.sram
    regs := y.regs, tables := y.tables }

/-- Copies a cluster to its image's replay store in FAR write slots and clears the marks: per tile 192 lines of SRAM, 4 of registers and
32 of tables (R597, R598; the order in the store is a DESIGN CHOICE, log entry 31). -/
def State.snapshot (s : State) (c : Nat) : State :=
  let x := s.cl c
  let h := x.regs.handle.toNat
  let im := s.image h
  match im.map.findIdx? (· == some c) with
  | none => s
  | some v =>
    if im.kind = 1 then s
    else
      let store := x.tiles.foldl (fun m p =>
        SMap.set {} m (64 * v + p.1) (p.2.snapshot (SMap.get {} im.replay (64 * v + p.1)))) im.replay
      let x' := { x with tiles := x.tiles.map fun p => (p.1, { p.2 with dirty := [] }) }
      let s1 := x.tiles.foldl (fun s p => p.2.dirty.foldl
        (fun s k => s.asks classFar true (64 * (im.replayBase + 14592 * v + 228 * p.1 + k)) 64) s
        |>.asks classFar true (64 * (im.replayBase + 14592 * v + 228 * p.1 + 192)) (64 * 36)) s
      (s1.setImage h { im with
        replay := store, sheet := { im.sheet with copied := (im.sheet.copied ++ [v]).eraseDups } }).setCl c x'

/-- Enters one pipeline in WARM (R371, R376, R379, R383, R387): the detector's re-arming and HOLDOFF start afresh (R586). With EPOCH_REQ at 1
ARMED and EPOCH stay at a start; at a restart, out of HALTED, they are reset as a gap resets all of the detector's state, so that the
pipeline waits for the next firing (R586). -/
def Pipe.warm (q : Pipe) (now : Nat) : Pipe :=
  let det : Detect := if !q.ctl.epochReq then { armed := true } else if q.st = .halted then {}
    else { armed := q.det.armed, epoch := q.det.epoch }
  { q with st := if q.ctl.warm = 0 then .live else .warm
           starting := false, warmAt := now, judged := 0, last := none
           det := { det with warmLeft := q.ctl.warm.toNat }
           inq := [], sets := [], unit := [], ports := q.ports.map fun t => { t with started := false, count := 0 } }

/-- Pipelines that start enter WARM once their clusters run; RUN_SHEET of a KIND 1 image completes when all have (R387,
R499). -/
def State.checkWarm (s : State) (h : Nat) : State :=
  let im := s.image h
  let s1 := im.pipes.foldl (fun s p =>
    let q := s.pipe p
    if q.starting && (s.pipeClusters p).all (fun c => (s.cl c).st == .run && !(s.cl c).cfg.started)
    then s.setPipe p (q.warm s.runNow) else s) s
  if im.kind = 1 ∧ im.sheet.active ∧ !im.sheet.draining ∧ im.pipes.all (fun p => !(s1.pipe p).starting) then
    s1.endSheet h outDone 0 0 false
  else s1

/-- Whether a line of a cluster's configuration is uncorrectable; the dandy's lies in its program store (R631). -/
def State.configBad (s : State) (c line : Nat) : Bool := c != 880 && s.lineBad line

/-- Bytes of a cluster's configuration, from a line on: of far memory, or of the dandy's program store (R120, R631). -/
def State.configBytes (s : State) (c line n : Nat) : List Byte :=
  if c = 880 then (s.dnd.prog.drop (64 * line)).take n else s.gddrRead (64 * line) n

/-- CONFIG_FETCH (R120, R590): one line of the stream enters the configuration queue of 64 entries. -/
def execConfigFetch (c : ClusterId) (s : State) : Host.Outcome State Fault Refusal :=
  let x := s.cl c
  let u := x.cfg
  let n := min 4 u.entriesLeft
  if !u.canFetch || s.flt.halted then .next s
  else if s.configBad c u.line then
    let h := x.regs.handle.toNat
    .next ((s.lineFault u.line h).abortFor h c outFatal 0xA5 0)
  else
    let bs := s.configBytes c u.line 64
    let es := (List.range n).map fun k => BitVec.ofNat 128 (leNat ((bs.drop (16 * k)).take 16))
    .next ((if c.val = 880 then s else s.asks classFar false (64 * u.line) 64).setCl c { x with cfg := { u with
      queue := u.queue ++ es, line := u.line + 1, linesLeft := u.linesLeft - 1, entriesLeft := u.entriesLeft - n } })

/-- A cluster enters RUN, and in the cycle after it DRAIN where it holds a drain (R96, R97). -/
def Cluster.enterRun (x : Cluster) : Cluster :=
  let x1 : Cluster := { x with st := .run }
  if x.drainHeld then { x1 with st := .drain, drainHeld := false } else x1

/-- The first tile of a configuration applies: flags and counters take their values and the cluster runs (R96, R97, R125). -/
def Cluster.firstApply (x : Cluster) : Cluster :=
  if x.st != .config then x
  else
    let x1 := x.initials
    ({ x1 with regs := { x1.regs with gen := x.cfg.gen, cidx := x.cfg.index } } : Cluster).enterRun

/-- NFR and CONSEC: 0 acts as 1 (R635, R637). -/
def atLeastOne (n : Nat) : Nat := if n = 0 then 1 else n

/-- Whether the drain of a cluster's image has been requested in this sheet; of the dandy's, whether its window has all its frames or has
failed (R97, R635). -/
def State.drainAsked (s : State) (c : Nat) : Bool :=
  if c = 880 then s.dnd.win.active && (s.dnd.win.bad || decide (atLeastOne s.dnd.nfr.toNat ≤ s.dnd.win.frames))
  else (s.image (s.cl c).regs.handle.toNat).sheet.drainAsked

/-- A tile group is complete: its tile applies it (R123). -/
def Cluster.applyGroup (x : Cluster) (e : Entry) (l : List Entry) : Cluster :=
  let t := bitsOf e.toNat 118 6
  let x1 := x.setTile t ((x.tile t).apply false e l)
  { x1.firstApply with cfg := { x1.cfg with
      asm := {}, delivered := x1.cfg.delivered ++ [t], pending := x1.cfg.pending - 1 } }

/-- CLUSTER_END (R124, R125): tiles that the stream did not name become unconfigured; a stream that named none ends in RUN. -/
def Cluster.endStream (x : Cluster) : Cluster :=
  let x1 := x.firstApply
  { x1 with tiles := x1.tiles.map fun p =>
              if x.cfg.delivered.contains p.1 then p else (p.1, { p.2 with cfg := {} })
            cfg := { gen := x.cfg.gen } }

/-- An entry that is not a payload entry takes effect (R121, R125). -/
def Cluster.deliver (x : Cluster) (e : Entry) : Cluster :=
  let u := x.cfg
  let b := e.toNat
  match entryKind e with
  | 2 => { x with cfg := { u with flags := SMap.set 0 u.flags (bitsOf b 118 6) (BitVec.ofNat 16 (bitsOf b 0 16)) } }
  | 3 => { x with cfg := { u with cnts := SMap.set 0 u.cnts (bitsOf b 120 4) (BitVec.ofNat 48 (bitsOf b 0 48)) } }
  | 4 =>
    if headPayload e = 0 then x.applyGroup e []
    else { x with cfg := { u with asm := { active := true, head := e } } }
  | 5 => x.endStream
  | _ => x

/-- CONFIG_ENTRY_DELIVERY (R120–R127, R598). -/
def execConfigEntryDelivery (c : ClusterId) (s : State) : Host.Outcome State Fault Refusal :=
  let x0 := s.cl c
  match x0.cfg.queue with
  | [] => .next s
  | e :: rest =>
    if !x0.canDeliver || !s.clocked c then .next s
    else
      let s1 := if x0.cfg.started then s else s.snapshot c
      let x := s1.cl c
      let x1 : Cluster := { x with
        st := if x.cfg.started then x.st else .config
        drainHeld := x.drainHeld || (!x.cfg.started && s.drainAsked c)
        cfg := { x.cfg with queue := rest, started := true } }
      let u := x1.cfg
      let x2 :=
        if u.asm.active then
          let l := u.asm.payload ++ [e]
          if l.length = headPayload u.asm.head then x1.applyGroup u.asm.head l
          else { x1 with cfg := { u with asm := { u.asm with payload := l } } }
        else x1.deliver e
      .next ((s1.setCl c x2).checkWarm x.regs.handle.toNat)

/-- Applies a restored stream: flags, counters, and each group's registers and tokens (R128). -/
def Cluster.restoreFrom (x : Cluster) : Nat → List Entry → Cluster
  | 0, _ => x
  | _, [] => x
  | fuel + 1, e :: rest =>
    if entryKind e = 4 then
      let n := headPayload e
      let t := bitsOf e.toNat 118 6
      (x.setTile t ((x.tile t).apply true e (rest.take n))).restoreFrom fuel (rest.drop n)
    else if entryKind e = 5 then x
    else (x.deliver e).restoreFrom fuel rest

/-- SHEET_RESTORE (R128, R598): the stream is fetched again and the initial values restored; the cluster runs, out of DRAINED at once, out
of IDLE by way of CONFIG, as what is restored comes (R96). -/
def execSheetRestore (c : ClusterId) (s : State) : Host.Outcome State Fault Refusal :=
  let x := s.cl c
  let u := x.cfg
  if !u.restore || (x.st != .idle && x.st != .drained) || !s.clocked c then .next s
  else
    let n := ceilDiv u.entriesLeft 4
    match (List.range n).find? fun k => s.configBad c (u.line + k) with
    | some k =>
      let h := x.regs.handle.toNat
      .next ((s.lineFault (u.line + k) h).abortFor h c outFatal 0xA5 0)
    | none =>
      let bs := s.configBytes c u.line (16 * u.entriesLeft)
      let es := (List.range u.entriesLeft).map fun k => BitVec.ofNat 128 (leNat ((bs.drop (16 * k)).take 16))
      let s1 := s.snapshot c
      let x1 := s1.cl c
      let x2 := ({ x1 with cfg := { u with flags := [], cnts := [] } } : Cluster).restoreFrom u.entriesLeft es
      let x3 := x2.initials
      let x4 := ({ x3 with st := if x.st = .idle then .config else x.st, drainHeld := s.drainAsked c, cfg := { gen := x.regs.gen } } :
        Cluster).enterRun
      .next (((if c.val = 880 then s1 else s1.asks classFar false (64 * u.line) (16 * u.entriesLeft)).setCl c x4).checkWarm
        x.regs.handle.toNat)

end Sys2Proof.Machine
end

