-- ==== Sys2Proof/Machine/Map.lean ====
section
/-!
DEFINITION. Mapping virtual clusters, routing virtual links, placing far memory, the timing of pipelines, and giving a
cluster to an image (R214, R215, R219–R223, R225, R233–R235, R249, R250, R734).
-/
namespace Sys2Proof.Machine

/-! ## Routes (R220–R222, R734) -/

/-- The latency of a route on stepping B0 or A1 (R222). -/
def routeLatency (a1 : Bool) (path : List PLink) : Nat :=
  path.length + (Crossing.clusterLink (!a1)).latency.1 / ClockDomain.arith.period * path.countP crossesDie

/-- A stream of a virtual link to be routed: its sender, receiver, side and stream. -/
structure VStream where
  src : Nat := 0
  dst : Nat := 0
  dir : Nat := 0
  stream : Nat := 0
  deriving DecidableEq, Repr

/-- Tries every path of free links from a cluster to `dst` within `lat` cycles and `n` hops, through in-service clusters not
yet visited, until `k` takes one (R220, R221, R734). The order is a DESIGN CHOICE (log entry 28). -/
def pathSearch {α : Type} (a1 : Bool) (free : PLink → Bool) (pass : Nat → Bool) (dst stream : Nat)
    (k : List PLink → Option α) : Nat → Nat → List PLink → Nat → Option α
  | 0, _, _, _ => none
  | n + 1, lat, path, c =>
    ([0, 1, 2, 3].flatMap fun d => [(d, stream), (d, 1 - stream)]).findSome? fun ds =>
      let l : PLink := { cluster := c, dir := ds.1, stream := ds.2 }
      match clusterNeighbour c ds.1 with
      | none => none
      | some b =>
        let cost := routeLatency a1 [l]
        if !free l || decide (lat < cost) || (path.any fun m => m.cluster == b) then none
        else if b = dst then k (path ++ [l])
        else if pass b then pathSearch a1 free pass dst stream k n (lat - cost) (path ++ [l]) b
        else none

/-- Routes a list of virtual streams one after the other (R220, R221: 24 hops at most). -/
def routeAll {α : Type} (a1 : Bool) (free : PLink → Bool) (pass : Nat → Bool) (lat : Nat) (place : Nat → Nat)
    (k : List Route → Option α) : List VStream → List Route → Option α
  | [], rs => k rs
  | v :: vs, rs =>
    pathSearch a1 (fun l => free l && !rs.any fun r => r.path.contains l) pass (place v.dst) v.stream
      (fun p => routeAll a1 free pass lat place k vs
        (rs ++ [{ src := v.src, dir := v.dir, stream := v.stream, path := p }]))
      24 lat [] (place v.src)

/-- Gives virtual clusters physical ones in index order, from the candidates in order of their coordinates, and routes every
stream whose ends both have one; `fixed` holds the clusters already given (R221). -/
def assignAll (a1 : Bool) (free : PLink → Bool) (pass : Nat → Bool) (lat : Nat) (cands : List Nat) (vs : List VStream) :
    List (Option Nat) → List Nat → List Route → Option (List Nat × List Route)
  | [], done, rs => some (done, rs)
  | f :: fs, done, rs =>
    let v := done.length
    let mine := vs.filter fun x => max x.src x.dst == v
    (match f with
      | some c => [c]
      | none => cands.filter fun c => !done.contains c).findSome? fun c =>
        let done' := done ++ [c]
        routeAll a1 free pass lat (fun i => done'.getD i 0)
          (fun rs' => assignAll a1 free pass lat cands vs fs done' rs') mine rs

/-- The greatest latency that a route of 24 hops can have. -/
def maxLatency : Nat := 24 * 7

/-- The virtual neighbour of a virtual cluster, by index (R220). -/
def vNeighbour (vw vh v d : Nat) : Option Nat :=
  match d with
  | 0 => if v / vw = 0 then none else some (v - vw)
  | 1 => if v % vw + 1 < vw then some (v + 1) else none
  | 2 => if v / vw + 1 < vh then some (v + vw) else none
  | _ => if v % vw = 0 then none else some (v - 1)

/-- The clusters that belong to no image and are in service, by lowest x, then lowest y (R221). -/
def State.freeClusters (s : State) : List Nat :=
  (List.range 55).flatMap fun x => (List.range 20).filterMap fun y =>
    match clusterAt x y with
    | none => none
    | some c => if s.service c = .inService ∧ (s.cl c).regs.handle = 0 ∧ !s.svc.bist.any (fun b => b.spare == c)
        then some c else none

/-- Whether no loaded image's route uses a link stream (R220). -/
def State.linkFree (s : State) (l : PLink) : Bool := !s.images.any fun p => p.2.routes.any fun r => r.path.contains l

/-- Whether a route may pass through a cluster (R734). -/
def State.passable (s : State) (c : Nat) : Bool := s.service c == .inService

/-- The mapping and routes of least largest latency, ties to the lowest coordinates (R221, R222). `kept` holds routes that
stay. -/
def State.solve (s : State) (fixed : List (Option Nat)) (kept : List Route) (vs : List VStream) :
    Option (List Nat × List Route) :=
  let cands := s.freeClusters
  (List.range maxLatency).findSome? fun lat =>
    assignAll s.stepA1 s.linkFree s.passable (lat + 1) cands vs fixed [] kept

/-- Maps again the virtual clusters of an image that have no physical cluster, and routes every stream that has no whole
route; the other routes stay (R219, R221, R222, R734). -/
def State.remap (s : State) (h : Nat) (broken : PLink → Bool) : Option State :=
  let im := s.image h
  let bad := fun r : Route => r.path.any broken || (im.map.getD r.src none).isNone ||
    (((vNeighbour im.vw im.vh r.src r.dir).bind fun w => im.map.getD w none)).isNone
  let vs := (im.routes.filter bad).map fun r =>
    ({ src := r.src, dst := (vNeighbour im.vw im.vh r.src r.dir).getD 0, dir := r.dir, stream := r.stream } : VStream)
  let kept := im.routes.filter fun r => !bad r
  let s0 := s.setImage h { im with routes := kept }
  match s0.solve im.map kept vs with
  | none => none
  | some (m, rs) => some (s0.setImage h { im with map := m.map some, routes := rs })

/-! ## Far memory (R248–R250, R274) -/

/-- The line ranges in use: regions of the table and far memory outside it. -/
def State.usedRanges (s : State) : List (Nat × Nat) :=
  (s.gddr.rgt.filter fun p => p.2.valid).map (fun p => (p.2.base.toNat, p.2.lines.toNat)) ++
    s.gddr.hidden.map fun k => (k.base, k.lines)

/-- Whether a line range is free. -/
def rangeFree (used : List (Nat × Nat)) (b n : Nat) : Bool :=
  used.all fun r => decide (b + n ≤ r.1) || decide (r.1 + r.2 ≤ b)

/-- The lowest free range of `n` lines in a quarter, as its first line: a multiple of 15 (R249, R250). A withdrawn quarter takes none
(R274). -/
def State.fitIn (s : State) (q n : Nat) : Option Nat :=
  let used := s.usedRanges
  let lo := q * quarterLines
  let starts := lo :: (used.map fun r => ceilDiv (r.1 + r.2) 15 * 15)
  if (s.quarter q).withdrawn then none
  else
    (starts.filter fun b => decide (lo ≤ b) && decide (b + ceilDiv n 15 * 15 ≤ lo + quarterLines) &&
      rangeFree used b (ceilDiv n 15 * 15)).min?

/-- The position of an edge die in the array (R17). -/
def edgePos (e : Nat) : Nat × Nat := [(2, 0), (4, 2), (2, 4), (0, 2)].getD e (2, 2)

/-- The quarters in order of their mesh distance from a set of clusters, then of their number (R250). The distance of a set
is the least of its members (DEDUCED, log entry 29). -/
def quartersNear (cs : List Nat) : List Nat :=
  let dist := fun e => (cs.map fun c => hops (diePos (c / 44)) (edgePos e)).min?.getD 0
  sortBy (List.range 4) fun a b => decide (dist a * 4 + a ≤ dist b * 4 + b)

/-- The first free range of `n` lines in a list of quarters. -/
def State.fit (s : State) (qs : List Nat) (n : Nat) : Option Nat := qs.findSome? fun q => s.fitIn q n

/-- A free entry of the region table; entries 0–3 are the context table's (R248, R425). -/
def State.freeEntry (s : State) : Option Nat := ((List.range 256).drop 4).find? fun n => !(s.region n).valid

/-- Places far memory that no region holds, zeroed (R225, R597). -/
def State.placeHidden (s : State) (qs : List Nat) (h n : Nat) : Option (Nat × State) :=
  (s.fit qs n).map fun b =>
    let m := ceilDiv n 15 * 15
    let s1 := s.gddrZero b m
    (b, { s1 with gddr := { s1.gddr with hidden := s1.gddr.hidden ++ [{ base := b, lines := m, handle := BitVec.ofNat 16 h }] } })

/-! ## Pipeline timing (R233–R236) -/

/-- T_in (R236). -/
def tIn (a1 : Bool) : Nat := if a1 then 168 else 160

/-- T_out (R236). -/
def tOut (a1 : Bool) : Nat := if a1 then 52 else 48

/-- The latency of the routes of a segment's links. -/
def segLinks (a1 : Bool) (routes : List Route) (g : Segment) : Nat :=
  (g.links.map fun l => match routes.find? (fun r => (r.src, r.dir, r.stream) == l) with
    | none => 0
    | some r => routeLatency a1 r.path).sum

/-- The arrival at a join of a pipeline, or at the ingress, 0xFFFF; `fuel` bounds the joins on a path (R233). -/
def joinArrival (a1 : Bool) (routes : List Route) (segs : List Segment) : Nat → Nat → Nat
  | 0, _ => 0
  | fuel + 1, j =>
    if j = 0xFFFF then tIn a1
    else ((segs.filter fun g => g.dst == j).map fun g =>
      joinArrival a1 routes segs fuel g.src + (if a1 then g.latA1 else g.latB0) + segLinks a1 routes g).foldl max 0

/-- The arrival of a segment (R233). -/
def segArrival (a1 : Bool) (routes : List Route) (segs : List Segment) (g : Segment) : Nat :=
  joinArrival a1 routes segs (segs.length + 1) g.src + (if a1 then g.latA1 else g.latB0) + segLinks a1 routes g

/-- LATENCY of a pipeline, whether a margin exceeds its segment's SLACK, and the least margin (R233, R234). -/
def pipeTiming (a1 : Bool) (routes : List Route) (all : List Segment) (p : Nat) : Nat × Bool × Nat :=
  let segs := all.filter fun g => g.pipe == p
  let arr := segArrival a1 routes segs
  let join := joinArrival a1 routes segs (segs.length + 1)
  let last := segs.find? fun g => g.dst == 0xFFFF
  let atJoins := segs.filter fun g => g.dst != 0xFFFF
  let bad := atJoins.any fun g => decide (g.slack < join g.dst - arr g)
  let least := (atJoins.map (·.dst)).eraseDups.map fun j =>
    let here := atJoins.filter fun g => g.dst == j
    let i := here.findIdx fun g => decide (arr g = join j)
    ((here.eraseIdx i).map fun g => join j - arr g)
  ((last.map arr).getD 0 + tOut a1, bad, (least.flatten.min?).getD 0xFFFF)

/-! ## A cluster of an image (R219, R223, R225) -/

/-- The far window that a region gives (R215). -/
def IRegion.window (r : IRegion) (g : Rgt) : FWin :=
  { ibase := BitVec.ofNat 32 r.ibase, lines := BitVec.ofNat 32 r.lines, pbase := g.base, valid := !g.lost
    wr := bitAt r.attr.toNat 1, rd := bitAt r.attr.toNat 0 }

/-- The far windows of an image. -/
def State.windows (s : State) (im : Image) : SMap FWin :=
  (im.regions.mapIdx fun n r => (n, r)).foldl (fun m p => SMap.set {} m p.1 (p.2.window (s.region p.2.rgt))) []

/-- CLC.WDOG.LIMIT from an image's WDOG (R204). -/
def wdogLimit (w : Nat) : BitVec 24 := BitVec.ofNat 24 (if w = 0 then 0x10000 else max w 4096)

/-- Writes the CLC registers of a cluster that serves virtual cluster `v` of an image: CLC.VPOS from the virtual index alone (R223),
IDLE with CIDX 0xFFFF (R225, R227), its GEN that of the image's clusters (R126). -/
def State.giveCluster (s : State) (h v c : Nat) : State :=
  let im := s.image h
  let x := s.cl c
  let r := x.regs
  s.setCl c { x with
    st := .idle
    regs := { r with
      trigger := im.kind == 1, lock := true, wdog := wdogLimit im.wdog.toNat
      seed := im.seed, sround := Config.sround im.seed.toNat v, sheetCount := 0, rank := s.xms.regs.rank
      vx := BitVec.ofNat 6 (v % im.vw), vy := BitVec.ofNat 5 (v / im.vw)
      handle := BitVec.ofNat 16 h, cidx := 0xFFFF, fwin := s.windows im, evtCnt := [], gen := im.gen }
    cfg := { gen := im.gen } }

/-- Applies the PHYS_XY16 records of an image for its present mapping, in DMA slots (R217, R219, R253). -/
def State.patchXy (s : State) (h : Nat) : State :=
  let im := s.image h
  im.xys.foldl (fun s p =>
    match im.map.getD p.vidx none with
    | none => s
    | some c =>
      let old := leNat (s.gddrRead p.addr 2)
      ((s.asks classDma false p.addr 2).gddrWrite p.addr (natLe 2 (physX c * 2 ^ 10 + physY c * 2 ^ 5 + old % 32))).asks classDma true
        p.addr 2) s

/-- A tile with the saved state of its replay store (R599). -/
def Tile.restoreSaved (y : Tile) (v : SavedTile) : Tile :=
  { y with sram := v.sram, regs := v.regs, tables := v.tables, dirty := [] }

/-- Restores a cluster of virtual index `v` from its image's replay store, in FAR read slots (R253, R599, R600). -/
def State.restoreCluster (s : State) (h v c : Nat) : State :=
  let im := s.image h
  let x := s.cl c
  let ts := (List.range 64).foldl (fun m t =>
    SMap.set {} m t ((x.tile t).restoreSaved (SMap.get {} im.replay (64 * v + t)))) x.tiles
  (if im.kind = 1 then s else s.asks classFar false (64 * (im.replayBase + 14592 * v)) (64 * 14592)).setCl c { x with tiles := ts }

end Sys2Proof.Machine
end

