-- ==== Sys2Proof/Machine/Spare.lean ====
section
/-!
DEFINITION. Shared operations of faults and spares: buckets, fencing, spares, replays, starting the clusters of a sheet
(R172, R499, R591–R605, R734).
-/
namespace Sys2Proof.Machine

/-! ## Buckets (R591–R593) -/

/-- THR of bucket `k` by default (R592). -/
def thrDefault (k : Nat) : BitVec 16 := [64, 256, 1024, 4096, 16].getD k 0

/-- LEAK of bucket `k` by default, in µs (R592). -/
def leakDefault (k : Nat) : BitVec 32 := [1000000, 1000, 1000, 10000, 3600000000].getD k 0

/-- FLT.BKT_THR of a bucket. -/
def State.thr (s : State) (k : Nat) : BitVec 16 := SMap.get (thrDefault k) s.flt.thr k

/-- The key of a unit's bucket. -/
def bucketKey (k u : Nat) : Nat := 2 ^ 18 * k + u

/-- The level of a unit's bucket. -/
def State.bucket (s : State) (k u : Nat) : BitVec 16 := SMap.get 0 s.flt.buckets (bucketKey k u)

/-- Sets the level of a unit's bucket. -/
def State.setBucket (s : State) (k u : Nat) (v : BitVec 16) : State :=
  { s with flt := { s.flt with buckets := SMap.set 0 s.flt.buckets (bucketKey k u) v } }

/-- Adds a counted error to a unit's bucket: the new state, and whether the level reached THR, which sets it to 0. -/
def State.addBucket (s : State) (k u w : Nat) : State × Bool :=
  let v := satBump (s.bucket k u) w
  if s.thr k ≤ v then
    let s1 := s.setBucket k u 0
    ({ s1 with flt := { s1.flt with bucketCnt := satBump s1.flt.bucketCnt 1 } }, true)
  else (s.setBucket k u v, false)

/-- Posts SPARE_LOW once for a unit (R593, R621). -/
def State.spareLow (s : State) (k u left : Nat) (loc : BitVec 32) : State :=
  if s.flt.lowPosted.contains (bucketKey k u) then s
  else
    ({ s with flt := { s.flt with lowPosted := s.flt.lowPosted ++ [bucketKey k u] } }).postEvent 0x0041 noRing 0
      (k + 2 ^ 8 * left + 2 ^ 32 * loc.toNat)

/-- Notes a repair that waits to be burned (R596). -/
def State.noteRepair (s : State) (kind : Nat) (loc : BitVec 32) : State :=
  { s with flt := { s.flt with unburned := s.flt.unburned ++ [(BitVec.ofNat 8 kind, loc)] } }

/-! ## Configurations of a sheet -/

/-- The usable section of a virtual cluster and configuration index (R208). -/
def Image.section_ (im : Image) (v idx : Nat) : Option ICfg := im.cfgs.find? fun g => g.vidx == v && g.index == idx

/-- Starts the delivery, or the restoring, of a configuration to a cluster at the start of a sheet (R120, R128, R499). -/
def State.beginConfig (s : State) (h v c idx : Nat) (gen restore : Bool) : State :=
  let im := s.image h
  match im.section_ v idx with
  | none => s
  | some g =>
    let x := (s.cl c).startSheet
    s.setCl c { x with
      drainHeld := false
      regs := { x.regs with sheetCount := BitVec.ofNat 32 (im.sheets - 1), seed := im.sheet.seed }
      cfg := { fetching := !restore, restore, index := BitVec.ofNat 16 idx, line := g.line
               linesLeft := ceilDiv g.bytes 64, entriesLeft := g.bytes / 16, gen, pending := g.tiles } }

/-- Starts the clusters of an image on a configuration: those that hold it restore, unless `fresh`; the others get it, with
the GEN of the clusters that restore, or the GEN other than that delivered last where none does (R126, R128, R499; log entry 30). -/
def State.startClusters (s0 : State) (h idx : Nat) (fresh : Bool) : State :=
  let im := s0.image h
  let holds := fun c => !fresh && (s0.cl c).regs.cidx.toNat == idx
  let gen := match im.clusters.find? holds with
    | some c => (s0.cl c).regs.gen
    | none => !im.gen
  let s := s0.setImage h { im with gen }
  (im.map.mapIdx fun v c => (v, c)).foldl (fun s p =>
    match p.2 with
    | none => s
    | some c => s.beginConfig h p.1 c idx gen (holds c)) s

/-! ## Faults that end an attempt of a sheet (R36, R594, R599, R600, R603, R734) -/

/-- The vat reads the ports of an image again before it next delivers to it (R432, R447). -/
def State.vatReread (s : State) (h : Nat) : State :=
  if s.vatNames h then { s with vat := { s.vat with run := { s.vat.run with reread := true } } } else s

/-- The vat delivers again every batch not committed, from its old copies (R447). -/
def State.vatRedeliver (s0 : State) (h : Nat) : State :=
  let s := s0.vatReread h
  if s.vatNames h && !s.vat.run.delivered.isEmpty then
    let r := s.vat.run
    let back := r.delivered.map fun p => ({ p.2 with again := true } : Batch)
    let replays := (List.range 4).foldl (fun m q => SMap.modify 0 m q fun n : BitVec 8 => satBump n 1) s.vat.replays
    { s with vat := { s.vat with
        replays
        run := { r with closed := back ++ r.closed, delivered := [], sending := [], ret := [] } } }
  else s

/-- Copies to the replay store what the clusters of an image hold that have not been copied since its sheet was started, and so hold what
they held then (R573, R598, R599; DEDUCED, log entry 31). -/
def State.snapshotRest (s : State) (h : Nat) : State :=
  let im := s.image h
  (im.map.mapIdx fun v c => (v, c)).foldl (fun s p => match p.2 with
    | some c => if im.sheet.copied.contains p.1 then s else s.snapshot c
    | none => s) s

/-- Interrupts the running sheet of an image whose KIND is not 1: every cluster is aborted, and the sheet waits to be
replayed, ends FATAL after five starts, or ends with a requested drain (R500, R599, R600; log entry 31). -/
def State.interruptSheet (s : State) (h : Nat) : State :=
  let im := s.image h
  if im.kind = 1 ∨ !im.sheet.active then s
  else
    let s1 := (im.clusters.foldl State.abortCluster (s.snapshotRest h)).clearRoutes im
    if im.sheet.draining then s1.checkDrain h
    else if im.sheet.starts ≥ 5 then (s1.endSheet h outFatal 0xA3 0 true).vatFault h
    else
      let im1 := s1.image h
      s1.setImage h { im1 with sheet := { im1.sheet with replayWait := true } }

/-- Whether a physical link can no longer carry a route (R734). -/
def State.linkBroken (s : State) (l : PLink) : Bool :=
  !s.passable l.cluster || match clusterNeighbour l.cluster l.dir with
    | none => true
    | some b => !s.passable b

/-- Region 15 of an image (R551). -/
def Image.collRegion (im : Image) : Option IRegion := im.regions[15]?

/-- Restores line 0 and the request entries of region 15 to their state at the sheet's start, in DMA slots (R253, R560). -/
def State.restoreColl (s : State) (h : Nat) : State :=
  let im := s.image h
  match im.collRegion with
  | none => s
  | some r =>
    if !bitAt im.granted.toNat 6 || im.collBytes == [] then s
    else
      let a := 64 * (s.region r.rgt).base.toNat
      let s1 := (s.gddrWrite a (im.collBytes.take 64)).gddrWrite (a + 64 * 17) (im.collBytes.drop 64)
      ((s1.asks classDma true a 64).asks classDma true (a + 64 * 17) (im.collBytes.length - 64)).setImage h
        { im with collNext := im.collNext0, collCnt := im.collCnt0, collSeen := 0, collHead := 0, collData := 0, collEnded := [] }

/-- Whether the running sheet of an image has presented a collective request since it started (R551, R560). -/
def State.presented (s : State) (h : Nat) : Bool :=
  let im := s.image h
  match im.collRegion with
  | none => false
  | some r => bitAt im.granted.toNat 6 && im.collBytes != [] &&
      s.gddrRead (64 * (s.region r.rgt).base.toNat) 8 != im.collBytes.take 8

/-- Starts an interrupted sheet again (R599): its ABORTED clusters are cleared to IDLE, a DRAINED one stays so until its configuration
comes (R96); CLC.SHEET.COUNT stays. -/
def State.replay (s : State) (h : Nat) : State :=
  let im := s.image h
  if !im.sheet.replayWait then s
  else
    let s1 := im.clusters.foldl (fun s c =>
      let x := s.cl c
      if x.st = .aborted then s.setCl c { x with st := .idle } else s) s
    let s2 := ((im.map.mapIdx fun v c => (v, c)).foldl (fun s p => match p.2 with
      | none => s
      | some c => s.restoreCluster h p.1 c) s1).restoreColl h
    let im := s2.image h
    let s3 := s2.setImage h { im with sheet := { im.sheet with replayWait := false, starts := im.sheet.starts + 1 } }
    (s3.startClusters h im.sheet.cidx true).vatRedeliver h

/-- Whether every virtual cluster of an image has a physical one and every stream a route. -/
def Image.whole (im : Image) : Bool := im.map.all Option.isSome && im.routes.all fun r => r.path != []

/-- The routes of an image that can no longer carry a stream are gone (R734): an empty path stands for one to be chosen again. -/
def State.dropRoutes (s : State) (h : Nat) : State :=
  let im := s.image h
  s.setImage h { im with routes := im.routes.map fun r => if r.path.any s.linkBroken then { r with path := [] } else r }

/-- Maps again the virtual clusters of an image that lost theirs, and restores them, none without a mapping (R219, R221, R599,
R600). -/
def State.rehome (s : State) (h : Nat) : Option State :=
  let old := (s.image h).map
  (s.remap h s.linkBroken).map fun s1 =>
    let im := s1.image h
    (((im.map.mapIdx fun v c => (v, c)).foldl (fun s p =>
      match old.getD p.1 none, p.2 with
      | none, some c =>
        let s' := s.giveCluster h p.1 c
        let x := s'.cl c
        let s'' := s'.setCl c { x with regs := { x.regs with sheetCount := BitVec.ofNat 32 (im.sheets - 1) } }
        s''.restoreCluster h p.1 c
      | _, _ => s) (s1.setImage h { im with lost := [] })).patchXy h).vatReread h

/-- Whether a spare of an image is in BIST. -/
def State.bistOf (s : State) (h : Nat) : Bool := s.svc.bist.any fun b => b.owner.any fun o => o.1.toNat == h

/-- LOC of a fault record for the cluster that an image has lost without another (R617, R618). -/
def Image.lostLoc (im : Image) : BitVec 32 := (im.lost.head?.map fun p => clusterLoc p.1).getD 0

/-- DETAIL of that record: the cause in CLC.FAULT and the tile (R617). -/
def State.lostDetail (s : State) (im : Image) : BitVec 32 :=
  (im.lost.head?.map fun p => BitVec.ofNat 32 ((s.cl p.1).regs.faultCause.toNat + 2 ^ 4 * p.2)).getD 0

/-- Maps the virtual clusters of an image that lost theirs, restores them and has an interrupted sheet resumed; without a mapping the sheet
ends FATAL, a sweep of the image faults, and what has no route keeps none (R219, R221, R447, R599, R600, R734). Waits while a spare of the image is in BIST. -/
def State.recoverWith (s : State) (h : Nat) (resume : State → State) : State :=
  if s.bistOf h then s
  else
    match s.rehome h with
    | none =>
      let im := s.image h
      let s0 := s.dropRoutes h
      if im.kind ≠ 1 ∧ im.sheet.active then
        ((s0.faultRecord { kind := 1, cls := 3, action := 8, handle := BitVec.ofNat 16 h, loc := im.lostLoc, detail := s.lostDetail im
                           ring := im.sheet.ring.setWidth 16 }).endSheet h outFatal 0xA4 0 true).vatFault h
      else s0.vatFault h
    | some s1 => resume s1

/-- Recovers an image and replays its interrupted sheet; one that has presented a collective request is left to COLL_REPLAY (R560, R599). -/
def State.recover (s : State) (h : Nat) : State :=
  s.recoverWith h fun s1 =>
    if (s1.image h).sheet.replayWait && s1.presented h then
      { s1 with xms := { s1.xms with replayDue := (s1.xms.replayDue ++ [h]).eraseDups } }
    else s1.replay h

/-! ## Spares and fencing (R594, R595, R605, R734) -/

/-- The spare that replaces a cluster: of its die by lowest x then y, else of the nearest die (R595). -/
def State.pickSpare (s : State) (c : Nat) : Option Nat :=
  let here := diePos (c / 44)
  let dies := sortBy (List.range 20) fun a b =>
    decide (hops here (diePos a) * 20 + a ≤ hops here (diePos b) * 20 + b)
  dies.findSome? fun k => ((List.range 11).flatMap fun u => (List.range 4).map fun v => 44 * k + 11 * v + u).find? fun d =>
    s.service d == .spare && !s.svc.bist.any (fun b => b.spare == d)

/-- SPARE clusters left (FLT.SPARES.CLUSTERS). -/
def State.sparesLeft (s : State) : Nat := (List.range 880).countP fun c => s.service c == .spare

/-- Sends a spare to BIST for a cluster (R595). -/
def State.callSpare (s : State) (c : Nat) (owner : Option (BitVec 16 × Nat)) (move : Bool) : Option State :=
  (s.pickSpare c).map fun d =>
    { s with svc := { s.svc with bist := s.svc.bist ++ [{ spare := d, failed := c, owner, move }] } }

/-- Takes a cluster out of service: OFF, its work and its claim gone (R96, R594). -/
def State.takeOut (s : State) (c cause : Nat) : State :=
  let x := (s.cl c).abort
  (s.setService c .fenced).setCl c { x with
    st := .off
    regs := { x.regs with faultCause := BitVec.ofNat 4 cause, handle := 0, cidx := 0xFFFF, lock := false, trigger := false } }

/-- What a fault in a cluster, or on a route, does to an image's work: a trigger image's pipelines halt, a running sheet is
interrupted (R388, R599, R734). -/
def State.hitImage (s : State) (h : Nat) (cs : List Nat) : State :=
  let im := s.image h
  if im.kind = 1 then
    (cs.flatMap fun c => s.pipesServed h c).eraseDups.foldl (fun s p => s.haltPipe p 1) s
  else s.interruptSheet h

/-- The physical clusters at the ends of a route of an image. -/
def Image.routeEnds (im : Image) (r : Route) : List Nat :=
  (im.map.getD r.src none).toList ++ ((vNeighbour im.vw im.vh r.src r.dir).bind fun w => im.map.getD w none).toList

/-- The images whose routes pass through a cluster that is no end of them, each with the clusters at the ends of those routes (R734). -/
def State.routesThrough (s : State) (c : Nat) : List (Nat × List Nat) :=
  s.images.filterMap fun p =>
    let rs := p.2.routes.filter fun r => p.2.map != [] && !(p.2.routeEnds r).contains c && r.path.any fun l =>
      l.cluster == c || clusterNeighbour l.cluster l.dir == some c
    if rs.isEmpty then none else some (p.1, rs.flatMap p.2.routeEnds)

/-- Gives up a spare in BIST: the next spare is called for what it was meant for (R595). -/
def State.dropBist (s : State) (d : Nat) : State :=
  match s.svc.bist.find? fun b => b.spare == d with
  | none => s
  | some b =>
    let s1 : State := { s with svc := { s.svc with bist := s.svc.bist.filter fun b => b.spare != d } }
    (s1.callSpare b.failed b.owner b.move).getD s1

/-- Calls a spare for a fenced cluster, or keeps the one called for its move (R595, R602). -/
def State.replaceCluster (s : State) (c : Nat) (owner : Option (BitVec 16 × Nat)) : State :=
  if s.svc.bist.any fun b => b.failed == c && b.owner == owner then
    let keep := fun b : Bist => if b.failed = c then { b with move := false } else b
    { s with svc := { s.svc with bist := s.svc.bist.map keep } }
  else (s.callSpare c owner false).getD s

/-- What taking a cluster out of service does to the images whose routes pass it, those of `own` with the clusters `more` as well: each is
hit as if one of its own clusters had been fenced (R734). Answers the images hit. -/
def State.breakRoutes (s : State) (c : Nat) (own : Option Nat) (more : List Nat) : State × List Nat :=
  let rs := s.routesThrough c
  let mine := rs.filter fun p => own == some p.1
  let others := rs.filter fun p => own != some p.1
  let s1 := match own with
    | none => s
    | some h => if more == [] && mine == [] then s else s.hitImage h (more ++ mine.flatMap (·.2))
  (others.foldl (fun s p => s.hitImage p.1 p.2) s1, others.map (·.1))

/-- Fences a cluster for a cause found in a tile: its work, the fault record, the spare called in; with it the images to
recover (R594, R595, R603). What it holds between sheets is copied first (DEDUCED, log entry 31). -/
def State.fenceCore (s : State) (c cause t : Nat) : State × List Nat :=
  if s.service c = .fenced ∨ c ≥ 880 then (s, [])
  else
    let h := (s.cl c).regs.handle.toNat
    let own := s.loaded h
    let v := ((s.image h).map.findIdx? (· == some c)).getD 0
    let inUse := s.service c == .inService
    let s0 := if own && !(s.image h).sheet.active then s.snapshot c else s
    let hit := s0.breakRoutes c (if own then some h else none) [c]
    let s3 := hit.1.takeOut c cause
    let im := s3.image h
    let s4 := if own then s3.setImage h { im with map := im.map.set v none, lost := im.lost ++ [(c, t)] } else s3
    let s5 := (s4.faultRecord
      { kind := 1, cls := 1, action := 1, handle := BitVec.ofNat 16 (if own then h else 0), loc := clusterLoc c
        ring := BitVec.ofNat 16 (s.imageRing h)
        detail := BitVec.ofNat 32 (cause + 2 ^ 4 * t) }).noteRepair 1 (clusterLoc c)
    let s6 : State := { s5 with svc := { s5.svc with moves := s5.svc.moves.filter (· != c) } }
    let s7 := if inUse then s6.replaceCluster c (if own then some (BitVec.ofNat 16 h, v) else none) else s6.dropBist c
    (s7, (if own then [h] else []) ++ hit.2)

/-- Fences clusters for one cause in one attempt: one replay of each image that they touch (R603). Spares go first, so that none of
them is called. -/
def State.fenceAll (s : State) (cs : List Nat) (cause t : Nat) : State :=
  let order := cs.filter (fun c => s.service c == .spare) ++ cs.filter fun c => s.service c != .spare
  let r := order.foldl (fun (p : State × List Nat) c =>
    let q := p.1.fenceCore c cause t
    (q.1, p.2 ++ q.2)) (s, [])
  r.2.eraseDups.foldl State.recover r.1

/-- Fences one cluster. -/
def State.fence (s : State) (c cause t : Nat) : State := s.fenceAll [c] cause t

/-- Fences a cluster that no image owns, in place of moving it, with what that does to the routes through it (R602, R734); `spare` is the
location of the spare that replaces it. -/
def State.fenceUnowned (s : State) (c : Nat) (spare : BitVec 32) : State :=
  let hit := s.breakRoutes c none []
  let s2 := ((hit.1.takeOut c 8).faultRecord
    { kind := 1, cls := 0, action := 4, loc := clusterLoc c, spare, detail := 8 }).noteRepair 1 (clusterLoc c)
  hit.2.foldl State.recover s2

/-- The bucket of a cluster crossed: without a spare it stays in service; an unowned cluster is fenced at once, with what its fence does to
the routes through it; another waits for its move (R593, R602, R734; log entry 97). -/
def State.requestMove (s : State) (c : Nat) : State :=
  let h := (s.cl c).regs.handle.toNat
  if s.service c ≠ .inService ∨ s.svc.moves.contains c then s
  else if !s.loaded h then
    match s.callSpare c none true with
    | none => s.spareLow 0 c s.sparesLeft (clusterLoc c)
    | some s1 => s1.fenceUnowned c (((s.pickSpare c).map clusterLoc).getD 0xFFFFFFFF)
  else
    let v := ((s.image h).map.findIdx? (· == some c)).getD 0
    match s.callSpare c (some (BitVec.ofNat 16 h, v)) true with
    | none => s.spareLow 0 c s.sparesLeft (clusterLoc c)
    | some s1 => { s1 with svc := { s1.svc with moves := s1.svc.moves ++ [c] } }

/-- Fills in CAUSE and DSTATE and stops what a device-fatal error stops (R610, R611); the ream follows. -/
def State.haltDevice (s : State) (cause : Nat) : State :=
  let f := s.flt
  let lines := (List.range 8).foldl (fun m n =>
    SMap.modify {} m n fun l : TrigLine => { l with mode := 2, sched := [] }) s.trp.lines
  let groups := (List.range 24).foldl (fun m g =>
    SMap.modify {} m g fun x : LnpGroup => if x.st = .off then x else { x with txIdle := true }) s.lanes
  { s with
    flt := { f with halted := true, cause := BitVec.ofNat 16 cause }
    trp := { s.trp with lines, msgs := [] }
    lanes := groups }

/-- The padding that a pipeline has with its present routes, if it meets its deckle and every join its slack (R233–R235). -/
def State.padOf (s : State) (p : Nat) : Option (BitVec 13) :=
  let q := s.pipe p
  let im := s.image q.handle.toNat
  let t := pipeTiming s.stepA1 im.routes im.segs q.index.toNat
  if !im.whole || t.2.1 || decide (q.deckle.toNat < t.1) then none else some (BitVec.ofNat 13 (q.deckle.toNat - t.1))

end Sys2Proof.Machine
end

