-- ==== Sys2Proof/Machine/Addr.lean ====
section
/-!
DEFINITION. Device addresses of descriptors and what a ring pair holds (R242, R495, R496, R512, R733).
-/
namespace Sys2Proof.Machine

/-- A refusal of a descriptor: outcome and check. -/
abbrev Refuse := BitVec 8 × BitVec 8

/-- REFUSED_FORMAT, check 0x81: a nonzero RSV field or a field out of range (R494). -/
def badField : Refuse := (outFormat, 0x81)

/-- CONFLICT, check 0x84: a place that the ring pair does not hold (R496). -/
def notHeld : Refuse := (outConflict, 0x84)

/-- REFUSED_STATE, check 0x86. -/
def badState : Refuse := (outState, 0x86)

/-- Whether a ring pair holds a region table entry: its claim, or a region allocated to an image it loaded (R496). -/
def State.holdsRegion (s : State) (r : Nat) (g : Rgt) : Bool :=
  g.valid && (if g.host then g.ring.toNat == r
    else g.handle != 0 && s.loaded g.handle.toNat && (s.image g.handle.toNat).ring.toNat == r)

/-- The region table entries of the buffers of streams that a ring pair admitted (R496). -/
def State.bufferEntries (s : State) (r : Nat) : List Nat :=
  (s.hbx.streams.filter fun p => (p.2.st == .admitted || p.2.st == .suspended) && p.2.wasAdmitted && p.2.ring.toNat == r).map
    fun p => p.2.buf.rgt

/-- Whether a byte range of GDDR6 lies in one region. -/
def inRegion (g : Rgt) (a n : Nat) : Bool :=
  decide (64 * g.base.toNat ≤ a) && decide (a + n ≤ 64 * (g.base.toNat + g.lines.toNat))

/-- Whether a GDDR6 byte range lies within a resource of a ring pair (R496). -/
def State.holdsRange (s : State) (r a n : Nat) : Bool :=
  s.gddr.rgt.any fun p => inRegion p.2 a n && p.2.valid && (s.holdsRegion r p.2 || (s.bufferEntries r).contains p.1)

/-- Whether a place is in host memory. -/
def Loc.isHost : Loc → Bool
  | .host _ => true
  | _ => false

/-- Whether a place can be reached: host memory only while the function may send requests (R472). -/
def State.reaches (s : State) (l : Loc) : Bool := !l.isHost || s.hostUp

/-- The `n`-byte little-endian number at an offset of a list of bytes. -/
def fieldAt (b : List Byte) (o n : Nat) : Nat := leNat ((b.drop o).take n)

/-- Whether a VAT_SWEEP is to be stored as a template (R433). -/
def Work.arms (w : Work) : Bool := bitAt (fieldAt w.bytes 6 1) 4

/-- Sweeps in the pending queue, a taken one among them (R434). -/
def State.sweepsPending (s : State) : Nat := s.vat.queue.length + s.hif.vatIn.countP fun w => !w.arms

/-- Whether the host memory that a field of a descriptor names, if it names any, can be reached (R472, R495). -/
def State.fieldUp (s : State) (b : List Byte) (off : Nat) : Bool := bitsOf (fieldAt b off 8) 60 4 != 0 || s.hostUp

/-- INFO of a descriptor that is refused: what its opcode's INFO names of the descriptor itself (R488). A claim of a region has no entry
and no BASE, a sheet no count. -/
def refuseInfo (b : List Byte) : Nat :=
  match fieldAt b 0 1 with
  | 2 => fieldAt b 4 2 * 2 ^ 48
  | 5 => bitsOf (fieldAt b 4 4) 0 10
  | 6 => fieldAt b 5 1
  | 9 => if fieldAt b 4 1 = 0 then 0 else fieldAt b 5 1
  | _ => 0

/-- Resolves an address of `n` bytes for a ring pair (R495, R496). -/
def State.resolve (s : State) (r : Nat) (addr n : Nat) : Except Refuse Loc :=
  match bitsOf addr 60 4 with
  | 0 => .ok (.host (bitsOf addr 0 60))
  | 8 =>
    let a := bitsOf addr 0 37
    if bitsOf addr 37 23 ≠ 0 then .error badField
    else if s.holdsRange r a n then .ok (.gddr a)
    else .error notHeld
  | 9 =>
    let h := bitsOf addr 44 16
    let im := s.image h
    let vx := bitsOf addr 38 6
    let vy := bitsOf addr 33 5
    let off := bitsOf addr 0 14
    if bitsOf addr 14 13 ≠ 0 then .error badField
    else if !s.loaded h ∨ im.ring.toNat ≠ r ∨ vx ≥ im.vw ∨ vy ≥ im.vh ∨ off + n > 12288 then .error notHeld
    else match im.map.getD (vy * im.vw + vx) none with
      | none => .error badState
      | some c =>
        if (s.cl c).st = .idle ∨ (s.cl c).st = .drained then .ok (.sram c (bitsOf addr 27 6) off)
        else .error badState
  | _ => .error badField

/-- Reads bytes of a place; none where a GDDR6 line is uncorrectable (R245). -/
def State.devRead (s : State) (l : Loc) (n : Nat) : Option (List Byte) :=
  match l with
  | .host a => some (s.host.readBytes a n)
  | .gddr a => if s.rangeBad a n then none else some (s.gddrRead a n)
  | .sram c t off => some (((s.cl c).tile t).sram.readBytes off n)

/-- Whether a write of bytes covers part of an uncorrectable line (R733). -/
def State.partBad (s : State) (a n : Nat) : Bool := !(s.unwritten a n).isEmpty

/-- Whether a write of bytes to a place covers part of an uncorrectable line, so that its writer is told (R733). -/
def State.writeFails (s : State) (l : Loc) (n : Nat) : Bool :=
  match l with
  | .gddr a => s.partBad a n
  | _ => false

/-- Writes bytes to a place; the parts of uncorrectable lines are not written (R733). -/
def State.devWrite (s : State) (l : Loc) (bs : List Byte) : State :=
  match l with
  | .host a => s.hostWrite a bs
  | .gddr a => s.gddrWrite a bs
  | .sram c t off => s.setCl c ((s.cl c).setTile t (((s.cl c).tile t).sramWrite off bs))

/-- Asks for slots of a class for bytes of a place, if it is in GDDR6 (R253). -/
def State.asksAt (s : State) (cls : Nat) (write : Bool) (l : Loc) (n : Nat) : State :=
  match l with
  | .gddr a => s.asks cls write a n
  | _ => s

/-- The place `k` bytes on. -/
def Loc.plus (l : Loc) (k : Nat) : Loc :=
  match l with
  | .host a => .host (a + k)
  | .gddr a => .gddr (a + k)
  | .sram c t off => .sram c t (off + k)

/-- Whether the bytes from `o` up to `e` are all 0. -/
def zeroAt (b : List Byte) (o e : Nat) : Bool := ((b.drop o).take (e - o)).all (· == 0)

end Sys2Proof.Machine
end

