-- ==== Sys2Proof/Machine/StreamOps.lean ====
section
/-!
DEFINITION. Shared operations on streams, their records and their gaps, and what happens when a stock group, a buffer or a
GDDR6 range is lost (R271, R340, R343–R345, R388, R403–R411, R417, R430).
-/
namespace Sys2Proof.Machine

/-! ## Formats (R349) -/

/-- Sample width on the lanes, by FMT (R349). -/
def fmtBits (fmt : Nat) : Nat := [12, 16, 24, 32, 32, 16].getD fmt 16

/-- Samples per block, by FMT (R349). -/
def fmtPerBlock (fmt : Nat) : Nat := [8, 6, 4, 3, 3, 6].getD fmt 6

/-- Stored width in bytes, by FMT (R349). -/
def fmtStored (fmt : Nat) : Nat := [2, 2, 4, 4, 4, 2].getD fmt 2

/-- One bit of the CRC of R348. -/
def crcStep (c : BitVec 32) (b : Bool) : BitVec 32 := if c.getLsbD 31 != b then (c <<< 1) ^^^ 0x04C11DB7 else c <<< 1

/-- The CRC of R348 over bits in the order they are sent. -/
def lineCrc (bits : List Bool) : BitVec 32 := ~~~(bits.foldl crcStep 0xFFFFFFFF)

/-- The payload bits of a block in the order they are sent: bit 95 first (R282). -/
def blockBits (w : BitVec 96) : List Bool := (List.range 96).map fun k => w.getLsbD (95 - k)

/-- Sample blocks of a frame (R348). -/
def frameBlocks (fmt fcode : Nat) : Nat := ceilDiv (frameSamples fcode * fmtBits fmt) 96

/-! ## Streams -/

/-- Whether the headboxes stand still: in FATAL_HALT and in Watch, where the Watch island serves the dandy alone (R611, R635). -/
def State.headboxOff (s : State) : Bool := s.flt.halted || s.pwr.st == .watch

/-- The stock group of a SID (R334). -/
def sidGroup (i : Nat) : Nat := i / 64

/-- The partner of a stock group. -/
def State.partner (s : State) (g : Nat) : Partner := SMap.get {} s.hbx.partners g

/-- Replaces the partner of a stock group. -/
def State.setPartner (s : State) (g : Nat) (p : Partner) : State :=
  { s with hbx := { s.hbx with partners := SMap.set {} s.hbx.partners g p } }

/-- The code of a stream state (R343). -/
def StreamSt.code : StreamSt → Nat
  | .free => 0
  | .joined => 1
  | .admitted => 2
  | .suspended => 3
  | .left => 4

/-- Whether a stream state bears a lane load (R340). -/
def StreamSt.loads (t : StreamSt) : Bool := t == .joined || t == .admitted || t == .suspended

/-- Posts a stream event (R343, R523): types 0x0005–0x0008. -/
def State.streamEvent (s : State) (type i : Nat) (was : StreamSt) : State :=
  let x := s.stream i
  s.postEvent type (if x.wasAdmitted then x.ring.toNat else noRing) 0
    (i + 2 ^ 10 * x.lsn.toNat + 2 ^ 18 * x.fmt.toNat + 2 ^ 22 * x.fcode.toNat + 2 ^ 26 * was.code + 2 ^ 32 * x.rate.toNat +
      2 ^ 64 * (s.partner (sidGroup i)).pid.toNat)

/-- The pipelines with a port bound to a stream (R362). -/
def State.boundPipes (s : State) (i : Nat) : List Nat :=
  (s.trp.pipes.filter fun p => p.2.ports.any fun t => t.sid == some i).map (·.1)

/-- Halts the pipelines bound to a stream with cause INPUT (R388). -/
def State.inputLost (s : State) (i : Nat) : State := (s.boundPipes i).foldl (fun s p => s.haltPipe p 3) s

/-- The anchors that the ring of 2,048 entries still holds (R402, R404). -/
def SBuf.heldAnchors (b : SBuf) : List Anchor := b.anchors.drop (b.anchors.length - 2048)

/-- The anchor in force at a sample (R403). -/
def SBuf.anchorAt (b : SBuf) (n : Nat) : Option Anchor := (b.heldAnchors.filter fun a => decide (a.w ≤ n)).getLast?

/-- The time of sample `n` (R403). -/
def Stream.timeAt (x : Stream) (n : Nat) : Option TimeVal :=
  (x.buf.anchorAt n).map fun a => timeAfter a.t (n - a.w) x.rate.toNat

/-- Whether a sample is retained (R404). -/
def Stream.retained (x : Stream) (n : Nat) : Bool :=
  decide (x.buf.w ≤ n + x.buf.depth) && decide (n < x.buf.w) && (x.buf.anchorAt n).isSome

/-- The least retained sample (R404): the later of W − DEPTH and the oldest anchor held. -/
def Stream.leastRetained (x : Stream) : Nat :=
  max (x.buf.w - x.buf.depth) (((x.buf.heldAnchors.head?).map (·.w)).getD 0)

/-- The end of a record's window, before its 33rd anchor (R411). -/
def Stream.windowEnd (x : Stream) (r : Rec) : Nat × Bool :=
  match (x.buf.heldAnchors.filter fun a => decide (r.lo < a.w) && decide (a.w < r.hi))[31]? with
  | some a => (a.w, true)
  | none => (r.hi, false)

/-- A record as it completes: with its end cut at the 33rd anchor (R411). -/
def Stream.finished (x : Stream) (r : Rec) : Rec :=
  let e := x.windowEnd r
  { r with hi := e.1, flags := if e.2 then r.flags ||| 2 else r.flags }

/-- Ends a record early at the samples written, with TRUNC_END (R411). -/
def Rec.truncate (r : Rec) (w : Nat) : Rec :=
  let lo := min r.lo w
  { r with flags := r.flags ||| 2, lo, hi := max lo (min r.hi w) }

/-- Whether a list of keys comes before another, or is the same, the first key that differs deciding. -/
def keysLe : List Nat → List Nat → Bool
  | a :: as, b :: bs => if a = b then keysLe as bs else decide (a < b)
  | _, _ => true

/-- The order of records that complete in one cycle (R412). -/
def recOrder (a b : Rec) : Bool := keysLe [a.tseq.toNat, a.rank.toNat] [b.tseq.toNat, b.rank.toNat]

/-- The order in which records complete (R412): by the write count that ends each window, or that each opened at with its window written
already; those that opened so in the order of their opening; of one cycle by TSEQ and RANK. -/
def doneOrder (a b : Rec) : Bool :=
  let keys := fun r : Rec =>
    [max r.hi r.opened.1, if r.opened.1 < r.hi then 0 else r.opened.2 + 1, r.tseq.toNat, r.rank.toNat]
  keysLe (keys a) (keys b)

/-- The least count of sample periods after `t` that reaches a time (R403). -/
def periodsTo (t tpoint rate : Nat) : Nat :=
  let m := (tpoint - t) * rate / (10 ^ 9 * 65536)
  if tpoint ≤ timeAfter t m rate then m else m + 1

/-- The least written sample at or after TPOINT, among segments of anchors. `w` is the write count (R408). -/
def leastSample (rate w tpoint : Nat) : List Anchor → Option Nat
  | [] => none
  | a :: rest =>
    let n := if tpoint ≤ a.t then a.w else a.w + periodsTo a.t tpoint rate
    let stop := ((rest.head?).map (·.w)).getD w
    if n < stop then some n else leastSample rate w tpoint rest

/-- Whether a time lies in the gap that an anchor ends (R345, R408). -/
def Anchor.gapHolds (a : Anchor) (t : TimeVal) : Bool := decide (t < a.t) && a.gapFrom.any fun g => decide (g ≤ t)

/-- The trigger sample, and whether TPOINT lies in a gap, whose end then gives it, whatever time the samples before the gap have (R408). -/
def findSample (rate w tpoint : Nat) (anchors : List Anchor) : Option (Nat × Bool) :=
  match anchors.find? fun a => a.gapHolds tpoint with
  | some a => if a.w < w then some (a.w, true) else none
  | none => (leastSample rate w tpoint anchors).map fun n => (n, false)

/-- A record with its trigger sample and its window (R408, R409): whose start is raised to the least retained sample of the buffer. -/
def Stream.window (x : Stream) (r : Rec) (nt : Nat) (inGap : Bool) : Rec :=
  let least := x.leastRetained
  let lo := max (nt - x.prog.pre) least
  { r with
    nt := some nt, buf := x.buf.gen, lo, hi := max lo (nt + x.prog.post)
    flags := r.flags ||| (if nt < x.prog.pre + least then 1 else 0) ||| (if inGap then 4 else 0) }

/-- Gives a record its trigger sample and window, once that sample is written (R408, R409): not while a gap that holds TPOINT is open, nor
while the buffer is lost, whose samples no record can have (R419). -/
def Stream.resolve (x : Stream) (r : Rec) : Rec :=
  if r.nt.isSome || (r.kind != 1 && r.kind != 5) || x.buf.lost || x.gaps.any (fun g => decide (g.2 ≤ r.tpoint)) then r
  else match findSample x.rate.toNat x.buf.w r.tpoint x.buf.heldAnchors with
    | none => r
    | some (n, gap) => x.window r n gap

/-- Gives a record that closes early a trigger sample though it is not written: the one that its anchor in force leads to, or the
next to be written where TPOINT lies in an open gap (R408, R411; DEDUCED, log entry 40). -/
def Stream.forecast (x : Stream) (r : Rec) : Rec :=
  let y := x.resolve r
  if y.nt.isSome then y
  else
    let inGap := x.gaps.any fun g => decide (g.2 ≤ r.tpoint)
    let n := match x.buf.heldAnchors.getLast? with
      | some a => if inGap then x.buf.w else max x.buf.w (a.w + periodsTo a.t r.tpoint x.rate.toNat)
      | none => x.buf.w
    let z := x.window y n inGap
    if x.buf.lost then { z with lo := n } else z

/-- Closes the open records of a stream early (R411). Those whose windows are already written complete whole, before the others. -/
def Stream.closeRecords (x : Stream) : Stream :=
  let rs := x.recs.openRecs.map fun r => x.finished (x.forecast r)
  let whole := fun r : Rec => decide (r.hi ≤ x.buf.w)
  { x with recs := { x.recs with
      openRecs := []
      waiting := x.recs.waiting ++ sortBy (rs.filter whole) doneOrder ++
        sortBy ((rs.filter (!whole ·)).map fun r => r.truncate x.buf.w) recOrder } }

/-- Opens a gap of a stream that runs from a time, unless one of the same cause is open (R345, R352, R417). -/
def State.streamGapAt (s : State) (i cause : Nat) (start : TimeVal) : State :=
  let x := s.stream i
  if x.gaps.any fun g => g.1 == cause then s else s.setStream i { x with gaps := x.gaps ++ [(cause, start)] }

/-- Opens a gap of a stream from the expected time of the next sample; before the first frame, from now (R345, R352, R417). -/
def State.streamGap (s : State) (i cause : Nat) : State :=
  let x := s.stream i
  s.streamGapAt i cause (if x.seqSet then x.expected else s.now)

/-- Closes the open gaps of a stream of certain causes and enters their gap records (R345, R352, R417). -/
def State.closeGaps (s : State) (i : Nat) (stop : TimeVal) (ends : Nat → Bool) : State :=
  let x := s.stream i
  (x.gaps.filter fun g => ends g.1).foldl (fun s g => s.gapRecord i 2 0 g.1 g.2 stop)
    (s.setStream i { x with gaps := x.gaps.filter fun g => !ends g.1 })

/-- Closes every open gap of a stream. -/
def State.closeStreamGap (s : State) (i : Nat) (stop : TimeVal) : State := s.closeGaps i stop fun _ => true

/-- A stream whose group leaves ACTIVE is SUSPENDED (R343, R345, R388, R411). -/
def State.suspend (s : State) (i : Nat) : State :=
  let x := s.stream i
  match x.st with
  | .joined => (s.setStream i { x with st := .suspended, wasAdmitted := false }).streamEvent 0x0007 i .joined
  | .admitted =>
    let s1 := s.setStream i { x.closeRecords with st := .suspended, wasAdmitted := true }
    ((s1.streamGap i 2).streamEvent 0x0007 i .admitted).inputLost i
  | _ => s

/-- A stream that leaves: FREE, or LEFT where it was admitted, its gaps closed, but for the gap of a lost buffer (R343, R345, R358, R411,
R419). -/
def State.leave (s : State) (i : Nat) : State :=
  let x := s.stream i
  match x.st with
  | .joined => ((s.setStream i { x with st := .free }).streamEvent 0x0006 i .joined)
  | .admitted =>
    let s1 := s.setStream i { x.closeRecords with st := .left, wasAdmitted := true }
    ((s1.closeGaps i s.now (· != 3)).streamEvent 0x0006 i .admitted).inputLost i
  | .suspended =>
    if x.wasAdmitted then
      ((s.setStream i { x with st := .left }).closeGaps i s.now (· != 3)).streamEvent 0x0006 i .suspended
    else (s.setStream i { x with st := .free }).streamEvent 0x0006 i .suspended
  | _ => s

/-- The SIDs of a stock group. -/
def groupSids (g : Nat) : List Nat := (List.range 64).map (64 * g + ·)

/-- A stock group leaves ACTIVE: its streams are SUSPENDED (R343). -/
def State.stockDown (s : State) (g : Nat) : State := (groupSids g).foldl State.suspend s

/-- The PSTATE of a stream's record programme: ARMED where it records (HBX.RSTAT). -/
def RecProg.pstate (p : RecProg) : BitVec 2 := if p.records then 1 else 0

/-! ## Mesh paths (R20, R265, R266, R354, R618) -/

/-- The bridge directions from column `c` to column `d` of a row, each as 2 × bridge + direction (R618). -/
def rowHops (r c d : Nat) : List Nat :=
  if c ≤ d then (List.range (d - c)).map fun k => 2 * (4 * r + c + k)
  else (List.range (c - d)).map fun k => 2 * (4 * r + d + k) + 1

/-- The bridge directions from row `r` to row `q` of a column. -/
def colHops (c r q : Nat) : List Nat :=
  if r ≤ q then (List.range (q - r)).map fun k => 2 * (20 + 5 * (r + k) + c)
  else (List.range (r - q)).map fun k => 2 * (20 + 5 * (q + k) + c) + 1

/-- The bridge directions on the mesh path between two positions of the array: along the row and the column, in an order the spec
leaves open (log entry 42). -/
def meshPath (a b : Nat × Nat) : List Nat :=
  if Config.meshRowFirst (5 * a.2 + a.1) (5 * b.2 + b.1) then rowHops a.2 a.1 b.1 ++ colHops b.1 a.2 b.2
  else colHops a.1 a.2 b.2 ++ rowHops b.2 a.1 b.1

/-- The positions of the two dies that a bridge joins (R618). -/
def bridgeEnds (b : Nat) : List (Nat × Nat) :=
  if b < 20 then [(b % 4, b / 4), (b % 4 + 1, b / 4)] else [((b - 20) % 5, (b - 20) / 5), ((b - 20) % 5, (b - 20) / 5 + 1)]

/-- The cluster-channel groups of a bridge direction: 5 for each cluster link between compute dies (R21). -/
def clusterGroups (key : Nat) : Nat :=
  if (bridgeEnds (key / 2)).all fun e => (dieAt e.1 e.2).isSome then (if key / 2 < 20 then 20 else 55) else 0

/-- The mesh groups of a bridge direction: what the cluster channel and the 2 reserve groups leave of 96 (R21). -/
def meshGroups (key : Nat) : Nat := 94 - clusterGroups key

/-- The mesh lanes of a bridge direction, of 6 groups each (R265). -/
def bridgeLanes (key : Nat) : Nat := meshGroups key / 6

/-- The 2 reserve groups of a bridge direction; the spec does not number them (R21, log entry 77). -/
def reserveGroups (key : Nat) : List Nat :=
  let f := Config.reserveGroup key
  [f % 96, (f % 96 + 1 + f / 96 % 95) % 96]

/-- What a group of a bridge direction is for (R21). -/
inductive GroupRole where
  | cluster | reserve | mesh
  deriving DecidableEq, Repr

/-- The role that a group is made for: of the groups that are not in reserve the lowest are the cluster channel's (DESIGN CHOICE,
log entry 77). -/
def groupRole (key g : Nat) : GroupRole :=
  if (reserveGroups key).contains g then .reserve
  else if (List.range g).countP (fun j => !(reserveGroups key).contains j) < clusterGroups key then .cluster
  else .mesh

/-! ## Losing far memory (R271, R419, R430) -/

/-- The admitted stream whose buffer is a region table entry. -/
def State.bufferOwner (s : State) (n : Nat) : Option Nat :=
  (s.hbx.streams.find? fun p =>
    p.2.buf.depth != 0 && !p.2.buf.lost && p.2.buf.rgt == n && (p.2.st == .admitted || p.2.st == .suspended || p.2.st == .left)).map
    (·.1)

/-- A stream loses its buffer (R271, R411, R419). -/
def State.loseBuffer (s : State) (i : Nat) : State :=
  let x := (s.stream i).closeRecords
  let s1 := s.setStream i { x with buf := { x.buf with lost := true } }
  if x.st = .left then s1 else s1.streamGap i 3

/-- The vat loses a quarter's contexts (R430). -/
def State.loseContexts (s : State) (q : Nat) : State :=
  { s with vat := { s.vat with
      lost := SMap.set false s.vat.lost q true, cache := SMap.set [] s.vat.cache q [], held := s.vat.held.filter fun p => p.1 % 4 != q } }

/-- Marks a region LOST (R271): windows onto it are invalidated, a buffer's stream gets a gap, the vat loses the contexts of a context
table, and any owner but a buffer's gets a FATAL record that names the part lost. -/
def State.loseRegion (s : State) (kind loc n : Nat) : State :=
  let g := s.region n
  if !g.valid || g.lost then s
  else
    let s1 := s.setRegion n { g with lost := true }
    let inside := fun w : FWin => decide (g.base.toNat ≤ w.pbase.toNat) && decide (w.pbase.toNat < g.base.toNat + g.lines.toNat)
    let shut := fun w : FWin => if inside w then { w with valid := false } else w
    let s2 : State := { s1 with fab := { s1.fab with clusters := s1.fab.clusters.map fun p =>
      (p.1, { p.2 with regs := { p.2.regs with fwin := p.2.regs.fwin.map fun w => (w.1, shut w.2) } }) } }
    match (if n < 4 then none else s2.bufferOwner n) with
    | some i => s2.loseBuffer i
    | none =>
      let h := g.handle.toNat
      (if n < 4 then s2.loseContexts n else s2).faultRecord
        { kind := BitVec.ofNat 8 kind, cls := 3, action := 8, handle := g.handle, loc := BitVec.ofNat 32 loc
          ring := if g.host then g.ring.setWidth 16 else BitVec.ofNat 16 (if s2.loaded h then (s2.image h).ring.toNat else noRing) }

/-- Marks every region and every other far range that a predicate on ranges of lines meets as lost (R271, R274). -/
def State.loseRanges (s : State) (kind loc : Nat) (meets : Nat → Nat → Bool) : State :=
  let s1 := (List.range 256).foldl (fun s n =>
    let g := s.region n
    if g.valid && meets g.base.toNat g.lines.toNat then s.loseRegion kind loc n else s) s
  let mark := fun k : Hidden => if meets k.base k.lines then { k with lost := true } else k
  { s1 with gddr := { s1.gddr with hidden := s1.gddr.hidden.map mark } }

end Sys2Proof.Machine
end

