-- ==== Sys2Proof/Machine/TimeOps.lean ====
section
/-!
DEFINITION. The servo of the time base and the qualification of its sources (R308–R316), used wherever a source is lost.
-/
namespace Sys2Proof.Machine

/-- Rounds an integer divided by 2^`n` to the nearest, ties to even. -/
def roundShift (n : Nat) (x : Int) : Int :=
  let m := (roundKept .nearest x.natAbs (2 ^ n) : Int)
  if x < 0 then -m else m

/-- The range of FADJ (R308). -/
def fadjMax : Int := 4194303

/-- A servo source's qualification. -/
def TimeBase.src (t : TimeBase) (n : Nat) : SrcSt := SMap.get {} t.srcs n

/-- Replaces a servo source's qualification. -/
def TimeBase.setSrc (t : TimeBase) (n : Nat) (x : SrcSt) : TimeBase := { t with srcs := SMap.set {} t.srcs n x }

/-- The source that becomes active: PRIMARY if it is qualified, else the qualified enabled one of lowest code (R315). -/
def TimeBase.pick (t : TimeBase) : Option Nat :=
  (t.ctrl.primary.toNat :: List.range 4).find? fun n => (t.src n).qual && bitAt t.ctrl.srcEn.toNat n

/-- Makes a source active; a change is counted (R315). -/
def TimeBase.activate (t : TimeBase) (n : Nat) : TimeBase :=
  { t with active := some n, switches := if t.active = some n then t.switches else satBump t.switches 1 }

/-- Sources that lose qualification together (R311, R314–R316): their counts start again; where one was active another takes over, or
HOLDOVER begins with FADJ at −round(I). -/
def TimeBase.loseAll (t : TimeBase) (ns : List Nat) : TimeBase :=
  let t1 := ns.foldl (fun t n => t.setSrc n { t.src n with qual := false, run := 0, seen := false }) t
  if t1.st = .locked ∧ ns.any (fun n => t1.active == some n) then
    match t1.pick with
    | some m => t1.activate m
    | none => { t1 with st := .holdover, active := none, fadj := -(roundShift 24 t1.integ) }
  else t1

/-- A source loses qualification. -/
def TimeBase.lose (t : TimeBase) (n : Nat) : TimeBase := t.loseAll [n]

/-- A source loses qualification. -/
def State.loseSource (s : State) (n : Nat) : State := { s with tb := s.tb.lose n }

/-- The gains of a source at reset (TBS.SERVO). -/
def servoReset (k : Nat) : Gains := if k = 3 then { kp := 0x4333, ki := 0x1CCD } else {}

/-- R309 for an offset in 2^−16 ns. The gains have 8 fraction bits, so that products come in 2^−24. -/
def TimeBase.steer (t : TimeBase) (n : Nat) (e : Int) : TimeBase :=
  let g := SMap.get (servoReset n) t.gains n
  let integ := clampInt (-(fadjMax * 2 ^ 24)) (fadjMax * 2 ^ 24) (t.integ + g.ki.toNat * e)
  let f := clampInt (-fadjMax) fadjMax (roundShift 24 (g.kp.toNat * e + integ))
  { t with integ, fadj := -f }

/-- An offset in 1/256 ns, two's complement, saturating (TBS.DOMOFS, TBS.PPSIN; log entry 37). -/
def offsetWord (e : Int) : BitVec 32 := BitVec.ofInt 32 (clampInt (-(2 ^ 31)) (2 ^ 31 - 1) (e.fdiv 256))

/-- The tracked offset of a source (R310). -/
def TimeBase.track (t : TimeBase) (n : Nat) (e : Int) : TimeBase :=
  if n < 2 then { t with domains := SMap.modify {} t.domains n fun d => { d with ofs := offsetWord e } }
  else if n = 2 then { t with ppsin := offsetWord e } else t

/-- 1 s in 2^−32 ns. -/
def fineSecond : Nat := 10 ^ 9 * 2 ^ 32

/-- The step of R313 on a measurement of source `n`: the value less `e`, I at 0. On PPS_IN, which carries no seconds, SEC stays. A value
cannot fall below 0 (log entry 37). -/
def TimeBase.step (t : TimeBase) (n : Nat) (e : Int) : TimeBase :=
  let v := (t.value : Int) - e * 65536
  let new := if n = 2 then t.value / fineSecond * fineSecond + (v % fineSecond).toNat else v.toNat
  { t with value := new, integ := 0, stepAt := t.run / 65536, stepBy := (new : Int) - t.value }

/-- Counts a measurement towards qualification (R314): the run of measurements each within QUAL_THR of the one before. -/
def TimeBase.count (t : TimeBase) (n : Nat) (e : Int) : TimeBase :=
  let x := t.src n
  let near := x.seen && decide ((e - x.last).natAbs ≤ t.ctrl.qualThr.toNat * 65536)
  let run := if near then x.run + 1 else 1
  let enough := decide (max 1 t.ctrl.qualN.toNat ≤ run)
  t.setSrc n { qual := x.qual || (enough && bitAt t.ctrl.srcEn.toNat n), run, last := e, seen := true }

/-- A measurement of a source is complete; it is applied in the next TIME cycle (R309). -/
def State.measureDue (s : State) (n : Nat) (e : Int) : State := { s with tb := { s.tb with due := s.tb.due ++ [(n, e)] } }

/-- Whether the time base has no power: in Watch (R312). -/
def State.timeOff (s : State) : Bool := s.pwr.st == .watch

/-- A completed measurement (R309–R311, R313–R316): the offset tracked and counted, the state changed where the source becomes
qualified, and the servo steered where it is the active one. -/
def TimeBase.measure (t : TimeBase) (n : Nat) (e : Int) : TimeBase :=
  let was := (t.src n).qual
  let t1 := (t.track n e).count n e
  let new := (t1.src n).qual && !was
  match t1.st with
  | .invalid => if (t1.src n).qual then { t1.step n e with st := .locked, active := some n } else t1
  | .holdover => if new then { (t1.activate n).steer n e with st := .locked } else t1
  | .locked =>
    let t2 := if new && t1.ctrl.revert && t1.ctrl.primary.toNat == n then t1.activate n else t1
    if t2.active = some n then t2.steer n e else t2

end Sys2Proof.Machine
end

