-- ==== Sys2Proof/Machine/XomosOps.lean ====
section
/-!
DEFINITION. Shared operations on Xomos ports: sending packets and control blocks, the link map and routes, a port that comes up
or goes down (R524–R532, R535–R542, R548, R559–R561).
-/
namespace Sys2Proof.Machine

/-! ## Ports -/

/-- A Xomos port. -/
def State.xport (s : State) (p : Nat) : XPort := SMap.get {} s.xms.ports p

/-- Replaces a Xomos port. -/
def State.setXport (s : State) (p : Nat) (x : XPort) : State :=
  { s with xms := { s.xms with ports := SMap.set {} s.xms.ports p x } }

/-- A training group of serial lanes. -/
def State.group (s : State) (g : Nat) : LnpGroup := SMap.get {} s.lanes g

/-- Replaces a training group. -/
def State.setGroup (s : State) (g : Nat) (x : LnpGroup) : State := { s with lanes := SMap.set {} s.lanes g x }

/-- The training group of a Xomos port (R618). -/
def portGroup (p : Nat) : Nat := 16 + p

/-- Whether a Xomos port is ACTIVE (R296). -/
def State.portActive (s : State) (p : Nat) : Bool := (s.group (portGroup p)).st == .active

/-- The ACTIVE ports. -/
def State.activePorts (s : State) : List Nat := (List.range 8).filter s.portActive

/-- The ACTIVE ports that are wired as R526 says: a MISWIRED link is not used (R561). -/
def State.openPorts (s : State) : List Nat := s.activePorts.filter fun p => !(s.xport p).miswired

/-- The ports as bits. -/
def portBits (l : List Nat) : Nat := (l.map (2 ^ ·)).sum

/-- The port of the opposite direction (R524, R526). -/
def oppositePort (p : Nat) : Nat := [4, 5, 6, 7, 0, 1, 2, 3].getD p 0

/-- DEVID (R531). -/
def State.devId (s : State) : BitVec 32 := s.sec.serial.setWidth 32

/-- Sends a control block on a port (R531). `fields` are payload bits [87:0] under TYPE. -/
def State.sendBlock (s : State) (p type fields : Nat) : State := s.emit (.xblock p type (BitVec.ofNat 96 fields))

/-- Sends a control block on every port in use but one. -/
def State.floodBlock (s : State) (but : Option Nat) (type fields : Nat) : State :=
  (s.openPorts.filter fun p => but != some p).foldl (fun s p => s.sendBlock p type fields) s

/-! ## Packets (R530, R531, R535, R537) -/

/-- Retry state of a class. -/
def XPort.clsOf (x : XPort) (k : Nat) : PortCls := SMap.get {} x.cls k

/-- Replaces the retry state of a class. -/
def XPort.setCls (x : XPort) (k : Nat) (c : PortCls) : XPort := { x with cls := SMap.set {} x.cls k c }

/-- The packets that a class's store holds at most (R537). -/
def storeCap (k : Nat) : Nat := if k = 6 then 512 else 64

/-- The fields of HEAD, payload bits [87:0] (R531). -/
def headFields (seqNo : BitVec 12) (cls : BitVec 4) (len : BitVec 6) (dst src : BitVec 15) (kind : BitVec 4) (tag : BitVec 32) : BitVec 88 :=
  seqNo ++ cls ++ len ++ dst ++ src ++ kind ++ tag

/-- The CRC of a packet: over the fields of HEAD and then the data blocks, in the order sent (R532). -/
def packetCrc (head : BitVec 88) (data : List (BitVec 96)) : BitVec 32 :=
  lineCrc (((List.range 88).map fun k => head.getLsbD (87 - k)) ++ data.flatMap blockBits)

/-- The fields of HEAD of a packet that is sent. -/
def Packet.head (k : Packet) : BitVec 88 := headFields k.seqNo k.cls (BitVec.ofNat 6 k.data.length) k.dst k.src k.kind k.tag

/-- A packet leaves a port: HEAD, its data blocks, and TAIL with SEQ and CRC (R530–R532). -/
def State.packetOut (s : State) (p : Nat) (k : Packet) : State := s.emit (.xpacket p k.head k.data (packetCrc k.head k.data))

/-- Whether packets of a class may leave now: in a segment of their class, once calender frames run (R252, R533). -/
def State.segmentOpen (s : State) (cls : Nat) : Bool := !s.gddr.aligned || s.segmentClass == cls

/-- Sends a packet on a port, or has it wait for a segment of its class (R533, R537). How many leave in one segment is not modelled
(DESIGN CHOICE, log entry 106). -/
def State.sendPacket (s : State) (p : Nat) (k : Packet) : State :=
  if s.segmentOpen k.cls.toNat then s.packetOut p k
  else
    let x := s.xport p
    let c := x.clsOf k.cls.toNat
    s.setXport p (x.setCls k.cls.toNat { c with out := (c.out.filter fun o => o.seqNo != k.seqNo) ++ [k] })

/-- The packets that waited for the segment that begins now leave their ports (R533). -/
def State.beginSegment (s : State) : State :=
  let n := s.segmentClass
  s.activePorts.foldl (fun s p =>
    let x := s.xport p
    let c := x.clsOf n
    if c.out == [] then s else c.out.foldl (fun s k => s.packetOut p k) (s.setXport p (x.setCls n { c with out := [] }))) s

/-- Sends a packet on a port, or holds it while the class's store is full (R535, R537). -/
def State.transmit (s : State) (p : Nat) (k : Packet) : State :=
  let x := s.xport p
  let n := k.cls.toNat
  let c := x.clsOf n
  if c.store.length < storeCap n ∧ c.queue = [] then
    let k' : Packet := { k with seqNo := c.txSeq, resends := 0 }
    (s.setXport p (x.setCls n { c with store := c.store ++ [k'], txSeq := c.txSeq + 1 })).sendPacket p k'
  else s.setXport p (x.setCls n { c with queue := c.queue ++ [k] })

/-- Sends waiting packets while their class's store has room; `fuel` bounds them. -/
def State.refill (s : State) (p n : Nat) : Nat → State
  | 0 => s
  | fuel + 1 =>
    let x := s.xport p
    let c := x.clsOf n
    match c.queue with
    | [] => s
    | k :: rest =>
      if c.store.length < storeCap n then
        let k' : Packet := { k with seqNo := c.txSeq, resends := 0 }
        ((s.setXport p (x.setCls n { c with store := c.store ++ [k'], queue := rest, txSeq := c.txSeq + 1 })).sendPacket p k').refill p n fuel
      else s

/-- Floods a packet on every port in use but one (R543, R544). -/
def State.floodPacket (s : State) (but : Option Nat) (k : Packet) : State :=
  (s.openPorts.filter fun p => but != some p).foldl (fun s p => s.transmit p k) s

/-- The next port of the route to a rank (R540). -/
def State.nextPort (s : State) (rank : Nat) : Option Nat := SMap.get none s.xms.routes rank

/-- Routes a packet to its rank. Without an ACTIVE next port it waits at the device, behind the port of its route
(R541). -/
def State.routePacket (s : State) (k : Packet) : State :=
  match s.nextPort k.dst.toNat with
  | none => s
  | some p =>
    if s.portActive p then s.transmit p k
    else
      let x := s.xport p
      let c := x.clsOf k.cls.toNat
      s.setXport p (x.setCls k.cls.toNat { c with queue := c.queue ++ [k] })

/-! ## The link map (R540, R541) -/

/-- The fields of a LINK block (R531). -/
def linkFields (rank active lsv : Nat) : Nat := rank * 2 ^ 73 + active * 2 ^ 65 + lsv * 2 ^ 57

/-- Whether the device holds a coordinate in the system (R569). -/
def XState.placed (t : XState) : Bool := t == .flooded || t == .confirmed || t == .routed || t == .aligned || t == .ready

/-- Floods the device's own LINK block and enters it in its map (R541, R566). -/
def State.sendLink (s : State) : State :=
  let r := s.xms.regs
  let active := portBits s.activePorts
  let s1 : State := { s with xms := { s.xms with
    map := SMap.set {} s.xms.map r.rank.toNat { active := BitVec.ofNat 8 active, lsv := r.lsv }, dirty := true, last := (r.rank, r.lsv) } }
  s1.floodBlock none 0x98 (linkFields r.rank.toNat active r.lsv.toNat)

/-- A port of the device changed between ACTIVE and another state: LSV rises and, once the device holds its rank, a LINK block is
flooded (R541). -/
def State.bumpLinks (s : State) : State :=
  let s1 : State := { s with xms := { s.xms with regs := { s.xms.regs with lsv := s.xms.regs.lsv + 1 } } }
  if s.xms.st.placed then s1.sendLink else s1

/-- The device of a rank (R527), by the dimensions of the system. -/
def rankPlace (dims : Nat × Nat × Nat) (r : Nat) : Nat × Nat × Nat :=
  (r % max dims.1 1, r / max dims.1 1 % max dims.2.1 1, r / max dims.1 1 / max dims.2.1 1)

/-- The rank of a place (R527). -/
def placeRank (dims : Nat × Nat × Nat) (q : Nat × Nat × Nat) : Nat := q.1 + dims.1 * (q.2.1 + dims.2.1 * q.2.2)

/-- The neighbour's place in the direction of a port (R524). -/
def portPlace (dims : Nat × Nat × Nat) (q : Nat × Nat × Nat) (p : Nat) : Nat × Nat × Nat :=
  let dx := max dims.1 1
  let dy := max dims.2.1 1
  let dz := max dims.2.2 1
  match p with
  | 0 => (q.1, (q.2.1 + dy - 1) % dy, q.2.2)
  | 1 => (q.1, q.2.1, (q.2.2 + 5) % dz)
  | 2 => ((q.1 + 1) % dx, q.2.1, q.2.2)
  | 3 => (q.1, q.2.1, (q.2.2 + 1) % dz)
  | 4 => (q.1, (q.2.1 + 1) % dy, q.2.2)
  | 5 => (q.1, q.2.1, (q.2.2 + 5 * dz - 5) % dz)
  | 6 => ((q.1 + dx - 1) % dx, q.2.1, q.2.2)
  | _ => (q.1, q.2.1, (q.2.2 + dz - 1) % dz)

/-- Whether a port's dimension is connected (R525). -/
def portUsed (dims : Nat × Nat × Nat) (skip : Bool) (p : Nat) : Bool :=
  match p with
  | 0 | 4 => decide (1 < dims.2.1)
  | 1 | 5 => skip && dims.2.2 == 20
  | 2 | 6 => decide (1 < dims.1)
  | _ => decide (1 < dims.2.2)

/-! ## Confirming the system (R565–R567) -/

/-- A frame of the calender in units of 2^−16 ÷ 3 ns (R252). -/
def frameUnits : Nat := 2048 * 65536

/-- The part of the present calender frame gone by, in 2^−16 ÷ 3 ns. -/
def State.frameAge (s : State) : Nat := s.gddr.frame * 65536

/-- The phase, within its TIME cycle, of a mark that the device sends: a free value (R34, log entry 105). -/
def State.takePhase (s : State) : Fin 64 × State := (Fin.ofNat 64 s.takeFree.1, s.takeFree.2)

/-- Sends a CALIGN on a port: the own last boundary, NA, and the transmit mark less that boundary in 1/64 ns (R531). -/
def State.sendCalign (s : State) (p na : Nat) : State :=
  let f := s.takePhase
  f.2.sendBlock p 0x94 (s.xms.regs.frame.toNat * 2 ^ 56 + na % 2 ^ 32 * 2 ^ 24 + (s.gddr.frame * 64 / 3 + f.1.val) * 2 ^ 8)

/-- The first frame number that is a multiple of 8,192 and at least 110 ms ahead, where frame `n` began `age` ago, in 2^−16 ÷ 3 ns (R567,
R571). -/
def alignFrame (n age : Nat) : Nat := ceilDiv (n + ceilDiv (330000000 * 65536 + age) frameUnits) 8192 * 8192

/-- Arms unit 30 with TARGET 5 for a boundary, a time in 2^−16 ÷ 3 ns, plus a number of frames (R567). -/
def State.armAlign (s : State) (boundary : Int) (na frames : Nat) : State :=
  let start := (boundary + frames * frameUnits) / 3
  let u : Tsu := SMap.get {} s.tb.tsu 30
  let x : Tsu := { armed := true, late := u.late, target := 5, start := start.toNat
                   passed := if start < s.now then some (false, s.now) else none }
  { s with tb := { s.tb with tsu := SMap.set {} s.tb.tsu 30 x }, xms := { s.xms with na := some (na % 2 ^ 32) } }

/-- Floods CALIGN with an alignment frame on every port in use but one (R567). -/
def State.floodCalign (s : State) (but : Option Nat) (na : Nat) : State :=
  (s.openPorts.filter fun p => but != some p).foldl (fun s p => s.sendCalign p na) s

/-- The number of devices of the system (R525). -/
def systemSize (d : Nat × Nat × Nat) : Nat := d.1 * d.2.1 * d.2.2

/-- The link map as service packets to a late joiner, a LINK block's fields in each data block, TAG the packets that follow (R571;
log entry 64). -/
def State.sendMap (s : State) (p : Nat) : State :=
  let bs := s.xms.map.map fun r => BitVec.ofNat 96 (linkFields r.1 r.2.active.toNat r.2.lsv.toNat)
  let n := ceilDiv bs.length 63
  (List.range n).foldl (fun s k =>
    s.transmit p { cls := 8, dst := 0x7FFF, src := s.xms.regs.rank, kind := 3, tag := BitVec.ofNat 32 (n - 1 - k)
                   data := (bs.drop (63 * k)).take 63 }) s

/-- The COORD of the present system held from a port. -/
def State.coordOf (s : State) (p : Nat) : Option CoordRx := (s.xport p).coord.filter fun c => c.origin == s.xms.regs.originId

/-- Whether the neighbour of a port is a child: its COORD names the link to this device as its parent (R565). -/
def State.isChild (s : State) (p : Nat) : Bool := (s.coordOf p).any fun c => c.parent.toNat == oppositePort p

/-- The system is confirmed: COUNT and MISSING, and the device floods its LINK block (R565, R566). Late joiners
that wait for the link map get it (R571). -/
def State.confirmedWith (s : State) (count : Nat) : State :=
  let r := { s.xms.regs with count := BitVec.ofNat 15 count, missing := BitVec.ofNat 15 (systemSize s.xms.dims - count) }
  let s1 := ({ s with xms := { s.xms with regs := r, goSeen := true } } : State).sendLink
  (s.openPorts.filter fun p => s.isChild p && (s.xport p).confirm.isNone).foldl State.sendMap s1

/-- The fields that CONFIRM and GO share (R531). -/
def State.confirmFields (s : State) (count : Nat) : Nat :=
  s.xms.regs.originId.toNat * 2 ^ 56 + s.xms.regs.epoch.toNat * 2 ^ 48 + count * 2 ^ 33

/-- Sends CONFIRM to the parent once every ACTIVE neighbour's COORD and every child's CONFIRM are held; the origin then floods GO, its
LINK block and CALIGN (R565–R567). -/
def State.tryConfirm (s : State) : State :=
  let r := s.xms.regs
  let kids := s.openPorts.filter s.isChild
  if s.xms.st ≠ .flooded ∨ s.xms.late ∨ !(s.openPorts.all fun p => (s.coordOf p).isSome) ∨ !(kids.all fun p => (s.xport p).confirm.isSome)
  then s
  else
    let count := 1 + (kids.map fun p => (((s.xport p).confirm).getD 0).toNat).sum
    let s1 : State := { s with xms := { s.xms with st := .confirmed } }
    if r.parent ≠ 0xF then s1.sendBlock r.parent.toNat 0x92 (s1.confirmFields count)
    else
      let na := alignFrame r.frame.toNat s.frameAge
      let s2 := (s1.floodBlock none 0x93 (s1.confirmFields count)).confirmedWith count
      (s2.floodCalign none na).armAlign ((3 * s.now : Nat) - (s.frameAge : Int)) na (na - r.frame.toNat)

/-! ## Ports up and down (R538, R539, R541, R548, R560) -/

/-- Posts XLINK_DOWN or XLINK_UP (R572). -/
def State.xlinkEvent (s : State) (type p cause : Nat) : State :=
  s.postEvent type noRing 0 (p + 2 ^ 4 * cause + 2 ^ 16 * (s.xport p).nbRank.toNat)

/-- The new time parent where the present one is not ACTIVE, over links in use (R548, R561). -/
def State.reparent (s : State) : State :=
  let r := s.xms.regs
  if r.parent = 0xF ∨ s.portActive r.parent.toNat then s
  else
    let near := s.openPorts.filterMap fun p => (s.xport p).coord.map fun c => (c.hops.toNat * 8 + p, p)
    match (sortBy near fun a b => decide (a.1 ≤ b.1)).head? with
    | none => s
    | some b => { s with xms := { s.xms with regs := { r with parent := BitVec.ofNat 4 b.2 } } }

/-- The images that use the collective engine and run a sheet. -/
def State.collImages (s : State) : List Nat :=
  (s.images.filter fun p => bitAt p.2.granted.toNat 6 && p.2.sheet.active).map (·.1)

/-- A Xomos port leaves ACTIVE (R538, R539): TRIG packets go out again on the other ports, COLL packets are discarded, SVC
packets are routed again, and the time parent's port takes source 3's qualification with it (R314). -/
def State.portDown (s : State) (p cause : Nat) : State :=
  let x := s.xport p
  let held := fun k => (x.clsOf k).store ++ (x.clsOf k).queue
  let s1 := s.setXport p { x with downs := satBump x.downs 1, cls := [], tsync := none, t2 := none, t4 := none, coord := none
                                  confirm := none }
  let s2 := s1.xlinkEvent 0x0060 p cause
  let s3 := (held 3).foldl (fun s k => s.floodPacket (some p) k) s2
  let s4 := (held 8).foldl State.routePacket s3
  let s5 : State := if held 6 = [] then s4
    else { s4 with xms := { s4.xms with replayDue := (s4.xms.replayDue ++ s4.collImages).eraseDups } }
  let s6 := if s5.xms.regs.parent.toNat = p then s5.loseSource 3 else s5
  s6.bumpLinks.reparent.tryConfirm

/-- A Xomos port becomes ACTIVE (R541, R561): its retry state starts afresh, it sends DISC and the packets that waited. -/
def State.portUp (s : State) (p : Nat) : State :=
  let x := s.xport p
  let fresh := fun c : PortCls => ({ queue := c.queue } : PortCls)
  let s1 := s.setXport p { x with cls := [3, 6, 8].foldl (fun m k => SMap.set {} m k (fresh (x.clsOf k))) [] }
  let s2 := (s1.xlinkEvent 0x0061 p 0).sendBlock p 0x90 (s.devId.toNat * 2 ^ 56 + p * 2 ^ 52 + 2 ^ 48)
  [3, 6, 8].foldl (fun s k => s.refill p k (x.clsOf k).queue.length) s2.bumpLinks

/-! ## Groups of lanes that leave ACTIVE (R296, R343, R538) -/

/-- A time port that comes up or goes down: the trackers of it are FAULTY while it is down, and LISTENING again after (R314, R317; PRESUMED
from IEEE 1588, log entry 38). -/
def State.timePort (s : State) (p : Nat) (up : Bool) : State :=
  (List.range 2).foldl (fun s k =>
    let d : Domain := SMap.get {} s.tb.domains k
    let put := fun d : Domain => ({ s with tb := { s.tb with domains := SMap.set {} s.tb.domains k d } } : State)
    if !d.en || d.port != (p == 1) then s
    else if up then (if d.pstate = 6 then put { d with pstate := 1 } else s)
    else (put { d with pstate := 6, parent := none, syncRx := none }).loseSource k) s

/-- What a group that has left ACTIVE takes down: a stock group's streams, a Xomos port, the trackers of a time port. -/
def State.groupDown (s : State) (g cause : Nat) : State :=
  if g < 16 then s.stockDown g else if g < 24 then s.portDown (g - 16) cause else s.timePort (g - 24) false

/-- What else than IDLE a stock group receives ends a row of identical copies of a join message (R280, R337). -/
def State.unheard (s : State) (g : Nat) : State :=
  if 16 ≤ g then s else s.setPartner g { s.partner g with heard := (0, []), copies := 0 }

/-- Puts a group into a training state, on what it received or for a cause of its own; entering or leaving ACTIVE has its effects (R343,
R538, R541, R561). In FATAL_HALT its transmitter stays in electrical idle (R611). -/
def State.moveGroup (s0 : State) (g cause : Nat) (y0 : LnpGroup) : State :=
  let y := if s0.flt.halted && decide (g < 24) && y0.st != .off then { y0 with txIdle := true } else y0
  let s := s0.unheard g
  let was := (s.group g).st == .active
  let s1 := s.setGroup g y
  if was && y.st != .active then s1.groupDown g cause
  else if !was && y.st == .active && 16 ≤ g then (if g < 24 then s1.portUp (g - 16) else s1.timePort (g - 24) true)
  else s1

end Sys2Proof.Machine
end

