-- ==== Sys2Proof/WellFormed.lean ====
section
/-!
DEFINITION. Which commands a device can meet: the bounds on operands whose types admit more.
-/
namespace Sys2Proof

/-- Lines of the physical line space (R242). -/
def lineCount : Nat := 1384120320

/-- Whether the operands of a command lie in their ranges. -/
def wellFormed : Instr → Bool
  | .gddr6Burst _ _ half _ => half.line < lineCount
  | .eccLineFetch _ _ half => half.line < lineCount
  | .edcRetry _ _ half => half.line < lineCount
  | .bar4Read _ len => 1 ≤ len && len ≤ 4096
  | .bar4Write _ data _ => 1 ≤ data.length && data.length ≤ 512
  | _ => true

end Sys2Proof
end

