-- ==== Sys2Proof/Machine/Memory.lean ====
section
/-!
DEFINITION. GDDR6: bursts in calender windows, ECC lines, retry, refresh, patrol, copying and losing devices (R239–R274, R591–R593,
R733).
-/
namespace Sys2Proof.Machine

/-! ## Where a line lies (R243) -/

/-- The group of a line within its quarter. -/
def lineGroup (l : Nat) : Nat := l % quarterLines / 15

/-- The logical channel of a line. -/
def lineChannel (l : Nat) : Nat := lineGroup l % 22

/-- The group index of a line within its channel. -/
def lineH (l : Nat) : Nat := lineGroup l / 22

/-- The bank group of a group of a channel (R243). -/
def hBankGroup (h : Nat) : Nat := h % 4

/-- The quad that reaches a group: its bank within the bank group (R243, R256). -/
def hQuad (h : Nat) : Nat := h / 4 % 4

/-- The page half of a group of a channel (R243). -/
def hPageHalf (h : Nat) : Nat := h / 16 % 2

/-- The row of a group of a channel (R243). -/
def hRow (h : Nat) : Nat := h / 32

/-- The channel byte address of line `i` of a group, its ECC line being line 15 (R243, R244). -/
def channelAddr (h i : Nat) : Nat := 1024 * h + 64 * i

/-- The physical line of line `i` of a group of a channel of a quarter (R242, R243). -/
def lineAt (e ch h i : Nat) : Nat := e * quarterLines + 15 * (22 * h + ch) + i

/-- The ECC line of a group, from what its data lines hold: 4 check bytes for each, and those of these 60 bytes (R244, R245). -/
def State.eccLine (s : State) (e ch h : Nat) : List Byte :=
  let checks := (List.range 15).flatMap fun i => natLe 4 (Config.checkBytes (s.gddrRead (64 * lineAt e ch h i) 64))
  checks ++ natLe 4 (Config.checkBytes checks)

/-- Groups of a channel (R243). -/
def channelGroups : Nat := 1048576

/-- A position as it stands after reset (R239, MCC.DEVSTAT). -/
def devReset (m : Nat) : DevPos := if m = 11 then { st := .spare } else { logical := m }

/-- A position of a quarter. -/
def Quarter.dev (q : Quarter) (m : Nat) : DevPos := SMap.get (devReset m) q.devs m

/-- Replaces a position of a quarter. -/
def Quarter.setDev (q : Quarter) (m : Nat) (d : DevPos) : Quarter := { q with devs := SMap.set (devReset m) q.devs m d }

/-- The position that serves a logical device. -/
def Quarter.serving (q : Quarter) (k : Nat) : Option Nat := (List.range 12).find? fun m => (q.dev m).logical == k

/-- The position in state SPARE. -/
def Quarter.spare (q : Quarter) : Option Nat := (List.range 12).find? fun m => (q.dev m).st == .spare

/-- The physical channel of a logical channel (R239, R243). -/
def Quarter.physical (q : Quarter) (c : Nat) : Option Nat := (q.serving (c / 2)).map fun m => 2 * m + c % 2

/-- LOC of a device (R618). -/
def deviceLoc (e m : Nat) : BitVec 32 := BitVec.ofNat 32 (e * 2 ^ 30 + m * 2 ^ 26)

/-! ## Calender windows (R254–R259) -/

/-- CLASS of a slot of the installed table (R254). -/
def State.slotClass (s : State) (slot : Nat) : Nat := (SMap.get 0 s.gddr.gcal slot).toNat / 4096

/-- DIR of a slot of the installed table: whether it writes. -/
def State.slotWrites (s : State) (slot : Nat) : Bool := (SMap.get 0 s.gddr.gcal slot).getLsbD 11

/-- Whether the GDDR6 devices run: in Watch they are in self refresh, in Off without power. -/
def State.gddrRuns (s : State) : Bool := s.pwr.st == .run || s.pwr.st == .trim

/-- Whether a slot belongs to a class and its window reaches a line, which some position serves (R256, R259, R272). -/
def State.slotServes (s : State) (slot cls line : Nat) : Bool :=
  let q := s.quarter (lineQuarter line)
  s.gddrRuns && s.slotClass slot == cls && slot / 16 % 4 == hQuad (lineH line) && !q.withdrawn && (q.physical (lineChannel line)).isSome

/-! ## Errors of lines (R245, R247, R590–R593) -/

/-- Counts an error of a device in its bucket; a crossing requests its copy, or finds no spare (R268, R592, R593). -/
def State.deviceError (s : State) (e m w : Nat) : State :=
  let r := s.addBucket 3 (12 * e + m) w
  if !r.2 then r.1
  else
    let q := r.1.quarter e
    match q.spare with
    | none => r.1.spareLow 3 (12 * e + m) 0 (deviceLoc e m)
    | some d =>
      (r.1.setQuarter e { q with wanted := (q.wanted ++ [m]).eraseDups }).faultRecord
        { kind := 5, cls := 0, action := 5, loc := deviceLoc e m, spare := deviceLoc e d }

/-- Changes the error counters of a physical channel. -/
def State.chanErr (s : State) (e n : Nat) (f : ChanErr → ChanErr) : State :=
  let q := s.quarter e
  s.setQuarter e { q with err := SMap.modify {} q.err n f }

/-- What the read of a codeword with `errs` erroneous bytes does to its channel: corrected, or uncorrectable (R245, R590). -/
def State.codeword (s : State) (e c errs : Nat) : State :=
  match (s.quarter e).physical c with
  | none => s
  | some n =>
    if errs = 0 then s
    else if errs = 1 then (s.chanErr e n fun x => { x with corr := satBump x.corr 1 }).deviceError e (n / 2) 1
    else (s.chanErr e n fun x => { x with uncorr := satBump x.uncorr 1 }).deviceError e (n / 2) 64

/-- The read of a line with `errs` erroneous bytes: with two or more it is uncorrectable until a write covers it (R245, R733). -/
def State.lineRead (s : State) (line errs : Nat) : State :=
  let bad := SMap.get false s.gddr.bad line
  let n := if bad then 2 else errs
  let s1 := s.codeword (lineQuarter line) (lineChannel line) n
  if n < 2 then s1 else { s1 with gddr := { s1.gddr with bad := SMap.set false s1.gddr.bad line true } }

/-! ## Requests of the classes (R76, R253, R259, R260) -/

/-- The share of a class in the MESH to MC crossing of a channel (R260). -/
def crossDepth (cls : Nat) : Nat := if cls = classFar then 12 else 4

/-- The share of a class in the MC to MESH crossing of a channel (R260). -/
def returnDepth (cls : Nat) : Nat :=
  if cls = classTrig ∨ cls = classColl then 8 else if cls = classFar then 24 else 12

/-- Lines of a quarter before a line that lie on a channel (R243). -/
def linesBefore (ch l : Nat) : Nat :=
  let g := l % quarterLines / 15
  15 * (g / 22 + if ch < g % 22 then 1 else 0) + if g % 22 = ch then l % quarterLines % 15 else 0

/-- Lines of a run of requests on a channel of a quarter (R242, R243). -/
def MemReq.onChannel (r : MemReq) (e ch : Nat) : Nat :=
  let lo := max r.line (e * quarterLines)
  let hi := min (r.line + r.n) ((e + 1) * quarterLines)
  if hi ≤ lo then 0
  else linesBefore ch (hi - 1) + (if lineChannel (hi - 1) = ch then 1 else 0) - linesBefore ch lo

/-- Whether a run of requests names a line in a direction. -/
def MemReq.names (r : MemReq) (cls : Nat) (write : Bool) (line : Nat) : Bool :=
  r.cls == cls && r.write == write && decide (r.line ≤ line) && decide (line < r.line + r.n)

/-- Far requests sent to a channel of a quarter and not served. -/
def State.farSent (s : State) (e ch : Nat) : Nat :=
  (s.fab.clusters.map fun p => p.2.farQ.countP fun q =>
    q.sent && q.served == .waiting && lineQuarter q.line == e && lineChannel q.line == ch).sum

/-- The place of the first request of a class that names a line, if it stands in the class's share of the channel's crossing: fewer lines
of the class than its depth are ahead of it, the clusters' far requests in the crossing counted (R260). -/
def State.askedAt (s : State) (cls : Nat) (write : Bool) (line : Nat) : Option Nat :=
  let e := lineQuarter line
  let ch := lineChannel line
  match s.gddr.reqs.findIdx? fun r => r.names cls write line with
  | none => none
  | some k =>
    let ahead := (((s.gddr.reqs.take k).filter fun r => r.cls == cls).map fun r => r.onChannel e ch).sum +
      (s.gddr.reqs.drop k |>.head?.map fun r => ({ r with n := line - r.line } : MemReq).onChannel e ch).getD 0
    if ahead + (if cls = classFar then s.farSent e ch else 0) < crossDepth cls then some k else none

/-- Takes one line out of a run of requests. -/
def MemReq.without (r : MemReq) (line : Nat) : List MemReq :=
  (if r.line < line then [{ r with n := line - r.line }] else []) ++
    if line + 1 < r.line + r.n then [{ r with line := line + 1, n := r.line + r.n - line - 1 }] else []

/-- The request of a class for a line is done. -/
def State.askDone (s : State) (k line : Nat) : State :=
  { s with gddr := { s.gddr with reqs := (s.gddr.reqs.mapIdx fun i r => if i = k then r.without line else [r]).flatten } }

/-- Whether a far request can enter the crossing of its channel: it waits, and every earlier one of its tile has been sent (R76). -/
def farNext (l : List FarReq) (e ch k : Nat) : Bool :=
  match l[k]? with
  | none => false
  | some q => q.served == .waiting && !q.sent && lineQuarter q.line == e && lineChannel q.line == ch &&
      !(l.take k).any fun r => r.tile == q.tile && r.served == .waiting && !r.sent

/-- Served far reads of a channel of a quarter that have not reached their clusters. -/
def State.farBack (s : State) (e ch : Nat) : Nat :=
  (s.fab.clusters.map fun p => p.2.farQ.countP fun q =>
    !q.write && q.served != .waiting && lineQuarter q.line == e && lineChannel q.line == ch).sum

/-- Replaces one request of a cluster's far queue. -/
def State.setFar (s : State) (c k : Nat) (q : FarReq) : State :=
  let x := s.cl c
  s.setCl c { x with farQ := x.farQ.set k q }

/-- Places that the other lines of class FAR, of configurations and replay stores, take in its share of a channel's crossing (R253,
R260). -/
def State.farRuns (s : State) (e ch : Nat) : Nat :=
  min (crossDepth classFar) ((s.gddr.reqs.filter fun r => r.cls == classFar).map fun r => r.onChannel e ch).sum

/-- Fills the FAR share of the crossing of a channel from the far request queues; which cluster's request comes first is timing
(R260; log entry 34). -/
def State.sendFar (s : State) (e ch : Nat) : Nat → State
  | 0 => s
  | fuel + 1 =>
    if crossDepth classFar ≤ s.farSent e ch + s.farRuns e ch then s
    else match s.fab.clusters.findSome? fun p =>
        ((List.range p.2.farQ.length).find? (farNext p.2.farQ e ch)).map fun k => (p.1, k) with
      | none => s
      | some (c, k) => (s.setFar c k { (s.cl c).farQ.getD k {} with sent := true }).sendFar e ch fuel

/-! ## Bursts (R246, R256) -/

/-- Whether a far request is in the crossing, is the oldest unserved one of its tile in its cluster, and matches a burst (R76, R260). -/
def farDue (l : List FarReq) (write : Bool) (line : Nat) (k : Nat) : Bool :=
  match l[k]? with
  | none => false
  | some q => q.served == .waiting && q.sent && q.write == write && q.line == line &&
      !(l.take k).any fun r => r.tile == q.tile && r.served == .waiting

/-- The cluster and place in its far queue of the request that a burst serves: a read only while the FAR share of the MC to MESH crossing
has room (R260; log entry 34). -/
def State.farTarget (s : State) (write : Bool) (line : Nat) : Option (Nat × Nat) :=
  if !write && decide (returnDepth classFar ≤ s.farBack (lineQuarter line) (lineChannel line)) then none
  else s.fab.clusters.findSome? fun p =>
    ((List.range p.2.farQ.length).find? (farDue p.2.farQ write line)).map fun k => (p.1, k)

/-- What a burst serves: a cluster's far request, a line of another request of its class, or the ECC line that it has changed (R246). -/
inductive Target where
  | far (c k : Nat)
  | run (k : Nat)
  | ecc
  deriving DecidableEq, Repr

/-- A group of a class, by the key of `wholes` and `eccOwed`. -/
def groupKey (cls line : Nat) : Nat × Nat × Nat := (cls, lineChannel line, lineH line)

/-- The request of a class that is ready for a burst on a line, or on the ECC line of its group (R246, R259). -/
def State.ready (s : State) (cls : Nat) (write : Bool) (line : Nat) : Option Target :=
  match (if cls = classFar then s.farTarget write line else none) with
  | some (c, k) => some (.far c k)
  | none => match s.askedAt cls write line with
    | some k => some (.run k)
    | none => if write && (s.quarter (lineQuarter line)).eccOwed.contains (groupKey cls line) then some .ecc else none

/-- The key of a class's ECC buffer on a channel. -/
def eccKey (ch cls : Nat) : Nat := 16 * ch + cls

/-- Whether a write of a class to a line waits. -/
def State.writeWaits (s : State) (cls line : Nat) : Bool :=
  (s.gddr.reqs.any fun r => r.names cls true line) ||
    (cls == classFar && s.fab.clusters.any fun p => p.2.farQ.any fun q => q.served == .waiting && q.write && q.line == line)

/-- The first line of a line's group. -/
def groupStart (line : Nat) : Nat := line - line % quarterLines % 15

/-- Whether every line of a group waits to be written by a class, so that no ECC line is read (R246). -/
def State.wholeGroup (s : State) (cls line : Nat) : Bool :=
  (List.range 15).all fun i => s.writeWaits cls (groupStart line + i)

/-- Whether a class is writing the whole group of a line (R246). -/
def State.inWhole (s : State) (cls line : Nat) : Bool :=
  (s.quarter (lineQuarter line)).wholes.contains (groupKey cls line)

/-- Whether a class may write a line: it holds the group's ECC line or writes the whole group (R246). -/
def State.eccReady (s : State) (cls line : Nat) : Bool :=
  (SMap.get [] (s.quarter (lineQuarter line)).eccBuf (eccKey (lineChannel line) cls)).contains (lineH line) ||
    s.inWhole cls line || s.wholeGroup cls line

/-- A write to a group invalidates its ECC line in the other classes' buffers (R246). -/
def State.eccWrite (s : State) (cls line : Nat) : State :=
  let e := lineQuarter line
  let q := s.quarter e
  let ch := lineChannel line
  s.setQuarter e { q with eccBuf := (List.range 16).foldl (fun m k =>
    if k = cls then m else SMap.modify [] m (eccKey ch k) fun l => l.filter (· != lineH line)) q.eccBuf }

/-- The burst of a class in a direction on half of a line. -/
def burstOf (cls : Nat) (write : Bool) (line : Nat) (high : Bool) : Beat := { cls, write, line, high }

/-- The burst of a class on half of the ECC line of a line's group (R246). -/
def eccBurst (cls : Nat) (write : Bool) (line : Nat) (high : Bool) : Beat := burstOf (16 + cls) write (groupStart line) high

/-- The burst that serves a target. -/
def Target.burst (t : Target) (cls : Nat) (write : Bool) (line : Nat) (high : Bool) : Beat :=
  if t = .ecc then eccBurst cls write line high else burstOf cls write line high

/-- The ECC line of a group waits to be written by a class, or has been (R246). -/
def State.oweEcc (s : State) (cls line : Nat) (owed : Bool) : State :=
  let e := lineQuarter line
  let q := s.quarter e
  let rest := q.eccOwed.filter (· != groupKey cls line)
  s.setQuarter e { q with eccOwed := if owed then rest ++ [groupKey cls line] else rest }

/-- Forgets the failed repeats of a burst once it succeeds (R247). -/
def State.clearRepeats (s : State) (b : Beat) : State :=
  let e := lineQuarter b.line
  let q := s.quarter e
  s.setQuarter e { q with repeats := q.repeats.filter (· != b) }

/-- Notes that the first half of a line has passed, or forgets it with the second (R240). -/
def State.noteHalf (s : State) (b : Beat) : State :=
  let e := lineQuarter b.line
  let q := s.quarter e
  let first := { b with high := false }
  let rest := q.halves.filter (· != first)
  s.setQuarter e { q with halves := if b.high then rest else rest ++ [first] }

/-- Whether a burst can be the next one of its line: the low half, with which a line left off begins again, then the high half (R240). -/
def State.halfDue (s : State) (b : Beat) : Bool :=
  !b.high || (s.quarter (lineQuarter b.line)).halves.contains { b with high := false }

/-- Marks a group as being written whole as its first line goes, and ends that with its last (R246). -/
def State.noteWhole (s : State) (cls line : Nat) (whole : Bool) : State :=
  let e := lineQuarter line
  let q := s.quarter e
  let key := groupKey cls line
  let rest := q.wholes.filter (· != key)
  let more := (List.range 15).any fun i => s.writeWaits cls (groupStart line + i)
  s.setQuarter e { q with wholes := if whole && more then rest ++ [key] else rest }

/-- Whether a class needs the ECC line of a line's group: a write of it waits there and it may not be written yet (R246). -/
def State.eccWanted (s : State) (cls line : Nat) : Bool :=
  !s.eccReady cls line && (List.range 15).any fun i => s.writeWaits cls (groupStart line + i)

/-- ECC_LINE_FETCH (R240, R245, R246): a burst of the group's ECC line; with the second the line is checked, and enters the class's buffer
of 16, the oldest leaving, unless it is uncorrectable. -/
def execEccLineFetch (slot : Fin 1024) (cls : Fin 16) (half : EccHalf) (s : State) : Host.Outcome State Fault Refusal :=
  let line := half.line
  let b := eccBurst cls false line half.high
  if !s.slotServes slot cls line || s.slotWrites slot || !s.eccWanted cls line || !s.halfDue b then .next s
  else
    let s1 := (s.clearRepeats b).noteHalf b
    if !half.high then .next s1
    else
      let e := lineQuarter line
      let s2 := s1.codeword e (lineChannel line) half.errs
      let q := s2.quarter e
      let k := eccKey (lineChannel line) cls
      let l := (SMap.get [] q.eccBuf k).filter (· != lineH line) ++ [lineH line]
      .next (if 2 ≤ half.errs.val then s2 else s2.setQuarter e { q with eccBuf := SMap.set [] q.eccBuf k (l.drop (l.length - 16)) })

/-- GDDR6_REFRESH (R257, R261): one per-bank refresh to each bank of the window's quad. -/
def execGddr6Refresh (e : Fin 4) (ch : Fin 24) (slot : Fin 1024) (s : State) : Host.Outcome State Fault Refusal :=
  if s.slotClass slot = 2 ∧ s.gddrRuns then
    let q := s.quarter e
    .next (s.setQuarter e { q with refreshed := SMap.modify 0 q.refreshed (4 * ch + slot / 16 % 4) (· + 1) })
  else .next s

/-! ## Patrol and copies (R267–R270) -/

/-- Whether a COPY slot reaches group `h` (R256). -/
def State.copySlot (s : State) (slot h : Nat) : Bool :=
  s.gddrRuns && s.slotClass slot == 9 && slot / 16 % 4 == hQuad h

/-- Whether the channels of a quarter are on patrol: no copy runs, and the quarter is not withdrawn (R267). -/
def Quarter.patrols (q : Quarter) : Bool := !(q.copy.active && !q.copy.init) && !q.withdrawn

/-- A line of a channel by its byte address, and whether that is an ECC line (R243, R244). -/
def patrolLine (e ch a : Nat) : Nat × Bool :=
  let i := a % 1024 / 64
  (lineAt e ch (a / 1024) (if i = 15 then 0 else i), i == 15)

/-- The burst of class COPY at a channel byte address (R267). -/
def copyBurst (e ch a : Nat) : Beat :=
  let l := patrolLine e ch a
  let high := a % 64 != 0
  if l.2 then eccBurst 9 false l.1 high else burstOf 9 false l.1 high

/-- What the read of a line of a channel with erroneous bytes does, an ECC line's too (R245). -/
def State.checkLine (s : State) (e ch a errs : Nat) : State :=
  let l := patrolLine e ch a
  if l.2 then s.codeword e ch errs else s.lineRead l.1 errs

/-- The patrol of a channel goes on at a channel byte address, after the last one at 0 (R267). -/
def State.patrolTo (s : State) (e ch a : Nat) : State :=
  let q := s.quarter e
  s.setQuarter e { q with patrol := SMap.set 0 q.patrol ch (if a = 1024 * channelGroups then 0 else a) }

/-- PATROL_READ (R240, R267): while no copy runs, the next burst of the channel is read, in ascending address, ECC lines included; the
second burst of a line completes its codeword. -/
def execPatrolRead (e : Fin 4) (ch : Fin 22) (slot : Fin 1024) (errs : Fin 4) (s : State) :
    Host.Outcome State Fault Refusal :=
  let q := s.quarter e
  let a := SMap.get 0 q.patrol ch
  if !q.patrols || !s.copySlot slot (a / 1024) || (q.physical ch).isNone then .next s
  else
    let s1 := (s.clearRepeats (copyBurst e ch a)).patrolTo e ch (a + 32)
    .next (if a % 64 = 0 then s1 else s1.checkLine e ch a errs)

/-- DEVICE_COPY_START (R268): at a frame boundary a requested copy to the spare starts. -/
def execDeviceCopyStart (e : Fin 4) (m : Fin 12) (s : State) : Host.Outcome State Fault Refusal :=
  let q := s.quarter e
  if !q.wanted.contains m.val || q.copy.active || !s.frameBoundary then .next s
  else
    let q1 := { q with wanted := q.wanted.filter (· != m.val) }
    match q1.spare with
    | none => .next ((s.setQuarter e q1).spareLow 3 (12 * e + m) 0 (deviceLoc e m))
    | some d =>
      let q2 := (q1.setDev m { q1.dev m with st := .copySrc }).setDev d { st := .copyDst }
      .next (s.setQuarter e { q2 with
        copy := { active := true, src := BitVec.ofNat 4 m, dst := BitVec.ofNat 4 d } })

/-- The copy pointer of a channel of the device that is copied. -/
def CopySt.ptr (k : CopySt) (b : Nat) : Nat := if b = 0 then k.ptrA else k.ptrB

/-- The logical channel that a copy reads. -/
def Quarter.copyChannel (q : Quarter) (b : Nat) : Nat := 2 * (q.dev q.copy.src.toNat).logical + b

/-- Whether a channel has a group left to be copied. -/
def Quarter.copies (q : Quarter) (b : Nat) : Bool := q.copy.active && !q.copy.init && decide (q.copy.ptr b < channelGroups)

/-- DEVICE_COPY_GROUP (R245, R247, R268, R269): a group's read completes, its lines checked, and the channel's pointer advances. -/
def execDeviceCopyGroup (e : Fin 4) (b : Fin 2) (group : GroupRead) (s : State) : Host.Outcome State Fault Refusal :=
  let q := s.quarter e
  let k := q.copy
  let p := k.ptr b
  let ch := q.copyChannel b
  if !q.copies b || !s.copySlot group.slot p then .next s
  else
    let done := fun r : Beat => (r.cls == 9 || r.cls == 25) && r.line / 15 == lineAt e ch p 0 / 15
    let s1 := s.setQuarter e { q with
      copy := if b.val = 0 then { k with ptrA := p + 1 } else { k with ptrB := p + 1 }
      repeats := q.repeats.filter (!done ·) }
    .next ((List.range 16).foldl (fun s i =>
      s.checkLine e ch (channelAddr p i) (((group.errs.find? fun x => x.1.val == i).map fun x => x.2.val).getD 0)) s1)

/-- DEVICE_SWITCH (R270): at a frame boundary the logical device moves to the spare. -/
def execDeviceSwitch (e : Fin 4) (s : State) : Host.Outcome State Fault Refusal :=
  let q := s.quarter e
  let k := q.copy
  if !k.active || k.init || k.ptrA != channelGroups || k.ptrB != channelGroups || !s.frameBoundary then .next s
  else
    let m := k.src.toNat
    let q1 := (q.setDev k.dst.toNat { st := .inService, logical := (q.dev m).logical }).setDev m { st := .retired }
    .next ((s.setQuarter e { q1 with copy := { k with active := false } }).noteRepair 5 (deviceLoc e m))

/-! ## Losing a device (R271–R274) -/

/-- Whether a range of lines has a line on a logical device of a quarter. -/
def onDevice (e k base n : Nat) : Bool :=
  lineQuarter base == e && (List.range (min (ceilDiv n 15) 22)).any fun j => lineChannel (base + 15 * j) / 2 == k

/-- Withdraws a quarter: every range in it is lost (R274, R604). -/
def State.withdraw (s : State) (e kind : Nat) (loc : BitVec 32) : State :=
  let s1 := s.setQuarter e { s.quarter e with withdrawn := true }
  ((s1.faultRecord { kind := BitVec.ofNat 8 kind, cls := 3, action := 6, loc }).loseContexts e).loseRanges kind loc.toNat
    fun b _ => lineQuarter b == e

/-- Ends a copy, the source serving on and the destination spare again (R273). -/
def Quarter.endCopy (q : Quarter) : Quarter :=
  if q.copy.active && !q.copy.init then
    let m := q.copy.src.toNat
    let q1 := (q.setDev m { q.dev m with st := .inService }).setDev q.copy.dst.toNat { st := .spare }
    { q1 with copy := { q.copy with active := false } }
  else q

/-- Whether a line lies on a logical device of a quarter (R243). -/
def lineOn (e k l : Nat) : Bool := lineQuarter l == e && lineChannel l / 2 == k

/-- What the lines of a lost logical device hold from here on: zeros with valid ECC, as the spare is written, and no ECC line buffered or
burst half done (R272). -/
def State.blankDevice (s : State) (e k : Nat) : State :=
  let q := s.quarter e
  let s1 : State := { s with gddr := { s.gddr with
    bytes := s.gddr.bytes.filter fun p => !lineOn e k (p.1 / 64)
    bad := s.gddr.bad.filter fun p => !lineOn e k p.1 } }
  s1.setQuarter e { q with
    eccBuf := q.eccBuf.filter fun p => p.1 / 32 != k
    wholes := q.wholes.filter fun w => w.2.1 / 2 != k
    eccOwed := q.eccOwed.filter fun w => w.2.1 / 2 != k
    repeats := q.repeats.filter fun b => !lineOn e k b.line
    halves := q.halves.filter fun b => !lineOn e k b.line }

/-- A logical device is lost: its ranges are lost, and the spare is initialised for it or the quarter is withdrawn (R271–R274). Its lines,
which nothing reads while their regions are LOST, hold from the start what the initialisation writes. -/
def State.loseLogical (s : State) (e m k : Nat) : State :=
  let loc := deviceLoc e m
  let q := s.quarter e
  match q.spare with
  | none => s.withdraw e 5 loc
  | some d =>
    let q1 := q.setDev d { st := .copyDst }
    let s1 := s.setQuarter e { q1 with
      copy := { active := true, init := true, src := BitVec.ofNat 4 m, dst := BitVec.ofNat 4 d, logical := k } }
    ((s1.blankDevice e k).faultRecord { kind := 5, cls := 1, action := 2, loc, spare := deviceLoc e d }).loseRanges 5 loc.toNat
      (onDevice e k)

/-- DEVICE_LOST (R241, R271–R274, R596): the position is LOST, whatever it was. In a withdrawn quarter, and at a position that serves
nothing, no range is lost with it. -/
def execDeviceLost (e : Fin 4) (m : Fin 12) (s : State) : Host.Outcome State Fault Refusal :=
  let q := (s.quarter e).endCopy
  let d := q.dev m
  if d.st = .lost then .next s
  else
    let q1 := { q.setDev m { st := .lost } with wanted := q.wanted.filter (· != m.val) }
    let s1 := (s.setQuarter e q1).noteRepair 5 (deviceLoc e m)
    if q.withdrawn ∨ d.st = .spare ∨ d.st = .retired then
      .next (s1.faultRecord { kind := 5, cls := 1, action := 0, loc := deviceLoc e m })
    else if d.st = .copyDst then .next (s1.withdraw e 5 (deviceLoc e m))
    else .next (s1.loseLogical e m d.logical)

/-- Allocates a lost region of the context table again in its quarter, whose old lines are free for it, every context zero (R430). -/
def State.renewContexts (s : State) (e : Nat) : State :=
  if !(SMap.get false s.vat.lost e) then s
  else match (s.setRegion e {}).fitIn e 1048590 with
    | none => s
    | some b =>
      let s1 := (s.gddrZero b 1048590).setRegion e { base := BitVec.ofNat 32 b, lines := 1048590, valid := true }
      { s1 with vat := { s1.vat with lost := SMap.set false s1.vat.lost e false } }

/-- SPARE_INIT_COMPLETE (R272): at a frame boundary the spare, written with zeros and valid ECC, takes the lost logical device. -/
def execSpareInitComplete (e : Fin 4) (s : State) : Host.Outcome State Fault Refusal :=
  let q := s.quarter e
  let k := q.copy
  if !k.active || !k.init || q.withdrawn || !s.frameBoundary then .next s
  else
    let q1 := q.setDev k.dst.toNat { st := .inService, logical := k.logical }
    .next ((s.setQuarter e { q1 with copy := { k with active := false } }).renewContexts e)

/-! ## Where a context lies -/

/-- The cache entries of one copy of a context (R442). -/
def ctxSize (wide : Bool) : Nat := if wide then 4 else 1

/-- The line of a context (R425, R426). -/
def State.ctxLine (s : State) (c : Nat) : Nat := (s.region (c % 4)).base.toNat + 4 * ctxSize s.vat.wide * (c / 4)

end Sys2Proof.Machine
end

