-- ==== Sys2Proof/Machine/RegMap.lean ====
section
/-!
DEFINITION. What every register of BAR0 reads as (R688–R691): the register tables of the chapters, by block and offset.
-/
namespace Sys2Proof.Machine

/-- A bit as a number. -/
def bitN (b : Bool) : Nat := if b then 1 else 0

/-- A field of a register: the low `w` bits of a value, from bit `lo` up. -/
def fld (lo w v : Nat) : Nat := v % 2 ^ w * 2 ^ lo

/-! ## Clusters (block CLC) -/

/-- The code of a cluster state (R96). -/
def CState.code : CState → Nat
  | .off => 0
  | .idle => 1
  | .config => 2
  | .run => 3
  | .drain => 4
  | .drained => 5
  | .aborted => 6

/-- The code of a tile mode (R46). -/
def TileMode.code : TileMode → Nat
  | .unconfigured => 0
  | .uniform => 1
  | .multiplier => 2
  | .special => 3
  | .memory => 4
  | .io => 5

/-- SERVICE of CLC.ID. -/
def Service.code : Service → Nat
  | .inService => 0
  | .spare => 1
  | .fenced => 2

/-- The CLC registers of a cluster at offsets below 0x100. FAR_OUT stops at 32 (log entry 34). -/
def State.clcLow (s : State) (c off : Nat) : Nat :=
  let x := s.cl c
  let r := x.regs
  match off with
  | 0x00 => fld 26 6 (physX c) + fld 21 5 (physY c) + fld 19 2 (s.service c).code
  | 0x04 => fld 2 1 (bitN r.trigger)
  | 0x08 => fld 29 3 x.st.code + fld 28 1 (bitN (x.waitedFlags != [])) + fld 22 6 (min 32 x.farQ.length) + fld 13 9 r.chestMax.toNat
  | 0x0C => r.wdog.toNat
  | 0x10 => r.event.toNat
  | 0x14 => r.spills.toNat
  | 0x18 => ((List.range 8).map fun n => fld (4 * n) 4 (SMap.get 0 r.evtCnt n).toNat).sum
  | 0x1C => fld 16 16 (s.bucket 0 c).toNat + fld 12 4 r.faultCause.toNat
  | 0x20 => (SMap.get 0 r.stall 0).toNat
  | 0x24 => (SMap.get 0 r.stall 1).toNat
  | 0x28 => (SMap.get 0 r.stall 2).toNat
  | 0x2C => (SMap.get 0 r.stall 3).toNat
  | 0x30 => r.overrun.toNat
  | 0x34 => fld 31 1 (bitN r.gen) + fld 24 7 x.cfg.pending + fld 17 7 x.cfg.queue.length
  | 0x40 => bitsOf r.sround.toNat 0 32
  | 0x44 => bitsOf r.sround.toNat 32 32
  | 0x48 => bitsOf r.seed.toNat 0 32
  | 0x4C => bitsOf r.seed.toNat 32 32
  | 0x50 => r.sheetCount.toNat
  | 0x54 => fld 17 15 r.rank.toNat + fld 11 6 r.vx.toNat + fld 6 5 r.vy.toNat
  | 0x58 => bitsOf r.sguard.toNat 0 32
  | 0x5C => bitsOf r.sguard.toNat 32 32
  | 0x60 => fld 16 16 r.handle.toNat + r.cidx.toNat
  | _ => 0

/-- The CLC registers of a cluster. -/
def State.clcReg (s : State) (c off : Nat) : Nat :=
  let x := s.cl c
  let n := off / 4
  if off < 0x100 then s.clcLow c off
  else if off < 0x200 then (x.flag (n - 0x40)).toNat
  else if off < 0x220 then ((List.range 8).map fun i => fld (4 * i) 4 (x.tile (8 * (n - 0x80) + i)).cfg.mode.code).sum
  else if off < 0x300 then 0
  else if off < 0x380 then
    if n % 2 = 0 then (SMap.get 0 x.cntVal ((n - 0xC0) / 2)).toNat else (SMap.get 0 x.cntLim ((n - 0xC0) / 2)).toNat
  else if off < 0x400 then 0
  else if off < 0x500 then
    let y := x.tile (n - 0x100)
    fld 16 16 y.satInt.toNat + y.satFp.toNat
  else if off < 0x600 then
    let y := (x.tile (n - 0x140)).siz
    fld 16 16 y.clipTotal.toNat + y.uflTotal.toNat
  else if off < 0x700 then
    let w := SMap.get {} x.regs.fwin ((n - 0x180) / 4)
    match n % 4 with
    | 0 => w.ibase.toNat
    | 1 => w.lines.toNat
    | 2 => w.pbase.toNat
    | _ => fld 31 1 (bitN w.valid) + fld 1 1 (bitN w.wr) + bitN w.rd
  else 0

/-! ## Edge dies (blocks MCC, LNP, HBX, VAT, XPT) -/

/-- STATE of MCC.DEVSTAT. -/
def DevState.code : DevState → Nat
  | .inService => 0
  | .spare => 1
  | .copySrc => 2
  | .copyDst => 3
  | .retired => 4
  | .lost => 5

/-- The MCC registers of an edge die. -/
def State.mccReg (s : State) (e off : Nat) : Nat :=
  let q := s.quarter e
  if off < 0x30 then
    let d := q.dev (off / 4)
    fld 28 4 d.st.code + fld 24 4 d.logical
  else if off = 0x40 then
    fld 31 1 (bitN q.copy.active) + fld 27 4 q.copy.src.toNat + fld 23 4 q.copy.dst.toNat + fld 0 21 (min q.copy.ptrA q.copy.ptrB)
  else if 0x80 ≤ off ∧ off < 0xE0 then
    let x := SMap.get {} q.err ((off - 0x80) / 4)
    fld 16 16 x.corr.toNat + fld 4 12 x.retry.toNat + x.uncorr.toNat
  else if off = 0x100 then fld 16 16 q.gTable.toNat + q.mTable.toNat
  else 0

/-- The code of a training state (R296). -/
def GState.code : GState → Nat
  | .off => 0
  | .detect => 1
  | .baseAcq => 2
  | .baseLink => 3
  | .negotiate => 4
  | .step => 5
  | .blockHunt => 6
  | .eq => 7
  | .active => 8
  | .eidle => 9
  | .fail => 10

/-- Lanes of a training group (R275). -/
def groupLanes (g : Nat) : Nat := if g < 16 then 6 else if g < 24 then 18 else 1

/-- The LNP registers of a training group. -/
def State.lnpReg (s : State) (g off : Nat) : Nat :=
  let x := s.group g
  if off = 0 then fld 31 1 (bitN x.enable) + (if g < 24 then fld 26 4 x.rateMask.toNat else 0) + fld 25 1 (bitN x.eidleReq)
  else if off = 4 then
    fld 28 4 x.st.code + fld 25 3 x.rate.toNat + fld 24 1 (bitN x.spareUsed) + fld 19 5 x.spareFor.toNat +
      fld 16 3 x.attempts.toNat + x.frame.toNat
  else if off < 0x100 ∨ groupLanes g ≤ (off - 0x100) / 0x20 then 0
  else
    let l : Lane := SMap.get {} x.lanes ((off - 0x100) / 0x20)
    match off % 0x20 with
    | 0 => fld 31 1 (bitN l.los) + fld 30 1 (bitN l.lock) + fld 26 4 l.peak.toNat + fld 16 10 l.skew.toNat
    | 4 => fld 16 16 l.hdrErr.toNat + l.codeErr.toNat
    | 8 => fld 24 8 l.losEvt.toNat + fld 16 8 l.lolEvt.toNat + fld 8 8 l.stuffLate.toNat + l.stuffErr.toNat
    | _ => 0

/-- The lane load of a stream in units of 1 ÷ 4,096 bit/s (R340). -/
def Stream.load (x : Stream) : Nat :=
  x.rate.toNat * (frameBlocks x.fmt.toNat x.fcode.toNat + 3) * 96 * (4096 / frameSamples x.fcode.toNat)

/-- The lane load of a stock group in units of 1 ÷ 4,096 bit/s (R340). -/
def State.groupLoad (s : State) (g : Nat) : Nat :=
  ((groupSids g).map fun i => if (s.stream i).st.loads then (s.stream i).load else 0).sum

/-- The HBX registers of an edge die. -/
def State.hbxReg (s : State) (e off : Nat) : Nat :=
  if off < 0x40 then
    let g := 4 * e + off / 0x10
    let p := s.partner g
    let n := fun f : Stream → Bool => (groupSids g).countP fun i => f (s.stream i)
    match off % 0x10 with
    | 0 => fld 31 1 (bitN p.present) + fld 24 7 (n fun x => x.st.loads) + fld 17 7 (n fun x => x.st == .admitted) +
        fld 0 17 (ceilDiv (s.groupLoad g) (4096 * 10 ^ 6))
    | 4 => p.pid.toNat
    | _ => 0
  else if off < 0x1000 then 0
  else
    let k := off % 0x1000 / 0x10
    let x := s.stream (256 * e + k)
    let r := x.recs
    match off / 0x1000, off % 0x10 with
    | 1, 0 => fld 29 3 x.st.code + fld 21 8 x.lsn.toNat + fld 17 4 x.fmt.toNat + fld 13 4 x.fcode.toNat + x.transit.toNat
    | 1, 4 => x.rate.toNat
    | 1, 8 => fld 16 16 x.err.seqGap.toNat + fld 8 8 x.err.crcErr.toNat + x.err.frameErr.toNat
    | 1, 12 => fld 24 8 x.err.tsRange.toNat + fld 16 8 x.err.tsJump.toNat + fld 8 8 x.err.rateExcess.toNat + x.err.seqOld.toNat
    | 2, 0 => fld 30 2 r.pstate.toNat + fld 26 4 r.openRecs.length + fld 16 10 (min r.waiting.length 0x3FF) + r.done.toNat
    | 2, 4 => fld 24 8 r.lost.toNat + fld 16 8 r.drop.toNat + fld 8 8 r.trunc.toNat + r.maskf.toNat
    | 2, 8 => fld 0 32 x.buf.w
    | 2, 12 => ((SMap.get none s.wcap (256 * e + k)).map (·.toNat)).getD (fld 0 32 (x.buf.w / 2 ^ 32))
    | _, _ => 0

/-- The VAT registers of an edge die. -/
def State.vatReg (s : State) (e off : Nat) : Nat :=
  let v := s.vat
  match off with
  | 0x00 => fld 31 1 (bitN v.wide) + fld 30 1 (bitN (SMap.get false v.lost e)) + fld 29 1 (bitN (s.quarter e).withdrawn) + e
  | 0x04 => fld 31 1 (bitN v.busy) + fld 28 3 v.op.toNat + fld 23 5 s.sweepsPending + v.skipped.toNat
  | 0x08 => v.seq.toNat
  | 0x0C => fld 17 15 (SMap.get 0 v.inflight e) + fld 2 15 ((if v.wide then 4 else 1) * (SMap.get [] v.cache e).countP fun p => p.2)
  | 0x10 => (SMap.get 0 v.hits e).toNat
  | 0x14 => fld 16 16 (SMap.get 0 v.readErr e).toNat + fld 8 8 (SMap.get 0 v.faults e).toNat + (SMap.get 0 v.replays e).toNat
  | _ => 0

/-- The XPT registers of a port. -/
def State.xptReg (s : State) (p off : Nat) : Nat :=
  let x := s.xport p
  match off with
  | 0x00 => fld 31 1 (bitN x.nbValid) + fld 30 1 (bitN x.miswired) + fld 15 15 x.nbRank.toNat + fld 12 3 x.nbPort.toNat
  | 0x04 => x.nbId.toNat
  | 0x08 => fld 16 16 x.delay.toNat + x.fofs.toNat
  | 0x0C => x.asym.toNat
  | 0x10 => fld 16 16 x.resends.toNat + fld 8 8 x.naks.toNat + x.downs.toNat
  | _ => 0

/-- The registers in an edge die's window (R691). -/
def State.edgeReg (s : State) (e off : Nat) : Nat :=
  if off < 0x100000 then 0
  else if off < 0x200000 then s.mccReg e (off - 0x100000)
  else if off < 0x206000 then
    let g := (off - 0x200000) / 0x1000
    s.lnpReg (if g < 4 then 4 * e + g else 16 + 2 * e + g - 4) (off % 0x1000)
  else if off < 0x300000 then 0
  else if off < 0x303000 then s.hbxReg e (off - 0x300000)
  else if off < 0x400000 then 0
  else if off < 0x400018 then s.vatReg e (off - 0x400000)
  else if off < 0x500000 then 0
  else if off < 0x502000 then s.xptReg (2 * e + (off - 0x500000) / 0x1000) (off % 0x1000)
  else 0

/-! ## The root die -/

/-- The RGT registers. -/
def State.rgtReg (s : State) (off : Nat) : Nat :=
  let g := s.region (off / 32)
  match off % 32 with
  | 0x00 => g.base.toNat
  | 0x04 => g.lines.toNat
  | 0x08 => fld 31 1 (bitN g.valid) + fld 30 1 (bitN g.lost) + fld 29 1 (bitN g.host) + fld 28 1 (bitN g.bar4) +
      fld 16 12 g.ring.toNat + g.handle.toNat
  | 0x0C => fld 0 32 g.name.toNat
  | 0x10 => fld 0 32 (g.name.toNat / 2 ^ 32)
  | _ => 0

/-- STATE of TBS.STATUS (R311). -/
def TbState.code : TbState → Nat
  | .invalid => 0
  | .locked => 1
  | .holdover => 2

/-- The TBS registers. -/
def State.tbsReg (s : State) (off : Nat) : Nat :=
  let t := s.tb
  let dom := fun k => (SMap.get {} t.domains k : Domain)
  let port := fun k => (SMap.get {} t.ports k : TimePort)
  let domCfg := fun d : Domain => fld 31 1 (bitN d.en) + fld 30 1 (bitN d.profile) + fld 29 1 (bitN d.udp) + fld 28 1 (bitN d.port) +
    fld 27 1 (bitN d.slaveOnly) + fld 16 8 d.domain.toNat + fld 8 8 d.prio1.toNat + d.prio2.toNat
  let domStat := fun d : Domain => fld 29 3 d.pstate.toNat + fld 8 8 d.utcOfs.toNat + d.gmChanges.toNat
  let cal := fun p : TimePort => fld 24 8 p.rxLat.toNat + fld 16 8 p.txLat.toNat + p.asym.toNat
  let stat := fun p : TimePort => fld 16 16 p.discard.toNat + p.events.toNat
  if off = 0x00 then
    fld 31 1 (bitN t.ctrl.lock) + fld 24 4 t.ctrl.srcEn.toNat + fld 22 2 t.ctrl.primary.toNat + fld 21 1 (bitN t.ctrl.revert) +
      fld 20 1 (bitN t.ctrl.falling)
  else if off = 0x04 then
    fld 30 2 t.st.code + fld 27 3 (t.active.getD 7) +
      ((List.range 4).map fun n => fld (23 + n) 1 (bitN (SMap.get {} t.srcs n).qual)).sum + t.switches.toNat
  else if off = 0x0C then t.lt0.toNat
  else if off = 0x10 then t.lt1.toNat
  else if off = 0x14 then t.lt2.toNat
  else if off = 0x1C then unsignedOf 32 t.fadj
  else if 0x40 ≤ off ∧ off < 0x50 then
    let k := (off - 0x40) / 4
    let g := SMap.get (servoReset k) t.gains k
    fld 16 16 g.kp.toNat + g.ki.toNat
  else if off = 0x50 then fld 8 4 t.ctrl.qualN.toNat + t.ctrl.qualThr.toNat
  else if off = 0x60 then domCfg (dom 0)
  else if off = 0x64 then domCfg (dom 1)
  else if off = 0x70 then domStat (dom 0)
  else if off = 0x74 then domStat (dom 1)
  else if off = 0x78 then (dom 0).ofs.toNat
  else if off = 0x7C then (dom 1).ofs.toNat
  else if off = 0x80 then t.ppsin.toNat
  else if off = 0x88 then cal (port 0)
  else if off = 0x8C then cal (port 1)
  else if off = 0x90 then stat (port 0)
  else if off = 0x94 then stat (port 1)
  else if 0x100 ≤ off ∧ off < 0x180 then
    let u : Tsu := SMap.get {} t.tsu ((off - 0x100) / 4)
    fld 31 1 (bitN u.armed) + fld 30 1 (bitN u.late) + fld 26 4 u.target.toNat + fld 16 10 u.missed.toNat + u.fired.toNat
  else if 0x180 ≤ off ∧ off < 0x190 then
    let p : PpsPin := SMap.get {} t.pps ((off - 0x180) / 4)
    fld 30 2 p.mode.toNat + fld 29 1 (bitN p.pol) + fld 24 5 p.unit.toNat + fld 16 8 p.skipped.toNat
  else 0

/-- The code of a pipeline state (R387). -/
def PState.code : PState → Nat
  | .idle => 0
  | .warm => 1
  | .live => 2
  | .halted => 3
  | .stopped => 4

/-- The key of a resource of the ownership table: kinds 1 unit, 2 PPS_OUT pin, 3 TRIG line, 4 GPIO line, as in CLAIM (R509). -/
def ownKey (kind n : Nat) : Nat := 64 * kind + n

/-- The ring pair that holds a unit, pin or line. -/
def State.holder (s : State) (kind n : Nat) : Option (BitVec 12) := SMap.get none s.hif.own.holder (ownKey kind n)

/-- The TRP registers. -/
def State.trpReg (s : State) (off : Nat) : Nat :=
  if off < 0x800 then
    let q := s.pipe (off / 0x20)
    match off % 0x20 with
    | 0x00 => fld 29 3 q.st.code + fld 28 1 (bitN q.det.armed) + fld 27 1 (bitN q.gap) + fld 24 3 q.cause.toNat +
        fld 23 1 (bitN q.wrIgn) + q.handle.toNat
    | 0x04 => fld 19 13 q.deckle.toNat + fld 6 13 q.pad.toNat
    | 0x08 => fld 16 16 q.ctl.thr.toNat + q.ctl.hys.toNat
    | 0x0C => fld 30 2 q.ctl.dir.toNat + fld 29 1 (bitN q.ctl.single) + fld 28 1 (bitN q.ctl.epochReq) + fld 12 12 q.ctl.warm.toNat +
        q.ctl.holdoff.toNat
    | 0x10 => fld 16 16 q.triggers.toNat + fld 8 8 q.gaps.toNat + q.late.toNat
    | 0x14 => q.det.minSlack.toNat
    | 0x18 => fld 31 1 (bitN q.ctl.xout) + fld 27 4 q.ctl.groupOut.toNat + q.ctl.xin.toNat
    | _ => 0
  else if off < 0x880 then
    let n := (off - 0x800) / 0x10
    let l : TrigLine := SMap.get {} s.trp.lines n
    match off % 0x10 with
    | 0x0 => fld 30 2 l.mode.toNat + fld 29 1 (bitN l.pol) + fld 28 1 (bitN l.subOfs) + fld 19 9 l.dly.toNat + fld 9 10 l.width.toNat
    | 0x4 => fld 0 32 l.mask.toNat
    | 0x8 => fld 0 32 (l.mask.toNat / 2 ^ 32)
    | 0xC => fld 31 1 (bitN (s.holder 3 n).isSome) + fld 30 1 (bitN l.unclaimedWr) + fld 16 8 l.merged.toNat + l.edges.toNat
    | _ => 0
  else 0

/-- The PCX registers. -/
def State.pcxReg (s : State) (off : Nat) : Nat :=
  let r := s.pcx.regs
  match off with
  | 0x0 => fld 27 5 r.width.toNat + fld 24 3 r.rate.toNat + fld 23 1 (bitN r.flit) + fld 22 1 (bitN r.reversed) +
      fld 21 1 (bitN r.degraded) + r.changes.toNat
  | 0x4 => fld 24 8 r.bar0Bad.toNat + fld 16 8 r.bar2Bad.toNat + fld 8 8 r.bar4Ur.toNat + r.bar4Ca.toNat
  | 0x8 => fld 24 8 r.perst.toNat + fld 16 8 r.hot.toNat + fld 8 8 r.flr.toNat
  | 0xC => fld 16 16 r.doeReqs.toNat + fld 8 8 r.doeAborts.toNat
  | _ => 0

/-- STATE of RNG.STAT. -/
def RingSt.code : RingSt → Nat
  | .off => 0
  | .active => 1
  | .draining => 2
  | .error => 3

/-- The RNG registers of a ring pair. -/
def State.rngReg (s : State) (r off : Nat) : Nat :=
  let g := s.ring r
  match off with
  | 0x00 => fld 0 32 g.sqb.toNat
  | 0x04 => fld 0 32 (g.sqb.toNat / 2 ^ 32)
  | 0x08 => fld 0 32 g.cqb.toNat
  | 0x0C => fld 0 32 (g.cqb.toNat / 2 ^ 32)
  | 0x10 => fld 31 1 (bitN g.enable) + fld 27 4 g.sqLog.toNat + fld 23 4 g.cqLog.toNat + fld 11 12 g.vector.toNat + fld 6 5 g.chan.toNat
  | 0x14 => fld 30 2 g.st.code + fld 15 15 g.sqHead.toNat + g.cqTail.toNat
  | 0x18 => fld 28 4 g.cause.toNat + fld 20 8 g.dbIgn.toNat
  | _ => 0

/-- The RGC registers. -/
def State.rgcReg (s : State) (off : Nat) : Nat :=
  let g := s.hif.rgc
  let cfg := fun x : GlobalRing => fld 31 1 (bitN x.enable) + fld 27 4 x.log.toNat + fld 15 12 x.vector.toNat
  match off with
  | 0x00 => fld 0 32 g.evt.base.toNat
  | 0x04 => fld 0 32 (g.evt.base.toNat / 2 ^ 32)
  | 0x08 => fld 0 32 g.buf.toNat
  | 0x0C => fld 0 32 (g.buf.toNat / 2 ^ 32)
  | 0x10 => fld 0 32 g.ream.base.toNat
  | 0x14 => fld 0 32 (g.ream.base.toNat / 2 ^ 32)
  | 0x18 => cfg g.evt
  | 0x1C => fld 17 15 g.evt.tail.toNat + g.lost.toNat
  | 0x20 => cfg g.ream
  | 0x24 => g.mib.toNat
  | _ => 0

/-- STATE of DMA.CH. -/
def ChanSt.code : ChanSt → Nat
  | .idle => 0
  | .copy => 1
  | .pacedIdle => 2
  | .pacedActive => 3

/-- DMA.CH of a channel. -/
def State.dmaReg (s : State) (c : Nat) : Nat :=
  let x : Channel := SMap.get {} s.hif.dma c
  fld 30 2 x.st.code + fld 26 4 x.queue.length + fld 16 10 x.errors.toNat + x.done.toNat

/-- An OWN register. -/
def State.ownReg (s : State) (kind n : Nat) : Nat :=
  match s.holder kind n with
  | none => 0
  | some r => fld 31 1 1 + r.toNat

/-- The code of a discovery state (R569). -/
def XState.code : XState → Nat
  | .alone => 0
  | .ports => 1
  | .flooded => 2
  | .confirmed => 3
  | .routed => 4
  | .aligned => 5
  | .ready => 6
  | .duplicate => 7

/-- The XMS registers. -/
def State.xmsReg (s : State) (off : Nat) : Nat :=
  let r := s.xms.regs
  let c := s.xms.cnt
  match off with
  | 0x00 => fld 31 1 (bitN r.enable) + fld 30 1 (bitN r.origin) + fld 28 1 (bitN r.skip) + fld 23 5 r.dx.toNat + fld 18 5 r.dy.toNat +
      fld 13 5 r.dz.toNat + fld 12 1 (bitN r.lock)
  | 0x04 => fld 28 4 s.xms.st.code + fld 23 5 r.x.toNat + fld 18 5 r.y.toNat + fld 13 5 r.z.toNat + fld 9 4 r.parent.toNat +
      fld 8 1 (bitN r.originLost) + r.epoch.toNat
  | 0x08 => fld 17 15 r.rank.toNat + fld 2 15 r.count.toNat
  | 0x0C => fld 17 15 r.missing.toNat + fld 9 8 r.lsv.toNat
  | 0x10 => r.originId.toNat
  | 0x14 => r.frame.toNat
  | 0x18 => fld 16 16 r.ctimeout.toNat + fld 10 6 r.radius.toNat
  | 0x1C => fld 16 16 c.dup.toNat + fld 8 8 c.stale.toNat + c.full.toNat
  | 0x20 => fld 16 16 c.changes.toNat + c.unreach.toNat
  | 0x24 => fld 24 8 c.mismatch.toNat + fld 16 8 c.timeout.toNat + fld 8 8 c.replays.toNat + c.lost.toNat
  | _ => 0

/-- The state of a service core: cores 0 and 1 start active, core 2 spare (R606). -/
def State.core (s : State) (k : Nat) : CoreSt := SMap.get (if k < 2 then .active else .spare) s.svc.cores k

/-- Active service cores (FLT.STATUS.SVC_CORES). -/
def State.activeCores (s : State) : Nat := (List.range 3).countP fun k => s.core k == .active

/-- Whether the spare service core is available. -/
def State.spareCore (s : State) : Bool := (List.range 3).any fun k => s.core k == .spare

/-- The FLT registers. -/
def State.fltReg (s : State) (off : Nat) : Nat :=
  let f := s.flt
  if off = 0x00 then
    fld 30 2 (bitN f.halted) + fld 28 2 s.activeCores + fld 27 1 (bitN s.spareCore) + fld 26 1 (bitN f.retained) +
      fld 25 1 (bitN f.fuseFull) + f.cause.toNat
  else if off = 0x04 then
    fld 25 7 s.sparesLeft + fld 22 3 ((List.range 4).countP fun e => (s.quarter e).spare.isSome) + fld 12 10 f.fuses
  else if off = 0x08 then fld 16 16 f.contained.toNat + fld 8 8 f.workFatal.toNat + f.bucketCnt.toNat
  else if off = 0x0C then fld 24 8 f.tsuLate.toNat + fld 16 8 f.wrIgn.toNat + fld 8 8 f.unclWr.toNat + f.meets.toNat
  else if 0x10 ≤ off ∧ off < 0x24 then (s.thr ((off - 0x10) / 4)).toNat
  else if 0x30 ≤ off ∧ off < 0x44 then
    let k := (off - 0x30) / 4
    (SMap.get (leakDefault k) f.leak k).toNat
  else if off = 0x50 then fld 16 16 f.reamCnt.toNat + fld 8 8 f.reamForm.toNat + bitN f.reamTrunc
  else 0

/-- The PWR registers. -/
def State.pwrReg (s : State) (off : Nat) : Nat :=
  let p := s.pwr
  if off = 0x00 then fld 30 1 (bitN (p.st == .trim))
  else if off = 0x04 then p.cap.toNat
  else if off = 0x08 then
    fld 30 2 (bitN (p.st == .trim)) + fld 26 4 p.tlevel.toNat + fld 22 4 p.wref.toNat + p.power.toNat
  else if off = 0x0C then p.mode.toNat
  else if off = 0x10 then p.tlim.toNat
  else if off = 0x14 then p.wakeEn.toNat
  else if off = 0x18 then p.wake.toNat
  else if off = 0x1C then fld 8 8 p.funcIgn.toNat + p.unclWr.toNat
  else if 0x100 ≤ off ∧ off < 0x164 then
    let t : Therm := SMap.get {} p.therm ((off - 0x100) / 4)
    fld 24 8 t.tj.toNat + fld 23 1 (bitN t.emerg) + fld 19 4 t.level.toNat + t.peak.toNat
  else if 0x200 ≤ off ∧ off < 0x240 then
    let g : Gpio := SMap.get {} p.gpio ((off - 0x200) / 4)
    fld 30 2 g.func.toNat + fld 29 1 (bitN g.pol) + fld 19 10 g.width.toNat + fld 11 8 g.merged.toNat
  else 0

/-- The DND registers. -/
def State.dndReg (s : State) (off : Nat) : Nat :=
  let d := s.dnd
  match off with
  | 0x00 => fld 28 4 d.group.toNat + fld 18 10 d.sid.toNat + fld 12 6 d.itile.toNat + fld 6 6 d.otile.toNat
  | 0x04 => fld 24 8 d.nfr.toNat + fld 20 4 d.consec.toNat
  | 0x08 => d.period.toNat
  | 0x0C => d.thr.toNat
  | 0x10 => d.imgLo.toNat
  | 0x14 => d.imgHi.toNat
  | 0x18 => d.imgBytes.toNat
  | 0x1C => fld 16 16 d.windows.toNat + fld 8 8 d.abandoned.toNat + d.aborts.toNat
  | 0x20 => d.score.toNat
  | _ => 0

/-- The SEC registers. -/
def State.secReg (s : State) (off : Nat) : Nat :=
  let x := s.sec
  match off with
  | 0x00 => fld 0 32 x.uaddr.toNat
  | 0x04 => fld 0 5 (x.uaddr.toNat / 2 ^ 32)
  | 0x08 => x.ubytes.toNat
  | 0x10 => fld 30 2 x.ustate.toNat + fld 26 4 x.ucode.toNat + fld 18 8 x.ign.toNat
  | 0x14 => fld 0 32 x.setid.toNat
  | 0x18 => fld 0 32 (x.setid.toNat / 2 ^ 32)
  | 0x1C => fld 25 7 x.fuses.antiRollback + fld 21 4 x.fuses.revoked.toNat + fld 19 2 x.fuses.jtag.toNat + fld 11 8 x.svn.toNat +
      fld 10 1 (bitN x.pending)
  | _ => 0

/-- The STAGE code (R675). -/
def Stage.code : Stage → Nat
  | .rom => 0
  | .rootFw => 1
  | .edge => 2
  | .compute => 3
  | .ready => 4
  | .dead => 0

/-- The BRU registers. -/
def State.bruReg (s : State) (off : Nat) : Nat :=
  let b := s.bru
  match off with
  | 0x0 => fld 28 4 b.stage.code + fld 24 4 b.edgeUp.toNat + fld 4 20 b.cdDone.toNat + fld 3 1 (bitN b.pendingSet)
  | 0x4 => fld 16 16 b.tRootFw.toNat + b.tReady.toNat
  | 0x8 => fld 28 4 b.cause.toNat
  | _ => 0

/-- The RID registers. -/
def State.ridReg (s : State) (off : Nat) : Nat :=
  match off with
  | 0x0 => fld 24 8 (if s.stepA1 then 0xA1 else 0xB0) + fld 20 4 2 + fld 16 4 6 + 0xD025
  | 0x4 => s.devId.toNat
  | 0x8 => fld 0 32 s.sec.serial.toNat
  | 0xC => fld 0 32 (s.sec.serial.toNat / 2 ^ 32)
  | _ => 0

/-- A word of the MSI-X table or pending bit array at its BAR0 offset (R465). -/
def State.msixReg (s : State) (off : Nat) : Nat :=
  if off < 0x10000 then
    let v : Vector_ := SMap.get {} s.pcx.msix (off / 16)
    match off % 16 with
    | 0 => fld 0 32 v.addr.toNat
    | 4 => fld 0 32 (v.addr.toNat / 2 ^ 32)
    | 8 => v.data.toNat
    | _ => bitN v.masked
  else ((List.range 32).map fun k => fld k 1 (bitN (SMap.get {} s.pcx.msix (8 * (off - 0x10000) + k)).pending)).sum

/-- The registers in the root die's window (R688, R689, R691). -/
def State.rootReg (s : State) (off : Nat) : Nat :=
  let o := off % 0x10000
  match off / 0x10000 with
  | 0x00 => s.ridReg o
  | 0x20 => if o < 0x2000 then s.rgtReg o else 0
  | 0x30 => if o < 0x2000 then s.lnpReg (24 + o / 0x1000) (o % 0x1000) else 0
  | 0x40 => s.tbsReg o
  | 0x50 => s.trpReg o
  | 0x60 => s.pcxReg o
  | 0x78 => s.rgcReg o
  | 0x79 => if o < 0x80 then s.dmaReg (o / 4) else 0
  | 0x7A =>
    if o < 0x78 then s.ownReg 1 (o / 4)
    else if 0x80 ≤ o ∧ o < 0x90 then s.ownReg 2 ((o - 0x80) / 4)
    else if 0xA0 ≤ o ∧ o < 0xC0 then s.ownReg 3 ((o - 0xA0) / 4)
    else if 0xC0 ≤ o ∧ o < 0x100 then s.ownReg 4 ((o - 0xC0) / 4)
    else 0
  | 0x80 => s.msixReg o
  | 0x81 => if o < 0x200 then s.msixReg (0x10000 + o) else 0
  | 0x88 => s.xmsReg o
  | 0x90 => s.fltReg o
  | 0xA0 => s.pwrReg o
  | 0xB0 => s.dndReg o
  | 0xB1 => s.clcReg 880 o
  | 0xC0 => s.secReg o
  | 0xD0 => s.bruReg o
  | _ => if 0x700000 ≤ off ∧ off < 0x740000 then s.rngReg ((off - 0x700000) / 0x40) (off % 0x40) else 0

/-- What an aligned DW of BAR0 reads as (R688–R691); offsets without a register read as 0 (R459). -/
def State.readBar0 (s : State) (off : Nat) : Nat :=
  if off < 0x1000000 then s.rootReg off
  else if off < 0x5000000 then s.edgeReg (off / 0x1000000 - 1) (off % 0x1000000)
  else if off < 0x8000000 then 0
  else if off < 0xD000000 then
    let k := (off - 0x8000000) / 0x400000
    let o := off % 0x400000
    if o < 0x2C0000 then s.clcReg (44 * k + o / 0x10000) (o % 0x10000) else 0
  else 0

end Sys2Proof.Machine
end

