-- ==== Sys2Proof/Machine/Ream.lean ====
section
/-!
DEFINITION. Device-fatal errors and the ream (R468, R589, R610–R620).
-/
namespace Sys2Proof.Machine

/-- Consecutive register offsets: `n` words from `base`. -/
def words (base n : Nat) : List Nat := (List.range n).map fun k => base + 4 * k

/-- Register offsets of the LNP groups of a window: GCTRL, GSTAT and the three registers of each lane. -/
def lnpOffsets (base : Nat) (gs : List Nat) : List Nat :=
  (gs.mapIdx fun k g => (k, g)).flatMap fun p =>
    words (base + 0x1000 * p.1) 2 ++ (List.range (groupLanes p.2)).flatMap fun l => words (base + 0x1000 * p.1 + 0x100 + 0x20 * l) 3

/-- Register offsets of a CLC block (R691). -/
def clcOffsets (base : Nat) : List Nat :=
  words base 14 ++ words (base + 0x40) 9 ++ words (base + 0x100) 64 ++ words (base + 0x200) 8 ++ words (base + 0x300) 32 ++
    words (base + 0x400) 64 ++ words (base + 0x500) 64 ++ words (base + 0x600) 64

/-- Every register of BAR0 but the MSI-X table, in offset order (R616, R691). -/
def regOffsets : List Nat :=
  words 0 4 ++ (List.range 256).flatMap (fun n => words (0x200000 + 32 * n) 5) ++ lnpOffsets 0x300000 [24, 25] ++
    words 0x400000 6 ++ words 0x40001C 1 ++ words 0x400040 5 ++ words 0x400060 2 ++ words 0x400070 5 ++ words 0x400088 4 ++
    words 0x400100 32 ++ words 0x400180 4 ++ (List.range 64).flatMap (fun p => words (0x500000 + 0x20 * p) 7) ++
    words 0x500800 32 ++ words 0x600000 4 ++ (List.range 4096).flatMap (fun r => words (0x700000 + 0x40 * r) 7) ++
    words 0x780000 10 ++ words 0x790000 32 ++ words 0x7A0000 30 ++ words 0x7A0080 4 ++ words 0x7A00A0 8 ++ words 0x7A00C0 16 ++
    words 0x880000 10 ++ words 0x900000 9 ++ words 0x900030 5 ++ words 0x900050 1 ++ words 0xA00000 8 ++ words 0xA00100 25 ++
    words 0xA00200 16 ++ words 0xB00000 9 ++ clcOffsets 0xB10000 ++ words 0xC00000 8 ++ words 0xD00000 4 ++
    (List.range 4).flatMap (fun e =>
      let b := 0x1000000 * (e + 1)
      words (b + 0x100000) 12 ++ words (b + 0x100040) 1 ++ words (b + 0x100080) 24 ++ words (b + 0x100100) 1 ++
        lnpOffsets (b + 0x200000) [0, 1, 2, 3, 16, 17] ++
        (List.range 4).flatMap (fun g => words (b + 0x300000 + 0x10 * g) 2) ++ words (b + 0x301000) 1024 ++ words (b + 0x302000) 1024 ++
        words (b + 0x400000) 6 ++ words (b + 0x500000) 5 ++ words (b + 0x501000) 5) ++
    (List.range 880).flatMap fun c => clcOffsets (0x8000000 + c / 44 * 0x400000 + c % 44 * 0x10000)

/-- A section of a ream (R615, R616). -/
structure ReamSec where
  type : Nat
  inst : Nat
  source : Nat
  data : List Byte

/-- Bytes the spec leaves open in a section (log entry 23). -/
def openBytes (type inst n : Nat) : List Byte := (List.range n).map (Config.reamByte type inst)

/-- SOURCE of a section whose place the spec does not give (log entry 23). -/
def openSource (type inst : Nat) : Nat := leNat ((List.range 8).map fun k => Config.reamByte type inst (2 ^ 40 + k))

/-- The fault log as bytes, newest record last (R616, R617). -/
def State.logBytes (s : State) : List Byte := s.flt.log.flatMap fun r => natLe 32 r.pack

/-- The event tail: the last 256 events, padded with zeros to 16,384 bytes (R616). -/
def State.tailBytes (s : State) : List Byte :=
  let b := s.hif.rgc.last.flatten
  b ++ List.replicate (16384 - b.length) 0

/-- The register snapshot (R616). -/
def State.regBytes (s : State) : List Byte := regOffsets.flatMap fun o => natLe 4 (s.readBar0 o)

/-- The SRAM of a cluster: its 64 tiles in index order (R616). -/
def State.clusterSram (s : State) (c : Nat) : List Byte :=
  (List.range 64).flatMap fun t => ((s.cl c).tile t).sram.readBytes 0 12288

/-- What a tile holds besides its SRAM: queues, tokens, registers, accumulators, chest (R616). -/
def Tile.heldState (y : Tile) : List Nat :=
  y.queues.flatMap (fun p => p.1 :: p.2.map (·.toNat)) ++ y.tokenQ.map (·.toNat) ++ y.regs.flatMap (fun p => [p.1, p.2.toNat]) ++
    (y.outR ++ y.passR).flatMap (fun p => [p.1, ((p.2.map (·.toNat)).getD 0)]) ++ y.accs.flatMap (fun p => [p.1, p.2.toNat]) ++
    y.chest.flatMap fun p => [p.1, p.2.toNat]

/-- The state of a cluster in a ream: a free layout of what its tiles hold (R616, log entry 23). -/
def State.clusterState (s : State) (c : Nat) : List Byte :=
  let held := (s.cl c).tiles.flatMap fun p => p.1 :: p.2.heldState
  (List.range 65536).map (Config.reamLayout 10 held)

/-- The context cache of a quarter in a ream: a free layout of the contexts that it holds (R616, log entry 23). -/
def State.cacheBytes (s : State) (e : Nat) : List Byte :=
  let bytes := fun c => match SMap.get [] s.vat.held c with
    | [] => s.gddrRead (64 * s.ctxLine c) (256 * ctxSize s.vat.wide)
    | b => b
  let held := (SMap.get [] s.vat.cache e).flatMap fun p => p.1 :: bitN p.2 :: (bytes p.1).map (·.toNat)
  (List.range (2 ^ 22)).map (Config.reamLayout 7 held)

/-- The program store of the dandy, 256 KiB (R631). -/
def State.programStore (s : State) : List Byte := (s.dnd.prog ++ List.replicate (2 ^ 18 - s.dnd.prog.length) 0).take (2 ^ 18)

/-- Sections of TYPE 1–3 (R616). -/
def State.reamCore (s : State) : List ReamSec :=
  [⟨1, 0, openSource 1 0, s.logBytes⟩, ⟨2, 0, openSource 2 0, s.tailBytes⟩, ⟨3, 0, 0, s.regBytes⟩]

/-- Sections of TYPE 4–8 (R616). The program store follows the SRAM of the dandy (log entry 23). -/
def State.reamBrief (s : State) : List ReamSec :=
  (List.range 3).map (fun k => ⟨4, k, openSource 4 k, openBytes 4 k 349184⟩) ++
    [⟨5, 0, openSource 5 0, openBytes 5 0 (2 ^ 24)⟩] ++
    (List.range 4).map (fun e => ⟨6, e, openSource 6 e, openBytes 6 e (2 ^ 23)⟩) ++
    (List.range 4).map (fun e => ⟨7, e, openSource 7 e, s.cacheBytes e⟩) ++
    [⟨8, 0, openSource 8 0, s.clusterSram 880 ++ s.programStore⟩]

/-- Sections of TYPE 9 and 10 (R616). -/
def State.reamFull (s : State) : List ReamSec :=
  (List.range 880).map (fun c => ⟨9, c, openSource 9 c, s.clusterSram c⟩) ++
    (List.range 880).map fun c => ⟨10, c, openSource 10 c, s.clusterState c⟩

/-- Rounds up to a multiple of 64. -/
def up64 (n : Nat) : Nat := ceilDiv n 64 * 64

/-- Places sections from `at_` up to `cap`: the directory entries, the bytes, whether one was left out (R613, R615). -/
def placeSecs (cap : Nat) : Nat → List ReamSec → List Byte × List Byte × Bool
  | _, [] => ([], [], false)
  | at_, g :: gs =>
    let n := g.data.length
    let fits := decide (at_ + up64 n ≤ cap)
    let rest := placeSecs cap (if fits then at_ + up64 n else at_) gs
    let entry := natLe 2 g.type ++ natLe 2 (bitN !fits) ++ natLe 4 g.inst ++ natLe 8 (if fits then at_ else 0) ++
      natLe 8 (if fits then n else 0) ++ natLe 8 g.source
    (entry ++ rest.1, (if fits then g.data ++ List.replicate (up64 n - n) 0 else []) ++ rest.2.1, !fits || rest.2.2)

/-- A ream of a form in at most `cap` bytes, and whether a section was left out (R613–R616). -/
def State.buildReam (s : State) (form cap seq : Nat) (time : TimeVal) (secs : List ReamSec) : List Byte × Bool :=
  let dirEnd := up64 (128 + 32 * secs.length)
  let p := placeSecs cap dirEnd secs
  let body := p.1 ++ List.replicate (dirEnd - 128 - 32 * secs.length) 0 ++ p.2.1
  let head := fun crc : Nat =>
    natLe 4 0x5752454D ++ natLe 1 1 ++ natLe 1 form ++ natLe 2 (bitN p.2.2 + 2 * bitN (decide (s.activeCores < 2))) ++ natLe 4 seq ++
      natLe 2 s.flt.cause.toNat ++ natLe 1 (if s.stepA1 then 0xA1 else 0xB0) ++ natLe 1 0 ++ natLe 12 (timeWord time) ++
      natLe 4 s.devId.toNat ++ natLe 8 (SMap.get 0 s.sec.meas 3).toNat ++ natLe 4 secs.length ++ natLe 4 0x80 ++
      natLe 8 (128 + body.length) ++ natLe 4 s.flt.log.length ++ natLe 4 crc ++ List.replicate 64 0
  (head (crc32 (head 0)).toNat ++ body, p.2.2)

/-- A ream ring entry (R619). -/
def reamEntry (type trunc phase form seq : Nat) (time : TimeVal) (cause bytes addr : Nat) : List Byte :=
  natLe 2 type ++ natLe 1 (trunc + 128 * phase) ++ natLe 1 form ++ natLe 4 seq ++ natLe 12 (timeWord time) ++ natLe 2 cause ++
    natLe 2 0 ++ natLe 8 bytes ++ natLe 8 addr ++ List.replicate 24 0

/-- Posts a ream ring entry, if the ring has room (R492, R613, R619). -/
def State.postReam (s : State) (type trunc form seq : Nat) (time : TimeVal) (bytes : Nat) : State :=
  let g := s.hif.rgc
  if g.ream.room && s.hostUp then
    let e := reamEntry type trunc (bitN g.ream.phase) form seq time s.flt.cause.toNat bytes g.bufLoc.toNat
    let s1 := s.hostWrite (g.ream.loc.toNat + 64 * g.ream.tail.toNat) e
    let s2 : State := { s1 with hif := { s1.hif with rgc := { g with ream := g.ream.advance } } }
    s2.signal g.ream.vector.toNat
  else s

/-- REAM_WRITE (R613, R616, R620): the retained ream, then the ream buffer where it is enabled. A full ream needs 783 MiB (DEDUCED,
log entry 35). -/
def State.writeReam (s : State) : State :=
  let seq := s.flt.reamSeq + 1
  let kept := s.buildReam 0 (2 ^ 21) seq.toNat s.now s.reamCore
  let s1 : State := { s with flt := { s.flt with reamSeq := seq, reamCnt := seq.setWidth 16, ream := kept.1, reamTrunc := kept.2 } }
  let g := s.hif.rgc
  if g.ream.enable && g.mib != 0 && s.hostUp then
    let full := decide (783 ≤ g.mib.toNat)
    let form := if full then 2 else 1
    let secs := s.reamCore ++ s.reamBrief ++ (if full then s.reamFull else [])
    let b := s1.buildReam form (2 ^ 20 * g.mib.toNat) seq.toNat s.now secs
    let s2 : State := { s1.hostWrite g.bufLoc.toNat b.1 with flt := { s1.flt with reamForm := BitVec.ofNat 8 form, reamTrunc := b.2 } }
    s2.postReam 1 (bitN b.2) form seq.toNat s.now b.1.length
  else s1

/-- Copies the retained ream into the ream buffer, if the ream ring is enabled and there is one not yet copied (R620). -/
def State.copyRetained (s : State) : State :=
  let g := s.hif.rgc
  let b := s.flt.ream
  if g.ream.enable && b != [] && !s.flt.retained && s.hostUp && decide (b.length ≤ 2 ^ 20 * g.mib.toNat) then
    let t := (timeOfWord (fieldAt b 0x10 12)).getD 0
    let cause := fieldAt b 0x0C 2
    let e := reamEntry 2 (fieldAt b 6 2 % 2) (bitN g.ream.phase) 0 (fieldAt b 8 4) t cause b.length g.bufLoc.toNat
    let s1 := (s.hostWrite g.bufLoc.toNat b).hostWrite (g.ream.loc.toNat + 64 * g.ream.tail.toNat) e
    let s2 : State := { s1 with
      flt := { s1.flt with retained := true, reamCnt := s1.flt.reamCnt + 1, reamForm := 0, reamTrunc := decide (fieldAt b 6 2 % 2 = 1) }
      hif := { s1.hif with rgc := { g with ream := g.ream.advance } } }
    s2.signal g.ream.vector.toNat
  else s

/-- A device-fatal error (R611–R613, R617): everything stops, Uncorrectable Internal Error (AER bit 22), the record, the event and
the ream. -/
def State.deviceFatal (s : State) (cause kind : Nat) (loc : BitVec 32) : State :=
  if s.flt.halted then s
  else
    let s1 := (s.haltDevice cause).aerError 22
    let s2 := s1.faultRecord { kind := BitVec.ofNat 8 kind, cls := 4, action := 9, loc, detail := BitVec.ofNat 32 cause }
    (s2.postEvent 0x0043 noRing 0 cause).writeReam

/-- The unit that a device-fatal cause concerns (R610, R618). -/
def fatalKind (cause : Nat) : Nat := [3, 9, 10, 13, 14].getD (cause - 1) 0

/-- A location of a unit of a kind, picked by a number (R618): a group, a core, a line of the 16 MiB SRAM, a fuse entry. -/
def fatalLoc (kind n : Nat) : BitVec 32 :=
  BitVec.ofNat 32 (match kind with
    | 3 => n % 40 * 2 ^ 26 + n / 40 % 96 * 2 ^ 19 + n / 3840 % 2 * 2 ^ 13
    | 9 => n % 3
    | 10 => n % 2 ^ 18
    | 14 => n % 512
    | _ => 0)

/-- DEVICE_FATAL (R610–R613). Which unit of its kind failed is a free value (log entry 2). -/
def execDeviceFatal (cause : Fin 6) (s : State) : Host.Outcome State Fault Refusal :=
  if cause.val = 0 then .next s
  else
    let r := s.takeFree
    .next (r.2.deviceFatal cause (fatalKind cause) (fatalLoc (fatalKind cause) r.1))

end Sys2Proof.Machine
end

