-- ==== Sys2Proof/Machine/Records.lean ====
section
/-!
DEFINITION. Records: the trigger sample and the window, completion, measurement, hand-off and loss
(spec 12).
-/
namespace Sys2Proof.Machine

/-! ## Opening (R406–R411) -/

/-- Resolves the open records of a stream. -/
def Stream.resolveAll (x : Stream) : Stream :=
  { x with recs := { x.recs with openRecs := x.recs.openRecs.map x.resolve } }

/-- Opens a record on a stream, or drops it where 8 are open (R410). -/
def State.openRecord (s : State) (i : Nat) (r : Rec) : State :=
  let x := s.stream i
  if x.recs.openRecs.length ≥ 8 then s.setStream i { x with recs := { x.recs with drop := satBump x.recs.drop 1 } }
  else s.setStream i { x with recs := { x.recs with
      openRecs := x.recs.openRecs ++ [x.resolve { r with opened := (x.buf.w, s.runNow), buf := x.buf.gen }] } }

/-- Whether a programme accepts a message (R405, R406, R424). -/
def Stream.accepts (x : Stream) (m : TrigMsg) : Bool :=
  x.st == .admitted && x.recs.pstate == 1 &&
    (if m.source.toNat < 2 then bitAt x.prog.pmask.toNat m.pipe.toNat
      else m.source == 2 && bitAt x.prog.gmask.toNat m.group.toNat)

/-- The record that a message opens (R415, R416). -/
def TrigMsg.record (m : TrigMsg) : Rec :=
  { kind := 1, pipe := m.pipe.toNat, source := m.source.toNat, tseq := m.tseq, rank := m.rank, tpoint := m.tpoint
    due := m.due, flags := if m.untimed then 8 else 0 }

/-- Whether a message names a record (R418). -/
def TrigMsg.names (m : TrigMsg) (r : Rec) : Bool :=
  r.kind == 1 && r.tseq == m.tseq && r.rank == m.rank && r.pipe == m.pipe.toNat

/-- A retraction at one stream (R418). -/
def Stream.retract (x : Stream) (m : TrigMsg) : Stream :=
  let mark := fun r : Rec => if m.names r then { r with flags := r.flags ||| 16 } else r
  let again := (x.recs.written.filter m.names).map fun _ => { m.record with kind := 4 }
  { x with recs := { x.recs with
      openRecs := x.recs.openRecs.map mark, waiting := x.recs.waiting.map mark ++ again } }

/-- HEADBOX_TRIGGER_MESSAGE (R406, R418): the oldest message at an edge die's headbox. -/
def execHeadboxTriggerMessage (e : Fin 4) (s : State) : Host.Outcome State Fault Refusal :=
  if s.headboxOff then .next s
  else match SMap.get [] s.trp.inbox e with
  | [] => .next s
  | m :: rest =>
    let s1 : State := { s with trp := { s.trp with inbox := SMap.set [] s.trp.inbox e rest } }
    let ids := (s.hbx.streams.map (·.1)).filter fun i => sidGroup i / 4 == e.val
    .next (ids.foldl (fun s i =>
      if m.bad then s.setStream i ((s.stream i).retract m)
      else if (s.stream i).accepts m then s.openRecord i m.record else s) s1)

/-- The window records that a firing of a timed-start unit with TARGET 1 opens (R407): in MASK_STOPPED none, and a programme
without PMASK is ARMED again. -/
def State.openWindows (s : State) (u tseq : Nat) (t : TimeVal) : State :=
  (s.hbx.streams.map (·.1)).foldl (fun s i =>
    let x := s.stream i
    if !bitAt x.prog.wmask.toNat u then s
    else if x.recs.pstate = 1 then if x.st ≠ .admitted then s else
      s.openRecord i { kind := 5, pipe := u, source := 3, tseq := BitVec.ofNat 16 tseq, rank := s.xms.regs.rank, tpoint := t
                       due := t, flags := if s.tb.st = .invalid then 8 else 0 }
    else if x.recs.pstate = 2 ∧ x.prog.pmask = 0 then s.setStream i { x with recs := { x.recs with pstate := 1 } }
    else s) s

/-! ## Completing (R411, R412) -/

/-- Whether a record is complete. -/
def Stream.complete (x : Stream) (r : Rec) : Bool := r.nt.isSome && decide ((x.windowEnd r).1 ≤ x.buf.w)

/-- RECORD_COMPLETE (R411, R412): every complete open record of a stream waits for its hand-off, in the order of completion. -/
def execRecordComplete (sid : Fin 1024) (s : State) : Host.Outcome State Fault Refusal :=
  let x := s.stream sid
  let full := (x.recs.openRecs.filter x.complete).map x.finished
  .next (if full = [] ∨ s.headboxOff then s
    else s.setStream sid { x with recs := { x.recs with
      openRecs := x.recs.openRecs.filter fun r => !x.complete r
      waiting := x.recs.waiting ++ sortBy full doneOrder } })

/-! ## Samples of a record (R401, R415) -/

/-- The physical byte address of a sample (R400, R401). -/
def Stream.sampleAddr (x : Stream) (n : Nat) : Nat :=
  64 * (x.buf.base + 1024) + n % max x.buf.depth 1 * fmtStored x.fmt.toNat

/-- The sample numbers of a record. -/
def Rec.samples (r : Rec) : List Nat := (List.range (r.hi - r.lo)).map (r.lo + ·)

/-- A stored sample as F32 (R365, R420). -/
def sampleVal (fmt raw : Nat) : FVal :=
  match fmt with
  | 0 | 1 => .ofInt (signedOf 16 raw)
  | 2 => .ofInt (signedOf 32 raw)
  | 3 => .ofBits f32 ((FVal.ofInt (signedOf 32 raw)).toBits f32)
  | 4 => .ofBits f32 raw
  | _ => .ofBits w16 raw

/-- The anchors of a record after its first sample. -/
def Stream.innerAnchors (x : Stream) (r : Rec) : List Anchor :=
  x.buf.heldAnchors.filter fun a => decide (r.lo < a.w) && decide (a.w < r.hi)

/-! ## Measurements (R420–R422) -/

/-- A value rounded to binary64. -/
def to64 (v : FVal) : FVal := .ofBits f64 (v.toBits f64)

/-- The quotient rounded to binary64. -/
def div64 (a b : FVal) : FVal :=
  match a, b with
  | .fin _ _ _, .fin _ 0 _ => .nan
  | .fin _ _ _, .fin _ _ _ => .ofBits f64 ((a.ratio.div b.ratio).round f64).1
  | .inf n, .fin m _ _ => .inf (n != m)
  | .fin n _ _, .inf m => .fin (n != m) 0 0
  | _, _ => .nan

/-- The square root rounded to binary64, NaN below zero. -/
def sqrt64 (a : FVal) : FVal :=
  match a with
  | .fin n 0 e => .fin n 0 e
  | .fin false m e =>
    let k : Nat := 120 + (e % 2).toNat
    let q := m * 2 ^ k
    let r := isqrt q
    to64 (.fin false (2 * r + if r * r = q then 0 else 1) ((e - k) / 2 - 1))
  | .inf false => .inf false
  | _ => .nan

/-- A natural number as a value. -/
def valNat (n : Nat) : FVal := .fin false n 0

/-- The crossing fraction q of R381 for a level between two samples: a free value of 1 to 256 where one is infinite (log entry 2). -/
def crossFrac (prev cur lvl : FVal) : Nat :=
  match prev, cur, lvl with
  | .fin _ _ _, .fin _ _ _, .fin _ _ _ =>
    ((Ratio.mul ⟨256, 1⟩ ((lvl.ratio.sub prev.ratio).div (cur.ratio.sub prev.ratio))).roundInt).toNat
  | _, _, _ => Config.crossing (prev.toBits f64) (cur.toBits f64) (lvl.toBits f64) % 256 + 1

/-- The time in ns of a crossing at pair (i − 1, i), from the record's first sample (R421). -/
def pairTime (i q rate : Nat) : FVal :=
  div64 (to64 ((FVal.fin false ((i - 1) * 256 + q) (-8)).mul (valNat (10 ^ 9)))) (valNat rate)

/-- The running state of the crossing detector (R421): NONE 0, HIGH 1, LOW 2; the sample before; the time of the last pair; moves
counted; the first and last rising crossing and their number. -/
structure CrossSt where
  st : Nat := 0
  prev : FVal := .nan
  pair : Option FVal := none
  count : Nat := 0
  first : Option FVal := none
  last : FVal := .nan
  rises : Nat := 0
  deriving DecidableEq, Repr

/-- One sample at the crossing detector. A sample at both levels moves nothing (DESIGN CHOICE, log entry 41). -/
def CrossSt.sample (c : CrossSt) (up down lvl : FVal) (rate i : Nat) (reset : Bool) (x : FVal) : CrossSt :=
  let c0 := if reset then { c with st := 0, prev := .nan, pair := none } else c
  if x.isNan then { c0 with prev := .nan }
  else
    let c1 := { c0 with
      prev := x
      pair := if c0.prev.lt lvl && lvl.le x then some (pairTime i (crossFrac c0.prev x lvl) rate) else c0.pair }
    let hi := up.le x
    let lo := x.le down
    if hi && lo then c1
    else if hi && c1.st != 1 then
      let c2 := { c1 with st := 1, count := c1.count + if c1.st = 2 then 1 else 0 }
      match c1.pair with
      | some t => if c1.st = 2 then { c2 with first := if c1.first.isNone then some t else c1.first, last := t, rises := c1.rises + 1 }
          else c2
      | none => c2
    else if lo && c1.st != 2 then { c1 with st := 2, count := c1.count + if c1.st = 1 then 1 else 0 }
    else c1

/-- The first pair that rises through a level with its earlier sample at or after `start`, as index and time (R422). -/
def risingPair (xs : List FVal) (resets : List Nat) (start rate : Nat) (lvl : FVal) : Option (Nat × FVal) :=
  ((List.range xs.length).drop (start + 1)).findSome? fun i =>
    let a := xs.getD (i - 1) .nan
    let b := xs.getD i .nan
    if !resets.contains i && a.lt lvl && lvl.le b then some (i, pairTime i (crossFrac a b lvl) rate) else none

/-- The measurement fields 0x50–0x77 of a record's header, and its flags (R416, R420–R422). -/
def measure (xs : List FVal) (resets : List Nat) (rate tidx : Nat) : List Byte × Nat :=
  let ys := xs.filter (!·.isNan)
  if ys = [] then (List.replicate 40 0, 256 + 128 + 64)
  else
    let n := valNat ys.length
    let sum := ys.foldl (fun a x => to64 (a.add x)) (valNat 0)
    let sq := ys.foldl (fun a x => to64 (a.add (x.mul x))) (valNat 0)
    let m := div64 sum n
    let ms := div64 sq n
    let least := ys.foldl (fun a x => if a.isNan || x.below a then x else a) .nan
    let great := ys.foldl (fun a x => if a.isNan || a.below x then x else a) .nan
    let pp := to64 (great.sub least)
    let h := div64 pp (valNat 16)
    let var := to64 (ms.sub (to64 (m.mul m)))
    let ampl := to64 ((sqrt64 (valNat 2)).mul (sqrt64 (if var.lt (valNat 0) then valNat 0 else var)))
    let up := to64 (m.add h)
    let down := to64 (m.sub h)
    let c := (xs.mapIdx fun i x => (i, x)).foldl (fun c p => CrossSt.sample c up down m rate p.1 (resets.contains p.1) p.2) {}
    let timed := decide (2 ≤ c.rises)
    let period := if timed then div64 (to64 (c.last.sub (c.first.getD .nan))) (valNat (c.rises - 1)) else valNat 0
    let freq := if timed then div64 (valNat (10 ^ 9)) period else valNat 0
    let tenth := div64 (valNat 1) (valNat 10)
    let nine := div64 (valNat 9) (valNat 10)
    let l10 := to64 (least.add (to64 (tenth.mul pp)))
    let l90 := to64 (least.add (to64 (nine.mul pp)))
    let t10 := risingPair xs resets tidx rate l10
    let t90 := t10.bind fun p => risingPair xs resets p.1 rate l90
    let rise := match t10, t90 with
      | some a, some b => some (to64 (b.2.sub a.2))
      | _, _ => none
    let f := fun v : FVal => natLe 4 (v.toBits f32)
    (f m ++ f (sqrt64 ms) ++ f least ++ f great ++ f pp ++ f ampl ++ f period ++ f freq ++ f (rise.getD (valNat 0)) ++
      natLe 4 c.count, (if timed then 0 else 64) + if rise.isNone then 128 else 0)

/-! ## Mask tests (R423) -/

/-- A mask entry: its first sample from TIDX, count, limits. -/
structure MaskEntry where
  ofs : Int
  count : Nat
  upper : FVal
  lower : FVal
  deriving DecidableEq, Repr

/-- The entry of a mask table at an offset of its bytes. -/
def readMask (b : List Byte) (k : Nat) : MaskEntry :=
  { ofs := signedOf 32 (fieldAt b (16 * k + 12) 4), count := fieldAt b (16 * k + 8) 4
    upper := .ofBits f32 (fieldAt b (16 * k + 4) 4), lower := .ofBits f32 (fieldAt b (16 * k) 4) }

/-- Whether a sample violates an entry whose span holds it. -/
def MaskEntry.violates (e : MaskEntry) (tidx : Int) (i : Nat) (x : FVal) : Bool :=
  let d := (i : Int) - tidx - e.ofs
  decide (0 ≤ d) && decide (d < e.count) && (x.isNan || e.upper.lt x || x.lt e.lower)

/-- The claimed region that holds a stream's mask table. -/
def State.maskBase (s : State) (x : Stream) : Option Nat :=
  (s.gddr.rgt.find? fun p =>
    p.2.valid && p.2.host && p.2.ring == x.ring && x.prog.maskName != 0 && p.2.name == x.prog.maskName).map fun p =>
    64 * p.2.base.toNat

/-! ## Hand-off (R412–R417) -/

/-- The header of a record (R415). -/
def recHeader (x : Stream) (i : Nat) (r : Rec) (flags nanch nsamp tidx maskv rbytes : Nat) (t0 : TimeVal) (meas : List Byte) :
    List Byte :=
  natLe 4 0x57435244 ++ natLe 1 r.kind ++ natLe 1 1 ++ natLe 2 flags ++ natLe 2 i ++ natLe 1 r.pipe ++
    natLe 1 (16 * x.fmt.toNat + r.source) ++ natLe 2 r.tseq.toNat ++ natLe 2 r.rank.toNat ++ natLe 12 (timeWord r.tpoint) ++
    natLe 4 x.rate.toNat ++ natLe 12 (timeWord r.due) ++ natLe 2 nanch ++ natLe 2 0 ++ natLe 12 (timeWord t0) ++ natLe 4 nsamp ++
    natLe 4 x.prog.pre ++ natLe 4 x.prog.post ++ natLe 4 tidx ++ natLe 4 r.cause ++ meas ++ natLe 4 maskv ++ natLe 4 rbytes

/-- Asks for the slots of a stream's mask table, in class TRIG (R253, R424). -/
def State.askMasks (s : State) (x : Stream) : State :=
  match s.maskBase x with
  | some a => s.asks classTrig false a (16 * x.prog.nmask)
  | none => s

/-- A record's bytes, its FLAGS, and the state in which its samples are read in TRIG slots (R413–R417, R420–R424). A record without
samples has no first sample: its T0 is a free value, and so is the TIDX of one whose start was raised past n_t (log entry 2). -/
def State.buildRecord (s : State) (i : Nat) (r : Rec) : List Byte × Nat × State :=
  let x := s.stream i
  if r.kind ≠ 1 ∧ r.kind ≠ 5 then
    (recHeader x i r r.flags.toNat 0 0 0 0 128 r.t0 (List.replicate 40 0), r.flags.toNat, s)
  else
    let n := fmtStored x.fmt.toNat
    let ns := r.samples
    let raws := ns.map fun k => s.gddrRead (x.sampleAddr k) n
    let xs := raws.map fun b => sampleVal x.fmt.toNat (leNat b)
    let inner := if ns = [] then [] else x.innerAnchors r
    let force := x.buf.anchorAt r.lo
    let t0 := if ns = [] then Config.recordField 0 r.lo (r.nt.getD r.lo) r.tpoint else (x.timeAt r.lo).getD 0
    let anchs := if ns = [] then [] else (0, t0) :: inner.map fun a => (a.w - r.lo, a.t)
    let nt := r.nt.getD r.lo
    let place := (nt : Int) - r.lo
    let tidx := if nt < r.lo then Config.recordField 1 r.lo nt r.tpoint else nt - r.lo
    let meas := measure xs (inner.map fun a => a.w - r.lo) x.rate.toNat place.toNat
    let table := match s.maskBase x with
      | none => []
      | some a => s.gddrRead a (16 * x.prog.nmask)
    let masks := if x.prog.maskEn && table != [] then (List.range x.prog.nmask).map (readMask table) else []
    let maskv := (xs.mapIdx fun j v => (j, v)).countP fun p => masks.any fun e => e.violates place p.1 p.2
    let untimed := !ns.isEmpty && (force.any (·.untimed) || inner.any (·.untimed))
    let flags := (r.flags ||| (if untimed then 8 else 0) ||| (if inner.isEmpty then 0 else 4) |||
      (if maskv = 0 then 0 else 32)).toNat + meas.2
    let tail := anchs.flatMap (fun p => natLe 12 (timeWord p.2) ++ natLe 4 p.1) ++ raws.flatten
    let size := up64 (128 + tail.length)
    (recHeader x i r flags anchs.length ns.length tidx maskv size t0 meas.1 ++ tail ++ List.replicate (size - 128 - tail.length) 0,
      flags, ns.foldl (fun s k => s.asks classTrig false (x.sampleAddr k) n) (s.askMasks x))

/-- Whether a record with samples can no longer be read (R404, R414, R419). -/
def Stream.overrun (x : Stream) (r : Rec) : Bool :=
  (r.kind == 1 || r.kind == 5) && r.lo != r.hi &&
    (x.buf.lost || r.buf != x.buf.gen || decide (r.lo + x.buf.depth ≤ x.buf.w) || (x.buf.anchorAt r.lo).isNone)

/-- An uncorrectable line among a record's samples (R590). -/
def State.badLine (s : State) (x : Stream) (r : Rec) : Option Nat :=
  if r.kind ≠ 1 ∧ r.kind ≠ 5 then none
  else (r.samples.map fun k => x.sampleAddr k / 64).find? s.lineBad

/-- Whether a record area is in GDDR6 that the ring pair no longer holds (log entry 39). -/
def State.areaGone (s : State) (x : Stream) : Bool :=
  !x.prog.destHost && !s.holdsRange x.ring.toNat (x.prog.dest + x.recs.nextSlot * x.prog.slot) x.prog.slot

/-- Hands off the oldest waiting record of a stream to the next slot in ring order, once that is free (R412–R417, R424). A record in
GDDR6 is written in DMA slots. -/
def State.handOff (s : State) (i : Nat) : State :=
  let x := s.stream i
  match x.recs.waiting with
  | [] => s
  | r :: rest =>
    let slot := x.recs.nextSlot
    if x.recs.busy.contains slot || x.overrun r || (s.badLine x r).isSome || s.areaGone x ||
        (x.prog.destHost && (!s.hostUp || (s.ring x.ring.toNat).st != .active)) || s.flt.halted then s
    else
      let b := s.buildRecord i r
      let at_ := x.prog.dest + slot * x.prog.slot
      let body := fun s : State => if x.prog.destHost then (s.hostWrite (at_ + 128) (b.1.drop 128)).hostWrite at_ (b.1.take 128)
        else ((s.gddrWrite (at_ + 128) (b.1.drop 128)).gddrWrite at_ (b.1.take 128)).asks classDma true at_ b.1.length
      let s1 := body b.2.2
      let q := x.recs
      let failed := bitAt b.2.1 5
      let stops := failed && x.prog.maskStop
      let s2 := s1.setStream i { x with recs := { q with
        waiting := rest, nextSlot := (slot + 1) % max x.prog.nslot 1, busy := q.busy ++ [slot], done := q.done + 1
        written := if r.kind = 1 then q.written ++ [r] else q.written
        trunc := satBump q.trunc (if b.2.1 % 4 = 0 then 0 else 1), maskf := satBump q.maskf (if failed then 1 else 0)
        pstate := if stops then 2 else q.pstate } }
      s2.pushCompletion x.ring.toNat
        { opcode := 0x85, tag := x.tag, record := some (i, slot)
          info := BitVec.ofNat 64 (i + 2 ^ 16 * slot + 2 ^ 28 * r.kind + 2 ^ 32 * b.1.length) }

/-- RECORD_HANDOFF (R412–R417, R424). -/
def execRecordHandoff (sid : Fin 1024) (s : State) : Host.Outcome State Fault Refusal := .next (s.handOff sid)

/-- RECORD_LOST (R414, R419, R590): a waiting record that cannot be read any more, or whose record area is gone. -/
def execRecordLost (sid : Fin 1024) (s : State) : Host.Outcome State Fault Refusal :=
  let x := s.stream sid
  let gone := fun r : Rec => x.overrun r || (s.badLine x r).isSome || s.areaGone x
  match x.recs.waiting.find? gone with
  | none => .next s
  | some r =>
    let s1 := match (if x.overrun r then none else s.badLine x r) with
      | none => s
      | some l => s.faultRecord { kind := 6, cls := 3, action := 8, loc := BitVec.ofNat 32 l, ring := x.ring.setWidth 16 }
    let s2 := s1.setStream sid { x with recs := { x.recs with
      waiting := x.recs.waiting.eraseIdx (x.recs.waiting.findIdx gone), lost := satBump x.recs.lost 1 } }
    .next (s2.postEvent 0x0009 x.ring.toNat 0
      (sid.val + 2 ^ 16 * (r.pipe % 64) + 2 ^ 32 * r.tseq.toNat + 2 ^ 48 * r.rank.toNat))

/-- Lines of a buffer's region (R400). -/
def bufferLines (fmt depth : Nat) : Nat := 1024 + ceilDiv (depth * fmtStored fmt) 64

end Sys2Proof.Machine
end

