-- ==== Sys2Proof/Machine/LoadCheck.lean ====
section
/-!
DEFINITION. What the loader checks in an image (R9–R13, R42, R47, R50–R59, R67–R71, R102–R122, R140, R141, R148, R154, R173,
R179, R204–R213, R218, R232, R362, R363, R432, R550, R730).
-/
namespace Sys2Proof.Machine

/-- A refusal of a load: outcome, check and the place it concerns (R228, R229). -/
structure LoadErr where
  outcome : BitVec 8 := outFormat
  check : BitVec 8 := 0x40
  vx : Nat := 0
  vy : Nat := 0
  tile : Nat := 0xFF
  store : Nat := 0xFF
  deriving DecidableEq, Repr

/-- A REFUSED_FORMAT with a check code. -/
def fmtErr (check : BitVec 8) : LoadErr := { check }

/-- The image header (R204). -/
structure Header where
  level : Nat := 0
  kind : Nat := 0
  vw : Nat := 1
  vh : Nat := 1
  deckle : Nat := 0
  pipes : Nat := 0
  featReq : Nat := 0
  featOpt : Nat := 0
  bytes : Nat := 0
  farLines : Nat := 0
  nsect : Nat := 0
  nreg : Nat := 0
  sectOff : Nat := 0
  wdog : Nat := 0
  seed : Nat := 0
  deriving DecidableEq, Repr

/-- Reads the header fields. -/
def readHeader (b : List Byte) : Header :=
  { level := fieldAt b 8 1, kind := fieldAt b 9 1, vw := fieldAt b 0xA 1, vh := fieldAt b 0xB 1
    deckle := fieldAt b 0xC 2, pipes := fieldAt b 0xE 1, featReq := fieldAt b 0x10 8, featOpt := fieldAt b 0x18 8
    bytes := fieldAt b 0x20 8, farLines := fieldAt b 0x28 4, nsect := fieldAt b 0x2C 2, nreg := fieldAt b 0x2E 1
    sectOff := fieldAt b 0x30 4, wdog := fieldAt b 0x34 3, seed := fieldAt b 0x38 8 }

/-- Whether the header is well formed (R204, R205). -/
def headerOk (b : List Byte) (h : Header) : Bool :=
  fieldAt b 0 4 == 0x57494D47 && fieldAt b 4 2 == 1 && fieldAt b 6 2 == 0 && fieldAt b 0xF 1 == 0 &&
    fieldAt b 0x2F 1 == 0 && fieldAt b 0x37 1 == 0 && decide (h.kind ≤ 2) &&
    decide (1 ≤ h.vw) && decide (h.vw ≤ 40) && decide (1 ≤ h.vh) && decide (h.vh ≤ 20) &&
    (if h.kind = 1 then decide (288 ≤ h.deckle) && decide (h.deckle ≤ 4800) && decide (1 ≤ h.pipes) && decide (h.pipes ≤ 64)
     else h.deckle == 0 && h.pipes == 0) &&
    decide (128 ≤ h.bytes) && h.bytes % 64 == 0 && decide (1 ≤ h.nsect) && decide (h.nreg ≤ 16) && h.sectOff % 64 == 0 && decide (h.sectOff + 32 * h.nsect ≤ h.bytes) &&
    sha512 (b.take 0x40 ++ List.replicate 64 0 ++ b.drop 0x80) == (b.drop 0x40).take 64

/-- A section table entry (R209). -/
structure Sect where
  type : Nat := 0
  vx : Nat := 0
  vy : Nat := 0
  index : Nat := 0
  off : Nat := 0
  bytes : Nat := 0
  req : Nat := 0
  deriving DecidableEq, Repr

/-- Section `k` of the table, with whether its RSV bytes are 0. -/
def readSect (b : List Byte) (h : Header) (k : Nat) : Sect × Bool :=
  let e := (b.drop (h.sectOff + 32 * k)).take 32
  ({ type := fieldAt e 0 1, vx := fieldAt e 2 1, vy := fieldAt e 3 1, index := fieldAt e 4 2, off := fieldAt e 8 8
     bytes := fieldAt e 0x10 8, req := fieldAt e 0x18 4 },
   fieldAt e 1 1 == 0 && fieldAt e 6 2 == 0 && fieldAt e 0x1C 4 == 0)

/-- The sections of an image. -/
def readSects (b : List Byte) (h : Header) : List Sect := (List.range h.nsect).map fun k => (readSect b h k).1

/-- The contents of a section. -/
def Sect.data (g : Sect) (b : List Byte) : List Byte := (b.drop g.off).take g.bytes

/-- Whether one section breaks the table rules of R209 and R210. -/
def Sect.bad (g : Sect) (h : Header) : Bool :=
  let cluster := g.type == 1 || g.type == 2
  g.type == 0 || decide (8 < g.type) || g.off % 64 != 0 ||
    (if cluster then decide (h.vw ≤ g.vx) || decide (h.vh ≤ g.vy) else g.vx != 0 || g.vy != 0) ||
    (if g.type = 1 then g.index == 0xFFFF else g.type != 3 && g.index != 0) ||
    (g.type != 1 && g.req != 0) ||
    ((g.type == 6 || g.type == 7) && h.kind != 1) || (g.type == 2 && decide (786432 < g.bytes)) ||
    (g.type == 4 && (h.nreg == 0 || g.bytes != 32 * h.nreg))

/-- Whether the section table breaks R209 or R210. -/
def sectsBad (h : Header) (gs : List Sect) : Bool :=
  gs.any (fun g => g.bad h) ||
    [4, 5, 6, 7].any (fun t => decide (1 < gs.countP fun g => g.type == t)) ||
    (gs.filter fun g => g.type == 2).any (fun g =>
      decide (1 < gs.countP fun k => k.type == 2 && k.vx == g.vx && k.vy == g.vy)) ||
    (h.nreg != 0 && !gs.any fun g => g.type == 4)

/-! ## Regions and relocations (R212, R213, R216–R218, R432, R550) -/

/-- A region record (R212). -/
structure RegRec where
  ibase : Nat := 0
  lines : Nat := 0
  attr : Nat := 0
  name : Nat := 0
  deriving DecidableEq, Repr

/-- Whether a region is SHARED. -/
def RegRec.shared (r : RegRec) : Bool := bitAt r.attr 2

/-- The contents of the only section of a type. -/
def sectionOf (b : List Byte) (gs : List Sect) (t : Nat) : List Byte :=
  match gs.find? (fun g => g.type == t) with
  | none => []
  | some g => g.data b

/-- Region record `n`. -/
def readRegion (d : List Byte) (n : Nat) : RegRec :=
  let e := (d.drop (32 * n)).take 32
  { ibase := fieldAt e 0 4, lines := fieldAt e 4 4, attr := fieldAt e 8 1, name := fieldAt e 0x10 8 }

/-- The initial contents of a region's lines as the image gives them (R210). -/
def regionData (b : List Byte) (gs : List Sect) (n : Nat) : List Byte :=
  match gs.find? (fun g => g.type == 3 && g.index == n) with
  | none => []
  | some g => g.data b

/-- The `n`-byte number at a byte of a region, 0 beyond the contents given. -/
def regionField (b : List Byte) (gs : List Sect) (r o n : Nat) : Nat := fieldAt (regionData b gs r) o n

/-- Whether the region records or the FAR_DATA sections break R212, R213 or R550. -/
def regionsBad (b : List Byte) (h : Header) (gs : List Sect) (rs : List RegRec) : Bool :=
  let d := sectionOf b gs 4
  (List.range h.nreg).any (fun n =>
    let e := (d.drop (32 * n)).take 32
    !zeroAt e 9 16 || !zeroAt e 0x18 32) ||
  rs.any (fun r => r.lines == 0 || decide (15 < r.attr) || (!r.shared && r.name != 0) || decide (h.farLines < r.ibase + r.lines)) ||
  (rs.mapIdx fun i r => (i, r)).any (fun p => (rs.mapIdx fun i r => (i, r)).any fun q =>
    decide (p.1 < q.1) && decide (p.2.ibase < q.2.ibase + q.2.lines) && decide (q.2.ibase < p.2.ibase + p.2.lines)) ||
  (gs.filter fun g => g.type == 3).any (fun g =>
    match rs[g.index]? with
    | none => true
    | some r => r.shared || decide (64 * r.lines < g.bytes) ||
        decide (1 < gs.countP fun k => k.type == 3 && k.index == g.index)) ||
  (bitAt h.featReq 6 && match rs[15]? with
    | none => true
    | some r => decide (r.lines < 18) || !bitAt r.attr 0 || !bitAt r.attr 1)

/-- A relocation record (R216). -/
structure Reloc where
  kind : Nat := 0
  tgt : Nat := 0
  ref : Nat := 0
  rsv : Nat := 0
  pos : Nat := 0
  deriving DecidableEq, Repr

/-- The relocation records, in order. -/
def readRelocs (d : List Byte) : List Reloc :=
  (List.range (d.length / 16)).map fun k =>
    let w := fieldAt d (16 * k) 16
    { kind := bitsOf w 120 8, tgt := bitsOf w 116 4, ref := bitsOf w 112 4, rsv := bitsOf w 64 48, pos := bitsOf w 0 64 }

/-- The bytes a relocation patches (R217). -/
def Reloc.size (r : Reloc) : Nat := if r.kind = 1 then 4 else if r.kind = 4 then 2 else 8

/-- Whether a relocation breaks R218. -/
def relocBad (b : List Byte) (h : Header) (gs : List Sect) (rs : List RegRec) (r : Reloc) : Bool :=
  r.rsv != 0 ||
  match rs[r.tgt]? with
  | none => true
  | some t =>
    let v := regionField b gs r.tgt r.pos r.size
    t.shared || decide (64 * t.lines < r.pos + r.size) ||
    match r.kind with
    | 1 => match rs[r.ref]? with
      | none => true
      | some q => decide (v < q.ibase) || decide (q.ibase + q.lines ≤ v)
    | 2 => match rs[r.ref]? with
      | none => true
      | some q => decide (v < 64 * q.ibase) || decide (64 * (q.ibase + q.lines) ≤ v)
    | 3 => match rs[r.ref]? with
      | none => true
      | some q => !bitAt q.attr 3 || decide (v < 64 * q.ibase) || decide (64 * (q.ibase + q.lines) ≤ v)
    | 4 => r.ref != 0 || decide (h.vw ≤ bitsOf v 10 6) || decide (h.vh ≤ bitsOf v 5 5)
    | _ => true

/-- Model `m` of a model table (R431). -/
def readModel (d : List Byte) (m : Nat) : VatModel :=
  let e := (d.drop (64 * (1 + 3 * m))).take 192
  { inB := fieldAt e 1 1, outB := fieldAt e 2 1, batch := fieldAt e 3 1
    ports := (List.range (fieldAt e 0 1)).map fun k =>
      let w := fieldAt e (0x10 + 8 * k) 8
      { inXy := BitVec.ofNat 16 (bitsOf w 48 16), inTile := BitVec.ofNat 8 (bitsOf w 40 8)
        outXy := BitVec.ofNat 16 (bitsOf w 24 16), outTile := BitVec.ofNat 8 (bitsOf w 16 8) } }

/-- The models of a model table. -/
def readModels (d : List Byte) : List VatModel := (List.range (fieldAt d 4 1)).map (readModel d)

/-- Whether a model table breaks R431 or R432. -/
def modelsBad (b : List Byte) (h : Header) (gs : List Sect) (rs : List RegRec) (relocs : List Reloc) : Bool :=
  let d := regionData b gs 0
  let patched := fun pos => relocs.any fun r => r.kind == 4 && r.tgt == 0 && r.pos == pos
  match rs[0]? with
  | none => true
  | some r =>
    d == [] || decide (r.lines < 49) || fieldAt d 0 4 != 0x5741544D || decide (fieldAt d 4 1 < 1) || decide (16 < fieldAt d 4 1) ||
    decide (1 < fieldAt d 5 1) || !zeroAt d 6 64 || !zeroAt d (64 * (1 + 3 * fieldAt d 4 1)) (64 * 49) ||
    (List.range (fieldAt d 4 1)).any fun m =>
      let o := 64 * (1 + 3 * m)
      let e := (d.drop o).take 192
      let np := fieldAt e 0 1
      decide (np < 1) || decide (16 < np) || decide (16 < fieldAt e 1 1) || decide (16 < fieldAt e 2 1) || fieldAt e 3 1 == 0 ||
      !zeroAt e 4 16 || !zeroAt e (0x10 + 8 * np) 192 ||
      (List.range np).any fun k =>
        let w := fieldAt e (0x10 + 8 * k) 8
        let xyBad := fun v => bitsOf v 0 5 != 0 || decide (h.vw ≤ bitsOf v 10 6) || decide (h.vh ≤ bitsOf v 5 5)
        bitsOf w 0 16 != 0 || xyBad (bitsOf w 48 16) || xyBad (bitsOf w 24 16) ||
        decide (63 < bitsOf w 40 8) || decide (63 < bitsOf w 16 8) ||
        !patched (o + 0x10 + 8 * k + 6) || !patched (o + 0x10 + 8 * k + 3)

/-! ## Configuration streams (R121, R122) -/

/-- A checked configuration: the tiles it names in order. -/
structure Config where
  vidx : Nat := 0
  index : Nat := 0
  sect : Nat := 0
  tiles : List (Nat × TileCfg) := []
  deriving DecidableEq, Repr

/-- Whether a TILE_HEAD and its payload break R121. -/
def groupBad (e : Entry) (l : List Entry) : Bool :=
  let b := e.toNat
  let n := headPayload e
  let ops := ceilDiv (headOps e) 2
  let rgs := ceilDiv (headPop e) 4
  let tail := fun (from_ count per w : Nat) =>
    (List.range per).any fun k => decide (count ≤ k + (ceilDiv count per - 1) * per) && count % per != 0 &&
      payloadField (l.drop from_) w (k + (ceilDiv count per - 1) * per) != 0
  let mode := bitsOf b 114 4
  mode == 0 || decide (5 < mode) || decide (64 < headOps e) || decide (256 < bitsOf b 98 9) || decide (8 < headTokens e) ||
    (List.range 4).any (fun d => decide (5 < bitsOf b (86 + 3 * d) 3)) || bitsOf b 64 14 != 0 || bitAt b 0 ||
    decide (l.length < n) || tail 0 (headOps e) 2 64 || tail ops (headPop e) 4 32 || tail (ops + rgs) (headTokens e) 4 32

/-- Walks the tile groups and CLUSTER_END of a stream; `last` is the last tile index seen, plus 1. -/
def walkGroups : Nat → Nat → List Entry → Option (List (Nat × TileCfg))
  | 0, _, _ => none
  | _, _, [] => none
  | fuel + 1, last, e :: rest =>
    if entryKind e = 5 then (if e.toNat % 2 ^ 124 = 0 ∧ rest = [] then some [] else none)
    else if entryKind e ≠ 4 then none
    else
      let t := bitsOf e.toNat 118 6
      let l := rest.take (headPayload e)
      if t < last ∨ groupBad e l then none
      else (walkGroups fuel (t + 1) (rest.drop (headPayload e))).map fun r => (t, groupCfg e l) :: r

/-- Walks the FLAG_INIT and COUNTER_INIT entries, then the groups; `seen` holds the keys met. -/
def walkInits : Nat → List Nat → List Entry → Option (List (Nat × TileCfg))
  | 0, _, _ => none
  | _, _, [] => none
  | fuel + 1, seen, e :: rest =>
    let b := e.toNat
    match entryKind e with
    | 2 => if bitsOf b 16 102 ≠ 0 ∨ seen.contains (bitsOf b 118 6) then none
           else walkInits fuel ((bitsOf b 118 6) :: seen) rest
    | 3 => if bitsOf b 48 72 ≠ 0 ∨ seen.contains (64 + bitsOf b 120 4) then none
           else walkInits fuel ((64 + bitsOf b 120 4) :: seen) rest
    | _ => walkGroups (fuel + 1) 0 (e :: rest)

/-- The tiles of a CONFIG section, none where its stream breaks R121 or R122. -/
def readStream (d : List Byte) : Option (List (Nat × TileCfg)) :=
  let es := (List.range (d.length / 16)).map fun k => BitVec.ofNat 128 (fieldAt d (16 * k) 16)
  if d.length % 16 ≠ 0 then none
  else match es with
    | [] => none
    | e :: rest => if entryKind e = 1 ∧ e.toNat % 2 ^ 123 = 0 then walkInits rest.length [] rest else none

/-! ## Operation words -/

/-- Whether an opcode belongs to a level's set (R13, R73). -/
def inLevel (level opc : Nat) : Bool :=
  decide (opc < 0x30) && (level == 2 || !([0x03, 0x06, 0x0D, 0x11, 0x13, 0x1B, 0x1E, 0x2F].contains opc))

/-- The bits of SEL that an operation uses (R70, R141, R148, R178). In C8 the codebook bits of MUL, MAC and MACR count as read, whatever
their products use (DESIGN CHOICE, log entry 109). -/
def selMask (o : BitVec 64) : Nat :=
  let k := opOpc o
  if 1 ≤ k ∧ k ≤ 3 then (if opFmt o = 0 then 7 else if opFmt o = 1 then 3 else 0)
  else if k = 0x12 then 7
  else if k = 0x14 then 3
  else if k = 0x1B ∨ k = 0x23 ∨ k = 0x28 ∨ k = 0x29 then 15
  else if 0x1C ≤ k ∧ k ≤ 0x1E then 255
  else if k = 0x24 ∨ k = 0x25 ∨ k = 0x2F then 0xFF
  else if k = 0x26 ∨ k = 0x27 then 0x3F
  else if k = 0x2E then (if opSelA o ≠ 0 ∧ opSelB o = 0 then 0 else 0xF8)
  else 0

/-- The steering opcodes that take their head token (R112). -/
def isSteer (k : Nat) : Bool := [0x2A, 0x2B, 0x2C, 0x2D].contains k

/-- Whether a selector code breaks R67: a reserved code, or the token queue outside the STEER operations (check 0x15). -/
def selCodeBad (o : BitVec 64) : Bool :=
  let steer := isSteer (opOpc o) || opOpc o == 0x2E
  decide (0xB < opSelA o) || decide (0xB < opSelB o) || ((opSelA o == 7 || opSelB o == 7) && !steer)

/-- Whether selectors, SEL or RSV fields break R67, R70, R74, R141, R148, R154 or R730 (check 0x15). R228 does not list R74 beside this
check: that a FAR word with a line count of 0 or above 192, flag mode 0b11 or IMM[15:10] not 0 is refused with it is a DESIGN CHOICE
(log entry 86). SEL of the sizing operations is left to R179. -/
def selectorBad (o : BitVec 64) : Bool :=
  let k := opOpc o
  let imm := opImm o
  selCodeBad o || (opSel o % 256) &&& (255 - selMask o) != 0 ||
    (k == 0x12 && decide (5 < opSel o % 8)) ||
    (k == 0x23 && (decide (5 < opSel o % 16) || opSelA o != 0xA || imm != 0)) ||
    ((k == 0x24 || k == 0x25) &&
      (bitsOf imm 10 6 != 0 || bitsOf (opSel o) 6 2 == 3 || bitsOf imm 16 8 == 0 || decide (192 < bitsOf imm 16 8))) ||
    (k == 0x04 && (bitsOf imm 6 18 != 0 || decide (39 < imm) || (decide (2 ≤ opFmt o) && imm != 0))) ||
    (k == 0x03 && imm == 0) || (k == 0x27 && (bitsOf imm 0 16 == 0 || bitsOf imm 16 8 != 0)) ||
    (k == 0x26 && bitsOf imm 16 8 != 0)

/-- Whether DST or OUT breaks R69, R102 or R115 (check 0x16). R69 says nothing of OUT on ST and LDI: it is accepted and not used (DESIGN
CHOICE, log entry 79). -/
def dstBad (o : BitVec 64) : Bool :=
  let k := opOpc o
  if [0, 1, 2, 5, 0x23, 0x24, 0x25, 0x26, 0x28].contains k then opDst o != 0 || opOut o != 0
  else if k = 0x29 ∨ k = 0x2E then opDst o != 0 && opDst o != 7
  else if k = 0x2A then opDst o == 0 || decide (2 < opDst o)
  else if [0x0C, 0x0D, 0x27, 0x20, 0x22].contains k then false
  else if k = 0x1E ∧ (statsMode o = 0 ∨ statsMode o = 3) then false
  else decide (2 < opDst o)

/-- Whether FMT breaks R71 or R73 (check 0x17). -/
def fmtBad (o : BitVec 64) : Bool :=
  let k := opOpc o
  if (0x15 ≤ k ∧ k ≤ 0x1B) ∨ k = 0x06 ∨ k = 0x0B then decide (opFmt o < 2)
  else k == 0x11 && decide (2 ≤ opFmt o)

/-- Whether a selector names a data queue. -/
def isQueueSel (x : Nat) : Bool := decide (1 ≤ x) && decide (x ≤ 6)

/-- Whether a STEER operation breaks R103, R112 or R117 (check 0x18). -/
def steerBad (o : BitVec 64) : Bool :=
  let k := opOpc o
  if isSteer k then
    opSelA o != 7 || !isQueueSel (opSelB o) ||
      (k == 0x2B && (!isQueueSel (bitsOf (opImm o) 0 4) || bitsOf (opImm o) 0 4 == opSelB o || bitsOf (opImm o) 4 20 != 0))
  else if k = 0x2E then
    !(opSelA o == 0 && opSelB o == 0) && !(isQueueSel (opSelA o) && opSelB o == 0) &&
      !(isQueueSel (opSelA o) && opSelB o == 9 && bitsOf (opImm o) 16 3 == 0)
  else false

/-- Whether a sizing operation breaks R179 (check 0x1C), in a tile with a chest quota. -/
def sizingBad (o : BitVec 64) (quota : Nat) : Bool :=
  let k := opOpc o
  let imm := opImm o
  let log := bitsOf imm 10 3
  let stats := k == 0x1E
  if k < 0x1C ∨ 0x1E < k then false
  else
    decide (opFmt o < 2) || decide (1 < opSel o % 4) || decide (32 / 2 ^ (opSel o % 4) < 2 ^ log) || decide (5 < log) ||
      (opSrc o != 0 && opSelA o != 0xA) || bitsOf (opSel o) 3 5 != 0 || bitsOf imm 13 9 != 0 ||
      (if stats then opSelB o != 0 || bitsOf imm 0 10 != 0 ||
          ((statsMode o == 0 || statsMode o == 3) && (opOut o != 0 || opDst o != 0))
       else bitsOf imm 22 2 != 0 || !(opSelB o == 0 || isQueueSel (opSelB o)) ||
          decide (12288 - 16 * quota < 16 * bitsOf imm 0 10 + 16 * (1 + 2 ^ log))) ||
      !(isQueueSel (opSelA o) || opSelA o == 0xA)

/-- The check that a word fails, if any, in a tile of a mode and quota at a level. -/
def wordCheck (level : Nat) (mode : TileMode) (quota : Nat) (o : BitVec 64) : Option (BitVec 8) :=
  let k := opOpc o
  if k = 0 then (if selectorBad o then some 0x15 else if dstBad o then some 0x16 else none)
  else if !inLevel level k then some 0x10
  else if !unitIn mode (unitOf k) then some 0x12
  else if selectorBad o then some 0x15
  else if dstBad o then some 0x16
  else if fmtBad o then some 0x17
  else if steerBad o then some 0x18
  else if k = 0x1B ∧ decide (3 < opSel o % 16) then some 0x1B
  else if sizingBad o quota then some 0x1C
  else none

/-- The registers that an operation writes, each once, G0 apart (R42). -/
def writes (o : BitVec 64) : List Nat :=
  let k := opOpc o
  ((if [0x0C, 0x0D, 0x27, 0x20, 0x22].contains k then [opDst o] else []) ++
    (if opStreams o then [opSrc o] else [])).eraseDups.filter (· != 0)

/-- The queues that an operation consumes (R59, R112). -/
def consumes (o : BitVec 64) : List Nat :=
  let k := opOpc o
  if k = 0 then []
  else if isSteer k then
    (6 :: (opSelB o - 1) :: (if k = 0x2B then [bitsOf (opImm o) 0 4 - 1] else [])).eraseDups
  else opQueues o

/-- The local or token queue that an operation produces into (R59, R104). -/
def produces (o : BitVec 64) : Option Nat :=
  if isSteer (opOpc o) then dstQueue o else if opOpc o = 0 then none else localDest o

/-- The operations of a tile with their store indices. -/
def TileCfg.words (y : TileCfg) : List (Nat × BitVec 64) := y.ops

/-- Whether queue `q` of a tile breaks the rule of producers and consumers (R59, R104, R363, check 0x14). -/
def queueBad (y : TileCfg) (inHook outHook : Bool) (q : Nat) : Bool :=
  let cons := (y.words.countP fun p => (consumes p.2).contains q) + (if q = 5 ∧ outHook then 1 else 0)
  let prod := (y.words.countP fun p => produces p.2 == some q) +
    (if q < 4 then (if SMap.get 0 y.inSink q = 1 then 1 else 0) else 0) + (if q = 5 ∧ inHook then 1 else 0)
  if q = 6 then
    decide (1 < prod) || decide (1 < cons) || (cons == 0 && (prod != 0 || y.tokens != []))
  else (prod != 0 || cons != 0) && (prod != 1 || cons != 1)

/-- The store index named for the first queue that breaks it: its last consumer, else its last producer, else 0xFF (log
entry 32). -/
def queueFault (y : TileCfg) (inHook outHook : Bool) : Option Nat :=
  ((List.range 7).find? (queueBad y inHook outHook)).map fun q =>
    let cons := (y.words.filter fun p => (consumes p.2).contains q).map (·.1)
    let prod := (y.words.filter fun p => produces p.2 == some q).map (·.1)
    (prod ++ cons).getLastD 0xFF

/-- Whether an operation of a tile sends to a direction. -/
def TileCfg.sends (y : TileCfg) (d : Nat) : Bool :=
  y.words.any fun p =>
    (if isSteer (opOpc p.2) then maskHas (opOut p.2) d else opOpc p.2 != 0 && maskHas (outMask p.2) d)

/-- Whether a tile has a source for an outgoing direction (R51). -/
def TileCfg.leaves (y : TileCfg) (d : Nat) : Bool :=
  if SMap.get false y.outReg d then y.sends d else (List.range 4).any fun e => (SMap.get 0 y.inSink e).toNat == 2 + d

/-- Whether the router of a tile breaks R50 or R51 (check 0x13). -/
def routerBad (y : TileCfg) : Bool :=
  (List.range 4).any fun d =>
    (SMap.get 0 y.inSink d).toNat == 2 + d ||
      decide (1 < ((List.range 4).countP fun e => (SMap.get 0 y.inSink e).toNat == 2 + d) +
        (if SMap.get false y.outReg d then 1 else 0))

/-- The tiles of a configuration. -/
def Config.tile (k : Config) (t : Nat) : TileCfg := ((k.tiles.find? fun p => p.1 == t).map (·.2)).getD {}

/-- The streams of a side that a tile's outgoing direction feeds: none inside the cluster or at an unconnected port (R54–R56). -/
def Config.outStreams (k : Config) (t d : Nat) : List Nat :=
  let a0 := attachTile d 0
  let a1 := attachTile d 1
  let io := fun u => (k.tile u).mode == .io
  if t = a0 then (if io a1 then [] else if io a0 then [0, 1] else [0])
  else if t = a1 then (if io a0 then [] else if io a1 then [0, 1] else [1])
  else []

/-- The tile that takes a stream arriving on a side (R54, R56). -/
def Config.inTile (k : Config) (d stream : Nat) : Nat :=
  let io := fun u => (k.tile u).mode == .io
  if io (attachTile d 0) then attachTile d 0 else if io (attachTile d 1) then attachTile d 1 else attachTile d stream

/-- The virtual streams that a configuration sends on, by side and stream. -/
def Config.uses (k : Config) : List (Nat × Nat) :=
  k.tiles.flatMap fun p => (List.range 4).flatMap fun d =>
    if (tileNeighbour p.1 d).isNone && p.2.leaves d then (k.outStreams p.1 d).map fun j => (d, j) else []

/-- Whether a configuration has a route into an unconnected port, beyond the virtual grid, or into a virtual cluster without a
configuration of the same index (R53, R55, R56, R237; check 0x13). -/
def linksBad (h : Header) (ks : List Config) (k : Config) (t : Nat) (y : TileCfg) : Bool :=
  (List.range 4).any fun d =>
    y.leaves d && (tileNeighbour t d).isNone &&
      (k.outStreams t d == [] || match vNeighbour h.vw h.vh k.vidx d with
        | none => true
        | some w => !ks.any fun j => j.vidx == w && j.index == k.index)

/-- The first failing word of a tile, with its store index. -/
def tileWords (level : Nat) (y : TileCfg) : Option (BitVec 8 × Nat) :=
  y.words.findSome? fun p => (wordCheck level y.mode y.quota p.2).map fun c => (c, p.1)

/-- The store index of an operation that writes a register which one before it writes (R42, check 0x11). -/
def secondWriter (y : TileCfg) : Option Nat :=
  (y.words.find? fun p => y.words.any fun q =>
    decide (q.1 < p.1) && (writes p.2).any fun n => (writes q.2).contains n).map (·.1)

/-- The store index of an RNG operation with the SEL of one before it (R173, check 0x1A). -/
def secondRng (y : TileCfg) : Option Nat :=
  (y.words.find? fun p => opOpc p.2 == 0x2F && y.words.any fun q =>
    decide (q.1 < p.1) && opOpc q.2 == 0x2F && opSel p.2 == opSel q.2).map (·.1)

/-- Whether a tile holds too many sizing operations (R179, check 0x1C). -/
def sizingCountBad (y : TileCfg) : Bool :=
  decide (2 < y.words.countP fun p => opOpc p.2 == 0x1C || opOpc p.2 == 0x1D) ||
    decide (1 < y.words.countP fun p => opOpc p.2 == 0x1E && statsMode p.2 == 0)

/-- The tile and store index of a counter operation whose counter an earlier one of its kind uses (R107, check 0x19). -/
def secondCounter (k : Config) : Option (Nat × Nat) :=
  let uses := k.tiles.flatMap fun p => (p.2.words.filter fun w => opOpc w.2 == 0x28 || opOpc w.2 == 0x29).map fun w => (p.1, w)
  let key := fun w : BitVec 64 => (opOpc w, opSel w % 16)
  ((uses.mapIdx fun n u => (n, u)).find? fun x => (uses.take x.1).any fun u => key u.2.2 == key x.2.2.2).map fun x =>
    (x.2.1, x.2.2.1)

/-- The first check that a configuration fails, with tile and store index. `inHook` and `outHook` name the tiles whose L1 is
produced or consumed from outside (R363, R432). -/
def configCheck (h : Header) (ks : List Config) (inHook outHook : Nat → Nat → Bool) (k : Config) :
    Option (BitVec 8 × Nat × Nat) :=
  let tile := fun (p : Nat × TileCfg) =>
    let t := p.1
    let y := p.2
    match tileWords h.level y with
    | some (c, i) => some (c, t, i)
    | none =>
      match secondWriter y, queueFault y (inHook k.vidx t) (outHook k.vidx t), secondRng y with
      | some i, _, _ => some (0x11, t, i)
      | none, q, r =>
        if routerBad y || linksBad h ks k t y then some (0x13, t, 0xFF)
        else match q, r with
          | some i, _ => some (0x14, t, i)
          | none, some i => some (0x1A, t, i)
          | none, none => if sizingCountBad y then some (0x1C, t, 0xFF) else none
  match k.tiles.findSome? tile with
  | some e => some e
  | none => (secondCounter k).map fun p => (0x19, p.1, p.2)

/-! ## Trigger images (R118, R232, R362) -/

/-- A STREAMS record, PORT 0xFFFF for the decision tile (R232, R362). -/
def readStreamRec (d : List Byte) (k : Nat) : StreamRec × Bool :=
  let w := fieldAt d (8 * k) 8
  ({ port := bitsOf w 48 16, pipe := bitsOf w 40 8, vx := bitsOf w 32 8, vy := bitsOf w 24 8, tile := bitsOf w 16 8 },
   bitsOf w 0 16 == 0)

/-- A DECKLE segment record with whether its reserved fields are 0 (R232). -/
def readSegment (d : List Byte) (vw k : Nat) : Segment × Bool :=
  let e := (d.drop (32 * k)).take 32
  let n := fieldAt e 5 1
  let link := fun j => fieldAt e (0x10 + 2 * j) 2
  ({ src := fieldAt e 0 2, dst := fieldAt e 2 2, pipe := fieldAt e 4 1, latB0 := fieldAt e 8 2, latA1 := fieldAt e 0xA 2
     slack := fieldAt e 0xC 2
     links := (List.range n).map fun j => (bitsOf (link j) 5 5 * vw + bitsOf (link j) 10 6, bitsOf (link j) 3 2, bitsOf (link j) 2 1) },
   zeroAt e 6 8 && zeroAt e 0xE 16 && zeroAt e (0x10 + 2 * n) 32 && decide (n ≤ 8) &&
     (List.range (min n 8)).all fun j => link j % 4 == 0 && decide (bitsOf (link j) 10 6 < vw))

/-- Whether the segments of a pipeline have a cycle: some walk of joins is longer than their number. -/
def segCycle (segs : List Segment) : Nat → Nat → Bool
  | 0, _ => true
  | fuel + 1, j => j != 0xFFFF && (segs.filter fun g => g.dst == j).any fun g => segCycle segs fuel g.src

/-- Whether the STREAMS and DECKLE records of a trigger image break R232, R234 or R362 (check 0x44). -/
def triggerBad (b : List Byte) (h : Header) (gs : List Sect) : Bool :=
  let ds := sectionOf b gs 7
  let dd := sectionOf b gs 6
  let rs := (List.range (ds.length / 8)).map (readStreamRec ds)
  let segs := (List.range (dd.length / 32)).map (readSegment dd h.vw)
  ds.length % 8 != 0 || dd.length % 32 != 0 ||
    rs.any (fun r => !r.2 || decide (h.pipes ≤ r.1.pipe) || decide (h.vw ≤ r.1.vx) || decide (h.vh ≤ r.1.vy) || decide (63 < r.1.tile)) ||
    rs.any (fun r => r.1.port != 0xFFFF && decide (1 < rs.countP fun q => q.1.port == r.1.port)) ||
    segs.any (fun g => !g.2 || decide (h.pipes ≤ g.1.pipe) || (decide (4095 < g.1.src) && g.1.src != 0xFFFF) ||
      (decide (4095 < g.1.dst) && g.1.dst != 0xFFFF) ||
      g.1.links.any fun l => decide (h.vw * h.vh ≤ l.1) || (vNeighbour h.vw h.vh l.1 l.2.1).isNone) ||
    (List.range h.pipes).any fun p =>
      let mine := (segs.filter fun g => g.1.pipe == p).map (·.1)
      (rs.countP fun r => r.1.pipe == p && r.1.port == 0xFFFF) != 1 || !(rs.any fun r => r.1.pipe == p && r.1.port != 0xFFFF) ||
        (mine.countP fun g => g.dst == 0xFFFF) != 1 ||
        mine.any (fun g => segCycle mine (mine.length + 1) g.src) ||
        mine.any fun g => g.src != 0xFFFF && !mine.any fun k => k.dst == g.src

/-- The operations whose output register starts the path into tile `t` from direction `d`, by configuration: followed back
through pass-through registers and virtual links (R118). -/
def feeders (h : Header) (ks : List Config) (index : Nat) : Nat → Nat → Nat → Nat → List (Nat × Nat × Nat)
  | 0, _, _, _ => []
  | fuel + 1, v, t, d =>
    let cfgOf := fun w => (ks.find? fun k => k.vidx == w && k.index == index).getD {}
    let from_ := fun (w u : Nat) =>
      let y := (cfgOf w).tile u
      let o := opposite d
      if SMap.get false y.outReg o then
        (y.words.filter fun p => if isSteer (opOpc p.2) then maskHas (opOut p.2) o else opOpc p.2 != 0 && maskHas (outMask p.2) o).map
          fun p => (w, u, p.1)
      else (List.range 4).flatMap fun e =>
        if (SMap.get 0 y.inSink e).toNat = 2 + o then feeders h ks index fuel w u e else []
    match tileNeighbour t d with
    | some u => from_ v u
    | none => match vNeighbour h.vw h.vh v d with
      | none => []
      | some w =>
        let mine := (List.range 2).filter fun j => (cfgOf v).inTile d j == t
        ([attachTile (opposite d) 0, attachTile (opposite d) 1].filter fun u =>
          mine.any fun j => ((cfgOf w).outStreams u (opposite d)).contains j).flatMap fun u => from_ w u

/-- Whether a TOKEN operation is accepted in a trigger image (R118). Where several operations write the output register that starts the
path, each of them must be accepted (DESIGN CHOICE, log entry 87); of several streams into an attachment, only those that lead to an
operation are asked (DESIGN CHOICE, log entry 111). -/
def tokenAccepted (h : Header) (ks : List Config) (index : Nat) : Nat → Nat → Nat → Nat → Bool
  | 0, _, _, _ => false
  | fuel + 1, v, t, i =>
    let y := ((ks.find? fun k => k.vidx == v && k.index == index).getD {}).tile t
    let o := SMap.get 0 y.ops i
    if opOpc o = 0x29 then true
    else if opOpc o ≠ 0x2E then false
    else if opSelA o = 0 then true
    else if opSelB o = 9 then false
    else if 5 ≤ opSelA o then false
    else
      let fs := feeders h ks index (256 * h.vw * h.vh + 1) v t (opSelA o - 1)
      fs != [] && fs.all fun f => tokenAccepted h ks index fuel f.1 f.2.1 f.2.2

/-- The first TOKEN that R118 refuses, with its place. A chain of relays is at most as long as there are TOKEN words. -/
def tokenRefused (h : Header) (ks : List Config) : Option (Nat × Nat × Nat) :=
  let n := (ks.map fun k => (k.tiles.map fun p => p.2.words.countP fun w => opOpc w.2 == 0x2E).sum).sum
  ks.findSome? fun k => k.tiles.findSome? fun p => p.2.words.findSome? fun w =>
    if opOpc w.2 = 0x2E ∧ !tokenAccepted h ks k.index (n + 1) k.vidx p.1 w.1 then some (k.vidx, p.1, w.1) else none

end Sys2Proof.Machine
end

