-- ==== Sys2Proof/Machine/Load.lean ====
section
/-!
DEFINITION. LOAD_IMAGE: the loading sequence, its claims and its report (R206–R211, R214, R217, R224–R229, R432, R497, R597).
-/
namespace Sys2Proof.Machine

/-- The image read and checked, before anything is claimed. -/
structure Loaded where
  h : Header := {}
  bytes : List Byte := []
  sects : List Sect := []
  regs : List RegRec := []
  relocs : List Reloc := []
  granted : Nat := 0
  cfgs : List Config := []
  segs : List Segment := []
  streams : List StreamRec := []
  deriving DecidableEq, Repr

/-- The features that the device implements and allows at present (R206, R207, R550). -/
def State.allowedFeatures (s : State) : Nat :=
  0x13F + (if s.xms.st = .ready then 0x40 else 0) + (if s.xms.st = .ready ∧ s.xms.sysSkip then 0x80 else 0)

/-- The tiles whose L1 an ingress stage or the vat produces (R363, R432), and those whose L1 is consumed from outside. -/
def Loaded.hooks (l : Loaded) (inward : Bool) (v t : Nat) : Bool :=
  (l.h.kind == 1 && l.streams.any fun r =>
    (r.port != 0xFFFF) == inward && r.vy * l.h.vw + r.vx == v && r.tile == t) ||
  (l.h.kind == 2 && (readModels (regionData l.bytes l.sects 0)).any fun m => m.ports.any fun p =>
    let xy := (if inward then p.inXy else p.outXy).toNat
    bitsOf xy 5 5 * l.h.vw + bitsOf xy 10 6 == v && (if inward then p.inTile else p.outTile).toNat == t)

/-- A refusal that names a place in a virtual cluster. -/
def placeErr (l : Loaded) (outcome check : BitVec 8) (v t i : Nat) : LoadErr :=
  { outcome, check, vx := v % l.h.vw, vy := v / l.h.vw, tile := t, store := i }

/-- Steps 1 and 2 of R225 on the bytes of an image. -/
def State.loadHeader (s : State) (b : List Byte) : Except LoadErr Loaded :=
  let h := readHeader b
  let recs := (List.range h.nsect).map (readSect b h)
  let granted := (h.featReq ||| h.featOpt) &&& s.allowedFeatures
  if !headerOk b h || recs.any (fun g => !g.2 || decide (h.bytes < g.1.off + g.1.bytes)) then .error (fmtErr 0x40)
  else if h.level ≠ 1 ∧ h.level ≠ 2 then .error { outcome := 0x02, check := 0x01 }
  else if h.featReq &&& granted ≠ h.featReq then .error { outcome := 0x03, check := 0x02 }
  else .ok { h, bytes := b, sects := recs.map (·.1), granted }

/-- The configuration of a CONFIG section, none where its stream breaks R121 or R122. -/
def Loaded.config (l : Loaded) (p : Nat × Sect) : Option Config :=
  (readStream (p.2.data l.bytes)).map fun ts =>
    { vidx := p.2.vy * l.h.vw + p.2.vx, index := p.2.index, sect := p.1, tiles := ts }

/-- Step 3 of R225, with the tiles whose L1 is produced or consumed from outside. The checks are made in the order of the table of R228;
within a configuration, by tile and store index (log entry 32). -/
def Loaded.checkWith (l : Loaded) (hooks : Loaded → Bool → Nat → Nat → Bool) : Except LoadErr Loaded :=
  let h := l.h
  let b := l.bytes
  let rd := sectionOf b l.sects 4
  let regs := (List.range h.nreg).map (readRegion rd)
  let rl := sectionOf b l.sects 5
  let relocs := readRelocs rl
  let secs := (l.sects.mapIdx fun i g => (i, g)).filter fun p => p.2.type == 1
  if sectsBad h l.sects then .error (fmtErr 0x41)
  else if regionsBad b h l.sects regs || (h.kind == 2 && modelsBad b h l.sects regs relocs) then .error (fmtErr 0x42)
  else if rl.length % 16 ≠ 0 ∨ relocs.any (relocBad b h l.sects regs) then .error (fmtErr 0x43)
  else if h.kind = 1 ∧ triggerBad b h l.sects then .error (fmtErr 0x44)
  else
    match secs.find? fun p => (l.config p).isNone with
    | some p => .error { outcome := 0x04, check := 0x1D, vx := p.2.vx, vy := p.2.vy }
    | none =>
      let all := secs.filterMap l.config
      let ds := sectionOf b l.sects 7
      let dd := sectionOf b l.sects 6
      let l1 : Loaded := { l with
        regs, relocs
        segs := (List.range (dd.length / 32)).map fun k => (readSegment dd h.vw k).1
        streams := (List.range (ds.length / 8)).map fun k => (readStreamRec ds k).1 }
      match all.findSome? fun k => (configCheck h all (hooks l1 true) (hooks l1 false) k).map fun e => (k.vidx, e) with
      | some (v, c, t, i) => .error (placeErr l1 0x04 c v t i)
      | none =>
        let fits := all.filter fun k => ((l.sects.getD k.sect {}).req &&& l.granted) == (l.sects.getD k.sect {}).req
        let first := fits.filter fun k => !fits.any fun j => j.vidx == k.vidx && j.index == k.index && decide (j.sect < k.sect)
        match all.find? fun k => !first.any fun j => j.vidx == k.vidx && j.index == k.index with
        | some k => .error (placeErr l1 0x04 0x1E k.vidx 0xFF 0xFF)
        | none => .ok { l1 with cfgs := first }

/-- Step 3 of R225. -/
def Loaded.check (l : Loaded) : Except LoadErr Loaded := l.checkWith Loaded.hooks

/-- The tiles of a dandy image whose L1 the dandy produces or consumes: those that DND.SRC names (R635); in a set under verification, which
no DND.SRC goes with, those that have a consumer alone or a producer alone (DEDUCED from R59, log entry 113). -/
def Loaded.dandyHooks (tiles : Option (Nat × Nat)) (l : Loaded) (inward : Bool) (v t : Nat) : Bool :=
  match tiles with
  | some (i, o) => t == (if inward then i else o)
  | none =>
    let ws := (l.sects.mapIdx fun n g => (n, g)).flatMap fun p =>
      if p.2.type ≠ 1 then [] else match l.config p with
        | some k => if k.vidx = v then (k.tile t).words else []
        | none => []
    let cons := ws.any fun w => (consumes w.2).contains 5
    let prod := ws.any fun w => produces w.2 == some 5
    if inward then cons && !prod else prod && !cons

/-- The virtual streams that an image uses: those its configurations send on and those its segments name. -/
def Loaded.vstreams (l : Loaded) : List VStream :=
  ((l.cfgs.flatMap fun k => k.uses.map fun p => (k.vidx, p.1, p.2)) ++ l.segs.flatMap (·.links)).eraseDups.map fun x =>
    { src := x.1, dst := (vNeighbour l.h.vw l.h.vh x.1 x.2.1).getD 0, dir := x.2.1, stream := x.2.2 }

/-- The tile whose SRAM_INIT reaches into the chest of its configuration 0 (R211), as virtual index and tile. -/
def Loaded.chestClash (l : Loaded) : Option (Nat × Nat) :=
  l.sects.findSome? fun g =>
    if g.type ≠ 2 then none
    else
      let v := g.vy * l.h.vw + g.vx
      ((l.cfgs.find? fun k => k.vidx == v && k.index == 0).map (·.tiles)).getD [] |>.findSome? fun p =>
        if min (g.bytes - 12288 * p.1) 12288 > 12288 - 16 * p.2.quota then some (v, p.1) else none

/-- The free trigger pipelines of the device. -/
def State.freePipes (s : State) : List Nat := (List.range 64).filter fun p => (s.pipe p).handle == 0

/-- Step 4 of R225: the mapping, the routes, and for a trigger image the latency of each pipeline. -/
def State.loadMap (s : State) (l : Loaded) : Except LoadErr (List Nat × List Route) :=
  let h := l.h
  let n := h.vw * h.vh
  match l.chestClash with
  | some (v, t) => .error (placeErr l outFit 0x24 v t 0xFF)
  | none =>
    if s.freeClusters.length < n then .error { outcome := outFit, check := 0x20 }
    else
      match s.solve (List.replicate n none) [] l.vstreams with
      | none => .error { outcome := outFit, check := 0x21 }
      | some (m, rs) =>
        let times := (List.range h.pipes).map (pipeTiming s.stepA1 rs l.segs)
        if h.kind = 1 ∧ s.freePipes.length < h.pipes then .error { outcome := outFit, check := 0x23 }
        else match tokenRefused h (if h.kind = 1 then l.cfgs else []) with
          | some (v, t, i) => .error (placeErr l 0x06 0x32 v t i)
          | none =>
            if times.any (·.2.1) then .error { outcome := 0x06, check := 0x31 }
            else if h.kind = 1 ∧ times.any (fun t => decide (h.deckle < t.1)) then .error { outcome := 0x06, check := 0x30 }
            else .ok (m, rs)

/-- The lowest handle that no loaded image holds: the spec does not say which handle a load gets (R230; DESIGN CHOICE, log entry 100). -/
def State.freeHandle (s : State) : Option Nat := ((List.range 65536).drop 1).find? fun h => !s.loaded h

/-- Step 5 of R225 for one region: attached, or allocated and zeroed (R214, R249, R250). -/
def State.claimRegionFor (s : State) (hd : Nat) (qs : List Nat) (r : RegRec) : Except LoadErr (IRegion × State) :=
  let made := fun n : Nat => ({ ibase := r.ibase, lines := r.lines, attr := BitVec.ofNat 8 r.attr
                                name := BitVec.ofNat 64 r.name, rgt := n } : IRegion)
  if r.shared then
    match s.gddr.rgt.find? fun p => p.2.valid && p.2.host && p.2.name.toNat == r.name with
    | none => .error { outcome := 0x07, check := 0x50 }
    | some (n, g) =>
      if g.lines.toNat < r.lines then .error { outcome := 0x07, check := 0x50 }
      else if g.handle ≠ 0 ∧ g.handle.toNat ≠ hd then .error { outcome := outConflict, check := 0x51 }
      else .ok (made n, s.setRegion n { g with handle := BitVec.ofNat 16 hd })
  else
    match s.freeEntry, s.fit qs r.lines with
    | some n, some b =>
      let m := ceilDiv r.lines 15 * 15
      .ok (made n, (s.gddrZero b m).setRegion n
        { base := BitVec.ofNat 32 b, lines := BitVec.ofNat 32 m, valid := true, bar4 := bitAt r.attr 3
          handle := BitVec.ofNat 16 hd })
    | _, _ => .error { outcome := outFit, check := 0x22 }

/-- Step 5 of R225 for all regions. -/
def State.claimRegions (s : State) (hd : Nat) (qs : List Nat) : List RegRec → Except LoadErr (List IRegion × State)
  | [] => .ok ([], s)
  | r :: rs => match s.claimRegionFor hd qs r with
    | .error e => .error e
    | .ok (x, s1) => match s1.claimRegions hd qs rs with
      | .error e => .error e
      | .ok (xs, s2) => .ok (x :: xs, s2)

/-- The value that a relocation writes (R217). -/
def State.relocValue (s : State) (im : Image) (r : Reloc) (v : Nat) : Nat :=
  let ref := im.regions.getD r.ref {}
  let base := (s.region ref.rgt).base.toNat
  match r.kind with
  | 1 => base + v - ref.ibase
  | 4 => match im.map.getD (bitsOf v 5 5 * im.vw + bitsOf v 10 6) none with
    | none => v
    | some c => physX c * 2 ^ 10 + physY c * 2 ^ 5 + v % 32
  | _ => 64 * base + v - 64 * ref.ibase

/-- Step 6 of R225: FAR_DATA, then the relocations in order (R217, R218), in DMA slots (R253). -/
def State.placeData (s : State) (hd : Nat) (l : Loaded) : State :=
  let im := s.image hd
  let at_ := fun (s : State) (n : Nat) => 64 * (s.region (im.regions.getD n {}).rgt).base.toNat
  let s1 := (l.sects.filter fun g => g.type == 3).foldl (fun s g =>
    (s.gddrWrite (at_ s g.index) (g.data l.bytes)).asks classDma true (at_ s g.index) (g.data l.bytes).length) s
  l.relocs.foldl (fun s r =>
    let a := at_ s r.tgt + r.pos
    (s.gddrWrite a (natLe r.size (s.relocValue im r (leNat (s.gddrRead a r.size))))).asks classDma true a r.size) s1

/-- Writes the initial SRAM of a cluster: every byte, all lines marked (R210, R211, R598). -/
def Cluster.initSram (x : Cluster) (d : List Byte) : Cluster :=
  { x with tiles := (List.range 64).foldl (fun m t =>
      let y := SMap.get {} m t
      SMap.set {} m t { y with sram := Mem.writeBytes [] 0 ((d.drop (12288 * t)).take 12288), dirty := List.range 192 }) x.tiles }

/-- The pipelines of a trigger image (R234, R362). -/
def State.makePipes (s : State) (hd : Nat) (l : Loaded) (rs : List Route) (ps : List Nat) : State :=
  (ps.mapIdx fun k p => (k, p)).foldl (fun s x =>
    let mine := l.streams.filter fun r => r.pipe == x.1
    let dec := (mine.find? fun r => r.port == 0xFFFF).getD {}
    let ports := (sortBy (mine.filter fun r => r.port != 0xFFFF) fun a b => decide (a.port ≤ b.port)).map fun r =>
      ({ num := BitVec.ofNat 16 r.port, vx := r.vx, vy := r.vy, tile := r.tile } : Port)
    let lat := (pipeTiming s.stepA1 rs l.segs x.1).1
    let q := s.pipe x.2
    s.setPipe x.2 { ctl := q.ctl, wrIgn := q.wrIgn, handle := BitVec.ofNat 16 hd, index := BitVec.ofNat 8 x.1
                    deckle := BitVec.ofNat 13 l.h.deckle, pad := BitVec.ofNat 13 (l.h.deckle - lat), ports
                    decVx := dec.vx, decVy := dec.vy, decTile := dec.tile }) s

/-- Step 5 of R225: the claims, and the clusters' windows, positions and settings of step 7. The image's copy in far memory holds its
configuration sections. A trigger image gets the lowest free pipelines in order: the spec does not say which (R234; DESIGN CHOICE, log
entry 101). -/
def State.loadClaim (s : State) (r : Nat) (l : Loaded) (m : List Nat) (rs : List Route) : Except LoadErr (LoadJob × State) :=
  match s.freeHandle with
  | none => .error { outcome := outFit, check := 0x25 }
  | some hd =>
    let qs := quartersNear m
    match s.claimRegions hd qs l.regs with
    | .error e => .error e
    | .ok (regions, s1) =>
      match s1.placeHidden qs hd (l.h.bytes / 64) with
      | none => .error { outcome := outFit, check := 0x22 }
      | some (copy, s2) =>
        match (if l.h.kind = 1 then some (0, s2) else s2.placeHidden qs hd (14592 * m.length)) with
        | none => .error { outcome := outFit, check := 0x22 }
        | some (store, s3) =>
          let ps := s3.freePipes.take l.h.pipes
          let xys := (l.relocs.filter fun q => q.kind == 4).map fun q =>
            let v := regionField l.bytes l.sects q.tgt q.pos 2
            ({ addr := 64 * (s3.region (regions.getD q.tgt {}).rgt).base.toNat + q.pos
               vidx := bitsOf v 5 5 * l.h.vw + bitsOf v 10 6 } : XyReloc)
          let im : Image :=
            { ring := BitVec.ofNat 12 r, kind := l.h.kind, level := l.h.level, vw := l.h.vw, vh := l.h.vh
              deckle := l.h.deckle, wdog := BitVec.ofNat 24 l.h.wdog, seed := BitVec.ofNat 64 l.h.seed
              granted := BitVec.ofNat 64 l.granted, farLines := l.h.farLines, routes := rs, regions
              cfgs := l.cfgs.map fun k =>
                let g := l.sects.getD k.sect {}
                { vidx := k.vidx, index := k.index, line := copy + g.off / 64, bytes := g.bytes, tiles := k.tiles.length }
              segs := l.segs, streams := l.streams, pipes := ps, xys, replayBase := store }
          let s4 := ((s3.setImage hd im).gddrWrite (64 * copy) l.bytes).asks classDma true (64 * copy) l.bytes.length
          .ok ({ handle := hd, map := m, bytes := l.bytes }, (m.mapIdx fun v c => (v, c)).foldl (fun s p => s.giveCluster hd p.1 p.2) s4)

/-- The checked image of a load's bytes (R225): the checks have passed once. -/
def LoadJob.loaded (j : LoadJob) (granted : Nat) : Loaded :=
  let h := readHeader j.bytes
  match ({ h, bytes := j.bytes, sects := (List.range h.nsect).map fun k => (readSect j.bytes h k).1, granted } : Loaded).check with
  | .ok l => l
  | .error _ => {}

/-- What a cluster that replaces another before the first copy, or in a trigger image, starts with: the SRAM of SRAM_INIT (DEDUCED, log
entry 71). -/
def State.seedReplay (s : State) (h : Nat) : State :=
  let im := s.image h
  let saved := (im.map.mapIdx fun v c => (v, c)).flatMap fun p => match p.2 with
    | none => []
    | some c => (s.cl c).tiles.map fun t => (64 * p.1 + t.1, ({ sram := t.2.sram } : SavedTile))
  s.setImage h { im with replay := saved.foldl (fun m p => SMap.set {} m p.1 p.2) im.replay }

/-- Steps 6 to 8 of R225: far data and relocations, initial SRAM, the pipelines; the image is loaded. -/
def State.loadPlace (s : State) (j : LoadJob) (l : Loaded) : State :=
  let im := s.image j.handle
  let s1 := (s.setImage j.handle { im with map := j.map.map some }).placeData j.handle l
  let s2 := (j.map.mapIdx fun v c => (v, c)).foldl (fun s p =>
    let d := match l.sects.find? fun g => g.type == 2 && g.vy * l.h.vw + g.vx == p.1 with
      | none => []
      | some g => g.data l.bytes
    s.setCl p.2 ((s.cl p.2).initSram d)) s1
  (s2.seedReplay j.handle).makePipes j.handle l im.routes im.pipes

/-- The class of a hardware fault that meets a load in its steps 6 to 9 (R226, R588, R590): CONTAINED where a cluster or a link that it
claimed has been fenced, FATAL where a region has been lost or it writes part of an uncorrectable line (R271, R733). -/
def State.loadFault (s : State) (j : LoadJob) (l : Loaded) (rep : Loc) (n : Nat) : Option (BitVec 8) :=
  let im := s.image j.handle
  let at_ := fun k : Nat => 64 * (s.region (im.regions.getD k {}).rgt).base.toNat
  if j.map.any (fun c => s.service c != .inService) || im.routes.any (fun r => r.path.any s.linkBroken) then some outContained
  else if im.regions.any (fun r => (s.region r.rgt).lost) || s.writeFails rep n ||
      l.sects.any (fun g => g.type == 3 && s.partBad (at_ g.index) (g.data l.bytes).length) ||
      l.relocs.any (fun q => s.partBad (at_ q.tgt + q.pos) q.size) then some outFatal
  else none

/-- Releases the claims of a load (R226). -/
def State.dropLoad (s : State) (j : LoadJob) : State :=
  (s.setImage j.handle { s.image j.handle with map := j.map.map some }).freeImage j.handle

/-- The header of a load report (R229). -/
def reportHead (e : LoadErr) (hd granted clusters maxd : Nat) : List Byte :=
  [e.outcome, e.check] ++ natLe 1 e.vx ++ natLe 1 e.vy ++ natLe 1 e.tile ++ natLe 1 e.store ++ natLe 2 hd ++ natLe 8 granted ++
    natLe 2 clusters ++ natLe 1 maxd ++ List.replicate 13 0

/-- The load report of a loaded image (R229). PIPE of a pipeline entry is the device's number of the pipeline (DESIGN CHOICE, log entry
103). -/
def State.loadReport (s : State) (hd : Nat) : List Byte :=
  let im := s.image hd
  let longest := fun rs : List Route => (rs.map fun r => r.path.length).foldl max 0
  reportHead { outcome := outDone, check := 0 } hd im.granted.toNat im.map.length (longest im.routes) ++
    (im.map.mapIdx fun v c => (v, c.getD 0)).flatMap (fun p =>
      natLe 4 (physX p.2 * 2 ^ 26 + physY p.2 * 2 ^ 21 + longest (im.routes.filter fun r => r.src == p.1) * 2 ^ 16)) ++
    (im.pipes.mapIdx fun k p => (k, p)).flatMap fun x =>
      let t := pipeTiming s.stepA1 im.routes im.segs x.1
      natLe 8 (x.2 * 2 ^ 56 + t.1 * 2 ^ 32 + (im.deckle - t.1) * 2 ^ 16 + t.2.2)

/-- Steps 1 to 5 of R225 for the bytes of an image and a ring pair. -/
def State.load (s : State) (r : Nat) (b : List Byte) : Except LoadErr (LoadJob × State) :=
  match s.loadHeader b with
  | .error e => .error e
  | .ok l0 => match l0.check with
    | .error e => .error e
    | .ok l => match s.loadMap l with
      | .error e => .error e
      | .ok (m, rs) => s.loadClaim r l m rs

/-- Reads the image that a LOAD_IMAGE names: a refusal of the descriptor, a refusal of the load, or its bytes (R497). -/
def State.fetchImage (s : State) (r addr limit : Nat) : Except (Refuse × Bool) (List Byte) :=
  if bitsOf addr 60 4 = 9 then .error (badField, false)
  else match s.resolve r addr 128 with
    | .error e => .error (e, false)
    | .ok p => match s.devRead p 128 with
      | none => .error ((0x0F, 0xA1), false)
      | some hb =>
        let n := fieldAt hb 0x20 8
        if n < 128 ∨ n % 64 ≠ 0 ∨ limit < n then .error ((outFormat, 0x40), true)
        else match s.resolve r addr n with
          | .error e => .error (e, false)
          | .ok p => match s.devRead p n with
            | none => .error ((0x0F, 0xA1), false)
            | some b => .ok b

/-- Asks for the DMA slots of an image that a load has read (R253). -/
def State.askImage (s : State) (r addr n : Nat) : State :=
  match s.resolve r addr n with
  | .error _ => s
  | .ok p => s.asksAt classDma false p n

/-- A load whose first steps are done (R225; log entry 88). -/
def State.startLoad (s : State) (j : LoadJob) : State := { s with hif := { s.hif with load := some j } }

/-- The oldest descriptor of the root firmware, if it has an opcode (R485). -/
def State.fwHead (s : State) (opc : Nat) : Option (Work × State) :=
  match s.hif.fw with
  | [] => none
  | w :: rest =>
    if fieldAt w.bytes 0 1 = opc ∧ !s.flt.halted then some (w, { s with hif := { s.hif with fw := rest } }) else none

/-- Ends a LOAD_IMAGE: the report is written and the completion waits, FATAL where the report covers part of an uncorrectable line (R226,
R590, R733; log entry 88). -/
def State.endLoad (s : State) (w : Work) (rep : Loc) (bs : List Byte) (o c : BitVec 8) (info : Nat) : State :=
  let s1 := (s.devWrite rep bs).asksAt classDma true rep bs.length
  if s.writeFails rep bs.length then s1.finish w.ring.toNat w.seqNo outFatal (Config.loadCheck outFatal.toNat) 0
  else s1.finish w.ring.toNat w.seqNo o c info

/-- Steps 6 to 9 of R225 for a claimed load: it completes LOADED, or with the class of the fault that met it, its claims released
(R226). -/
def State.finishLoad (s : State) (w : Work) (j : LoadJob) : State :=
  let n := fieldAt w.bytes 0x20 4
  match s.resolve w.ring.toNat (fieldAt w.bytes 0x18 8) n with
  | .error e => (s.dropLoad j).finish w.ring.toNat w.seqNo e.1 e.2 0
  | .ok rep =>
    let l := j.loaded (s.image j.handle).granted.toNat
    let s1 := s.loadPlace j l
    let bs := (s1.loadReport j.handle).take n
    match s.loadFault j l rep bs.length with
    | none => s1.endLoad w rep bs outDone 0 j.handle
    | some f =>
      let c := Config.loadCheck f.toNat
      (s.dropLoad j).endLoad w rep ((reportHead { outcome := f, check := c } 0 0 0 0).take n) f c 0

/-- LOAD_IMAGE (R224–R229, R497): first the steps of a load that can refuse, then, as a step of its own in which a fault in between shows,
those that do not (DESIGN CHOICE, log entry 88). It waits while host memory that it names cannot be reached (R472, log entry 57). -/
def execLoadImage (s : State) : Host.Outcome State Fault Refusal :=
  match s.fwHead 1 with
  | none => .next s
  | some (w, s1) =>
    let r := w.ring.toNat
    let n := fieldAt w.bytes 0x20 4
    if (s.hif.load.isNone && !s1.fieldUp w.bytes 8) || !s1.fieldUp w.bytes 0x18 then .next s
    else match s.hif.load with
    | some j => .next (({ s1 with hif := { s1.hif with load := none } } : State).finishLoad w j)
    | none => match s1.resolve r (fieldAt w.bytes 0x18 8) n with
      | .error e => .next (s1.finish r w.seqNo e.1 e.2 0)
      | .ok rep =>
        match s1.fetchImage r (fieldAt w.bytes 8 8) (fieldAt w.bytes 0x10 8) with
        | .error (e, false) => .next (s1.finish r w.seqNo e.1 e.2 0)
        | .error (e, true) => .next (s1.endLoad w rep ((reportHead { outcome := e.1, check := e.2 } 0 0 0 0).take n) e.1 e.2 0)
        | .ok b => match s.load r b with
          | .error e => .next (s1.endLoad w rep ((reportHead e 0 0 0 0).take n) e.outcome e.check 0)
          | .ok (j, s2) => .next ((s2.askImage r (fieldAt w.bytes 8 8) b.length).startLoad j)

end Sys2Proof.Machine
end

