-- ==== Sys2Proof/Machine/Rings.lean ====
section
/-!
DEFINITION. Ring pairs: enabling and draining, doorbells, taking descriptors, FENCE and SEAL, completions, and the event and ream
rings (R459, R460, R477–R496, R502–R508, R516, R521, R612, R681, R693, R738).
-/
namespace Sys2Proof.Machine

/-- Whether a memory request of the host reaches the function (R458, R472, R676). -/
def State.barsUp (s : State) : Bool :=
  s.pcx.regs.width != 0 && !s.pcx.perstLow && s.pcx.cfg.memEn && !s.pcx.cfg.d3hot && s.bru.stage.reported

/-- Whether a BAR0 write of the host is performed (R459, R685). -/
def State.writable (s : State) : Bool := s.barsUp && !s.flt.halted

/-! ## Enabling and draining a ring pair (R478, R479, R693) -/

/-- Whether a completion belongs to no descriptor of the ring: a record or a sweep from a template (R488). -/
def Compl.unasked (c : Compl) : Bool := c.opcode == 0x84 || c.opcode == 0x85

/-- A host that sets up a ring has set Bus Master Enable (R683; log entry 8). -/
def State.masterOn (s : State) : State := { s with pcx := { s.pcx with cfg := { s.pcx.cfg with busMaster := true } } }

/-- The fields of RNG.CFG but ENABLE. -/
def Ring.fields (g : Ring) (v : Word) : Ring :=
  { g with sqLog := BitVec.ofNat 4 (bitsOf v.toNat 27 4), cqLog := BitVec.ofNat 4 (bitsOf v.toNat 23 4)
           vector := BitVec.ofNat 12 (bitsOf v.toNat 11 12), chan := BitVec.ofNat 5 (bitsOf v.toNat 6 5) }

/-- Setting ENABLE (R478, R693). -/
def Ring.start (g : Ring) : Ring :=
  { g with enable := true, st := .active, sqLoc := g.sqb, cqLoc := g.cqb, sqHead := 0, sqTail := 0, cqTail := 0, cqHead := 0
           phase := true, taken := [], written := [] }

/-- Clearing ENABLE (R479): completions of work already taken are not written; those of records that were not consumed wait for
the ring again (log entry 49). -/
def Ring.stop (g : Ring) : Ring :=
  { g with enable := false, st := .draining, written := []
           waiting := (g.written.filter fun c => c.opcode == 0x85) ++ g.waiting.filter Compl.unasked }

/-- A write of RNG.CFG (R478, R479). Clusters that a dropped completion would have cleared are cleared now (R499). -/
def State.writeRingCfg (s : State) (r : Nat) (v : Word) : State :=
  let g := s.ring r
  let x := g.fields v
  let on := bitAt v.toNat 31
  if g.enable then
    if x ≠ g ∨ on then s
    else ((g.waiting.filterMap (·.clear)).foldl (fun s h => s.clearAborted h.toNat) s).setRing r g.stop
  else if on then s.masterOn.setRing r x.start
  else s.setRing r x

/-- RING_ENABLE (R478, R681). -/
def execRingEnable (r : Fin 4096) (v : Word) (s : State) : Host.Outcome State Fault Refusal :=
  .next (if s.writable then s.writeRingCfg r v else s)

/-- RING_DISABLE (R479). -/
def execRingDisable (r : Fin 4096) (v : Word) (s : State) : Host.Outcome State Fault Refusal :=
  .next (if s.writable then s.writeRingCfg r v else s)

/-- RING_DRAINED (R479). -/
def execRingDrained (r : Fin 4096) (s : State) : Host.Outcome State Fault Refusal :=
  let g := s.ring r
  .next (if g.st = .draining ∧ g.taken = [] then s.setRing r { g with st := .off } else s)

/-! ## The event ring and the ream ring (R492, R693) -/

/-- A write of RGC.EVT_CFG or RGC.REAM_CFG: setting ENABLE sets the tail to 0 and the phase to 1. -/
def GlobalRing.writeCfg (g : GlobalRing) (v : Word) : GlobalRing :=
  let on := bitAt v.toNat 31
  let x := { g with enable := on, log := BitVec.ofNat 4 (bitsOf v.toNat 27 4), vector := BitVec.ofNat 12 (bitsOf v.toNat 15 12) }
  if on && !g.enable then { x with loc := g.base, tail := 0, head := 0, used := 0, phase := true } else x

/-- A write of RGC.EVT_CFG. -/
def State.writeEvtCfg (s : State) (v : Word) : State :=
  let s := if bitAt v.toNat 31 then s.masterOn else s
  { s with hif := { s.hif with rgc := { s.hif.rgc with evt := s.hif.rgc.evt.writeCfg v } } }

/-- A write of RGC.REAM_CFG. The base of the ream buffer is read with that of the ream ring. -/
def State.writeReamCfg (s : State) (v : Word) : State :=
  let s := if bitAt v.toNat 31 then s.masterOn else s
  let g := s.hif.rgc
  let x := { g with ream := g.ream.writeCfg v, bufLoc := if bitAt v.toNat 31 && !g.ream.enable then g.buf else g.bufLoc }
  { s with hif := { s.hif with rgc := x } }

/-- EVENT_RING_ENABLE. -/
def execEventRingEnable (v : Word) (s : State) : Host.Outcome State Fault Refusal :=
  .next (if s.writable then s.writeEvtCfg v else s)

/-- A write of RGC.REAM_CFG with what follows it: from READY on, the retained ream is copied once the ring is enabled (R620). -/
def State.setReamRing (s : State) (v : Word) : State :=
  let s1 := s.writeReamCfg v
  if s.bru.stage = .ready then s1.copyRetained else s1

/-- REAM_RING_ENABLE (R620, R693). -/
def execReamRingEnable (v : Word) (s : State) : Host.Outcome State Fault Refusal :=
  .next (if s.writable then s.setReamRing v else s)

/-! ## Doorbells (R480–R482, R491, R681) -/

/-- The index of a doorbell value. -/
def bellIndex (v : BitVec 64) : Nat := bitsOf v.toNat 0 15

/-- Puts a ring pair in ERROR (R482). -/
def State.ringError (s : State) (r cause : Nat) : State :=
  (s.setRing r { s.ring r with st := .error, cause := BitVec.ofNat 4 cause }).postEvent 0x000C r 0 (r + 2 ^ 12 * cause)

/-- A doorbell to a ring pair that is not ACTIVE (R481). -/
def State.bellIgnored (s : State) (r : Nat) : State :=
  s.setRing r { s.ring r with dbIgn := satBump (s.ring r).dbIgn 1 }

/-- SQ_TAIL (R481, R482). -/
def State.bellSq (s : State) (r : Nat) (v : BitVec 64) : State :=
  let g := s.ring r
  if g.st ≠ .active then s.bellIgnored r
  else if ringSize g.sqLog.toNat ≤ bellIndex v then s.ringError r 1
  else s.setRing r { g with sqTail := BitVec.ofNat 15 (bellIndex v) }

/-- Frees the slots of the record areas that consumed completions name (R491). -/
def State.freeSlots (s : State) (cs : List Compl) : State :=
  cs.foldl (fun s c => match c.record with
    | none => s
    | some (i, k) =>
      let x := s.stream i
      s.setStream i { x with recs := { x.recs with busy := x.recs.busy.erase k } }) s

/-- CQ_HEAD (R481, R482, R491). -/
def State.bellCq (s : State) (r : Nat) (v : BitVec 64) : State :=
  let g := s.ring r
  let n := ringSize g.cqLog.toNat
  let k := (bellIndex v + n - g.cqHead.toNat) % n
  if g.st ≠ .active then s.bellIgnored r
  else if n ≤ bellIndex v ∨ g.written.length < k then s.ringError r 2
  else (s.setRing r { g with cqHead := BitVec.ofNat 15 (bellIndex v), written := g.written.drop k }).freeSlots (g.written.take k)

/-- EVT_HEAD or REAM_HEAD: an index that is not between the consumed head and the tail is ignored (log entry 49). -/
def GlobalRing.consume (g : GlobalRing) (v : BitVec 64) : GlobalRing :=
  let n := ringSize g.log.toNat
  let k := (bellIndex v + n - g.head.toNat) % n
  if g.enable && decide (bellIndex v < n) && decide (k ≤ g.used) then
    { g with head := BitVec.ofNat 15 (bellIndex v), used := g.used - k } else g

/-- One doorbell by its page offset (R480). -/
def State.bell (s : State) (r off : Nat) (v : BitVec 64) : State :=
  let g := s.hif.rgc
  match off with
  | 0x000 => s.bellSq r v
  | 0x008 => s.bellCq r v
  | 0x010 => { s with hif := { s.hif with rgc := { g with evt := g.evt.consume v } } }
  | _ => { s with hif := { s.hif with rgc := { g with ream := g.ream.consume v } } }

/-- A doorbell of the host: held until READY (R681), not performed in FATAL_HALT (R612), discarded where the function is not
reached. -/
def State.doorbell (s : State) (r off : Nat) (v : BitVec 64) : State :=
  if !s.writable then s
  else if s.bru.stage = .ready then s.bell r off v
  else { s with hif := { s.hif with bells := s.hif.bells ++ [(r, off, v)] } }

/-- DOORBELL_SQ_TAIL (R480–R482). -/
def execDoorbellSqTail (r : Fin 4096) (v : BitVec 64) (s : State) : Host.Outcome State Fault Refusal := .next (s.doorbell r 0x000 v)

/-- DOORBELL_CQ_HEAD (R480–R482, R491). -/
def execDoorbellCqHead (r : Fin 4096) (v : BitVec 64) (s : State) : Host.Outcome State Fault Refusal := .next (s.doorbell r 0x008 v)

/-- DOORBELL_EVT_HEAD (R480). -/
def execDoorbellEvtHead (v : BitVec 64) (s : State) : Host.Outcome State Fault Refusal := .next (s.doorbell 0 0x010 v)

/-- DOORBELL_REAM_HEAD (R480). -/
def execDoorbellReamHead (v : BitVec 64) (s : State) : Host.Outcome State Fault Refusal := .next (s.doorbell 0 0x018 v)

/-! ## The form of descriptors (R493–R508, R738) -/

/-- DMA_COPY (R502). The fields that only a paced copy has are judged by its channel, and ignored in a plain copy (DEDUCED, log
entry 50). -/
def badCopy (b : List Byte) : Bool :=
  let w := fieldAt b 4 4
  let n := fieldAt b 0x18 8
  decide (8 ≤ w) || !zeroAt b 0x2E 0x30 || !zeroAt b 0x3C 0x40 ||
    (if bitAt w 0 then n != 0 else decide (n = 0) || decide (2 ^ 40 < n))

/-- ADMIT (R353, R400, R504). -/
def badAdmit (b : List Byte) : Bool :=
  let w := fieldAt b 4 4
  let depth := fieldAt b 8 4
  bitsOf w 10 6 != 0 || bitsOf w 29 3 != 0 || decide (bitsOf w 16 13 = 0) || decide (depth < 65536) || decide (2 ^ 30 < depth) ||
    !zeroAt b 0x18 0x40

/-- TPARAM of an arm (R505, R634): its range by TARGET. Targets 5 and 8–15 are not for a host (R322, R323). -/
def badTarget (target tparam : Nat) : Bool :=
  match target with
  | 2 => decide (64 ≤ tparam)
  | 4 => decide (16 ≤ tparam)
  | 6 => decide (16 ≤ tparam)
  | 7 => decide (4 ≤ tparam)
  | 0 => tparam != 0
  | 1 => tparam != 0
  | 3 => tparam != 0
  | _ => true

/-- TIME_ACTION (R329, R505). Fields of another KIND are ignored (log entry 50). -/
def badTime (b : List Byte) : Bool :=
  let kind := fieldAt b 4 1
  let idx := fieldAt b 5 1
  let p := fieldAt b 0x28 1
  let ofs := signedOf 32 (fieldAt b 0x2C 4)
  let width := fieldAt b 0x30 4
  decide (2 < kind) || decide (16 ≤ fieldAt b 6 2) || bitsOf (fieldAt b 8 12) 46 2 != 0 || !zeroAt b 0x14 0x18 ||
    !zeroAt b 0x29 0x2C || !zeroAt b 0x34 0x40 ||
    (if kind = 2 then
      decide (3 < idx) || decide (p % 4 = 3) || decide (width < 100) || decide (10 ^ 9 ≤ width) ||
        (p % 4 == 1 && (decide (ofs < -500000000) || decide (499999999 < ofs)))
    else decide (29 < idx) || (kind == 0 && badTarget (fieldAt b 6 2) (fieldAt b 0x20 8)))

/-- Resources of the kinds 1–4 of a CLAIM (R508). -/
def kindCount (kind : Nat) : Nat := [0, 32, 4, 8, 16].getD kind 0

/-- CLAIM (R508, R738). Fields of another KIND are ignored (log entry 50). -/
def badClaim (b : List Byte) : Bool :=
  let kind := fieldAt b 4 1
  let w := fieldAt b 6 2
  let q := w / 256
  let lines := fieldAt b 0x10 4
  let base := fieldAt b 0x14 4
  let n := ceilDiv lines 15 * 15
  decide (4 < kind) || bitsOf w 2 6 != 0 || !zeroAt b 0x18 0x40 ||
    (if kind = 0 then
      decide (fieldAt b 8 8 = 0) || decide (lines = 0) || (decide (3 < q) && q != 0xFF) ||
        (bitAt w 1 && (base % 15 != 0 || decide (4 * quarterLines < base + n) || lineQuarter base != lineQuarter (base + n - 1)))
    else decide (kindCount kind ≤ fieldAt b 5 1))

/-- RELEASE (R508). -/
def badRelease (b : List Byte) : Bool :=
  let kind := fieldAt b 4 1
  decide (6 < kind) || !zeroAt b 0x10 0x40 || (decide (1 ≤ kind) && decide (kind ≤ 4) && decide (kindCount kind ≤ fieldAt b 5 1)) ||
    (kind == 6 && decide (1024 ≤ fieldAt b 6 2))

/-- VAT_SWEEP (R503): RSV fields. The ranges are judged under R445. -/
def badSweep (b : List Byte) : Bool :=
  decide (32 ≤ fieldAt b 6 1) || decide (16 ≤ fieldAt b 7 1) || !zeroAt b 0x38 0x40 ||
    (!bitAt (fieldAt b 6 1) 2 && decide (2 ^ 20 ≤ fieldAt b 8 8))

/-- What a ring pair refuses at its own level (R494): an unknown opcode, a nonzero RSV field, a field out of range. -/
def descRefused (b : List Byte) : Option Refuse :=
  let opc := fieldAt b 0 1
  let bad : Bool := match opc with
    | 1 => !zeroAt b 4 8 || !zeroAt b 0x24 0x40 || decide (fieldAt b 0x20 4 < 32)
    | 2 => !zeroAt b 0x11 0x40 || decide (4 ≤ fieldAt b 0x10 1) || decide (fieldAt b 6 2 = 0xFFFF)
    | 3 => badCopy b
    | 4 => badSweep b
    | 5 => badAdmit b
    | 6 => badTime b
    | 7 => !zeroAt b 4 8 || !zeroAt b 0x18 0x40
    | 8 => !zeroAt b 4 0x40
    | 9 => badClaim b
    | _ => badRelease b
  if opc = 0 ∨ 10 < opc then some (outFormat, 0x80)
  else if fieldAt b 1 1 ≥ 2 ∨ bad then some badField
  else none

/-! ## Taking descriptors (R483–R487, R681) -/

/-- Whether a ring pair may take a descriptor (R484, R487, R490, R612, R681). -/
def State.mayTake (s : State) (r : Nat) : Bool :=
  let g := s.ring r
  g.st == .active && g.waiting == [] && g.sqHead != g.sqTail && !(g.taken.any fun t => t.opcode == 8) && s.hostUp && !s.flt.halted &&
    s.bru.stage == .ready

/-- The descriptor at the submission head (R477, R483). -/
def State.headDesc (s : State) (r : Nat) : List Byte :=
  s.host.readBytes ((s.ring r).sqLoc.toNat + 64 * (s.ring r).sqHead.toNat) 64

/-- Whether an opcode is the root firmware's (R484). -/
def fwOpcode (opc : Nat) : Bool := [1, 2, 5, 6, 9, 10].contains opc

/-- Whether the descriptor at a ring's head waits for the root firmware. -/
def State.fwWaits (s : State) (r : Nat) : Bool :=
  s.mayTake r && (descRefused (s.headDesc r)).isNone && fwOpcode (fieldAt (s.headDesc r) 0 1)

/-- Whether the visit of R485 has come to a ring pair: no other one between it and the next to be visited has a descriptor for the
root firmware. -/
def State.fwTurn (s : State) (r : Nat) : Bool :=
  let dist := fun k => (k + 4096 - s.hif.nextRing) % 4096
  s.hif.rings.all fun p => decide (dist r ≤ dist p.1) || !s.fwWaits p.1

/-- The submission head past a descriptor, which is now taken (R484). -/
def Ring.take (g : Ring) (b : List Byte) : Ring :=
  { g with
    sqHead := BitVec.ofNat 15 ((g.sqHead.toNat + 1) % ringSize g.sqLog.toNat)
    nextSeq := g.nextSeq + 1
    taken := g.taken ++ [{ seqNo := g.nextSeq, opcode := BitVec.ofNat 8 (fieldAt b 0 1), tag := BitVec.ofNat 16 (fieldAt b 2 2)
                           quiet := bitAt (fieldAt b 1 1) 0, bytes := b }] }

/-- The record programme block that an ADMIT names, read as it is taken (R504). -/
def State.takeBlock (s : State) (r : Nat) (b : List Byte) : ProgBlock :=
  let a := fieldAt b 0x10 8
  if fieldAt b 0 1 ≠ 5 ∨ a = 0 then .none
  else match s.resolve r a 64 with
    | .error e => .refused e
    | .ok l => match s.devRead l 64 with
      | none => .refused (0x0F, 0xA1)
      | some x => .bytes x

/-- Whether the host memory that must be read to take a descriptor can be reached (R472, R504; log entry 57). -/
def State.blockUp (s : State) (b : List Byte) : Bool := fieldAt b 0 1 != 5 || fieldAt b 0x10 8 == 0 || s.fieldUp b 0x10

/-- Hands a descriptor to its executor, none while its queue is full or, for the root firmware, while the visit has not come
(R434, R484–R487). -/
def State.accept (s : State) (r : Nat) (b : List Byte) : Option State :=
  let g := s.ring r
  let w : Work := { ring := BitVec.ofNat 12 r, seqNo := g.nextSeq, bytes := b, prog := s.takeBlock r b }
  let s1 := s.setRing r (g.take b)
  let f := s1.hif
  let opc := fieldAt b 0 1
  let ch : Channel := SMap.get {} f.dma g.chan.toNat
  if opc = 3 then
    if ch.queue.length < 8 then some { s1 with hif := { f with dma := SMap.set {} f.dma g.chan.toNat { ch with queue := ch.queue ++ [w] } } }
    else none
  else if opc = 4 then
    if s.sweepsPending < 16 then some { s1 with hif := { f with vatIn := f.vatIn ++ [w] } } else none
  else if opc = 7 then some s1
  else if opc = 8 then if g.taken = [] then some s1 else none
  else if f.fw.length < 64 ∧ s.fwTurn r ∧ s.blockUp b then
    some { s1 with hif := { f with fw := f.fw ++ [w], nextRing := (r + 1) % 4096 } }
  else none

/-- DESCRIPTOR_TAKE (R484–R487, R494). -/
def execDescriptorTake (r : Fin 4096) (s : State) : Host.Outcome State Fault Refusal :=
  if !s.mayTake r then .next s
  else
    let b := s.headDesc r
    match descRefused b with
    | some e => .next ((s.setRing r ((s.ring r).take b)).finish r (s.ring r).nextSeq e.1 e.2 (refuseInfo b))
    | none => .next ((s.accept r b).getD s)

/-! ## FENCE and SEAL (R487, R507, R516) -/

/-- FENCE (R487): the one descriptor taken and not completed. -/
def execFence (r : Fin 4096) (s : State) : Host.Outcome State Fault Refusal :=
  match (s.ring r).taken with
  | t :: _ => .next (if t.opcode = 8 ∧ !s.flt.halted then s.finish r t.seqNo outDone 0 0 else s)
  | [] => .next s

/-- SEAL (R516): writes are visible when they are performed, so that the flag is what is left to write. A flag in part of an
uncorrectable line is not written (R733); one in host memory waits until it can be reached (R472). -/
def execSeal (r : Fin 4096) (s : State) : Host.Outcome State Fault Refusal :=
  let q := (s.ring r).taken
  let k := q.findIdx fun t => t.opcode == 7
  match q[k]? with
  | none => .next s
  | some t =>
    if s.flt.halted ∨ (q.take k).any fun t => t.opcode == 1 || t.opcode == 3 || t.opcode == 4 then .next s
    else
      let a := fieldAt t.bytes 8 8
      let flag := (t.bytes.drop 0x10).take 8
      if a = 0 then .next (s.finish r t.seqNo outDone 0 0)
      else match s.resolve r a 8 with
        | .error e => .next (s.finish r t.seqNo e.1 e.2 0)
        | .ok l =>
          let bad := match l with
            | .gddr a => s.partBad a 8
            | _ => false
          .next (if !s.reaches l then s else if bad then s.finish r t.seqNo 0x0F 0xA1 0 else (s.devWrite l flag).finish r t.seqNo outDone 0 0)

/-! ## Completions (R488–R492) -/

/-- The 128 bits of a completion entry (R488). -/
def Compl.pack (c : Compl) (phase : Bool) (sqHead : Nat) : Nat :=
  fld 127 1 (bitN phase) + fld 112 8 c.opcode.toNat + fld 104 8 c.outcome.toNat + fld 96 8 c.check.toNat + fld 80 16 c.tag.toNat +
    fld 64 15 sqHead + c.info.toNat

/-- A ring pair whose oldest waiting completion has been written (R489, R492). -/
def Ring.post (g : Ring) : Ring :=
  let t := (g.cqTail.toNat + 1) % ringSize g.cqLog.toNat
  { g with cqTail := BitVec.ofNat 15 t, phase := if t = 0 then !g.phase else g.phase, waiting := g.waiting.drop 1
           written := g.written ++ g.waiting.take 1 }

/-- COMPLETION_WRITE (R453, R489, R490, R492, R499). -/
def execCompletionWrite (r : Fin 4096) (s : State) : Host.Outcome State Fault Refusal :=
  let g := s.ring r
  match g.waiting with
  | [] => .next s
  | c :: _ =>
    if (g.st ≠ .active ∧ g.st ≠ .error) ∨ !s.hostUp ∨ ringSize g.cqLog.toNat ≤ g.written.length then .next s
    else
      let s1 := match c.clear with
        | none => s
        | some h => s.clearAborted h.toNat
      let s2 := (s1.hostWrite (g.cqLoc.toNat + 16 * g.cqTail.toNat) (natLe 16 (c.pack g.phase g.sqHead.toNat))).setRing r g.post
      .next (if c.quiet then s2 else s2.signal g.vector.toNat)

end Sys2Proof.Machine
end

