-- ==== Sys2Proof/Machine/Admit.lean ====
section
/-!
DEFINITION. ADMIT and the release of an admission (R274, R343, R353–R358, R400–R405, R504, R510).
-/
namespace Sys2Proof.Machine

/-! ## Capacities (R266, R354–R356) -/

/-- The acquisition capacity of a quarter, B/s (R355): 22 × 82 × 32 B per 2,048 ÷ 3 ns. -/
def quarterRate : Nat := 84562500000

/-- The capacity of a bridge direction for ACQ, and for TRIG, B/s: 64 of 1,024 slots of 64 B on each lane at 1.5 GHz (R265,
R266). -/
def meshRate (key : Nat) : Nat := bridgeLanes key * 6000000000

/-- Whether a stream bears charges (R358). -/
def Stream.charged (x : Stream) : Bool := x.st == .admitted || (x.st == .suspended && x.wasAdmitted)

/-- R × s of a stream, B/s (R354, R356). -/
def Stream.byteRate (x : Stream) : Nat := x.rate.toNat * fmtStored x.fmt.toNat

/-- The byte rates charged to a quarter, without the 16 ÷ 15 of ECC. -/
def State.quarterCharge (s : State) (q : Nat) : Nat :=
  ((s.hbx.streams.filter fun p => p.2.charged && p.2.buf.quarter == q).map fun p => p.2.byteRate).sum

/-- What a list of charges puts on a bridge direction. -/
def chargeOn (m : List (Nat × Nat)) (key : Nat) : Nat := ((m.filter fun p => p.1 == key).map (·.2)).sum

/-- The byte rates charged to a bridge direction for ACQ. -/
def State.acqCharge (s : State) (key : Nat) : Nat :=
  ((s.hbx.streams.filter fun p => p.2.charged).map fun p => chargeOn p.2.mesh key).sum

/-- The byte rates charged to a bridge direction for TRIG. -/
def State.trigCharge (s : State) (key : Nat) : Nat :=
  ((s.hbx.streams.filter fun p => p.2.charged).map fun p => chargeOn p.2.meshTrig key).sum

/-- The quarter that a buffer of an edge die goes to (R274, R354). -/
def State.bufferQuarter (s : State) (e : Nat) : Option Nat :=
  if !(s.quarter e).withdrawn then some e
  else (sortBy ((List.range 4).filter fun q => !(s.quarter q).withdrawn) fun a b =>
    decide (s.quarterCharge a * 4 + a ≤ s.quarterCharge b * 4 + b)).head?

/-! ## The record programme (R405, R504) -/

/-- A record programme block. -/
def readProg (b : List Byte) : RecProg :=
  let dest := fieldAt b 0x20 8
  { pmask := BitVec.ofNat 64 (fieldAt b 0 8), gmask := BitVec.ofNat 16 (fieldAt b 8 2), wmask := BitVec.ofNat 30 (fieldAt b 0x34 4)
    pre := fieldAt b 0x10 4, post := fieldAt b 0x14 4, destHost := bitsOf dest 60 4 == 0, dest := bitsOf dest 0 60
    slot := fieldAt b 0x0C 4, nslot := fieldAt b 0x18 2, maskName := BitVec.ofNat 64 (fieldAt b 0x28 8)
    maskEn := bitAt (fieldAt b 0x0A 1) 0, maskStop := bitAt (fieldAt b 0x0A 1) 1, nmask := fieldAt b 0x30 2 }

/-- Whether a record programme block has a nonzero RSV field. -/
def progRsv (b : List Byte) : Bool :=
  decide (4 ≤ fieldAt b 0x0A 2) || !zeroAt b 0x1A 0x20 || !zeroAt b 0x32 0x34 || decide (2 ^ 30 ≤ fieldAt b 0x34 4) ||
    !zeroAt b 0x38 0x40

/-- Whether a range of lines lies in one region that a ring pair has claimed (R405). -/
def State.claimedRange (s : State) (r a n : Nat) : Bool :=
  s.gddr.rgt.any fun p => p.2.valid && p.2.host && p.2.ring.toNat == r && p.2.name != 0 &&
    decide (64 * p.2.base.toNat ≤ a) && decide (a + n ≤ 64 * (p.2.base.toNat + p.2.lines.toNat))

/-- Whether a claimed region of a ring pair has a name. -/
def State.claimed (s : State) (r : Nat) (name : BitVec 64) : Bool :=
  s.gddr.rgt.any fun p => p.2.valid && p.2.host && p.2.ring.toNat == r && p.2.name == name && name != 0

/-- The record programme of an ADMIT (R405, R504). POST 0 is in range only with every mask 0, and NMASK is judged only where mask tests
are enabled (DEDUCED, log entry 51). -/
def State.admitProg (s : State) (r : Nat) (block : ProgBlock) (fmt depth : Nat) : Except Refuse RecProg :=
  match block with
  | .none => .ok {}
  | .refused e => .error e
  | .bytes b =>
    let p := readProg b
    let win := p.pre + p.post
    let need := ceilDiv (640 + win * fmtStored fmt) 64 * 64
    if progRsv b then .error badField
    else if 8388608 < p.pre ∨ 8388608 < p.post ∨ p.nslot = 0 ∨ 4096 < p.nslot ∨ p.slot % 64 ≠ 0 ∨ p.dest % 64 ≠ 0 ∨
        (p.maskEn ∧ (p.nmask = 0 ∨ 256 < p.nmask)) then .error badField
    else if depth < 2 * win ∨ (win = 0 ∧ p.records) ∨ p.slot < need then .error (0x0A, 0x63)
    else if p.post = 0 ∧ p.records then .error badField
    else if p.maskName ≠ 0 ∧ !s.claimed r p.maskName then .error notHeld
    else match s.resolve r (fieldAt b 0x20 8) (p.slot * p.nslot) with
      | .error e => .error e
      | .ok (.host _) => .ok p
      | .ok (.gddr a) => if s.claimedRange r a (p.slot * p.nslot) then .ok { p with dest := a } else .error notHeld
      | .ok (.sram _ _ _) => .error badField

/-! ## The port (R357, R362) -/

/-- The pipeline of a loaded trigger image that has a port, if its port is free for a SID (R357). -/
def State.admitPort (s : State) (r h port sid : Nat) : Except Refuse Nat :=
  let im := s.image h
  match im.pipes.find? fun p => (s.pipe p).ports.any fun t => t.num.toNat == port with
  | none => .error (outConflict, 0x64)
  | some p =>
    if !s.loaded h ∨ im.ring.toNat ≠ r ∨ im.kind ≠ 1 ∨
        (s.pipe p).ports.any (fun t => t.num.toNat == port && t.sid.any (· != sid)) then .error (outConflict, 0x64)
    else .ok p

/-- The bridge directions from an edge die to the ingress cluster of a port (R356). -/
def State.portPath (s : State) (e p port : Nat) : List Nat :=
  let q := s.pipe p
  let im := s.image q.handle.toNat
  match q.ports.find? fun t => t.num.toNat == port with
  | none => []
  | some t => match im.map.getD (t.vy * im.vw + t.vx) none with
    | none => []
    | some c => meshPath (edgePos e) (diePos (c / 44))

/-- Binds a port of a pipeline to a stream, or frees it. -/
def State.bindPort (s : State) (p port : Nat) (sid : Option Nat) : State :=
  let q := s.pipe p
  let bind := fun t : Port => if t.num.toNat = port then { t with sid } else t
  s.setPipe p { q with ports := q.ports.map bind }

/-! ## ADMIT -/

/-- What an admission settles before anything changes: the programme, the pipeline of the port, the quarter, the mesh charges, the
first line and the region entry of the buffer. -/
structure Admission where
  prog : RecProg := {}
  pipe : Option Nat := none
  quarter : Nat := 0
  mesh : List (Nat × Nat) := []
  meshTrig : List (Nat × Nat) := []
  base : Nat := 0
  entry : Nat := 0
  deriving DecidableEq, Repr

/-- The quarter, the mesh charges and the first line of a buffer for a stream, or what stands in the way (R250, R354, R355, R357). -/
def State.placeBuffer (s : State) (sid depth : Nat) : Except Refuse (Nat × List (Nat × Nat) × Option Nat) :=
  let x := s.stream sid
  let e := sidGroup sid / 4
  let rate := x.byteRate
  match s.bufferQuarter e with
  | none => .error (0x0A, 0x63)
  | some q =>
    let mesh := (meshPath (edgePos e) (edgePos q)).map fun k => (k, rate)
    if 15 * quarterRate < 16 * (s.quarterCharge q + rate) then .error (0x09, 0x60)
    else if mesh.any (fun k => decide (15 * meshRate k.1 < 16 * (s.acqCharge k.1 + rate))) then .error (0x09, 0x61)
    else .ok (q, mesh, s.fitIn q (bufferLines x.fmt.toNat depth))

/-- The checks of an ADMIT, in the order of log entry 51 (R353–R357, R400, R405). -/
def State.admission (s : State) (r sid depth h port : Nat) (prog : ProgBlock) : Except Refuse Admission :=
  let x := s.stream sid
  let e := sidGroup sid / 4
  if x.st ≠ .joined then .error (outState, 0x65)
  else match s.admitProg r prog x.fmt.toNat depth with
    | .error f => .error f
    | .ok pg =>
      match (if h = 0 then .ok none else (s.admitPort r h port sid).map some : Except Refuse (Option Nat)) with
      | .error f => .error f
      | .ok pipe => match s.placeBuffer sid depth with
        | .error f => .error f
        | .ok (q, mesh, fit) =>
          let meshTrig := match pipe with
            | none => []
            | some p => (s.portPath e p port).map fun k => (k, x.byteRate)
          if meshTrig.any (fun k => decide (meshRate k.1 < s.trigCharge k.1 + x.byteRate)) then .error (0x09, 0x62)
          else match fit, s.freeEntry with
            | some base, some entry => .ok { prog := pg, pipe, quarter := q, mesh, meshTrig, base, entry }
            | _, _ => .error (0x0A, 0x63)

/-- The effect of an admission (R353, R400–R402). -/
def State.admitStream (s : State) (r sid tag transit depth h port : Nat) (a : Admission) : State :=
  let x := s.stream sid
  let n := ceilDiv (bufferLines x.fmt.toNat depth) 15 * 15
  let s1 := (s.gddrZero a.base n).setRegion a.entry
    { base := BitVec.ofNat 32 a.base, lines := BitVec.ofNat 32 n, valid := true, host := true, bar4 := true, ring := BitVec.ofNat 12 r }
  let s2 := match a.pipe with
    | none => s1
    | some p => s1.bindPort p port (some sid)
  s2.setStream sid { x with
    st := .admitted, wasAdmitted := true, transit := BitVec.ofNat 13 transit, seqSet := false, admitT := s.runNow, gaps := []
    ring := BitVec.ofNat 12 r, tag := BitVec.ofNat 16 tag
    port := if a.pipe.isSome then some (BitVec.ofNat 16 h, BitVec.ofNat 16 port) else none
    mesh := a.mesh, meshTrig := a.meshTrig, prog := a.prog
    buf := { rgt := a.entry, base := a.base, depth, quarter := a.quarter }
    recs := { x.recs with pstate := a.prog.pstate, openRecs := [], waiting := [], written := [], nextSlot := 0, busy := [] } }

/-- ADMIT (R353–R358, R400–R405, R504). -/
def execAdmitPipe (s : State) : Host.Outcome State Fault Refusal :=
  match s.fwHead 5 with
  | none => .next s
  | some (w, s1) =>
    let b := w.bytes
    let r := w.ring.toNat
    let sid := bitsOf (fieldAt b 4 4) 0 10
    let depth := fieldAt b 8 4
    let h := fieldAt b 0x0C 2
    let port := fieldAt b 0x0E 2
    .next (match s1.admission r sid depth h port w.prog with
      | .error e => s1.finish r w.seqNo e.1 e.2 (refuseInfo b)
      | .ok a => (s1.admitStream r sid (fieldAt b 2 2) (bitsOf (fieldAt b 4 4) 16 13) depth h port a).finish r w.seqNo outDone 0
          (sid + 2 ^ 16 * a.entry))

/-! ## RELEASE of an admission (R343, R510) -/

/-- Whether a ring pair holds the admission of a SID. -/
def State.holdsAdmission (s : State) (r sid : Nat) : Bool :=
  let x := s.stream sid
  x.ring.toNat == r && (x.charged || x.st == .left)

/-- Completions of a stream's records no longer name slots of its record area. -/
def Ring.forget (g : Ring) (sid : Nat) : Ring :=
  let drop := fun c : Compl => if c.record.any fun k => k.1 == sid then { c with record := none } else c
  { g with waiting := g.waiting.map drop, written := g.written.map drop }

/-- Ends an admission (R343, R345, R417, R419, R510): open gaps close, the records that can be handed off are, the buffer is freed and
the port unbound. Records that cannot go with the buffer (DEDUCED, log entry 52). -/
def State.endAdmission (s : State) (sid : Nat) : State :=
  let s0 := s.closeStreamGap sid s.now
  let s := (s0.stream sid).recs.waiting.foldl (fun s _ => s.handOff sid) s0
  let x := s.stream sid
  let s1 := s.freeRegion x.buf.rgt
  let s2 := match x.port with
    | none => s1
    | some (h, port) => (s1.image h.toNat).pipes.foldl (fun s p =>
        if (s.pipe p).ports.any fun t => t.sid == some sid then s.bindPort p port.toNat none else s) s1
  let s3 := s2.setRing x.ring.toNat ((s2.ring x.ring.toNat).forget sid)
  let gone : RecSt := { done := x.recs.done, lost := x.recs.lost, drop := x.recs.drop, trunc := x.recs.trunc, maskf := x.recs.maskf }
  s3.setStream sid (if x.st = .left then {}
    else { x with st := if x.st = .admitted then .joined else .suspended, wasAdmitted := false, transit := 0, gaps := [], port := none
                  mesh := [], meshTrig := [], prog := {}, buf := {}, recs := gone })

/-! ## A lost buffer's replacement (R419) -/

/-- BUFFER_REALLOCATE (R250, R354, R355, R419): a new buffer of the same depth, with W at 0, in the quarter that an admission would
choose and within its limits; the gap runs until the first sample written. -/
def execBufferReallocate (sid : Fin 1024) (s : State) : Host.Outcome State Fault Refusal :=
  let x := s.stream sid
  let n := ceilDiv (bufferLines x.fmt.toNat x.buf.depth) 15 * 15
  if !x.buf.lost ∨ (x.st ≠ .admitted ∧ x.st ≠ .suspended) then .next s
  else
    let s0 := s.setStream sid { x with mesh := [], buf := { x.buf with quarter := 4 } }
    match s0.placeBuffer sid x.buf.depth with
    | .ok (q, mesh, some b) =>
      let old := s.region x.buf.rgt
      let s1 := (s.gddrZero old.base.toNat old.lines.toNat).gddrZero b n
      let s2 := s1.setRegion x.buf.rgt { old with base := BitVec.ofNat 32 b, lines := BitVec.ofNat 32 n, lost := false }
      .next (s2.setStream sid { x with
        mesh
        buf := { x.buf with base := b, w := 0, anchors := [], nAnchors := 0, lost := false, quarter := q, gen := x.buf.gen + 1 } })
    | _ => .next s

end Sys2Proof.Machine
end

