-- ==== Sys2Proof/Machine/Sheets.lean ====
section
/-!
DEFINITION. RUN_SHEET: starting a sheet of an image and draining it (R97, R128, R172, R498–R501, R551, R560, R600).
-/
namespace Sys2Proof.Machine

/-- Line 0 and the request entries of region 15 as the sheet starts, for an image granted feature 6 (R551, R560). -/
def State.collSaved (s : State) (im : Image) : List Byte :=
  match im.collRegion with
  | none => []
  | some r =>
    if !bitAt im.granted.toNat 6 then []
    else
      let a := 64 * (s.region r.rgt).base.toNat
      s.gddrRead a 64 ++ s.gddrRead (a + 64 * 17) (64 * min (r.lines - 17) 4096)

/-- What a RUN_SHEET with MODE 0 is refused for (R496, R499–R501). -/
def State.runRefused (s : State) (r h cidx : Nat) : Option Refuse :=
  let im := s.image h
  if !s.loaded h then some badState
  else if im.ring.toNat ≠ r then some notHeld
  else if im.sheet.active ∨ im.sheet.draining ∨ im.releasing.isSome ∨
      im.clusters.any (fun c => (s.cl c).st != .idle && (s.cl c).st != .drained) then some badState
  else if (List.range im.map.length).any fun v => (im.section_ v cidx).isNone then some (0x04, 0x1E)
  else none

/-- A pipeline at the start of a sheet: with the padding of its present routes, or STOPPED where a remap leaves it none, its coverage gap
open with cause FAULT (R235, R387, R388; the cause is a DESIGN CHOICE, log entry 104). -/
def State.startPipe (s : State) (p : Nat) : State :=
  match s.padOf p with
  | some pad => s.setPipe p { s.pipe p with pad, starting := true }
  | none =>
    let s1 := s.openGap p 1 (s.firstUnjudged (s.pipe p))
    s1.setPipe p { s1.pipe p with st := .stopped }

/-- The start of a sheet (R172, R235, R371, R387, R498, R499). -/
def State.startSheet (s : State) (w : Work) (h cidx : Nat) (seed : Option Nat) : State :=
  let im := s.image h
  let sheet : Sheet :=
    { active := true, ring := w.ring, seqNo := w.seqNo, cidx, starts := 1
      seed := match seed with
        | some x => BitVec.ofNat 64 x
        | none => im.seed }
  let s1 := s.setImage h { im with sheets := im.sheets + 1, sheet, collBytes := s.collSaved im, collNext0 := im.collNext
                                   collCnt0 := im.collCnt }
  (im.pipes.foldl State.startPipe s1).startClusters h cidx false

/-- RUN_SHEET with MODE 0 (R498–R501). Virtual clusters without a physical one, and streams without a route, get theirs first (R600,
R734); while a spare of the image is
in BIST the descriptor waits. -/
def execRunSheet (s : State) : Host.Outcome State Fault Refusal :=
  match s.fwHead 2 with
  | none => .next s
  | some (w, s1) =>
    let b := w.bytes
    let h := fieldAt b 4 2
    let cidx := fieldAt b 6 2
    let mode := fieldAt b 0x10 1
    let seed := if bitAt mode 1 then some (fieldAt b 8 8) else none
    if bitAt mode 0 then .next s
    else match s1.runRefused w.ring.toNat h cidx with
      | some e => .next (s1.finish w.ring.toNat w.seqNo e.1 e.2 (refuseInfo b))
      | none =>
        if (s1.image h).whole then .next (s1.startSheet w h cidx seed)
        else if s1.bistOf h then .next s
        else match s1.rehome h with
          | none => .next (s1.finish w.ring.toNat w.seqNo outFatal 0xA4 (refuseInfo b))
          | some s2 => .next (s2.startSheet w h cidx seed)

/-- Requests a drain that a descriptor waits for (R97, R500). -/
def State.drainFor (s : State) (h : Nat) (d : BitVec 12 × Nat) : State :=
  let im := s.image h
  ((s.setImage h { im with sheet := { im.sheet with draining := true, drains := im.sheet.drains ++ [d] } }).requestDrain h).checkDrain h

/-- RUN_SHEET with MODE 1 (R500). -/
def execDrainSheet (s : State) : Host.Outcome State Fault Refusal :=
  match s.fwHead 2 with
  | none => .next s
  | some (w, s1) =>
    let h := fieldAt w.bytes 4 2
    let r := w.ring.toNat
    if !bitAt (fieldAt w.bytes 0x10 1) 0 then .next s
    else if !s1.loaded h then .next (s1.finish r w.seqNo badState.1 badState.2 (refuseInfo w.bytes))
    else if (s1.image h).ring.toNat ≠ r then .next (s1.finish r w.seqNo notHeld.1 notHeld.2 (refuseInfo w.bytes))
    else .next (s1.drainFor h (w.ring, w.seqNo))

end Sys2Proof.Machine
end

