-- ==== Sys2Proof/Machine/Dma.lean ====
section
/-!
DEFINITION. DMA channels: plain copies and paced copies (R486, R496, R502, R511–R519, R733).
-/
namespace Sys2Proof.Machine

/-- A DMA channel. -/
def State.chan (s : State) (c : Nat) : Channel := SMap.get {} s.hif.dma c

/-- Replaces a DMA channel. -/
def State.setChan (s : State) (c : Nat) (x : Channel) : State :=
  { s with hif := { s.hif with dma := SMap.set {} s.hif.dma c x } }

/-- Bytes that a channel read at one place it writes at another, both in slots of class DMA; and whether part of an uncorrectable line was
not written (R253, R733). -/
def State.copyWrite (s : State) (src l : Loc) (bs : List Byte) : State × Bool :=
  (((s.devWrite l bs).asksAt classDma false src bs.length).asksAt classDma true l bs.length, s.writeFails l bs.length)

/-- Unspecified bytes in a range (R517): a free value each; the uncorrectable lines stay so. -/
def State.scramble (s : State) (l : Loc) (n : Nat) : State :=
  let bs := (List.range n).map (Config.freeByte s.free)
  let s1 := { s with free := s.free + 1 }
  match l with
  | .gddr a => { s1 with gddr := { s1.gddr with bytes := s1.gddr.bytes.writeBytes a bs } }
  | _ => s1.devWrite l bs

/-! ## The fields of a copy (R502) -/

/-- Bytes of an entry of a paced copy. -/
def Channel.entryBytes (x : Channel) : Nat := 64 * fieldAt x.cur.bytes 0x2C 2

/-- Whether the copy of a channel is paced. -/
def Channel.paced (x : Channel) : Bool := bitAt (fieldAt x.cur.bytes 4 1) 0

/-- Whether a paced copy fills the queue. -/
def Channel.fills (x : Channel) : Bool := bitAt (fieldAt x.cur.bytes 4 1) 1

/-- Physical byte address of the queue header. -/
def Channel.header (x : Channel) : Nat := bitsOf (fieldAt x.cur.bytes 0x20 8) 0 37

/-- Entries of the queue. -/
def Channel.entries (x : Channel) : Nat := fieldAt x.cur.bytes 0x28 4

/-- The place of queue entry `k` (R518). -/
def Channel.entryAt (x : Channel) (k : Nat) : Nat := x.header + 64 + k % max x.entries 1 * x.entryBytes

/-- Whether the queue fields of a paced copy break their ranges, or QHDR is not in GDDR6 (R502). -/
def badQueue (b : List Byte) : Bool :=
  let qhdr := fieldAt b 0x20 8
  let qent := fieldAt b 0x28 4
  let esize := fieldAt b 0x2C 2
  let high := fieldAt b 0x30 4
  bitsOf qhdr 37 27 != 2 ^ 26 || qhdr % 64 != 0 || decide (qent = 0) || decide (2 ^ 24 < qent) || decide (esize = 0) ||
    decide (1024 < esize) || decide (high = 0) || decide (qent < high) || decide (high ≤ fieldAt b 0x34 4) ||
    decide (fieldAt b 0x38 4 = 0)

/-! ## Starting and ending -/

/-- A channel that performs no copy. -/
def Channel.rest (x : Channel) : Channel :=
  { x with st := .idle, cur := {}, src := .host 0, dst := .host 0, moved := 0, total := 0, outcome := 0, check := 0, failed := false
           pollFrame := none }

/-- Starts a plain copy, or refuses it (R496, R502). -/
def State.startCopy (s : State) (c : Nat) (w : Work) : State :=
  let x := s.chan c
  let n := fieldAt w.bytes 0x18 8
  let r := w.ring.toNat
  match s.resolve r (fieldAt w.bytes 8 8) n, s.resolve r (fieldAt w.bytes 0x10 8) n with
  | .error e, _ => s.finish r w.seqNo e.1 e.2 0
  | _, .error e => s.finish r w.seqNo e.1 e.2 0
  | .ok src, .ok dst => s.setChan c { x with st := .copy, cur := w, src, dst, moved := 0, total := n, outcome := 0, check := 0, failed := false }

/-- Starts a paced copy, or refuses it (R496, R502, R518). -/
def State.startPaced (s : State) (c : Nat) (w : Work) : State :=
  let x := s.chan c
  let b := w.bytes
  let r := w.ring.toNat
  let y : Channel := { x with st := .pacedIdle, cur := w, moved := 0, total := fieldAt b 0x38 4, outcome := 0, check := 0
                              pollFrame := none }
  let n := y.total * y.entryBytes
  let fills := y.fills
  if badQueue b then s.finish r w.seqNo outFormat 0x83 0
  else if !s.holdsRange r y.header (64 + y.entries * y.entryBytes) then s.finish r w.seqNo notHeld.1 notHeld.2 0
  else match s.resolve r (fieldAt b (if fills then 8 else 0x10) 8) n with
    | .error e => s.finish r w.seqNo e.1 e.2 0
    | .ok l => s.setChan c (if fills then { y with src := l, dst := .gddr y.header } else { y with src := .gddr y.header, dst := l })

/-- Ends a copy with an error: its destination range holds unspecified bytes (R517). A fill's range is the entries it writes. -/
def State.copyError (s : State) (c : Nat) (outcome check : BitVec 8) : State :=
  let x := s.chan c
  let s1 := if x.paced then
      if x.fills then
        let prod := leNat (s.gddrRead x.header 8)
        (List.range (min x.total x.entries)).foldl (fun s k => s.scramble (.gddr (x.entryAt (prod - x.moved + k))) x.entryBytes) s
      else s.scramble x.dst (x.total * x.entryBytes)
    else s.scramble x.dst x.total
  s1.setChan c { x with outcome, check }

/-- MEM_ERROR, check 0xA1 (R517). -/
def State.memError (s : State) (c : Nat) : State := s.copyError c 0x0F 0xA1

/-! ## Plain copies -/

/-- The next piece of a plain copy: up to the end of a line of its destination (R511). -/
def Channel.piece (x : Channel) : Nat :=
  let a := match x.dst with
    | .host a => a
    | .gddr a => a
    | .sram _ _ o => o
  min (x.total - x.moved) (64 - (a + x.moved) % 64)

/-- DMA_COPY (R486, R496, R511, R733): an idle channel starts its next plain copy; a copy moves its next piece. One that could not write part
of an uncorrectable line writes its other lines, and ends with MEM_ERROR. -/
def execDmaCopy (ch : Fin 32) (s : State) : Host.Outcome State Fault Refusal :=
  let x := s.chan ch
  if s.flt.halted then .next s
  else match x.st with
    | .idle => match x.queue with
      | [] => .next s
      | w :: rest =>
        if bitAt (fieldAt w.bytes 4 1) 0 then .next s else .next ((s.setChan ch { x with queue := rest }).startCopy ch w)
    | .copy =>
      if x.total ≤ x.moved ∨ x.outcome ≠ 0 ∨ !s.reaches x.src ∨ !s.reaches x.dst then .next s
      else match s.devRead (x.src.plus x.moved) x.piece with
        | none => .next (s.memError ch)
        | some bs =>
          let r := s.copyWrite (x.src.plus x.moved) (x.dst.plus x.moved) bs
          let y := { x with moved := x.moved + x.piece, failed := x.failed || r.2 }
          let s1 := r.1.setChan ch y
          .next (if y.failed ∧ y.total ≤ y.moved then s1.memError ch else s1)
    | _ => .next s

/-! ## Paced copies (R518, R519) -/

/-- The level of a queue from its header (R518). -/
def Channel.level (x : Channel) (hdr : List Byte) : Nat :=
  let fill := (fieldAt hdr 0 8 + 2 ^ 64 - fieldAt hdr 8 8) % 2 ^ 64
  if x.fills then x.entries - fill else fill

/-- Moves one entry; the own counter advances when its data have moved (R519). -/
def State.moveEntry (s : State) (c : Nat) (hdr : List Byte) : State :=
  let x := s.chan c
  let n := x.entryBytes
  let k := fieldAt hdr (if x.fills then 0 else 8) 8
  let src := if x.fills then x.src.plus (x.moved * n) else .gddr (x.entryAt k)
  let dst := if x.fills then .gddr (x.entryAt k) else x.dst.plus (x.moved * n)
  match s.devRead src n with
  | none => s.memError c
  | some bs =>
    let r := s.copyWrite src dst bs
    if r.2 then r.1.memError c
    else
      let s1 := (r.1.gddrWrite (x.header + if x.fills then 0 else 8) (natLe 8 (k + 1))).asks classDma true x.header 16
      s1.setChan c { x with moved := x.moved + 1 }

/-- PACED_COPY (R486, R518, R519): an idle channel starts its next paced copy; an active one moves an entry, or returns to idle. -/
def execPacedCopy (ch : Fin 32) (s : State) : Host.Outcome State Fault Refusal :=
  let x := s.chan ch
  if s.flt.halted then .next s
  else match x.st with
    | .idle => match x.queue with
      | [] => .next s
      | w :: rest =>
        if bitAt (fieldAt w.bytes 4 1) 0 then .next ((s.setChan ch { x with queue := rest }).startPaced ch w) else .next s
    | .pacedActive =>
      let rem := x.total - x.moved
      if rem = 0 ∨ x.outcome ≠ 0 ∨ !s.reaches x.src ∨ !s.reaches x.dst then .next s
      else match s.devRead (.gddr x.header) 64 with
        | none => .next (s.memError ch)
        | some hdr =>
          let l := x.level hdr
          let low := if rem ≤ fieldAt x.cur.bytes 0x30 4 then 0 else fieldAt x.cur.bytes 0x34 4
          let s1 := s.asks classDma false x.header 64
          .next (if low < l then s1.moveEntry ch hdr else s1.setChan ch { x with st := .pacedIdle })
    | _ => .next s

/-- PACED_POLL (R518): at most one header read per calender frame. -/
def execPacedPoll (ch : Fin 32) (s : State) : Host.Outcome State Fault Refusal :=
  let x := s.chan ch
  let frame := s.xms.regs.frame.toNat
  if x.st ≠ .pacedIdle ∨ x.outcome ≠ 0 ∨ x.pollFrame = some frame ∨ s.flt.halted then .next s
  else match s.devRead (.gddr x.header) 64 with
    | none => .next (s.memError ch)
    | some hdr =>
      let go := min (fieldAt x.cur.bytes 0x30 4) (x.total - x.moved) ≤ x.level hdr
      .next ((s.asks classDma false x.header 64).setChan ch
        { x with pollFrame := some frame, st := if go then .pacedActive else .pacedIdle })

/-! ## The end of a copy -/

/-- Bytes that the copy of a channel has moved (R488). -/
def Channel.bytesMoved (x : Channel) : Nat := if x.paced then x.moved * x.entryBytes else x.moved

/-- DMA_COPY_COMPLETE (R513, R517, R518, DMA.CH). -/
def execDmaCopyComplete (ch : Fin 32) (s : State) : Host.Outcome State Fault Refusal :=
  let x := s.chan ch
  if x.st = .idle ∨ (x.outcome = 0 ∧ x.moved < x.total) ∨ s.flt.halted then .next s
  else
    let y := x.rest
    let bad := decide (x.outcome ≠ 0)
    let s1 := s.setChan ch (if bad then { y with errors := satBump x.errors 1 } else { y with done := x.done + 1 })
    .next (s1.finish x.cur.ring.toNat x.cur.seqNo x.outcome x.check x.bytesMoved)

/-- COMPLETION_TIMEOUT (R467, R517): a read of host memory by a channel's copy gets no completion, or a poisoned one, logged under AER as
Completion Timeout (bit 14) or Poisoned TLP Received (bit 12). -/
def execCompletionTimeout (e : HostReadEnd) (s : State) : Host.Outcome State Fault Refusal :=
  let x := s.chan e.chan
  .next (if x.st ≠ .idle ∧ x.src.isHost ∧ x.outcome = 0 ∧ x.moved < x.total ∧ !s.flt.halted then
    (s.aerError (if e.poisoned then 12 else 14)).copyError e.chan 0x0E 0xA0 else s)

end Sys2Proof.Machine
end

