-- ==== Sys2Proof/Machine/Sweeps.lean ====
section
/-!
DEFINITION. Sweeps of the vat as submitted: their fields, their checks, the pending queue, templates, and sweeps that end before they
start (R433, R434, R444, R445, R449, R503).
-/
namespace Sys2Proof.Machine

/-! ## Sweeps as submitted (R433, R503) -/

/-- The sweep that a VAT_SWEEP descriptor carries. -/
def Work.sweep (w : Work) : Sweep :=
  let b := w.bytes
  let f := fieldAt b 6 1
  { op := BitVec.ofNat 3 (f % 4), handle := BitVec.ofNat 16 (fieldAt b 4 2), list := bitAt f 2, wide := bitAt f 3
    first := fieldAt b 8 8 % 2 ^ 20, listA := fieldAt b 8 8, data := fieldAt b 0x10 8, out := fieldAt b 0x18 8
    stat := fieldAt b 0x20 8, report := fieldAt b 0x28 8, count := fieldAt b 0x30 4, stride := 16 * fieldAt b 0x34 2
    ostride := 16 * fieldAt b 0x36 2, ring := w.ring, tag := BitVec.ofNat 16 (fieldAt b 2 2), quiet := bitAt (fieldAt b 1 1) 0
    seqNo := w.seqNo }

/-- The oldest VAT_SWEEP taken and not yet entered, if it is of an OP, or is to be stored as a template: its bytes and the state
without it. -/
def State.vatHead (s : State) (op : Option Nat) : Option (Work × State) :=
  match s.hif.vatIn with
  | [] => none
  | w :: rest =>
    let is := if w.arms then none else some (fieldAt w.bytes 6 1 % 4)
    if is = op ∧ !s.flt.halted then some (w, { s with hif := { s.hif with vatIn := rest } }) else none

/-! ## The checks of R445 -/

/-- Whether an address has the form of host memory or of GDDR6 (R433, R495). -/
def vatAddr (a : Nat) : Bool := bitsOf a 60 4 == 0 || (bitsOf a 60 4 == 8 && bitsOf a 37 23 == 0)

/-- Whether an address of a sweep is host memory. -/
def onHost (a : Nat) : Bool := bitsOf a 60 4 == 0

/-- The place that an address of a sweep names. -/
def vatLoc (a : Nat) : Loc := if onHost a then .host (bitsOf a 0 60) else .gddr (bitsOf a 0 37)

/-- The contexts of a table mode (R426). -/
def vatCount (wide : Bool) : Nat := if wide then 262144 else 1048576

/-- The bytes of a context. -/
def ctxBytes (wide : Bool) : Nat := if wide then 1024 else 256

/-- The bytes of the model table of an image, none where a line of it is uncorrectable (R431). -/
def State.modelTable (s : State) (h : Nat) : Option (List Byte) :=
  match (s.image h).regions[0]? with
  | none => none
  | some r =>
    let a := 64 * (s.region r.rgt).base.toNat
    if s.rangeBad a (64 * 49) then none else some (s.gddrRead a (64 * 49))

/-- The models that a sweep runs: none for an OP other than RUN, or where HANDLE names no image with a model table. -/
def State.sweepModels (s : State) (z : Sweep) : List VatModel :=
  if z.op = 0 ∧ (s.image z.handle.toNat).kind = 2 then ((s.modelTable z.handle.toNat).map readModels).getD [] else []

/-- The largest IN_B of models, in bytes. -/
def maxIn (ms : List VatModel) : Nat := (ms.map fun m => 16 * m.inB).foldl max 0

/-- The largest OUT_B of models, in bytes. -/
def maxOut (ms : List VatModel) : Nat := (ms.map fun m => 16 * m.outB).foldl max 0

/-- The index at a place of the selection; none where the list's line is uncorrectable. -/
def State.selected (s : State) (z : Sweep) (i : Nat) : Option Nat :=
  if z.list then (s.devRead (vatLoc (z.listA + 4 * i)) 4).map leNat else some (z.first + i)

/-- Whether a sweep is a CLEAR that selects every context, by its range or by its list (R427). -/
def State.selectsAll (s : State) (z : Sweep) : Bool :=
  let n := vatCount s.vat.wide
  z.op == 3 && decide (z.count ≤ 1048576) && if z.list then
    let named := (List.range z.count).filterMap (s.selected z)
    (List.range n).all fun c => named.contains c
  else z.first == 0 && z.count == n

/-- The address ranges that a sweep uses: address and bytes. -/
def State.sweepRanges (s : State) (z : Sweep) : List (Nat × Nat) :=
  let ms := s.sweepModels z
  let n := ctxBytes s.vat.wide
  let span := fun stride last => if last = 0 then 0 else (z.count - 1) * stride + last
  let data := if z.op = 0 then span z.stride (maxIn ms) else if z.op = 3 then 0 else span z.stride n
  ([(z.listA, if z.list then 4 * z.count else 0), (z.data, data), (z.out, if z.op = 0 then span z.ostride (maxOut ms) else 0),
    (z.stat, if z.stat = 0 then 0 else z.count), (z.report, 64)] : List (Nat × Nat)).filter fun p => p.2 != 0

/-- Whether a range is host memory or lies in a region that the ring pair has claimed (R433). -/
def State.sweepHolds (s : State) (r a n : Nat) : Bool :=
  onHost a || s.gddr.rgt.any fun p => p.2.valid && p.2.host && p.2.ring.toNat == r && inRegion p.2 (bitsOf a 0 37) n

/-- Fields out of range, check 0x70 (R445). -/
def State.sweepBad (s : State) (z : Sweep) : Bool :=
  let n := vatCount s.vat.wide
  let ms := s.sweepModels z
  let size := ctxBytes s.vat.wide
  let strides : Bool := match z.op.toNat with
    | 0 => decide (z.stride < maxIn ms) || decide (z.ostride < maxOut ms)
    | 3 => false
    | _ => decide (z.stride < size)
  decide (z.count < 1) || decide (1048576 < z.count) || (!z.list && decide (n < z.first + z.count)) ||
    (z.wide != s.vat.wide && !s.selectsAll z) || (z.op != 0 && z.handle != 0) || strides ||
    (s.sweepRanges z).any fun p => !vatAddr p.1

/-- The refusal of a sweep, if it is refused (R445). An image under RELEASE, or one whose model table cannot be read, counts as
not loaded (DESIGN CHOICE, log entry 55). -/
def State.sweepRefused (s : State) (z : Sweep) : Option Refuse :=
  let h := z.handle.toNat
  let im := s.image h
  let r := z.ring.toNat
  if s.sweepBad z then some (outFormat, 0x70)
  else if (s.sweepRanges z).any (fun p => !s.sweepHolds r p.1 p.2) || (z.op == 0 && s.loaded h && im.ring.toNat != r) then
    some (outConflict, 0x71)
  else if z.op ≠ 0 then none
  else match s.modelTable h with
    | none => some (outState, 0x72)
    | some d =>
      if !s.loaded h ∨ im.kind ≠ 2 ∨ im.releasing.isSome ∨ bitAt (fieldAt d 5 1) 0 ≠ s.vat.wide then some (outState, 0x72)
      else none

/-! ## Entering and storing (R433, R434) -/

/-- Stores a sweep as a template, or refuses it (R433, R434, R445). -/
def State.armSweep (s : State) (w : Work) : State :=
  let t := fieldAt w.bytes 7 1 % 16
  let z := { w.sweep with tpl := some t }
  let r := w.ring.toNat
  let n := s.vat.seq.toNat
  match s.sweepRefused z with
  | some e => s.finish r w.seqNo e.1 e.2 n
  | none => ({ s with vat := { s.vat with templates := SMap.set {} s.vat.templates t z } } : State).finish r w.seqNo outDone 0 n

/-- What the root firmware does with a VAT_SWEEP that it has taken: it enters the sweep in the pending queue, or stores it (R434). -/
def State.enterWork (s : State) (w : Work) : State :=
  if w.arms then s.armSweep w else { s with vat := { s.vat with queue := s.vat.queue ++ [w.sweep] } }

/-- The state with every VAT_SWEEP that has been taken entered: a taken sweep is pending already, before any that comes later
(R434). -/
def State.enterTaken (s : State) : State :=
  if s.flt.halted then s
  else s.hif.vatIn.foldl State.enterWork { s with hif := { s.hif with vatIn := [] } }

/-! ## Sweeps that end without a context (R444, R445, R449, R473) -/

/-- Whether the host can be reached where an address names it. -/
def State.vatReach (s : State) (a : Nat) : Bool := !onHost a || s.hostUp

/-- Writes results of a sweep to where its addresses lead, in VAT slots where that is GDDR6 (R253, R441, R444). -/
def State.vatWrite (s : State) (l : Loc) (bs : List Byte) : State := (s.devWrite l bs).asksAt classVat true l bs.length

/-- The report of a sweep that ends before it starts: no context has been touched (R444; DESIGN CHOICE, log entry 55). -/
def State.pendingReport (s : State) (z : Sweep) (outcome check : BitVec 8) : List Byte :=
  [outcome, check, 0, 0] ++ natLe 4 s.vat.seq.toNat ++ List.replicate 20 0 ++ natLe 4 z.count ++
    natLe 12 (timeWord s.now) ++ List.replicate 4 0 ++ natLe 12 (timeWord s.now) ++ List.replicate 4 0

/-- Whether the report of a sweep can be written: where the ring pair may have it, and no host memory while the function may send nothing
(R433, R473; log entry 55). -/
def State.reportable (s : State) (z : Sweep) : Bool :=
  vatAddr z.report && s.sweepHolds z.ring.toNat z.report 64 && s.vatReach z.report

/-- Ends a sweep that is pending (R449, R488). -/
def State.endSweep (s : State) (z : Sweep) (outcome check : BitVec 8) (seqNo : Nat) : State :=
  match z.tpl with
  | none => s.finish z.ring.toNat z.seqNo outcome check seqNo
  | some _ => s.pushCompletion z.ring.toNat
      { opcode := 0x84, outcome, check, tag := z.tag, info := BitVec.ofNat 64 seqNo, quiet := z.quiet }

/-- Ends a sweep that has not started: its report, then its completion (R444, R445, R449). -/
def State.endPending (s : State) (z : Sweep) (outcome check : BitVec 8) : State :=
  (if s.reportable z then s.vatWrite (vatLoc z.report) (s.pendingReport z outcome check) else s).endSweep z outcome check
    s.vat.seq.toNat

end Sys2Proof.Machine
end

