-- ==== Sys2Proof/Machine/Time.lean ====
section
/-!
DEFINITION. The time base: measurements, PTP frames, PPS pins, the latch and the lock (spec 09).
-/
namespace Sys2Proof.Machine

/-- Marks the armed units whose START a step carried the value past (R325). -/
def TimeBase.markPassed (t : TimeBase) (old new : TimeVal) : TimeBase :=
  let mark := fun u : Tsu =>
    if u.armed && u.passed.isNone && decide (old < u.start) && decide (u.start ≤ new) then { u with passed := some (true, new) } else u
  { t with tsu := t.tsu.map fun p => (p.1, mark p.2) }

/-- A step of the time value at the pipelines (R388, R391): a gap of cause STEP. -/
def State.stepGaps (s : State) : State :=
  (s.trp.pipes.map (·.1)).foldl (fun s p =>
    let q := s.pipe p
    if q.st = .warm ∨ q.st = .live then s.openGap p 6 (s.firstUnjudged q) else s) s

/-- The last edge due on a pin of MODE 1 at or before a time (R329). -/
def PpsPin.lastEdge (p : PpsPin) (now : TimeVal) : Option TimeVal :=
  let t := ((now : Int) - p.offset * 65536) / second * second + p.offset * 65536
  if p.mode = 1 ∧ 0 ≤ t then some t.toNat else none

/-- A pin as the time base leaves INVALID: no pulse for an edge that the step passed or that fell while INVALID (R330). -/
def PpsPin.settle (p : PpsPin) (now : TimeVal) : PpsPin :=
  { p with want := [], edge := (p.lastEdge now).orElse fun _ => p.edge }

/-- A measurement of a source at the time base (R309–R316, R325, R330). A tracker that measures is SLAVE (PRESUMED from IEEE 1588, log
entry 38). -/
def State.measured (s : State) (src : Nat) (e : Int) : State :=
  let t := s.tb.measure src e
  let stepped := s.tb.st == .invalid && t.st == .locked
  let t1 := if stepped then
      { t.markPassed (s.tb.value / 65536) (t.value / 65536) with
        pps := (List.range 4).foldl (fun m n => SMap.modify {} m n fun p => p.settle (t.value / 65536)) t.pps }
    else t
  let t2 := if src < 2 then
      { t1 with domains := SMap.modify {} t1.domains src fun d => if d.pstate = 2 then { d with pstate := 3 } else d } else t1
  { (if stepped then s.stepGaps else s) with tb := t2 }

/-- SERVO_MEASUREMENT (R309–R316, R325): the oldest completed measurement of a source, if that is `e`. -/
def execServoMeasurement (src : Fin 4) (e : Int) (s : State) : Host.Outcome State Fault Refusal :=
  let mine := fun m : Nat × Int => m.1 == src.val
  match s.tb.due.find? mine with
  | none => .next s
  | some m =>
    if s.timeOff ∨ m.2 ≠ e then .next s
    else .next (({ s with tb := { s.tb with due := s.tb.due.eraseIdx (s.tb.due.findIdx mine) } } : State).measured src e)

/-- ANNOUNCE_TIMEOUT (R314): the tracker has no parent, is LISTENING or MASTER (PRESUMED from IEEE 1588, log entry 38), and loses
qualification. -/
def execAnnounceTimeout (d : Fin 2) (s : State) : Host.Outcome State Fault Refusal :=
  let x : Domain := SMap.get {} s.tb.domains d
  if !x.en ∨ s.timeOff then .next s
  else
    let y := { x with parent := none, syncRx := none, pstate := if x.slaveOnly then 1 else 4 }
    .next { s with tb := ({ s.tb with domains := SMap.set {} s.tb.domains d y } : TimeBase).lose d }

/-- PPS_IN_TIMEOUT (R314). -/
def execPpsInTimeout (s : State) : Host.Outcome State Fault Refusal := .next (if s.timeOff then s else s.loseSource 2)

/-! ## PTP frames (R317–R320) -/

/-- Whether a message is an event message, which carries a timestamp (R320). -/
def ptpEvent (k : PtpKind) : Bool := k == .sync || k == .delayReq || k == .pdelayReq || k == .pdelayResp

/-- The code of a message kind in the trace of what leaves the device. -/
def ptpCode : PtpKind → Nat
  | .sync => 0
  | .delayReq => 1
  | .pdelayReq => 2
  | .pdelayResp => 3
  | .followUp => 8
  | .delayResp => 9
  | .pdelayFollowUp => 10
  | .announce => 11
  | .other => 12

/-- Whether a tracker follows the domain of a frame on a port (R317, TBS.DOMCFG). -/
def Domain.follows (d : Domain) (p : Nat) (f : PtpFrame) : Bool :=
  d.en && d.domain == f.domain && d.port == (p == 1) && (d.profile && d.udp) == f.udp

/-- Whether the interval that a message states is one that the device supports, received or sent (R317). -/
def ptpInterval (sent : Bool) (f : PtpFrame) : Bool :=
  match f.kind with
  | .sync => decide ((if sent then -4 else -7) ≤ f.logInterval) && decide (f.logInterval ≤ if sent then 1 else 4)
  | .announce => decide (-3 ≤ f.logInterval) && decide (f.logInterval ≤ 4)
  | _ => true

/-- Whether a tracker sends a message of a kind (R317): never of a two-step exchange, nor a management message; delay requests by its
profile; Sync, Announce and Delay_Resp as MASTER, and delay requests of the default profile as a slave (the port states are PRESUMED
from IEEE 1588, log entry 38). -/
def Domain.sends (d : Domain) (k : PtpKind) : Bool :=
  match k with
  | .sync => d.pstate == 4
  | .announce => d.pstate == 4
  | .delayResp => d.profile && d.pstate == 4
  | .delayReq => d.profile && (d.pstate == 2 || d.pstate == 3)
  | .pdelayReq => !d.profile
  | .pdelayResp => !d.profile
  | _ => false

/-- The message timestamp point of a frame received on a port, less RX_LAT (R319). -/
def rxStamp (q : TimePort) (mark : TimeVal) : Int := (mark : Int) + 64 * 65536 - q.rxLat.toNat * 8192

/-- The message timestamp point of a frame sent on a port, with TX_LAT (R319). -/
def txStamp (q : TimePort) (mark : TimeVal) : Int := (mark : Int) + 64 * 65536 + q.txLat.toNat * 8192

/-- An Announce at a tracker, and whether it loses qualification: a change of grandmaster identity, or of the port out of SLAVE and
UNCALIBRATED (R314). A slave-only tracker follows its parent whatever is decided (the states are PRESUMED from IEEE 1588, log entry 38). -/
def Domain.announce (d : Domain) (f : PtpFrame) : Domain × Bool :=
  let d1 := { d with utcOfs := f.utc }
  let follows := d.pstate == 2 || d.pstate == 3
  if f.decision == .slave || (d.slaveOnly && d.parent == some f.source) then
    let changed := d.gm.isSome && d.gm != some f.gm
    let same := d.parent == some f.source && !changed && follows
    ({ d1 with gm := some f.gm, parent := some f.source, gmChanges := satBump d.gmChanges (if changed then 1 else 0)
               pstate := if same then d.pstate else 2 }, changed)
  else if d.slaveOnly then (d1, false)
  else if f.decision == .passive then ({ d1 with parent := none, pstate := 5 }, follows)
  else if d.parent.isNone || d.parent == some f.source then ({ d1 with parent := none, pstate := 4 }, follows)
  else (d1, false)

/-- TBS.PORTCAL.ASYM in 2^−16 ns (R319). -/
def TimePort.delayAsym (q : TimePort) : Int := signedOf 16 q.asym.toNat * 8192

/-- What a message does at a tracker: the tracker, whether it loses qualification, and the measurement that is complete with it. -/
structure Heard where
  dom : Domain
  lost : Bool := false
  e : Option Int := none

/-- A message at a tracker: the times from which its path delay and offset follow, by the formulas of IEEE 1588 (PRESUMED, log entry
38): a Sync and a Pdelay_Resp have the delay asymmetry added to their correction as they come in. A Sync of the parent completes a
measurement of e, with its Follow_Up where it is two-step (R308). -/
def Domain.receive (d : Domain) (rx asym : Int) (f : PtpFrame) : Heard :=
  let n := f.seq.toNat
  let mine := d.parent == some f.source
  let due := fun o : Option (Nat × Int) => (o.filter fun q => q.1 == n).map (·.2)
  match f.kind with
  | .announce => let r := d.announce f; { dom := r.1, lost := r.2 }
  | .sync =>
    if !mine then { dom := d }
    else
      let t := rx - f.correction - asym - if f.twoStep then 0 else f.origin
      { dom := { d with syncRx := some (n, t) }, e := if f.twoStep then none else some (t - d.pathDelay) }
  | .followUp => match due d.syncRx with
    | some t =>
      let t1 := t - f.origin - f.correction
      if mine then { dom := { d with syncRx := some (n, t1) }, e := some (t1 - d.pathDelay) } else { dom := d }
    | none => { dom := d }
  | .delayResp => match due d.reqTx, d.syncRx with
    | some t3, some q =>
      if d.profile then { dom := { d with pathDelay := (q.2 + (f.origin - f.correction - t3)) / 2, reqTx := none } } else { dom := d }
    | _, _ => { dom := d }
  | .pdelayReq => { dom := { d with reqRx := some (n, rx) } }
  | .pdelayResp => match due d.reqTx with
    | some t1 =>
      if d.profile then { dom := d }
      else if f.twoStep then { dom := { d with respRx := some (n, rx - t1 + f.origin - f.correction - asym), reqTx := none } }
      else { dom := { d with pathDelay := (rx - t1 - f.correction - asym) / 2, reqTx := none } }
    | none => { dom := d }
  | .pdelayFollowUp => match due d.respRx with
    | some t => { dom := { d with pathDelay := (t - f.origin - f.correction) / 2, respRx := none } }
    | none => { dom := d }
  | .delayReq => { dom := d }
  | .other => { dom := d }

/-- A time port that has timestamped an event message: counted, and its timestamp given to the root firmware (R320). -/
def TimePort.stamp (q : TimePort) (sent : Bool) (f : PtpFrame) (time : Int) : TimePort :=
  if ptpEvent f.kind then
    { q with events := q.events + 1, stamps := q.stamps ++ [{ sent, kind := ptpCode f.kind, seqNo := f.seq.toNat, time }] }
  else q

/-- A frame at one tracker of its domain. -/
def State.trackerHears (s : State) (k : Nat) (rx asym : Int) (f : PtpFrame) : State :=
  let r := (SMap.get {} s.tb.domains k : Domain).receive rx asym f
  let s1 : State := { s with tb := { s.tb with domains := SMap.set {} s.tb.domains k r.dom } }
  let s2 := if r.lost then s1.loseSource k else s1
  match r.e with
  | some e => s2.measureDue k e
  | none => s2

/-- PTP_FRAME_RX (R308, R317–R320): discarded and counted, or timestamped and passed to the trackers of its domain; a message whose
interval is not supported goes to no tracker. -/
def execPtpFrameRx (p : Fin 2) (f : PtpFrame) (s : State) : Host.Outcome State Fault Refusal :=
  let q : TimePort := SMap.get {} s.tb.ports p
  let ds := (List.range 2).filter fun k => (SMap.get {} s.tb.domains k : Domain).follows p f
  let rx := rxStamp q (s.markTime f.mark)
  let put := fun q : TimePort => ({ s with tb := { s.tb with ports := SMap.set {} s.tb.ports p q } } : State)
  if s.timeOff then .next s
  else if !f.isPtp ∨ !f.fcsOk ∨ 1 < f.tags ∨ ds.isEmpty then .next (put { q with discard := satBump q.discard 1 })
  else
    let s1 := put (q.stamp false f rx)
    .next (if ptpInterval false f then ds.foldl (fun s k => s.trackerHears k rx q.delayAsym f) s1 else s1)

/-- What a message leaves with, its transmit timestamp being `t` (R320): a one-step Sync has SEC and NS of it as origin time and
adds FRAC to its correction; a Pdelay_Resp adds the turnaround time since `rx`. A request's correction is less by the delay
asymmetry (PRESUMED from IEEE 1588, log entry 38). -/
def stampFrame (f : PtpFrame) (t asym : Int) (rx : Option Int) : TimeVal × Int :=
  match f.kind with
  | .sync => (t.toNat / 65536 * 65536, f.correction + (t.toNat % 65536 : Nat))
  | .pdelayResp => (f.origin, f.correction + (t - rx.getD t))
  | .delayReq => (f.origin, f.correction - asym)
  | .pdelayReq => (f.origin, f.correction - asym)
  | _ => (f.origin, f.correction)

/-- PTP_FRAME_TX (R317, R319, R320): a message that a tracker sends leaves untagged and in one step, with its transmit timestamp put in
in line, the frame check sequence of the bytes so sent, and over UDP a checksum of 0. -/
def execPtpFrameTx (p : Fin 2) (f : PtpFrame) (s : State) : Host.Outcome State Fault Refusal :=
  let q : TimePort := SMap.get {} s.tb.ports p
  let t := txStamp q (s.markTime f.mark)
  let ds := (List.range 2).filter fun k =>
    (SMap.get {} s.tb.domains k : Domain).follows p f && (SMap.get {} s.tb.domains k : Domain).sends f.kind
  let ask := f.kind == .delayReq || f.kind == .pdelayReq
  let note := fun d : Domain => if ask then { d with reqTx := some (f.seq.toNat, t) } else d
  let rx := (ds.findSome? fun k => (SMap.get {} s.tb.domains k : Domain).reqRx.filter fun r => r.1 == f.seq.toNat).map (·.2)
  let z := stampFrame f t q.delayAsym rx
  if s.timeOff ∨ ds.isEmpty ∨ f.twoStep ∨ f.tags ≠ 0 ∨ !ptpInterval true f then .next s
  else
    let tb := { s.tb with
      ports := SMap.set {} s.tb.ports p (q.stamp true f t)
      domains := ds.foldl (fun m k => SMap.modify {} m k note) s.tb.domains }
    .next (({ s with tb } : State).emit (.ptp p (ptpCode f.kind) z.1 z.2 (if f.udp then some 0 else none) true))

/-! ## PPS pins (R328–R330) -/

/-- The offset of a time from the nearest second boundary; halfway, `up` picks the later one. -/
def fromSecond (up : Bool) (t : TimeVal) : Int :=
  let r := t % second
  if 2 * r < second ∨ (2 * r = second ∧ !up) then (r : Int) else (r : Int) - second

/-- PPS_IN_EDGE (R308, R328): an active edge `phase` ÷ 64 of a TIME cycle into the present one completes a measurement of source 2.
Halfway between two seconds the nearer one is a free value (log entry 2). -/
def execPpsInEdge (falling : Bool) (phase : Fin 64) (s : State) : Host.Outcome State Fault Refusal :=
  if falling ≠ s.tb.ctrl.falling ∨ s.timeOff then .next s
  else
    let t := s.markTime { phase }
    let r := if 2 * (t % second) = second then s.takeFree else (0, s)
    let e := fromSecond (r.1 % 2 == 1) t
    .next (({ r.2 with tb := r.2.tb.track 2 e } : State).measureDue 2 e)

/-- One pulse of a pin, or a skipped one (R330). Its edge is placed to 1/64 ns, rounded down (log entry 48). -/
def State.ppsPulse (s : State) (n : Nat) (p : PpsPin) (time : TimeVal) : State :=
  let t := time / 1024 * 1024
  let put := fun p : PpsPin => { s with tb := { s.tb with pps := SMap.set {} s.tb.pps n p } }
  if s.tb.st = .invalid then put p
  else if p.lastEnd ≠ 0 ∧ t < p.lastEnd + p.width * 65536 then put { p with skipped := satBump p.skipped 1 }
  else (put { p with lastEnd := t + p.width * 65536 } : State).emit (.pps n t p.width p.pol)

/-- PPS_OUT_PULSE (R329, R330): the pulse that a firing asks for, or the one of the last second boundary. A pin in MODE 0 is off. -/
def execPpsOutPulse (n : Fin 4) (s : State) : Host.Outcome State Fault Refusal :=
  let p : PpsPin := SMap.get {} s.tb.pps n
  if p.mode = 0 ∨ s.flt.halted ∨ s.timeOff then .next s
  else match p.want with
    | t :: rest => .next (s.ppsPulse n { p with want := rest } t)
    | [] => match p.lastEdge s.now with
      | none => .next s
      | some t => .next (if p.edge = some t then s else s.ppsPulse n { p with edge := some t } t)

/-! ## The latch, the lock and TBS.CTRL (R693, R696, R314, R315) -/

/-- A write of TBS.LATCH (R693): LT0 holds SEC[47:16], LT1 SEC[15:0] and FRAC, LT2 NS. -/
def State.latch (s : State) : State :=
  let w := timeWord s.now
  { s with tb := { s.tb with
    lt0 := BitVec.ofNat 32 (bitsOf w 64 32)
    lt1 := BitVec.ofNat 32 (bitsOf w 48 16 * 2 ^ 16 + bitsOf w 0 16)
    lt2 := BitVec.ofNat 32 (bitsOf w 16 30) } }

/-- TBS_LATCH (R693). -/
def execTbsLatch (s : State) : Host.Outcome State Fault Refusal := .next (if s.flt.halted || s.timeOff then s else s.latch)

/-- TBS_LOCK (R15, R696). -/
def execTbsLock (s : State) : Host.Outcome State Fault Refusal :=
  if s.flt.halted || s.timeOff then .next s else .next { s with tb := { s.tb with ctrl := { s.tb.ctrl with lock := true } } }

/-- Replaces TBS.CTRL: the sources whose enable bits are cleared lose qualification together (R314). -/
def TimeBase.setCtrl (t : TimeBase) (c : TbCtrl) : TimeBase :=
  let gone := (List.range 4).filter fun k => bitAt t.ctrl.srcEn.toNat k && !bitAt c.srcEn.toNat k
  ({ t with ctrl := c } : TimeBase).loseAll gone

/-- A write of TBS.CTRL (R15, R314, R315). -/
def State.writeTbs (s : State) (v : Word) : State :=
  let c := s.tb.ctrl
  let n := v.toNat
  let c1 : TbCtrl := if c.lock then c else
    { c with srcEn := BitVec.ofNat 4 (bitsOf n 24 4), primary := BitVec.ofNat 2 (bitsOf n 22 2), revert := bitAt n 21
             falling := bitAt n 20 }
  { s with tb := s.tb.setCtrl { c1 with lock := c.lock || bitAt n 31 } }

/-- TBS_CTRL_WRITE (R15, R314, R315). -/
def execTbsCtrlWrite (v : Word) (s : State) : Host.Outcome State Fault Refusal := .next (if s.flt.halted || s.timeOff then s else s.writeTbs v)

end Sys2Proof.Machine
end

