-- ==== Sys2Proof/Machine/Bridge.lean ====
section
/-!
DEFINITION. Bridges and the PLLs of compute dies (R20–R28, R35, R36, R592, R593, R604, R605).
-/
namespace Sys2Proof.Machine

/-- One direction of a bridge. -/
def State.bridge (s : State) (k : Nat) : BridgeDir := SMap.get {} s.fab.bridges k

/-- Replaces one direction of a bridge. -/
def State.setBridge (s : State) (k : Nat) (x : BridgeDir) : State :=
  { s with fab := { s.fab with bridges := SMap.set {} s.fab.bridges k x } }

/-- LOC of a wire of a group (R618). -/
def wireLoc (b d g w : Nat) : BitVec 32 := BitVec.ofNat 32 (b * 2 ^ 26 + g * 2 ^ 19 + w * 2 ^ 14 + d * 2 ^ 13)

/-- A group of a direction is retired and its role, if it has one, moves to a reserve group; with the reserve group (R23). A reserve
group that served in another's place hands that one's role on; an idle one has no role to move. -/
def BridgeDir.retire (x : BridgeDir) (key g : Nat) : BridgeDir × Option Nat :=
  let y := { x with retired := x.retired ++ [g], moved := SMap.set none x.moved g none }
  let role := if (reserveGroups key).contains g then SMap.get none x.moved g else some g
  match role, (reserveGroups key).find? fun r => !y.retired.contains r && (SMap.get none x.moved r).isNone with
  | some o, some r => ({ y with moved := SMap.set none y.moved r (some o) }, some r)
  | _, _ => (y, none)

/-- The role that a group of a direction has now: none once it is retired (R21–R23). -/
def BridgeDir.role (x : BridgeDir) (key g : Nat) : Option GroupRole :=
  if x.retired.contains g then none
  else match SMap.get none x.moved g with
    | some o => some (groupRole key o)
    | none => some (groupRole key g)

/-- A replacement takes effect: of a wire by its group's spare wire, or of a group (R22, R23). -/
def BridgeDir.replace (x : BridgeDir) (key : Nat) (r : Nat × Nat × Nat) : BridgeDir :=
  if r.1 = 2 then { x with wires := SMap.set none x.wires r.2.1 (some r.2.2) } else (x.retire key r.2.1).1

/-- A direction as it will be once the waiting replacements have taken effect (R25). -/
def BridgeDir.planned (x : BridgeDir) (key : Nat) : BridgeDir := { x.waiting.foldl (fun x r => x.replace key r) x with waiting := [] }

/-- A record of a replacement in a direction, of class 0 where a bucket crossing asked for it (R588, R617). -/
def State.replaced (s : State) (crossed : Bool) (r : FaultRec) : State := if crossed then s.faultRecord r else s

/-- A wire must be replaced: by its group's spare wire, then by retiring the group, then not at all, `sudden` telling a failure from
a bucket crossing (R22–R24, R593), each at the next calender frame boundary (R25). Wire 16 is the spare wire: failed while unused it is
out, and nothing is substituted (DESIGN CHOICE, log entry 98). A wire that is replaced already, or will be, asks for nothing more. -/
def State.replaceWire (s : State) (b d g w : Nat) (sudden : Bool) : State :=
  let k := 2 * b + d
  let x := s.bridge k
  let y := x.planned k
  if y.retired.contains g ∨ SMap.get none y.wires g = some w then s
  else if SMap.get none y.wires g = none then
    if w = 16 then s.setBridge k { x with wires := SMap.set none x.wires g (some w) }
    else (s.setBridge k { x with waiting := x.waiting ++ [(2, g, w)] }).replaced (!sudden)
      { kind := 2, cls := 0, action := 2, loc := wireLoc b d g w, spare := wireLoc b d g 16 }
  else if y.retired.length < 2 then
    (s.setBridge k { x with waiting := x.waiting ++ [(3, g, 0)] }).replaced (!sudden)
      { kind := 3, cls := 0, action := 2, loc := wireLoc b d g 0
        spare := match (y.retire k g).2 with
          | some j => wireLoc b d j 0
          | none => 0xFFFFFFFF }
  else if sudden then s.deviceFatal 1 3 (wireLoc b d g 0)
  else s.spareLow 1 ((k * 96 + g) * 17 + w) 0 (wireLoc b d g w)

/-- BRIDGE_WIRE_FAILURE (R22–R24). -/
def execBridgeWireFailure (b : Fin 40) (d : Fin 2) (g : Fin 96) (w : Fin 17) (s : State) : Host.Outcome State Fault Refusal :=
  .next (s.replaceWire b d g w true)

/-- BRIDGE_SUBSTITUTION (R25, R596): at a calender frame boundary the waiting substitutions take effect; each is a repair to burn. -/
def execBridgeSubstitution (b : Fin 40) (d : Fin 2) (s : State) : Host.Outcome State Fault Refusal :=
  let k := 2 * b.val + d.val
  let x := s.bridge k
  if !s.frameBoundary then .next s
  else .next (x.waiting.foldl (fun s r => s.noteRepair r.1 (wireLoc b d r.2.1 r.2.2)) (s.setBridge k (x.planned k)))

/-- FLIT_RETRANSMIT (R26, R591, R592): counted; where the check locates the wire, in the wire's bucket. -/
def execFlitRetransmit (b : Fin 40) (d : Fin 2) (g : Fin 96) (w : Option (Fin 17)) (s : State) :
    Host.Outcome State Fault Refusal :=
  let k := 2 * b.val + d.val
  let x := s.bridge k
  let s1 := s.setBridge k { x with retransmits := x.retransmits + 1 }
  match w with
  | none => .next s1
  | some w =>
    let r := s1.addBucket 1 ((k * 96 + g) * 17 + w) 1
    .next (if r.2 then r.1.replaceWire b d g w false else r.1)

/-- A compute die's PLLs. -/
def State.die (s : State) (k : Nat) : DieSt := SMap.get {} s.fab.dies k

/-- Replaces a compute die's PLLs. -/
def State.setDie (s : State) (k : Nat) (x : DieSt) : State :=
  { s with fab := { s.fab with dies := SMap.set {} s.fab.dies k x } }

/-- The clusters of a compute die. -/
def dieClusters (k : Nat) : List Nat := (List.range 44).map (44 * k + ·)

/-- The images with a cluster on a die. -/
def State.imagesOn (s : State) (k : Nat) : List Nat :=
  (s.images.filter fun p => p.2.clusters.any fun c => c / 44 == k && decide (c < 880)).map (·.1)

/-- LOC of an arithmetic PLL (R618). -/
def pllLoc (k : Nat) (spare : Bool) : BitVec 32 := BitVec.ofNat 32 (k + 32 * bitN spare)

/-- PLL_LOCK_LOSS (R35, R36, R388, R605): the die stops to switch to its spare PLL; when that one is lost too, in use or still being
switched to, every cluster of the die is fenced. -/
def execPllLockLoss (k : Fin 20) (s : State) : Host.Outcome State Fault Refusal :=
  let x := s.die k
  if x.pllLost && x.spareInUse then .next s
  else if x.pllLost || x.spareInUse then
    let s1 := ((s.setDie k { x with pllLost := true, spareInUse := true }).faultRecord
      { kind := 7, cls := 1, action := 1, loc := pllLoc k true }).noteRepair 7 (pllLoc k true)
    .next (s1.fenceAll (dieClusters k) 6 0)
  else
    let s1 := ((s.setDie k { x with pllLost := true }).faultRecord
      { kind := 7, cls := 1, action := 2, loc := pllLoc k false, spare := pllLoc k true }).noteRepair 7 (pllLoc k false)
    let ps := ((s1.imagesOn k).filter fun h => (s1.image h).kind == 1).flatMap fun h =>
      ((s1.image h).clusters.filter fun c => c / 44 == k.val).flatMap (s1.pipesServed h)
    .next (ps.eraseDups.foldl (fun s p => s.haltPipe p 1) s1)

/-- PLL_SWITCH_COMPLETE (R35, R36): the clusters run again, and the sheets that the switch interrupted are replayed. -/
def execPllSwitchComplete (k : Fin 20) (s : State) : Host.Outcome State Fault Refusal :=
  let x := s.die k
  if !x.pllLost || x.spareInUse then .next s
  else
    let s1 := s.setDie k { pllLost := false, spareInUse := true }
    let hs := (s1.imagesOn k).filter fun h => (s1.image h).kind != 1 && (s1.image h).sheet.active
    .next (hs.foldl State.recover (hs.foldl State.interruptSheet s1))

end Sys2Proof.Machine
end

