-- ==== Sys2Proof/Machine/Faults.lean ====
section
/-!
DEFINITION. Buckets, fencing and moving clusters, spares in BIST, repair fuses, service cores (R591–R609, R604 for the MC PLL).
-/
namespace Sys2Proof.Machine

/-- BUCKET_LEAK (R591): at the end of a LEAK period every level of bucket `k` above 0 falls by 1. -/
def execBucketLeak (k : Fin 5) (s : State) : Host.Outcome State Fault Refusal :=
  let fall := fun p : Nat × BitVec 16 =>
    if p.1 / 2 ^ 18 ≠ k.val then some p else if p.2.toNat ≤ 1 then none else some (p.1, p.2 - 1)
  .next { s with flt := { s.flt with buckets := s.flt.buckets.filterMap fall } }

/-- CLUSTER_FENCE (R590, R594, R599, R603). -/
def execClusterFence (c : ClusterId) (cause : Fin 9) (t : TileId) (s : State) : Host.Outcome State Fault Refusal :=
  .next (if cause.val = 0 then s else s.fence c cause t)

/-- SPARE_BIST_COMPLETE (R595): the spare enters service and its image recovers, or it is fenced and the next one is called. -/
def execSpareBistComplete (c : ClusterId) (pass : Bool) (s : State) : Host.Outcome State Fault Refusal :=
  match s.svc.bist.find? fun b => b.spare == c.val with
  | none => .next s
  | some b =>
    let heal := fun (s : State) => match b.owner with
      | none => s
      | some o => if b.move then s else s.recover o.1.toNat
    let h := ((b.owner.map (·.1)).getD 0)
    let tile := (((s.image h.toNat).lost.find? fun p => p.1 == b.failed).map (·.2)).getD 0
    let detail := BitVec.ofNat 32 ((s.cl b.failed).regs.faultCause.toNat + 2 ^ 4 * tile)
    if pass then
      let s1 : State := { s with svc := { s.svc with bist := s.svc.bist.filter fun x => x.spare != c.val } }
      let s2 := (s1.setService c .inService).setCl c { s1.cl c with st := if s1.pwr.st = .trim then .off else .idle }
      .next (heal (s2.faultRecord { kind := 1, cls := if b.move then 0 else 1, action := 2, handle := h, loc := clusterLoc b.failed,
                                    spare := clusterLoc c, detail, ring := BitVec.ofNat 16 (s.imageRing h.toNat) }))
    else
      let s1 := ((s.takeOut c 7).faultRecord { kind := 1, cls := 1, action := 1, loc := clusterLoc c, detail := 7 }).noteRepair 1
        (clusterLoc c)
      .next (heal (s1.dropBist c))

/-- FUSE_BURN (R596): the oldest unburned repair takes one of 512 fuse entries. -/
def execFuseBurn (s : State) : Host.Outcome State Fault Refusal :=
  match s.flt.unburned with
  | [] => .next s
  | r :: rest =>
    if s.flt.fuses < 512 then
      let n := s.flt.fuses + 1
      .next { s with flt := { s.flt with
        unburned := rest, repairs := s.flt.repairs ++ [r], fuses := n, fuseFull := s.flt.fuseFull || decide (512 ≤ n) } }
    else .next { s with flt := { s.flt with unburned := rest, fuseFull := true } }

/-- Whether the clusters of an image allow a move of one of them: all IDLE or DRAINED between sheets, or for a trigger image the
pipelines it serves halted, idle or stopped (R602). -/
def State.moveReady (s : State) (h c : Nat) : Bool :=
  let im := s.image h
  if im.kind = 1 then
    (s.pipesServed h c).all fun p => (s.pipe p).st != .warm && (s.pipe p).st != .live && !(s.pipe p).starting
  else !im.sheet.active && im.clusters.all fun d => (s.cl d).st == .idle || (s.cl d).st == .drained

/-- Moves the virtual cluster of `c` to another cluster and fences `c`, with what that does to the routes through it (R219, R598, R599,
R602, R734); without a mapping it stays. -/
def State.moveCluster (s : State) (h c : Nat) : State :=
  let im := s.image h
  let v := (im.map.findIdx? (· == some c)).getD 0
  let s0 : State := { s with svc := { s.svc with moves := s.svc.moves.filter (· != c) } }
  let hit := (s0.snapshot c).breakRoutes c (some h) []
  let s1 := hit.1.setService c .fenced
  let im1 := s1.image h
  match (s1.setImage h { im1 with map := im1.map.set v none }).remap h s1.linkBroken with
  | none => s0.spareLow 0 c s.sparesLeft (clusterLoc c)
  | some s2 =>
    let d := ((s2.image h).map.getD v none).getD c
    let s3 := s2.giveCluster h v d
    let x := s3.cl d
    let s4 := s3.setCl d { x with regs := { x.regs with sheetCount := BitVec.ofNat 32 (im.sheets - 1) } }
    let s5 := s4.restoreCluster h v d
    let s6 := ((((s5.patchXy h).vatReread h).takeOut c 8).faultRecord
      { kind := 1, cls := 0, action := 4, handle := BitVec.ofNat 16 h, loc := clusterLoc c, spare := clusterLoc d, detail := 8
        ring := BitVec.ofNat 16 (s.imageRing h) }).noteRepair 1 (clusterLoc c)
    hit.2.foldl State.recover s6

/-- CLUSTER_MOVE (R602): a requested move takes place at the next idle point, once its spare is in service; a cluster that its image has
released meanwhile is fenced. -/
def execClusterMove (c : ClusterId) (s : State) : Host.Outcome State Fault Refusal :=
  let h := (s.cl c).regs.handle.toNat
  if !s.svc.moves.contains c.val || (s.svc.bist.any fun b => b.failed == c.val) then .next s
  else if !s.loaded h then
    .next (({ s with svc := { s.svc with moves := s.svc.moves.filter (· != c.val) } } : State).fenceUnowned c 0xFFFFFFFF)
  else if s.moveReady h c then .next (s.moveCluster h c)
  else .next s

/-- CORRECTED_SRAM_ERROR (R591–R593, R602): one more in the cluster's bucket; a crossing requests its move. -/
def execCorrectedSramError (c : ClusterId) (s : State) : Host.Outcome State Fault Refusal :=
  let r := s.addBucket 0 c 1
  .next (if r.2 then r.1.requestMove c else r.1)

/-! ## Service cores (R606–R608) -/

/-- Sets the state of a service core. -/
def State.setCore (s : State) (k : Nat) (v : CoreSt) : State :=
  { s with svc := { s.svc with cores := SMap.set (if k < 2 then CoreSt.active else CoreSt.spare) s.svc.cores k v } }

/-- The core that holds a role: core 0 role 0, core 1 role 1 at the start (R606). -/
def State.roleCore (s : State) (r : Nat) : Nat := SMap.get r s.svc.roles r

/-- Gives a role to a core. -/
def State.giveRole (s : State) (r k : Nat) : State := { s with svc := { s.svc with roles := SMap.set r s.svc.roles r k } }

/-- The roles of a core. -/
def State.rolesOf (s : State) (k : Nat) : List Nat := (List.range 2).filter fun r => s.roleCore r == k

/-- CHECKPOINT (R606): the active core of a role writes its checkpoint. -/
def execCheckpoint (role : Fin 2) (s : State) : Host.Outcome State Fault Refusal :=
  if s.core (s.roleCore role) = .active then
    .next { s with svc := { s.svc with checkpoints := SMap.modify 0 s.svc.checkpoints role (· + 1) } }
  else .next s

/-- LOC of a service core (R618). -/
def coreLoc (k : Nat) : BitVec 32 := BitVec.ofNat 32 k

/-- Take-over of the roles of an active core for a cause: 1 uncorrectable, 2 watchdog, 3 bucket (R607, R608). With no core left the
error is device-fatal. -/
def State.takeOver (s : State) (k cause : Nat) : State :=
  let heir := match (List.range 3).find? fun j => s.core j == .spare with
    | some j => some j
    | none => (List.range 3).find? fun j => j != k && s.core j == .active
  match heir with
  | none => (s.setCore k CoreSt.fenced).deviceFatal 2 9 (coreLoc k)
  | some j =>
    let roles := s.rolesOf k
    let s1 := roles.foldl (fun (s : State) r => s.giveRole r j) ((s.setCore k CoreSt.fenced).setCore j CoreSt.active)
    let s2 := (s1.faultRecord { kind := 9, cls := if cause = 3 then 0 else 1, action := 7, loc := coreLoc k, spare := coreLoc j }).noteRepair
      9 (coreLoc k)
    roles.foldl (fun s r => s.postEvent 0x0042 noRing 0 (k + 2 ^ 2 * j + 2 ^ 4 * cause + 2 ^ 8 * r)) s2

/-- CORE_WATCHDOG (R606–R608). -/
def execCoreWatchdog (core : Fin 3) (s : State) : Host.Outcome State Fault Refusal :=
  .next (if s.core core = .active then s.takeOver core 2 else s)

/-- SERVICE_CORE_ERROR (R592, R593, R607, R608). A spare core with an uncorrectable error is fenced. -/
def execServiceCoreError (core : Fin 3) (corrected : Bool) (s : State) : Host.Outcome State Fault Refusal :=
  if corrected then
    let r := s.addBucket 4 core 1
    .next (if r.2 && r.1.core core == .active then
        if r.1.spareCore then r.1.takeOver core 3 else r.1.spareLow 4 core 0 (coreLoc core)
      else r.1)
  else if s.core core = .active then .next (s.takeOver core 1)
  else if s.core core = .spare then
    .next (((s.setCore core .fenced).faultRecord { kind := 9, cls := 1, action := 1, loc := coreLoc core }).noteRepair 9 (coreLoc core))
  else .next s

/-! ## The MC PLL (R604) -/

/-- MC_PLL_LOSS (R274, R604): the quarter is withdrawn, and the edge die's stock groups and Xomos ports leave ACTIVE. -/
def execMcPllLoss (e : Fin 4) (s : State) : Host.Outcome State Fault Refusal :=
  let loc : BitVec 32 := BitVec.ofNat 32 e
  let s1 := if (s.quarter e).withdrawn then s else (s.withdraw e 8 loc).noteRepair 8 loc
  let groups := (List.range 4).map (4 * e.val + ·) ++ [16 + 2 * e.val, 17 + 2 * e.val]
  .next (groups.foldl (fun s g =>
    let y := s.group g
    if y.st = .active then s.moveGroup g 3 { y with st := .detect } else s) s1)

end Sys2Proof.Machine
end

