-- ==== Sys2Proof/Machine/Lanes.lean ====
section
/-!
DEFINITION. Serial lanes: lock, training, spares and electrical idle (spec 08; R592, R593, R596, R604 for lanes).
-/
namespace Sys2Proof.Machine

/-- Data lanes of a group (R275). -/
def dataLanes (g : Nat) : Nat := if g < 16 then 4 else if g < 24 then 16 else 1

/-- Whether a group has a spare lane and a clock lane: time ports have neither (R275). -/
def hasSpare (g : Nat) : Bool := decide (g < 24)

/-- The spare lane of a group. -/
def spareOf (g : Nat) : Nat := dataLanes g

/-- The forwarded clock lane of a group. -/
def clockOf (g : Nat) : Nat := dataLanes g + 1

/-- A lane of a group. -/
def LnpGroup.lane (x : LnpGroup) (l : Nat) : Lane := SMap.get {} x.lanes l

/-- Replaces a lane of a group. -/
def LnpGroup.setLane (x : LnpGroup) (l : Nat) (y : Lane) : LnpGroup := { x with lanes := SMap.set {} x.lanes l y }

/-- The lanes that carry the data of a group: the data lanes, the spare in place of the one it replaces. -/
def LnpGroup.inUse (x : LnpGroup) (g : Nat) : List Nat :=
  (List.range (dataLanes g)).map fun l => if x.spareUsed && x.spareFor.toNat == l then spareOf g else l

/-- The group where every lane in use passes, or one fails and the free spare passes and replaces it (R300). -/
def LnpGroup.repair (x : LnpGroup) (g : Nat) (ok : Lane → Bool) : Option LnpGroup :=
  match (x.inUse g).filter fun l => !ok (x.lane l) with
  | [] => some x
  | [l] =>
    if hasSpare g && !x.spareUsed && ok (x.lane (spareOf g)) then some { x with spareUsed := true, spareFor := BitVec.ofNat 5 l }
    else none
  | _ => none

/-- LOC of a lane in its receive direction (R618). -/
def laneLoc (g l : Nat) : BitVec 32 := BitVec.ofNat 32 (g * 2 ^ 27 + l * 2 ^ 22 + 2 ^ 21)

/-- Notes a lane replaced by its spare: the fault record and the repair to burn (R596, R604, R617). -/
def State.laneReplaced (s : State) (g l cls : Nat) : State :=
  (s.faultRecord { kind := 4, cls := BitVec.ofNat 4 cls, action := 2, loc := laneLoc g l, spare := laneLoc g (spareOf g) }).noteRepair 4
    (laneLoc g l)

/-- Puts a group into a state of training, and notes a replacement made on the way (R300). -/
def State.trainTo (s : State) (g : Nat) (y : LnpGroup) : State :=
  let s1 := s.moveGroup g 3 y
  if y.spareUsed && !(s.group g).spareUsed then s1.laneReplaced g y.spareFor.toNat 1 else s1

/-- A group at the start of an attempt, in `st`: base rate, no lane locked (R296). -/
def LnpGroup.unlock (x : LnpGroup) (st : GState) : LnpGroup :=
  { x with
    st, rate := 0, peer := {}, readySeen := false, phase := .none, txSpare := none, txPending := none
    txIdle := false, idleHeld := false
    lanes := x.lanes.map fun p => (p.1, { p.2 with lock := false, desk := false, swept := false, bad := false, fresh := false }) }

/-- Whether the clock lane of a group has no signal: its failure takes the group down (R277). -/
def LnpGroup.dark (x : LnpGroup) (g : Nat) : Bool := hasSpare g && (x.lane (clockOf g)).los

/-- DETECT with its exit taken at once where LOS is deasserted on the clock lane and on the lanes in use (R296, R300). -/
def LnpGroup.detect (x : LnpGroup) (g : Nat) : LnpGroup :=
  if x.dark g then x
  else match x.repair g fun l => !l.los with
    | some y => { y with st := .baseAcq }
    | none => x

/-- A group at DETECT for a new training: no rate has failed, and a stock group needs its join handshake again (R296, R344). -/
def State.toDetect (s : State) (g : Nat) (x : LnpGroup) : State :=
  let y := ({ x.unlock .detect with failed := 0, joined := false } : LnpGroup)
  let s1 := s.moveGroup g 3 { y with st := .detect }
  let s2 := if g < 16 then s1.setPartner g { s1.partner g with present := false } else s1
  s2.trainTo g (y.detect g)

/-- A group that its training leads on; it does not stay ACTIVE with a clock lane that has failed (R277, R296). -/
def State.trainOn (s : State) (g : Nat) (y : LnpGroup) : State :=
  if y.st = .active ∧ y.dark g then (s.setGroup g y).toDetect g y else s.trainTo g y

/-- Errors of a lane while its group is ACTIVE add to its bucket (R592); where it crosses, a lane that the free spare can replace waits
for a SPARE request, and SPARE_LOW is posted for another (R301, R302, R593). -/
def State.laneErrors (s : State) (g l n : Nat) : State :=
  (List.range n).foldl (fun s _ =>
    let x := s.group g
    if x.st ≠ .active then s
    else
      let r := s.addBucket 2 (18 * g + l) 1
      if !r.2 then r.1
      else if hasSpare g && !x.spareUsed && (x.inUse g).contains l then r.1.setGroup g (x.setLane l { x.lane l with bad := true })
      else r.1.spareLow 2 (18 * g + l) 0 (laneLoc g l)) s

/-- A lane that loses its lock over `n` errors, which count in its bucket too (R592); in use in ACTIVE, it takes the group to DETECT (R296). -/
def State.lockLost (s : State) (g l : Nat) (y : Lane) (n : Nat) : State :=
  let x := s.group g
  let s1 := ((s.unheard g).setGroup g (x.setLane l y)).laneErrors g l n
  if x.st = .active ∧ (x.inUse g).contains l then s1.toDetect g (s1.group g) else s1

/-- BLOCK_HUNT ends with lock and deskew on every lane in use. A lane that has failed is replaced by a spare that has both, once
the others have both (R296, R300). -/
def LnpGroup.hunted (x : LnpGroup) (g : Nat) : LnpGroup :=
  let good := fun l : Lane => l.lock && l.desk && !l.bad
  if x.st ≠ .blockHunt ∨ !(x.inUse g).all (fun l => good (x.lane l) || (x.lane l).bad) then x
  else match x.repair g good with
    | some y => { y with st := .eq }
    | none => x

/-- LNP_ENABLE (R277, R296): the group leaves OFF and its lane counters are cleared. -/
def execLnpEnable (g : Fin 26) (s : State) : Host.Outcome State Fault Refusal :=
  let x := s.group g
  if s.flt.halted ∨ (16 ≤ g.val ∧ g.val < 24 ∧ !s.xms.regs.enable) then .next s
  else if x.st ≠ .off then .next (s.setGroup g { x with enable := true })
  else
    let clear := fun l : Lane => { l with hdrErr := 0, codeErr := 0, losEvt := 0, lolEvt := 0, stuffLate := 0, stuffErr := 0 }
    .next (s.toDetect g { x with enable := true, attempts := 0, lanes := x.lanes.map fun p => (p.1, clear p.2) })

/-- LNP_DISABLE (R296, R302): the group goes to OFF, and its spare is free again. -/
def execLnpDisable (g : Fin 26) (s : State) : Host.Outcome State Fault Refusal :=
  let x := s.group g
  let y := ({ x.unlock .off with enable := false, spareUsed := false, spareFor := 0, failed := 0, joined := false } : LnpGroup)
  let s1 := s.moveGroup g 3 y
  .next (if s.flt.halted then s else if g.val < 16 then s1.setPartner g { s1.partner g with present := false } else s1)

/-- LNP_RETRAIN (R296): from FAIL or ACTIVE to DETECT. -/
def execLnpRetrain (g : Fin 26) (s : State) : Host.Outcome State Fault Refusal :=
  let x := s.group g
  .next (if (x.st = .fail ∨ x.st = .active) ∧ !s.flt.halted then s.toDetect g x else s)

/-- Whether a SPARE request is outstanding in the transmit direction: its frame F has not passed (R303). -/
def LnpGroup.spareOutstanding (x : LnpGroup) : Bool :=
  x.txPending.any fun f => x.txFrame == f || decide (32768 ≤ (x.txFrame - f).toNat)

/-- LNP_EIDLE_ENTER (R303, R304): the transmitter goes to electrical idle, after an outstanding SPARE request of its direction. -/
def execLnpEidleEnter (g : Fin 26) (s : State) : Host.Outcome State Fault Refusal :=
  let x := { s.group g with eidleReq := true }
  let up := hasSpare g && (x.st == .active || x.st == .eidle)
  .next (if s.flt.halted then s else s.setGroup g (if !up then x else if x.spareOutstanding then { x with idleHeld := true } else { x with txIdle := true }))

/-- The transmitter of a group leaves electrical idle: 128 slots of BURST, and then a new frame (R305). -/
def LnpGroup.leaveIdle (x : LnpGroup) : LnpGroup :=
  if x.txIdle then { x with txIdle := false, txBits := 0, txBurst := 128 } else x

/-- LNP_EIDLE_EXIT (R305): the transmitter sends its BURST and resumes frames. -/
def execLnpEidleExit (g : Fin 26) (s : State) : Host.Outcome State Fault Refusal :=
  .next (if s.flt.halted then s else s.setGroup g { (s.group g).leaveIdle with eidleReq := false, idleHeld := false })

/-- LOS_ASSERT (R277, R295, R296, R304): counted; on the clock lane, or in ACTIVE on a lane in use, an ACTIVE or idle group goes to
DETECT. -/
def execLosAssert (g : Fin 26) (l : Fin 18) (s : State) : Host.Outcome State Fault Refusal :=
  let x := s.group g
  let y := x.lane l
  if y.los ∨ groupLanes g ≤ l.val then .next s
  else
    let x1 := x.setLane l { y with los := true, losEvt := satBump y.losEvt 1 }
    let clock := hasSpare g && l.val == clockOf g
    .next (if (x.st = .active ∧ (clock || (x.inUse g).contains l.val)) ∨ (x.st = .eidle ∧ clock) then
        (s.setGroup g x1).toDetect g x1
      else s.setGroup g x1)

/-- LOS_DEASSERT (R295, R296, R300): in DETECT the last one needed takes the group to BASE_ACQ. -/
def execLosDeassert (g : Fin 26) (l : Fin 18) (s : State) : Host.Outcome State Fault Refusal :=
  let x := s.group g
  if groupLanes g ≤ l.val then .next s
  else
    let x1 := x.setLane l { x.lane l with los := false }
    .next (if x.st = .detect then s.trainTo g (x1.detect g) else s.setGroup g x1)

/-- BASE_LINK: a time port is ACTIVE as its lock is held (R296). -/
def LnpGroup.enterLink (x : LnpGroup) (g : Nat) : LnpGroup :=
  { x with st := if hasSpare g then .baseLink else .active, peer := {} }

/-- CHARACTER_LOCK (R279, R296). -/
def execCharacterLock (g : Fin 26) (l : Fin 18) (s : State) : Host.Outcome State Fault Refusal :=
  let x := s.group g
  let y := x.lane l
  if y.los ∨ groupLanes g ≤ l.val ∨ x.st = .off ∨ x.rate ≠ 0 ∨ (hasSpare g && l.val == clockOf g) then .next s
  else
    let x1 := x.setLane l { y with lock := true }
    .next (if x.st = .baseAcq ∧ (x1.inUse g).all (fun k => (x1.lane k).lock) then s.trainTo g (x1.enterLink g) else s.setGroup g x1)

/-- CHARACTER_LOCK_LOSS (R279, R295, R296): errors are counted, and 8 of them in 64 characters lose the lock. -/
def execCharacterLockLoss (g : Fin 26) (l : Fin 18) (errs : Fin 65) (s : State) : Host.Outcome State Fault Refusal :=
  let x := s.group g
  let y := x.lane l
  if groupLanes g ≤ l.val ∨ x.st = .off ∨ x.rate ≠ 0 then .next s
  else
    let y1 := { y with codeErr := satBump y.codeErr errs }
    if y.lock ∧ 8 ≤ errs.val then
      .next (s.lockLost g l { y1 with lock := false, lolEvt := satBump y.lolEvt 1 } errs)
    else .next (((s.unheard g).setGroup g (x.setLane l y1)).laneErrors g l errs)

/-- BASE_ACQ_TIMEOUT (R296, R300): one lane without lock is replaced by the spare; else ATTEMPTS rises and DETECT follows. -/
def execBaseAcqTimeout (g : Fin 26) (s : State) : Host.Outcome State Fault Refusal :=
  let x := s.group g
  if x.st ≠ .baseAcq then .next s
  else match x.repair g (·.lock) with
    | some y => .next (s.trainTo g (y.enterLink g))
    | none => .next (s.trainTo g (({ x.unlock .detect with attempts := satBump x.attempts 1 } : LnpGroup).detect g))

/-! ## Negotiation (R281, R297, R298) -/

/-- The rate codes that both sides allow and neither has failed (R297), highest first. -/
def LnpGroup.rates (x : LnpGroup) : List Nat :=
  [4, 3, 2, 1].filter fun k => bitAt (x.rateMask &&& x.peer.rates &&& ~~~x.failed &&& ~~~x.peer.failed).toNat (k - 1)

/-- BASE_LINK ends with the peer's CAPS and, for a stock group, the join handshake: the first offer, or FAIL (R296, R297). -/
def LnpGroup.negotiate (x : LnpGroup) (g : Nat) : LnpGroup :=
  if x.st = .baseLink ∧ x.peer.seen ∧ (16 ≤ g ∨ x.joined) then
    match x.rates with
    | [] => { x with st := .fail }
    | k :: _ => { x with st := .negotiate, offer := BitVec.ofNat 3 k }
  else x

/-- CAPS (R280, R281, R296, R297, R300). -/
def execCaps (g : Fin 26) (m : CapsMsg) (s : State) : Host.Outcome State Fault Refusal :=
  let x := s.group g
  if x.st ≠ .baseLink ∨ !hasSpare g then .next (s.unheard g)
  else
    let peer : PeerCaps :=
      { seen := true, role := m.role, rates := m.rates.setWidth 4, lanes := m.lanes, spare := m.spare, failed := m.failed.setWidth 4 }
    let tx := if bitAt m.spare.toNat 7 then some (bitsOf m.spare.toNat 0 5) else none
    .next (s.trainTo g (({ x with peer, txSpare := tx } : LnpGroup).negotiate g))

/-- OFFER (R280, R296, R297): a lower offer lowers the own one; offers that agree lead to STEP. -/
def execOffer (g : Fin 26) (rate : Fin 8) (s : State) : Host.Outcome State Fault Refusal :=
  let x := s.group g
  if x.st ≠ .negotiate ∨ rate.val = 0 ∨ 4 < rate.val ∨ x.offer.toNat < rate.val then .next (s.unheard g)
  else .next (s.trainTo g { x with offer := BitVec.ofNat 3 rate, st := .step })

/-- The receiver at the offered rate: it hunts for blocks, each lane at its peaking of the lane tables (R293, R296, R298). -/
def LnpGroup.switchRate (x : LnpGroup) : LnpGroup :=
  { x with
    st := .blockHunt, rate := x.offer, readySeen := false
    lanes := x.lanes.map fun p =>
      (p.1, { p.2 with lock := false, desk := false, swept := false, bad := false, fresh := false, peak := p.2.start }) }

/-- STEP (R296, R298): the copy with countdown 0 switches the receiver. -/
def execStep (g : Fin 26) (rate : Fin 8) (count : Fin 64) (s : State) : Host.Outcome State Fault Refusal :=
  let x := s.group g
  .next (if x.st = .step ∧ count.val = 0 ∧ rate.val = x.offer.toNat then s.trainTo g x.switchRate else s.unheard g)

/-- RATE_SWITCH_TIMEOUT (R298). -/
def execRateSwitchTimeout (g : Fin 26) (s : State) : Host.Outcome State Fault Refusal :=
  let x := s.group g
  .next (if x.st = .step then s.trainTo g x.switchRate else s)

/-! ## Block mode (R286, R291, R294, R296) -/

/-- Whether a header is invalid, or its block held removed stuff bits of the wrong value (R282, R284). -/
def headBad (h : BitVec 2 × Fin 5) : Bool := h.1 == 0 || h.1 == 3 || h.2 != 0

/-- The counters of a lane after some headers: every wrong stuff bit counts (R284, R286). -/
def Lane.countHeads (y : Lane) (hs : List (BitVec 2 × Fin 5)) : Lane :=
  { y with hdrErr := satBump y.hdrErr (hs.countP headBad), stuffErr := satBump y.stuffErr (hs.foldl (fun n h => n + h.2.val) 0) }

/-- The headers that follow the first 64 valid ones in a row at one candidate boundary (R286). -/
def lockRest (hs : List (BitVec 2 × Fin 5)) : Option (List (BitVec 2 × Fin 5)) :=
  ((List.range (hs.length - 63)).find? fun k => ((hs.drop k).take 64).all (!headBad ·)).map fun k => hs.drop (k + 64)

/-- BLOCK_LOCK (R284, R286, R296): 64 valid headers in a row lock the lane, and the first block after them is discarded. A lane that
has tried 98 candidates without lock has failed (log entry 36). -/
def execBlockLock (g : Fin 26) (l : Fin 18) (hs : List (BitVec 2 × Fin 5)) (s : State) : Host.Outcome State Fault Refusal :=
  let x := s.group g
  let y := x.lane l
  if groupLanes g ≤ l.val ∨ x.rate = 0 ∨ y.lock ∨ l.val = clockOf g then .next s
  else
    let y1 := y.countHeads hs
    let y2 := match lockRest hs with
      | some rest => { y1 with lock := true, fresh := rest.isEmpty, bad := false }
      | none => { y1 with bad := y.bad || decide (98 ≤ hs.countP headBad) }
    .next (s.trainTo g ((x.setLane l y2).hunted g))

/-- BLOCK_LOCK_LOSS (R286, R295, R296): 16 invalid headers of 64. -/
def execBlockLockLoss (g : Fin 26) (l : Fin 18) (hs : List (BitVec 2 × Fin 5)) (s : State) : Host.Outcome State Fault Refusal :=
  let x := s.group g
  let y := x.lane l
  if groupLanes g ≤ l.val ∨ x.rate = 0 ∨ !y.lock then .next s
  else
    let y1 := { y.countHeads hs with fresh := y.fresh && hs.isEmpty }
    if (List.range (hs.length + 1)).any fun k => decide (16 ≤ ((hs.drop k).take 64).countP headBad) then
      .next (s.lockLost g l { y1 with lock := false, fresh := false, lolEvt := satBump y.lolEvt 1 } (hs.countP headBad))
    else .next ((s.setGroup g (x.setLane l y1)).laneErrors g l (hs.countP headBad))

/-- A lane whose first block after lock has come: the block is discarded (R286). -/
def LnpGroup.dropFirst (x : LnpGroup) (l : Nat) : LnpGroup := x.setLane l { x.lane l with fresh := false }

/-- ALIGN (R286, R287, R291, R296): the frame number; in BLOCK_HUNT the lane's deskew, which fails beyond 64 UI. -/
def execAlign (g : Fin 26) (l : Fin 18) (frame : BitVec 16) (skew : Fin 128) (s : State) : Host.Outcome State Fault Refusal :=
  let x := s.group g
  let y := x.lane l
  if groupLanes g ≤ l.val ∨ x.rate = 0 ∨ !y.lock then .next s
  else if y.fresh then .next ((s.unheard g).setGroup g (x.dropFirst l))
  else
    let x1 := { x with frame }
    let y1 := if x.st ≠ .blockHunt then y
      else if skew.val ≤ 64 then { y with desk := true, bad := false, skew := BitVec.ofNat 10 skew }
      else { y with desk := false, bad := true }
    .next (s.trainTo g ((x1.setLane l y1).hunted g))

/-- The runs of settings without an invalid header, as first setting and length (R294). -/
def goodRuns (good : BitVec 15) : List (Nat × Nat) :=
  ((List.range 15).filter fun k => bitAt good.toNat k && (k == 0 || !bitAt good.toNat (k - 1))).map fun k =>
    (k, ((List.range 15).drop k |>.takeWhile fun j => bitAt good.toNat j).length)

/-- The setting that a sweep chooses: the centre of the longest run, the lower of two centres (R294). Which of several runs of one
length is a free value (log entry 2). -/
def State.sweepPeak (s : State) (good : BitVec 15) : BitVec 4 × State :=
  let rs := goodRuns good
  let n := (rs.map (·.2)).foldl max 0
  let best := rs.filter fun r => r.2 == n
  let pick := fun k : Nat => match best[k]? with
    | none => 0
    | some r => r.1 + (r.2 - 1) / 2
  if best.length ≤ 1 then (BitVec.ofNat 4 (pick 0), s)
  else
    let f := s.takeFree
    (BitVec.ofNat 4 (pick (f.1 % best.length)), f.2)

/-- A lane after a sweep: its peaking, or failed (R294). -/
def Lane.afterSweep (y : Lane) (good : BitVec 15) (peak : BitVec 4) : Lane :=
  if good = 0 then { y with swept := true, bad := true } else { y with swept := true, bad := false, peak }

/-- Back to base rate after a failed attempt: the rate is added to FAILED (R296). -/
def LnpGroup.fallBack (x : LnpGroup) : LnpGroup :=
  { x.unlock .baseAcq with failed := x.failed ||| BitVec.ofNat 4 (2 ^ (x.offer.toNat - 1)) }

/-- ACTIVE is entered with the transmitter idle where electrical idle is requested (R304). -/
def LnpGroup.activate (x : LnpGroup) : LnpGroup := { x with st := .active, txIdle := x.eidleReq }

/-- Whether the own sweep of a group is complete: every data lane and the spare (R294). -/
def LnpGroup.sweptAll (x : LnpGroup) (g : Nat) : Bool := (List.range (dataLanes g + 1)).all fun l => (x.lane l).swept

/-- EQ ends in ACTIVE with the own sweep complete and READY received; a sweep failure that the spare does not repair falls back
(R296, R300). -/
def LnpGroup.equalised (x : LnpGroup) (g : Nat) : LnpGroup :=
  if x.st ≠ .eq ∨ !x.sweptAll g then x
  else match x.repair g (!·.bad) with
    | none => x.fallBack
    | some y => if y.readySeen then y.activate else y

/-- EQ_SWEEP_COMPLETE (R294, R296, R300). -/
def execEqSweepComplete (g : Fin 26) (l : Fin 18) (good : BitVec 15) (s : State) : Host.Outcome State Fault Refusal :=
  let x := s.group g
  if x.st ≠ .eq ∨ dataLanes g < l.val then .next s
  else
    let p := s.sweepPeak good
    .next (p.2.trainOn g ((x.setLane l ((x.lane l).afterSweep good p.1)).equalised g))

/-- READY (R296, R300). -/
def execReady (g : Fin 26) (spare : Bool) (lane : Fin 128) (s : State) : Host.Outcome State Fault Refusal :=
  let x := s.group g
  if x.st ≠ .eq then .next s
  else
    let tx := if spare then some lane.val else x.txSpare
    .next (s.trainOn g (({ x with readySeen := true, txSpare := tx } : LnpGroup).equalised g))

/-- TRAINING_TIMEOUT (R296). -/
def execTrainingTimeout (g : Fin 26) (s : State) : Host.Outcome State Fault Refusal :=
  let x := s.group g
  .next (if x.st = .step ∨ x.st = .blockHunt ∨ x.st = .eq then s.trainTo g x.fallBack else s)

/-! ## Spare substitution in ACTIVE (R301–R303, R592, R593) -/

/-- The control block TYPEs that a group takes: the PHY's, and those of its kind of link (R285, R336, R348, R531; the messages that
the device itself sends are not among them, log entry 92). -/
def takesBlock (g : Nat) (type : Nat) : Bool :=
  [0x00, 0x1E, 0x2D, 0x33, 0x4B, 0x55].contains type ||
  (if g < 16 then [0xC0, 0xC1, 0xD2, 0xD5, 0xD7].contains type
   else [0x80, 0x81, 0x84, 0x85, 0x88, 0x90, 0x91, 0x92, 0x93, 0x94, 0x98].contains type)

/-- The ordered-set TYPEs that a group takes (R281, R336). -/
def takesSet (g : Nat) (type : Nat) : Bool := [0x11, 0x21, 0x22, 0x31].contains type || (decide (g < 16) && [0x60, 0x67].contains type)

/-- A received block (R282, R284–R286): the first after lock is discarded; one with an invalid header counts as such; header 0b10 marks
a control block, and one of a TYPE that the group does not take is discarded and counted in CODE_ERR. -/
def Lane.takeBlock (y : Lane) (g : Nat) (head : BitVec 2) (payload : BitVec 96) (wrong : Fin 5) : Lane :=
  let y1 := { y.countHeads [(head, wrong)] with fresh := false }
  if !y.fresh && !headBad (head, wrong) && head == 2 && !takesBlock g (payload.toNat / 2 ^ 88) then
    { y1 with codeErr := satBump y.codeErr 1 }
  else y1

/-- INVALID_HEADER (R281, R282, R284–R286, R592, R593, R301, R302): a received unit that no other command carries. An invalid header
and a code error are counted, and on an ACTIVE lane add to its bucket; a block or an ordered set of another TYPE is discarded and
counted in CODE_ERR. -/
def execInvalidHeader (g : Fin 26) (l : Fin 18) (u : LaneUnit) (s : State) : Host.Outcome State Fault Refusal :=
  let x := s.group g
  let y := x.lane l
  if groupLanes g ≤ l.val ∨ x.st = .off then .next s
  else match u with
    | .codeError => .next (if x.rate ≠ 0 then s
        else ((s.unheard g).setGroup g (x.setLane l { y with codeErr := satBump y.codeErr 1 })).laneErrors g l 1)
    | .orderedSet type => .next (if x.rate ≠ 0 ∨ !y.lock ∨ !hasSpare g then s
        else if takesSet g type.toNat then s.unheard g
        else (s.unheard g).setGroup g (x.setLane l { y with codeErr := satBump y.codeErr 1 }))
    | .block head payload wrong => .next (if x.rate = 0 ∨ !y.lock then s
        else ((if head = 2 ∧ payload.toNat / 2 ^ 88 = 0 then s else s.unheard g).setGroup g
          (x.setLane l (y.takeBlock g head payload wrong))).laneErrors g l (bitN (headBad (head, wrong))))

/-- SPARE_REQUEST (R301). With no frame, the own request for a lane whose bucket crossed, for the frame 128 ahead; with the peer's
frame, its request, acknowledged and copied. -/
def execSpareRequest (g : Fin 26) (l : Fin 18) (peer : Option (BitVec 16)) (s : State) : Host.Outcome State Fault Refusal :=
  let x := s.group g
  if x.st ≠ .active ∨ !hasSpare g then .next s
  else match peer with
    | some f =>
      .next (((s.unheard g).setGroup g { x with txSpare := some l.val, txPending := some f }).emit (.spare g 1 l f.toNat))
    | none =>
      if !(x.lane l).bad ∨ !(x.inUse g).contains l.val ∨ x.spareUsed ∨ x.phase ≠ .none then .next s
      else
        let f := x.frame + 128
        let x1 := x.setLane l { x.lane l with bad := false }
        .next ((s.setGroup g { x1 with phase := .requested, spareLane := BitVec.ofNat 5 l, spareFrame := f }).emit
          (.spare g 0 l f.toNat))

/-- Whether the frame F of the own SPARE request has come (R301). -/
def LnpGroup.reachedF (x : LnpGroup) : Bool := decide ((x.frame - x.spareFrame).toNat < 32768)

/-- SPARE_ACKNOWLEDGE (R294, R301, R302): before frame F, the sweep of the spare on the copied blocks. -/
def execSpareAcknowledge (g : Fin 26) (l : Fin 18) (good : BitVec 15) (s : State) : Host.Outcome State Fault Refusal :=
  let x := s.group g
  if x.st ≠ .active ∨ x.phase ≠ .requested ∨ x.spareLane.toNat ≠ l.val ∨ x.reachedF then .next s
  else
    let p := s.sweepPeak good
    let x1 := x.setLane (spareOf g) ((x.lane (spareOf g)).afterSweep good p.1)
    .next ((p.2.unheard g).setGroup g { x1 with phase := .acknowledged })

/-- The transmit direction of a group has no SPARE request outstanding any more: a held electrical idle begins (R303). -/
def LnpGroup.releaseIdle (x : LnpGroup) : LnpGroup :=
  { x with txPending := none, txIdle := x.txIdle || x.idleHeld, idleHeld := false }

/-- SPARE_ABANDON (R302, R303): the peer's, which stops the copying, after frame F too, or the own where no error-free setting was found: a sweep without
one, or none by frame F. -/
def execSpareAbandon (g : Fin 26) (l : Fin 18) (peer : Bool) (s : State) : Host.Outcome State Fault Refusal :=
  let x := s.group g
  if peer then
    .next ((s.unheard g).setGroup g (if x.txSpare = some l.val then ({ x with txSpare := none } : LnpGroup).releaseIdle else x))
  else if x.spareLane.toNat = l.val ∧ ((x.phase = .acknowledged ∧ (x.lane (spareOf g)).bad) ∨ (x.phase = .requested ∧ x.reachedF)) then
    .next ((s.setGroup g { x with phase := .none }).emit (.spare g 2 l x.spareFrame.toNat))
  else .next s

/-- SPARE_SWITCH (R301, R303): at the ALIGN of frame F the receiver takes the lane's data from the spare; else, once the peer's frame F
has passed, its request is outstanding no more. -/
def execSpareSwitch (g : Fin 26) (s : State) : Host.Outcome State Fault Refusal :=
  let x := s.group g
  if x.st = .active ∧ x.phase = .acknowledged ∧ !(x.lane (spareOf g)).bad ∧ x.frame = x.spareFrame then
    .next ((s.setGroup g { x with phase := .none, spareUsed := true, spareFor := x.spareLane }).laneReplaced g x.spareLane.toNat 0)
  else if x.txPending.isSome ∧ !x.spareOutstanding then .next (s.setGroup g x.releaseIdle)
  else .next s

/-- EIDLE (R304): the first one takes the receiver to EIDLE. -/
def execEidle (g : Fin 26) (l : Fin 18) (_copy : Fin 4) (s : State) : Host.Outcome State Fault Refusal :=
  let x := s.group g
  .next (if x.st ≠ .active ∨ !hasSpare g ∨ groupLanes g ≤ l.val then s
    else if (x.lane l).fresh then (s.unheard g).setGroup g (x.dropFirst l)
    else s.trainTo g { x with st := .eidle })

/-- The lanes in use that discard a block of a burst, as the first after their lock (R286). -/
def LnpGroup.freshLanes (x : LnpGroup) (g : Nat) : List Nat := (x.inUse g).filter fun l => (x.lane l).lock && (x.lane l).fresh

/-- BURST (R286, R305): one countdown, on every lane in use; a lane discards the first block after its lock. At countdown 0, received on
one lane or more, the receiver is ACTIVE again with lock and deskew held; else it records LOL and goes to DETECT. -/
def execBurst (g : Fin 26) (count : Fin 128) (s : State) : Host.Outcome State Fault Refusal :=
  let y := s.group g
  let fresh := y.freshLanes g
  let x := fresh.foldl LnpGroup.dropFirst y
  if x.st ≠ .eidle then .next (s.unheard g)
  else if count.val ≠ 0 ∨ fresh = x.inUse g then .next ((s.unheard g).setGroup g x)
  else
    let lacks := (x.inUse g).filter fun l => !((x.lane l).lock && (x.lane l).desk)
    if lacks.isEmpty then .next (s.trainOn g { x with st := .active })
    else
      let x1 := lacks.foldl (fun x l =>
        let y := x.lane l
        x.setLane l { y with lock := false, lolEvt := satBump y.lolEvt 1 }) x
      .next ((s.setGroup g x1).toDetect g x1)

end Sys2Proof.Machine
end

