-- ==== Sys2Proof/Machine/Front.lean ====
section
/-!
DEFINITION. Front-end partners: the join messages, the checks on stock frames, and the writing of the circular buffers (spec 10,
R400–R402).
-/
namespace Sys2Proof.Machine

/-! ## Join messages (R332–R346) -/

/-- A join message that its mode or its SID does not allow: counted in CODE_ERR of lane 0 (R336, R342; log entry 44). -/
def State.joinError (s : State) (g : Nat) : State :=
  let x := s.group g
  let y := x.lane 0
  s.setGroup g (x.setLane 0 { y with codeErr := satBump y.codeErr 1 })

/-- Whether a group receives at the base rate. -/
def LnpGroup.atBase (x : LnpGroup) : Bool :=
  x.st == .baseAcq || x.st == .baseLink || x.st == .negotiate || x.st == .step

/-- Whether a group receives blocks. -/
def LnpGroup.inBlocks (x : LnpGroup) : Bool := x.st == .blockHunt || x.st == .eq || x.st == .active || x.st == .eidle

/-- One more copy of a join message on a group: whether it is the third identical one in a row, on which the headbox acts (R337). -/
def State.hearJoin (s : State) (g type : Nat) (bytes : List Byte) : Bool × State :=
  let p := s.partner g
  let n := if p.heard = (type, bytes) then p.copies + 1 else 1
  (n == 3, s.setPartner g { p with heard := (type, bytes), copies := if n = 3 then 0 else n })

/-- The bytes P0 to P5 of a message that names an LSN and, from P1 on, a value of the given bytes (R336). -/
def joinBytes (lsn : BitVec 8) (rest : List Byte) : List Byte := (lsn :: rest) ++ List.replicate (5 - rest.length) 0

/-- The bytes of a message that names an LSN and a SID (R336). -/
def sidBytes (lsn : BitVec 8) (i : Nat) : List Byte := joinBytes lsn [BitVec.ofNat 8 (i / 256 % 4), BitVec.ofNat 8 i]

/-- The bytes of a message that carries a PID (R336). -/
def pidBytes (pid : BitVec 32) (sources version : BitVec 8) : List Byte := (natLe 4 pid.toNat).reverse ++ [sources, version]

/-- An answer of the device: 8 copies, in block mode under TYPE 0xD0 + m for 0x60 + m (R336, R337). -/
def State.answerJoin (s : State) (g m : Nat) (bytes : List Byte) : State :=
  s.emit (.join g (if (s.group g).atBase then 0x60 + m else 0xD0 + m) bytes 8)

/-- The SIDs of a group that are FREE. -/
def State.freeSids (s : State) (g : Nat) : List Nat := (groupSids g).filter fun i => (s.stream i).st == .free

/-- HELLO (R336, R337, R343, R344): one copy; the third is answered with WELCOME in BASE_LINK, and streams suspended under another PID
leave. A HELLO out of range is not acted on (DESIGN CHOICE, log entry 44). -/
def execHello (g : Fin 16) (pid : BitVec 32) (sources : BitVec 8) (version : BitVec 8) (s : State) :
    Host.Outcome State Fault Refusal :=
  let x := s.group g
  if s.headboxOff then .next s
  else if x.inBlocks then .next ((s.joinError g).unheard g)
  else if x.st ≠ .baseLink ∨ version ≠ 1 ∨ sources = 0 ∨ 64 < sources.toNat then .next (s.unheard g)
  else
    let h := s.hearJoin g 0x60 (pidBytes pid sources version)
    if !h.1 then .next h.2
    else
      let s0 := h.2
      let p := s0.partner g
      let s1 := if p.pid = pid then s0
        else (groupSids g).foldl (fun s i => if (s.stream i).st = .suspended then s.leave i else s) s0
      let s2 := (s1.setPartner g { p with present := true, pid, sources := sources.toNat }).answerJoin g 1
        (joinBytes (BitVec.ofNat 8 g) [BitVec.ofNat 8 (s1.freeSids g).length])
      .next (s2.trainTo g (({ x with joined := true } : LnpGroup).negotiate g))

/-- The line rate of a GSTAT.RATE code in bit/s (R281). -/
def rateBits (code : Nat) : Nat := 2 ^ (code + 1) * 10 ^ 9

/-- Whether a lane load in 1 ÷ 4,096 bit/s exceeds a stock group's guaranteed payload rate (R289, R340). -/
def loadExceeds (load code : Nat) : Bool := decide (4096 * 4 * rateBits code * 96 * 1015 < load * 98 * 1024)

/-- The SID that an LSN holds in a group (R334, R341). -/
def State.heldSid (s : State) (g : Nat) (lsn : BitVec 8) : Option Nat :=
  (groupSids g).find? fun i => (s.stream i).st != .free && (s.stream i).lsn == lsn

/-- Whether a join names the stream's own parameters. -/
def Stream.sameJoin (x : Stream) (fmt fcode : BitVec 4) (rate : BitVec 32) : Bool :=
  x.fmt == fmt && x.fcode == fcode && x.rate == rate

/-- The credit that `n` frames make (R351). -/
def frameCredit (fcode n : Nat) : Int := n * 10 ^ 13 * 65536 * frameSamples fcode

/-- Answers a join with REFUSE (R339). -/
def State.refuseJoin (s : State) (g : Nat) (lsn : BitVec 8) (reason : Nat) : State :=
  s.answerJoin g 4 (joinBytes lsn [BitVec.ofNat 8 reason])

/-- Answers a join with ACCEPT. -/
def State.acceptJoin (s : State) (g : Nat) (lsn : BitVec 8) (i : Nat) : State :=
  s.answerJoin g 3 (sidBytes lsn i)

/-- A rejoin of a suspended stream (R343, R344). -/
def State.rejoin (s : State) (g : Nat) (lsn : BitVec 8) (i : Nat) : State :=
  let x := s.stream i
  if loadExceeds (s.groupLoad g) (s.group g).rate.toNat then (s.leave i).refuseJoin g lsn 4
  else
    let s1 := s.setStream i { x with st := if x.wasAdmitted then .admitted else .joined, admitT := s.runNow }
    (s1.streamEvent 0x0008 i .suspended).acceptJoin g lsn i

/-- A join that the headbox acts on (R339–R341, R344). -/
def State.join (s : State) (g : Nat) (lsn : BitVec 8) (fmt fcode : BitVec 4) (rate : BitVec 32) : State :=
  if 5 < fmt.toNat ∨ 8 < fcode.toNat ∨ rate = 0 ∨ 200000000 < rate.toNat then s.refuseJoin g lsn 1
  else match s.heldSid g lsn with
    | some i =>
      let y := s.stream i
      if !y.sameJoin fmt fcode rate then s.refuseJoin g lsn 2
      else if y.st = .suspended then s.rejoin g lsn i
      else s.acceptJoin g lsn i
    | none => match s.freeSids g with
      | [] => s.refuseJoin g lsn 3
      | i :: _ =>
        let y : Stream := { st := .joined, lsn, fmt, fcode, rate, credit := frameCredit fcode.toNat 4, creditT := s.runNow }
        if loadExceeds (s.groupLoad g + y.load) (s.group g).rate.toNat then s.refuseJoin g lsn 4
        else (((s.setStream i y).streamEvent 0x0005 i .free).acceptJoin g lsn i)

/-- SJOIN (R336, R337, R339–R342, R344): one copy; the headbox acts on the third. -/
def execSjoin (g : Fin 16) (lsn : BitVec 8) (fmt : BitVec 4) (fcode : BitVec 4) (rate : BitVec 32) (s : State) :
    Host.Outcome State Fault Refusal :=
  let x := s.group g
  if s.headboxOff then .next s
  else if x.atBase then .next ((s.joinError g).unheard g)
  else if x.st ≠ .active then .next s
  else
    let h := s.hearJoin g 0x62 (joinBytes lsn (BitVec.ofNat 8 (16 * fmt.toNat + fcode.toNat) :: (natLe 4 rate.toNat).reverse))
    .next (if h.1 then h.2.join g lsn fmt fcode rate else h.2)

/-- SLEAVE (R336, R337, R342, R343, R346): one copy; the third is answered with LEFT, and a JOINED or ADMITTED stream leaves. -/
def execSleave (g : Fin 16) (lsn : BitVec 8) (sid : BitVec 10) (s : State) : Host.Outcome State Fault Refusal :=
  let x := s.group g
  let i := sid.toNat
  if s.headboxOff then .next s
  else if x.atBase then .next ((s.joinError g).unheard g)
  else if x.st ≠ .active then .next s
  else
    let h := s.hearJoin g 0x65 (sidBytes lsn i)
    let s0 := h.2
    if !h.1 then .next s0
    else if s0.heldSid g lsn ≠ some i then .next (s0.joinError g)
    else
      let s1 := if (s0.stream i).st = .joined ∨ (s0.stream i).st = .admitted then s0.leave i else s0
      .next (s1.answerJoin g 6 (sidBytes lsn i))

/-- BYE (R337, R343, R345, R346): one copy; on the third its partner's streams leave. -/
def execBye (g : Fin 16) (pid : BitVec 32) (s : State) : Host.Outcome State Fault Refusal :=
  let p := s.partner g
  if s.headboxOff then .next s
  else if !p.present ∨ p.pid ≠ pid then .next (s.unheard g)
  else
    let h := s.hearJoin g 0x67 (pidBytes pid 0 0)
    if !h.1 then .next h.2
    else
      let s1 := (groupSids g).foldl (fun s i =>
        if (s.stream i).st = .joined ∨ (s.stream i).st = .admitted then s.leave i else s) h.2
      .next (s1.setPartner g { s1.partner g with present := false })

/-- SUSPEND_TIMEOUT (R343): 1 s without rejoin. -/
def execSuspendTimeout (sid : Fin 1024) (s : State) : Host.Outcome State Fault Refusal :=
  .next (if (s.stream sid).st = .suspended ∧ !s.headboxOff then s.leave sid else s)

/-! ## Frames (R348–R352) -/

/-- The CRC of a frame (R348). -/
def frameCrc (f : StockFrame) : BitVec 32 :=
  lineCrc ((f.ts :: f.blocks).flatMap blockBits)

/-- A time value by its fields, NS as it stands (R306; log entry 43). -/
def rawTime (w : Nat) : TimeVal := (bitsOf w 48 48 * 10 ^ 9 + bitsOf w 16 30) * 65536 + bitsOf w 0 16

/-- T_s of a frame. -/
def frameTime (f : StockFrame) : TimeVal := rawTime f.ts.toNat

/-- Check 1 of R350 for the stream that a frame names. -/
def Stream.identity (x : Stream) (g : Nat) (f : StockFrame) : Bool :=
  f.sid.toNat / 64 == g && (x.st == .joined || x.st == .admitted) && f.fmt == x.fmt &&
    f.nsamp.toNat == frameSamples x.fcode.toNat

/-- Check 2 of R350. A frame of another number of sample blocks fails it (DEDUCED, log entry 45). -/
def frameStructured (f : StockFrame) (x : Stream) : Bool :=
  !f.stray && f.eofSid == f.sid && f.eofSeq == f.seq && f.blocks.length == frameBlocks x.fmt.toNat x.fcode.toNat

/-- How far a frame's SEQ is ahead of the expected one (R352). -/
def Stream.ahead (x : Stream) (f : StockFrame) : Nat := if x.seqSet then (f.seq - x.seq).toNat else 0

/-- 10^9 × 65,536: 2^−16 ns in a second. -/
def unitsPerSecond : Int := 10 ^ 9 * 65536

/-- Check 6 of R350, exactly, for the arrival time of a frame. -/
def Stream.inTransit (x : Stream) (ta : TimeVal) (f : StockFrame) : Bool :=
  let d := ((ta : Int) - frameTime f) * x.rate.toNat - ((frameSamples x.fcode.toNat : Int) - 1) * unitsPerSecond
  decide (0 ≤ d) && decide (d ≤ x.transit.toNat * 1000 * 65536 * x.rate.toNat)

/-- Check 7 of R350, exactly: whether T_s is off the expected time by more than P ÷ 4. -/
def Stream.jumps (x : Stream) (f : StockFrame) : Bool :=
  let d := ((frameTime f : Int) - x.lastTs) * x.rate.toNat - (frameSamples x.fcode.toNat : Int) * unitsPerSecond
  decide (unitsPerSecond < 4 * (d.natAbs : Int))

/-- The credit of a stream at a time on the time base's `run` (R351). -/
def Stream.creditAt (x : Stream) (t : Nat) : Int :=
  min (frameCredit x.fcode.toNat 4) (x.credit + ((t - x.creditT) * x.rate.toNat * 10002 : Nat))

/-- Halts for INPUT the pipelines that a stream feeds, where the frame's SOF came after the pipeline entered WARM (R371, R388). -/
def State.inputFrame (s : State) (i : Nat) (sof : Nat) : State :=
  (s.boundPipes i).foldl (fun s p => if (s.pipe p).warmAt ≤ sof then s.haltPipe p 3 else s) s

/-- The retraction of a sent trigger (R385). -/
def Pipe.retraction (q : Pipe) (p : Nat) (rank : BitVec 15) (t : SentTrig) : TrigMsg :=
  { tpoint := t.tpoint, due := t.due, tseq := t.tseq, rank, sid := BitVec.ofNat 10 t.sid, pipe := BitVec.ofNat 6 p
    group := q.ctl.groupOut, falling := t.falling, untimed := t.untimed, bad := true }

/-- A frame of a stream at its end, at the pipelines whose ports it feeds (R385, R386): where it failed, each trigger of an entry set that
it holds a sample of is retracted, and one that its entries still in flight cause will be; a trigger all of whose frames have ended well
stands. -/
def State.frameEnds (s : State) (i : Nat) (seq : BitVec 16) (failed : Bool) : State :=
  (s.boundPipes i).foldl (fun s p =>
    let q := s.pipe p
    let mine := fun a : Arrival => a.sid == i && a.seq == seq
    let hit := fun t : SentTrig => t.frames.contains (i, seq)
    let drop := fun l : List (Nat × BitVec 16) => l.filter (· != (i, seq))
    let rest := q.sent.filterMap fun t => if failed && hit t || drop t.frames == [] then none else some { t with frames := drop t.frames }
    let s1 := s.setPipe p { q with
      sent := rest
      inq := q.inq.map fun a => if mine a then { a with ended := true, bad := a.bad || failed } else a
      sets := q.sets.map fun z => { z with frames := drop z.frames, bad := z.bad || (failed && z.frames.contains (i, seq)) } }
    let msgs := if failed then (q.sent.filter hit).map (q.retraction p s.xms.regs.rank) else []
    { s1 with trp := { s1.trp with msgs := s1.trp.msgs ++ msgs } }) s

/-- A discarded frame of an ADMITTED stream: the gap that the next frame written closes (R352). -/
def State.discardGap (s : State) (i : Nat) : State :=
  let x := s.stream i
  if x.st = .admitted ∧ x.seqSet then s.streamGap i 1 else s

/-- A sample as stored (R349): sign-extended to its stored width. -/
def storedSample (fmt raw : Nat) : List Byte :=
  natLe (fmtStored fmt) (if fmt < 4 then unsignedOf (8 * fmtStored fmt) (signedOf (fmtBits fmt) raw) else raw)

/-- Sample `j` of a frame (R349). -/
def frameSample (f : StockFrame) (fmt j : Nat) : Nat :=
  let p := fmtPerBlock fmt
  bitsOf ((f.blocks.getD (j / p) 0).toNat) (fmtBits fmt * (j % p)) (fmtBits fmt)

/-- An anchor's entry in the anchor ring (R402). -/
def Anchor.bytes (a : Anchor) : List Byte :=
  natLe 32 (a.w % 2 ^ 64 * 2 ^ 192 + timeWord a.t * 2 ^ 96 + if a.untimed then 1 else 0)

/-- Sets an anchor at the present write count, in ACQ slots (R253, R402). -/
def State.setAnchor (s : State) (i : Nat) (t : TimeVal) : State :=
  let x := s.stream i
  let b := x.buf
  let a : Anchor := { w := b.w, t, untimed := s.tb.st == .invalid, gapFrom := (x.gaps.map (·.2)).min? }
  (s.unitWrite classAcq (64 * b.base + 32 * (b.nAnchors % 2048)) a.bytes).setStream i
    { x with buf := { b with anchors := (b.anchors ++ [a]).drop (b.anchors.length + 1 - 2048), nAnchors := b.nAnchors + 1 } }

/-- Writes the samples of a frame from `lo` up to `hi` into the buffer, in ACQ slots, going on at the start of the sample area where they
reach its end (R253, R401). -/
def State.writeSamples (s : State) (i : Nat) (f : StockFrame) (lo hi : Nat) : State :=
  let x := s.stream i
  let bs := (List.range (hi - lo)).flatMap fun j => storedSample x.fmt.toNat (frameSample f x.fmt.toNat (lo + j))
  let area := 64 * (x.buf.base + 1024)
  let first := x.sampleAddr x.buf.w
  let room := area + max x.buf.depth 1 * fmtStored x.fmt.toNat - first
  ((s.unitWrite classAcq first (bs.take room)).unitWrite classAcq area (bs.drop room)).setStream i
    { x with buf := { x.buf with w := x.buf.w + (hi - lo) } }

/-- Writes some of the samples of a frame, with an anchor where they are the first, end a gap or break continuity (R350, R352, R402). -/
def State.writePart (s : State) (i : Nat) (f : StockFrame) (lo hi : Nat) (jump : Bool) : State :=
  if hi ≤ lo then s
  else
    let x := s.stream i
    let t := timeAfter (frameTime f) lo x.rate.toNat
    let anchor := x.buf.anchors == [] || !x.gaps.isEmpty || jump
    let s1 := (if anchor then s.setAnchor i t else s).writeSamples i f lo hi
    (s1.setStream i { s1.stream i with seqSet := true, seq := f.seq + 1, lastTs := frameTime f }).closeStreamGap i t

/-- LOC of a line of an edge die's staging SRAM (R618). -/
def stagingLoc (die line : Nat) : BitVec 32 := BitVec.ofNat 32 (die * 2 ^ 30 + line)

/-- Writes the samples of a frame but for those of a block that the staging SRAM has lost: the stream has a gap there (R590, R618; log
entry 114). -/
def State.writeStaged (s : State) (i : Nat) (f : StockFrame) (line block : Nat) (jump : Bool) : State :=
  let x := s.stream i
  let n := frameSamples x.fcode.toNat
  let p := fmtPerBlock x.fmt.toNat
  let lo := min n (p * block)
  let s1 := s.writePart i f 0 lo jump
  let s2 := s1.streamGapAt i 1 (timeAfter (frameTime f) lo x.rate.toNat)
  (s2.writePart i f (lo + p) n false).faultRecord
    { kind := 11, cls := 2, action := 0, loc := stagingLoc (sidGroup i / 4) line, ring := x.ring.setWidth 16 }

/-- Writes a frame that has passed its checks (R350, R352, R402, R419, R590). A lost buffer takes no sample. -/
def State.writeFrame (s : State) (i : Nat) (f : StockFrame) (jump : Bool) : State :=
  let x := s.stream i
  if x.buf.lost then s
  else
    let s1 := match f.staging with
      | some (line, k) =>
        if k < f.blocks.length then s.writeStaged i f line k jump else s.writePart i f 0 (frameSamples x.fcode.toNat) jump
      | none => s.writePart i f 0 (frameSamples x.fcode.toNat) jump
    s1.setStream i (s1.stream i).resolveAll

/-- Checks 5–7 of R350 on a frame of an ADMITTED stream, whose SOF came at `sof` on `run` and at time `ta`. -/
def State.admittedFrame (s : State) (i sof : Nat) (ta : TimeVal) (f : StockFrame) : State :=
  let x := s.stream i
  let k := x.ahead f
  let timed := s.tb.st != .invalid
  if 32768 ≤ k then (s.setStream i { x with err := { x.err with seqOld := satBump x.err.seqOld 1 } }).inputFrame i sof
  else
    let x1 := { x with
      seq := if x.seqSet then f.seq + 1 else x.seq
      err := { x.err with seqGap := satBump x.err.seqGap k } }
    let s1 := s.setStream i x1
    let s2 := if k = 0 then s1 else (s1.inputFrame i sof).streamGap i 1
    let y := s2.stream i
    if timed ∧ !y.inTransit ta f then
      ((s2.setStream i { y with err := { y.err with tsRange := satBump y.err.tsRange 1 } }).inputFrame i sof).discardGap i
    else
      let jump := timed && y.seqSet && k == 0 && y.jumps f
      let s3 := if jump then s2.setStream i { y with err := { y.err with tsJump := satBump y.err.tsJump 1 } } else s2
      (s3.writeFrame i f jump).frameEnds i f.seq false

/-- The outcome of a frame whose check 2, 3 or 4 fails (R350, R352, R385). -/
def State.badFrame (s : State) (i : Nat) (f : StockFrame) (count : SErr → SErr) : State :=
  let x := s.stream i
  ((s.setStream i { x with err := count x.err }).frameEnds i f.seq true).discardGap i

/-- STOCK_FRAME (R347–R353, R401, R402). A frame that began before the stream was admitted or resumed is not written. -/
def execStockFrame (g : Fin 16) (f : StockFrame) (s0 : State) : Host.Outcome State Fault Refusal :=
  let s := s0.unheard g
  let i := f.sid.toNat
  let x := s.stream i
  let sof := s.markRun f.mark
  if (s0.group g).st ≠ .active ∨ s0.headboxOff then .next s0
  else if !x.identity g f then
    let s1 := s.setStream i { x with err := { x.err with frameErr := satBump x.err.frameErr 1 } }
    .next (if f.sid.toNat / 64 = g then (s1.inputFrame i sof).discardGap i else s1)
  else if !frameStructured f x then .next (s.badFrame i f fun e => { e with frameErr := satBump e.frameErr 1 })
  else if frameCrc f ≠ f.crc then .next (s.badFrame i f fun e => { e with crcErr := satBump e.crcErr 1 })
  else
    let c := x.creditAt sof
    let one := frameCredit x.fcode.toNat 1
    let s1 := s.setStream i { x with credit := c - one, creditT := max x.creditT sof }
    if c < one then .next (s1.badFrame i f fun e => { e with rateExcess := satBump e.rateExcess 1 })
    else .next (if x.st = .admitted ∧ x.admitT ≤ sof then s1.admittedFrame i sof (s.markTime f.mark) f else s1)

end Sys2Proof.Machine
end

