-- ==== Sys2Proof/Machine/Trigger.lean ====
section
/-!
DEFINITION. Trigger pipelines: delivery, the ingress stage, the release unit and its detector, messages, restarts, and the TRIG
lines (spec 11).
-/
namespace Sys2Proof.Machine

/-! ## Delivery (R365–R371) -/

/-- Samples of an entry of a stream (R365). -/
def entryLanes (fmt : Nat) : Nat := if fmt = 5 then 8 else 4

/-- A sample as delivered (R365): W16 unchanged, every other as F32. -/
def deliveredSample (fmt raw : Nat) : Nat :=
  if fmt = 5 ∨ fmt = 4 then raw else (FVal.ofInt (signedOf (fmtBits fmt) raw)).toBits f32

/-- Entry `e` of a frame (R365). -/
def frameEntry (f : StockFrame) (fmt e : Nat) : Entry :=
  let n := entryLanes fmt
  BitVec.ofNat 128 (((List.range n).map fun l => deliveredSample fmt (frameSample f fmt (n * e + l)) * 2 ^ (128 / n * l)).sum)

/-- Whether two times agree within P ÷ 4 (R371). -/
def sameTime (rate : Nat) (a b : TimeVal) : Bool := decide (4 * (((a : Int) - b).natAbs * rate : Nat) ≤ 10 ^ 9 * 65536)

/-- The first entry of each port that has a frame of about the time of an arrival (R371). -/
def Pipe.matching (q : Pipe) (rate : Nat) (a : Arrival) : List Arrival :=
  q.ports.filterMap fun p => q.inq.find? fun b => b.port == p.num && sameTime rate b.ts a.ts

/-- Starts the ports of a pipeline once a frame time has come on every port, the same on each two of them: earlier entries are not
delivered (R371). -/
def Pipe.startPorts (q : Pipe) (rate : Nat) : Pipe :=
  if q.ports.all (·.started) then q
  else
    let fits := fun a =>
      let bs := q.matching rate a
      bs.length == q.ports.length && bs.all fun b => bs.all fun c => sameTime rate b.ts c.ts
    match q.inq.find? fits with
    | none => q
    | some a =>
      let first := fun n : BitVec 16 => ((q.matching rate a).find? fun b => b.port == n).map (·.seq)
      let keep := fun b : Arrival => match first b.port with
        | none => false
        | some n => decide ((b.seq - n).toNat < 32768)
      { q with inq := q.inq.filter keep, ports := q.ports.map fun p => { p with started := true } }

/-- Delivers an entry to the ports of a pipeline that are bound to its stream (R366, R371). -/
def Pipe.deliver (q : Pipe) (i rate : Nat) (a : Arrival) : Pipe :=
  let mine := (q.ports.filter fun p => p.sid == some i).map fun p => { a with port := p.num, sid := i }
  ({ q with inq := q.inq ++ mine } : Pipe).startPorts rate

/-- TRIGGER_BLOCK_DELIVERY (R365–R367, R371, R388): entry `e` of a frame that passes checks 1, 5 and 6 goes towards the pipelines bound
to its stream that were in WARM before its SOF. -/
def execTriggerBlockDelivery (f : StockFrame) (e : Nat) (pin : Mark) (s : State) : Host.Outcome State Fault Refusal :=
  let i := f.sid.toNat
  let x := s.stream i
  let sof := s.markRun f.mark
  if x.st ≠ .admitted ∨ sof < x.admitT ∨ (s.group (sidGroup i)).st ≠ .active ∨ s.headboxOff then .next s
  else if !x.identity (sidGroup i) f ∨ x.ahead f ≠ 0 ∨ (s.tb.st ≠ .invalid ∧ !x.inTransit (s.markTime f.mark) f) then
    .next (s.inputFrame i sof)
  else
    let n := entryLanes x.fmt.toNat
    if frameSamples x.fcode.toNat ≤ n * e then .next s
    else
      let a : Arrival := { entry := frameEntry f x.fmt.toNat e, pin := s.markTime pin, at_ := s.markRun pin, ts := frameTime f, seq := f.seq, first := n * e
                           untimed := s.tb.st == .invalid }
      .next ((s.boundPipes i).foldl (fun s p =>
        let q := s.pipe p
        if (q.st = .warm ∨ q.st = .live) ∧ q.warmAt < sof then s.setPipe p (q.deliver i x.rate.toNat a) else s) s)

/-! ## The ingress stage (R367–R370) -/

/-- The deckle clock of a compute die (R368). -/
def State.deckle (s : State) (die : Nat) : DeckleClock := SMap.get {} s.trp.clocks die

/-- The ARITH cycle that a deckle clock is in. -/
def DeckleClock.cycle (k : DeckleClock) : Nat := k.arith / 5

/-- The pin cycle of a pin time: the first ARITH cycle that begins at or after it, as read on the deckle clock of a die, of 12 ÷ 5 cycles a
ns from its last timestamp (R368; log entry 46). -/
def State.pinCycleOf (s : State) (die : Nat) (pin : TimeVal) : Nat :=
  let k := s.deckle die
  (-((-((k.stampArith : Int) * 65536 + ((pin : Int) - k.stampTime) * 12)) / (5 * 65536))).toNat

/-- An entry set that one more entry has joined, whose pin cycle on a die is `cycle` (R367, R372, R384). The set's pin time is its latest
entry's; the reference port's entry names the samples. -/
def EntrySet.join (z : EntrySet) (a : Arrival) (die cycle : Nat) (isRef : Bool) : EntrySet :=
  let y := if z.got = 0 ∨ z.at_ ≤ a.at_ then { z with pin := a.pin, at_ := a.at_, die, pinCycle := cycle, untimed := a.untimed } else z
  let w := { y with got := z.got + 1, bad := z.bad || a.bad, frames := if a.ended then z.frames else z.frames ++ [(a.sid, a.seq)] }
  if isRef then { w with ts := a.ts, first := a.first, hasRef := true } else w

/-- Enters a placed entry of a port in its entry set: the k-th since the start (R367, R372). -/
def Pipe.placed (q : Pipe) (p : Port) (a : Arrival) (die cycle : Nat) : Pipe :=
  let k := p.count - q.judged
  let isRef := (q.refPort.map (·.num)) == some p.num
  let sets := q.sets ++ List.replicate (k + 1 - q.sets.length) ({} : EntrySet)
  let count := fun r : Port => if r.num = p.num then { r with count := r.count + 1 } else r
  { q with sets := sets.set k ((sets.getD k {}).join a die cycle isRef), ports := q.ports.map count }

/-- INGRESS_PLACEMENT (R369, R370): the oldest entry of a started port, at cycle `now` of the deckle clock. -/
def execIngressPlacement (p : Fin 64) (port : BitVec 16) (now : Nat) (s : State) : Host.Outcome State Fault Refusal :=
  let q := s.pipe p
  let r := q.ports.find? fun t => t.num == port && t.started
  let a := q.inq.find? fun b => b.port == port
  match r, a with
  | some r, some a =>
    if (q.st ≠ .warm ∧ q.st ≠ .live) ∨ s.flt.halted then .next s
    else match (s.image q.handle.toNat).clusterOf r.vx r.vy with
      | none => .next (s.haltPipe p 4)
      | some c =>
        let x := s.cl c
        if s.pinCycleOf (c / 44) a.pin + tIn s.stepA1 < now ∨ !(x.tile r.tile).room 5 then .next (s.haltPipe p 4)
        else
          let q1 := ({ q with inq := q.inq.eraseIdx (q.inq.findIdx fun b => b.port == port) } : Pipe).placed r a (c / 44) (s.pinCycleOf (c / 44) a.pin)
          .next ((s.setCl c (x.push r.tile 5 a.entry)).setPipe p q1)
  | _, _ => .next s

/-! ## The detector (R378–R383) -/

/-- A W16 register value. -/
def w16Val (v : BitVec 16) : FVal := .ofBits w16 v.toNat

/-- The scores of a decision entry, as F32 encodings (R365, R372). -/
def entryScores (fmt : Nat) (e : Entry) : List (BitVec 32) :=
  if fmt = 5 then (List.range 8).map fun l => BitVec.ofNat 32 ((FVal.ofBits w16 (bitsOf e.toNat (16 * l) 16)).toBits f32)
  else (List.range 4).map fun l => BitVec.ofNat 32 (bitsOf e.toNat (32 * l) 32)

/-- A score as a value. -/
def scoreVal (b : BitVec 32) : FVal := .ofBits f32 b.toNat

/-- The crossing that a pair makes: none, or whether it falls (R379). DIR 3 detects none (DESIGN CHOICE, log entry 47). -/
def PipeCtl.crossing (c : PipeCtl) (prev cur : FVal) : Option Bool :=
  let thr := w16Val c.thr
  if c.dir != 1 && c.dir != 3 && prev.lt thr && thr.le cur then some false
  else if c.dir != 0 && c.dir != 3 && thr.lt prev && cur.le thr then some true
  else none

/-- Whether a score re-arms the detector (R379). -/
def PipeCtl.rearms (c : PipeCtl) (v : FVal) : Bool :=
  let thr := w16Val c.thr
  let hys := w16Val c.hys
  ((c.dir == 0 || c.dir == 2) && v.le (thr.sub hys)) || ((c.dir == 1 || c.dir == 2) && (thr.add hys).le v)

/-- The scan of one decision entry: re-armed, the score before, the first crossing met, and the trigger: its lane, its scores, whether
it falls. -/
structure Scan where
  rearmed : Bool := true
  prev : Option (BitVec 32) := none
  crossed : Bool := false
  hit : Option (Nat × BitVec 32 × BitVec 32 × Bool) := none
  deriving DecidableEq, Repr

/-- One score of the scan: the crossing is judged before the score re-arms, and the triggering score does not re-arm (R379, R380;
DEDUCED, log entry 47). -/
def Scan.score (z : Scan) (c : PipeCtl) (ready : Bool) (l : Nat) (b : BitVec 32) : Scan :=
  let cross := z.prev.bind fun a => (c.crossing (scoreVal a) (scoreVal b)).map fun f => (a, f)
  match cross with
  | some (a, f) =>
    if !z.crossed && z.rearmed && ready then { rearmed := false, prev := some b, crossed := true, hit := some (l, a, b, f) }
    else { z with prev := some b, crossed := true, rearmed := z.rearmed || c.rearms (scoreVal b) }
  | none => { z with prev := some b, rearmed := z.rearmed || c.rearms (scoreVal b) }

/-- TPOINT of a crossing before sample `j` of a frame, the whole sum rounded (R382). -/
def trigPoint (ts rate j q : Nat) : TimeVal :=
  (Ratio.roundInt ⟨(ts : Int) * (256 * max rate 1 : Nat) + (((j : Int) - 1) * 256 + q) * 10 ^ 9 * 65536, 256 * max rate 1⟩).toNat

/-- DUE of an entry set (R373). -/
def dueTime (pin deckle : Nat) : TimeVal := pin + roundKept .nearest (deckle * 5 * 65536) 12

/-- The trigger of a pipeline at a crossing: its message waits for DUE, followed by its retraction where the frame has failed already
(R382–R386). TSEQ counts this trigger (DEDUCED, log entry 25). -/
def State.trigger (s : State) (p : Nat) (z : EntrySet) (hit : Nat × BitVec 32 × BitVec 32 × Bool) : State :=
  let q := s.pipe p
  let i := q.refSid.getD 0
  let rate := (s.stream i).rate.toNat
  let n := crossFrac (scoreVal hit.2.1) (scoreVal hit.2.2.1) (w16Val q.ctl.thr)
  let tpoint := trigPoint z.ts rate (z.first + hit.1) n
  let due := dueTime z.pin q.deckle.toNat
  let tseq := q.triggers + 1
  let m : TrigMsg := { tpoint, due, tseq, rank := s.xms.regs.rank, sid := BitVec.ofNat 10 i, pipe := BitVec.ofNat 6 p
                       group := q.ctl.groupOut, falling := hit.2.2.2, untimed := z.untimed }
  let sent : SentTrig := { tseq, sid := i, frames := z.frames, tpoint, due, falling := hit.2.2.2, untimed := z.untimed }
  let s1 := s.setPipe p { q with
    triggers := tseq, sent := if z.bad || z.frames == [] then q.sent else q.sent ++ [sent]
    det := { q.det with since := some 0, armed := q.det.armed && !q.ctl.single } }
  { s1 with trp := { s1.trp with
    msgs := s1.trp.msgs ++ m :: if z.bad then [q.retraction p s.xms.regs.rank sent] else [] } }

/-- Whether the first sample of an entry set is at or after a time (R380). -/
def EntrySet.from (z : EntrySet) (rate : Nat) (t : TimeVal) : Bool :=
  decide (((t : Int) - z.ts) * rate ≤ (z.first * 10 ^ 9 * 65536 : Nat))

/-- Judges a decision entry of an entry set (R378–R383, R391, R392): an open gap closes at its first sample. -/
def State.judge (s : State) (p : Nat) (z : EntrySet) (e : Entry) : State :=
  let i := (s.pipe p).refSid.getD 0
  let x := s.stream i
  let t0 := timeAfter z.ts z.first x.rate.toNat
  let s1 := s.closeGap p t0
  let q := s1.pipe p
  let ready := q.det.armed && (q.det.since.all fun n => decide (q.ctl.holdoff.toNat ≤ n)) && z.from x.rate.toNat q.det.epoch
  let scan := ((entryScores x.fmt.toNat e).mapIdx fun l b => (l, b)).foldl (fun z b => Scan.score z q.ctl ready b.1 b.2)
    { rearmed := q.det.rearmed, prev := q.det.prev }
  let q1 := { q with
    last := some (z.ts, z.first + entryLanes x.fmt.toNat)
    det := { q.det with rearmed := scan.rearmed, prev := scan.prev, since := q.det.since.map (· + 1) } }
  match scan.hit with
  | none => s1.setPipe p q1
  | some h => (s1.setPipe p q1).trigger p z h

/-! ## The release unit (R372–R376, R387, R391) -/

/-- Keeps the least slack (R376). That of a late entry has no value in the field: a free value (log entry 2). -/
def State.noteSlack (s : State) (p rel arrival : Nat) : State :=
  let q := s.pipe p
  let f := if rel < arrival then s.takeFree else (rel - arrival, s)
  let least := if rel < arrival then f.1 else min q.det.minSlack.toNat f.1
  f.2.setPipe p { q with det := { q.det with minSlack := BitVec.ofNat 16 least } }

/-- The oldest decision entry in L1 of the decision tile, which reaches the release unit in cycle `arrival`, is taken there for its entry
set; in the drain of its image it is taken and dropped (R97, R372, R374, R387). -/
def State.takeDecision (s : State) (p arrival : Nat) : State :=
  let q := s.pipe p
  match (s.image q.handle.toNat).clusterOf q.decVx q.decVy with
  | none => s
  | some c =>
    let y := (s.cl c).tile q.decTile
    let s1 := s.setCl c ((s.cl c).setTile q.decTile (y.pop 5))
    match y.queue 5, q.sets[q.unit.length]? with
    | [], _ => s
    | e :: _, z =>
      if q.st = .idle then (if (s.cl c).st = .drain ∨ (s.cl c).st = .drained then s1 else s)
      else if q.st ≠ .warm ∧ q.st ≠ .live then s
      else match z with
        | none => s
        | some z => if (s.deckle z.die).cycle < arrival then s else s1.setPipe p { q with unit := q.unit ++ [(e, arrival)] }

/-- The release of an entry set with its decision entry, which reached the release unit in cycle `arrival` (R372–R376, R387, R388, R391). -/
def State.release (s : State) (p : Nat) (z : EntrySet) (e : Entry) (arrival : Nat) : State :=
  let q := s.pipe p
  let rel := z.pinCycle + q.deckle.toNat
  let s1 := (s.setPipe p { q with sets := q.sets.tail, unit := q.unit.tail, judged := q.judged + 1 }).noteSlack p rel arrival
  let q1 := s1.pipe p
  if rel < arrival then
    let s2 := s1.openGap p 5 (timeAfter z.ts z.first (s.stream (q.refSid.getD 0)).rate.toNat)
    let q2 := s2.pipe p
    s2.setPipe p { q2 with late := satBump q2.late 1, det := { q2.det with prev := none } }
  else if q.st = .warm then
    let n := q1.det.warmLeft - 1
    s1.setPipe p { q1 with
      st := if n = 0 then .live else .warm, last := q1.last.orElse fun _ => some (z.ts, z.first), det := { q1.det with warmLeft := n } }
  else if z.at_ < s.tb.stepAt then s1.setPipe p { q1 with det := { q1.det with prev := none } }
  else s1.judge p z e

/-- DECISION_JUDGE (R372–R376, R387, R388, R391): a decision entry that reached the release unit in cycle `arrival` is taken there; and the
oldest one there is judged with its entry set, once its release cycle has come. -/
def execDecisionJudge (p : Fin 64) (arrival : Nat) (s : State) : Host.Outcome State Fault Refusal :=
  if s.flt.halted then .next s
  else
    let s1 := s.takeDecision p arrival
    let q := s1.pipe p
    match q.sets, q.unit with
    | z :: _, (e, at_) :: _ =>
      if (q.st ≠ .warm ∧ q.st ≠ .live) ∨ z.got < q.ports.length ∨ (s.deckle z.die).cycle < z.pinCycle + q.deckle.toNat then .next s1
      else .next (s1.release p z e at_)
    | _, _ => .next s1

/-! ## Messages (R384, R385, R398) -/

/-- A trigger message as its 256 bits (R384). -/
def TrigMsg.pack (m : TrigMsg) : Nat :=
  let bit := fun b : Bool => if b then 1 else 0
  timeWord m.tpoint * 2 ^ 160 + timeWord m.due * 2 ^ 64 + m.tseq.toNat * 2 ^ 48 + m.rank.toNat * 2 ^ 33 + m.sid.toNat * 2 ^ 23 +
    m.pipe.toNat * 2 ^ 17 + m.group.toNat * 2 ^ 13 + m.source.toNat * 2 ^ 9 + m.line.toNat * 2 ^ 6 + bit m.falling * 2 ^ 5 +
    bit m.untimed * 2 ^ 4 + bit m.bad * 2 ^ 3

/-- Hands a message to the headboxes of the four edge dies (R384). -/
def State.toHeadboxes (s : State) (m : TrigMsg) : State :=
  { s with trp := { s.trp with inbox := (List.range 4).foldl (fun b e => SMap.modify [] b e (· ++ [m])) s.trp.inbox } }

/-- The packet of a trigger message with the hops left (R543). -/
def TrigMsg.packet (m : TrigMsg) (rank : BitVec 15) (hops : Nat) : Packet :=
  { cls := 3, dst := 0x7FFF, src := rank, kind := 0, tag := BitVec.ofNat 32 (hops % 64)
    data := (List.range 3).map fun k => BitVec.ofNat 96 (bitsOf m.pack (96 * k) 96) }

/-- Schedules the pulses of a local trigger on the lines whose mask names its pipeline (R384, R395). -/
def State.toLines (s : State) (m : TrigMsg) : State :=
  if m.source ≠ 0 ∨ m.bad then s
  else
    let add := fun l : TrigLine =>
      if l.mode = 1 ∧ bitAt l.mask.toNat m.pipe.toNat then { l with sched := l.sched ++ [m] } else l
    { s with trp := { s.trp with lines := (List.range 8).foldl (fun b n => SMap.modify {} b n add) s.trp.lines } }

/-- TRIGGER_MESSAGE_SEND (R384, R385, R398): the oldest message of a pipeline whose DUE has come. -/
def execTriggerMessageSend (p : Fin 64) (s : State) : Host.Outcome State Fault Refusal :=
  let mine := fun m : TrigMsg => m.pipe.toNat == p.val && decide (m.due ≤ s.now)
  match s.trp.msgs.find? mine with
  | none => .next s
  | some m =>
    if s.flt.halted then .next s
    else
      let q := s.pipe p
      let s1 : State := { s with trp := { s.trp with msgs := s.trp.msgs.eraseIdx (s.trp.msgs.findIdx mine) } }
      let s2 := (s1.toHeadboxes m).toLines m
      let s3 := if q.ctl.xout then s2.floodPacket none (m.packet s.xms.regs.rank s.xms.regs.radius.toNat) else s2
      .next (s3.postEvent 0x0003 noRing q.handle.toNat m.pack)

/-! ## Restart (R387, R390) -/

/-- Whether the cause of a pipeline's halt has ended, and none that arose since lasts (R388, R390): after INPUT every port is to deliver
again, after another cause each port that has a stream. -/
def State.causeOver (s : State) (p : Nat) : Bool :=
  let q := s.pipe p
  let im := s.image q.handle.toNat
  let delivers := fun t : Port => match t.sid with
    | none => q.cause != 3
    | some i => (s.stream i).st == .admitted
  !(im.clusters.any s.tooHot) && q.ports.all delivers &&
    !(s.svc.bist.any fun b => b.owner.any fun o => o.1 == q.handle) &&
    (im.clusters.all fun c => !(s.die (c / 44)).pllLost)

/-- PIPELINE_RESTART (R235, R387, R390): the pipeline's clusters are cleared, and configuration index 0 is delivered again, with the
GEN of a cluster of it that another pipeline keeps running, else the GEN other than its clusters have (R126; log entry 30). Where its
clusters are not all mapped and routed or its deckle cannot be met, it is STOPPED. -/
def execPipelineRestart (p : Fin 64) (s : State) : Host.Outcome State Fault Refusal :=
  let q := s.pipe p
  let h := q.handle.toNat
  let im := s.image h
  if q.st ≠ .halted ∨ q.starting ∨ !s.causeOver p ∨ s.flt.halted ∨ im.sheet.draining then .next s
  else
    match s.padOf p with
    | none => .next (s.setPipe p { q with st := .stopped })
    | some pad =>
      let s1 := s.setPipe p { q with pad, starting := true }
      let cs := s1.pipeClusters p
      let s2 := cs.foldl (fun s c => if (s.cl c).st = .aborted then s.setCl c { s.cl c with st := .idle } else s) s1
      let gen := match cs.find? fun c => (s2.cl c).st != .idle with
        | some c => (s2.cl c).cfg.gen
        | none => !((cs.head?.map fun c => (s2.cl c).cfg.gen).getD im.gen)
      .next (((im.map.mapIdx fun v c => (v, c)).foldl (fun s x => match x.2 with
        | none => s
        | some c => if cs.contains c ∧ (s.cl c).st = .idle then s.beginConfig h x.1 c 0 gen false else s)
        (s2.setImage h { im with gen })).checkWarm h)

/-! ## Registers of a pipeline (R387) -/

/-- A write of TRP.DETA, or with `b` TRP.DETB: ignored in WARM and LIVE. -/
def State.writeDet (s : State) (p : Nat) (b : Bool) (v : Word) : State :=
  let q := s.pipe p
  let n := v.toNat
  if q.st = .warm ∨ q.st = .live then
    ({ s with flt := { s.flt with wrIgn := satBump s.flt.wrIgn 1 } } : State).setPipe p { q with wrIgn := true }
  else
    let c := if b then
        { q.ctl with dir := BitVec.ofNat 2 (bitsOf n 30 2), single := bitAt n 29, epochReq := bitAt n 28
                     warm := BitVec.ofNat 12 (bitsOf n 12 12), holdoff := BitVec.ofNat 12 (bitsOf n 0 12) }
      else { q.ctl with thr := BitVec.ofNat 16 (bitsOf n 16 16), hys := BitVec.ofNat 16 (bitsOf n 0 16) }
    s.setPipe p { q with ctl := c }

/-- TRP_DET_WRITE (R387, R685). -/
def execTrpDetWrite (p : Fin 64) (b : Bool) (v : Word) (s : State) : Host.Outcome State Fault Refusal :=
  .next (if s.flt.halted then s else s.writeDet p b v)

/-! ## TRIG lines (R394–R397) -/

/-- A TRIG line. -/
def State.line (s : State) (n : Nat) : TrigLine := SMap.get {} s.trp.lines n

/-- Replaces a TRIG line. -/
def State.setLine (s : State) (n : Nat) (l : TrigLine) : State :=
  { s with trp := { s.trp with lines := SMap.set {} s.trp.lines n l } }

/-- DLY × 50 ps in 2^−16 ns, to the nearest (log entry 48). -/
def lineDelay (dly : Nat) : Nat := roundKept .nearest (dly * 65536) 20

/-- TRIG_OUT_PULSE (R395, R397): the pulse of the oldest message scheduled on a line, its edge placed to 1/64 ns. -/
def execTrigOutPulse (n : Fin 8) (s : State) : Host.Outcome State Fault Refusal :=
  let l := s.line n
  match l.sched with
  | [] => .next s
  | m :: rest =>
    let t := (m.due + 120 * 65536 - lineDelay l.dly.toNat) / 1024 * 1024
    let l1 := { l with sched := rest }
    if l.mode ≠ 1 then .next (s.setLine n l1)
    else if l.lastEnd ≠ 0 ∧ t < l.lastEnd + l.width.toNat * 65536 then
      .next (s.setLine n { l1 with merged := satBump l.merged 1 })
    else
      .next ((s.setLine n { l1 with lastEnd := t + l.width.toNat * 65536, edges := l.edges + 1 }).emit (.trig n t l.width.toNat l.pol))

/-- TRIG_IN_EDGE (R384, R396): an active edge yields a SOURCE 1 message for each pipeline in the mask that has a bound port. -/
def execTrigInEdge (n : Fin 8) (falling : Bool) (mark : Mark) (s : State) : Host.Outcome State Fault Refusal :=
  let l := s.line n
  if l.mode ≠ 2 ∨ falling ≠ l.pol ∨ s.flt.halted then .next s
  else
    let due := s.markTime mark
    let tpoint := due - lineDelay l.dly.toNat - if l.subOfs then 120 * 65536 else 0
    let s1 := s.setLine n { l with edges := l.edges + 1 }
    .next ((List.range 64).foldl (fun s p =>
      let q := s.pipe p
      if !bitAt l.mask.toNat p ∨ !q.ports.any (·.sid.isSome) then s
      else
        let tseq := q.triggers + 1
        let m : TrigMsg := { tpoint, due, tseq, rank := s.xms.regs.rank, sid := BitVec.ofNat 10 (q.refSid.getD 0)
                             pipe := BitVec.ofNat 6 p, group := q.ctl.groupOut, source := 1, line := BitVec.ofNat 3 n
                             untimed := s.tb.st == .invalid }
        let s2 := s.setPipe p { q with triggers := tseq }
        { s2 with trp := { s2.trp with msgs := s2.trp.msgs ++ [m] } }) s1)

/-- A write of LCTRL, LMASK_LO or LMASK_HI of a line, which acts while it is claimed (R394). -/
def State.writeLine (s : State) (n r : Nat) (v : Word) : State :=
  let l := s.line n
  let w := v.toNat
  if (s.holder 3 n).isNone then
    ({ s with flt := { s.flt with unclWr := satBump s.flt.unclWr 1 } } : State).setLine n { l with unclaimedWr := true }
  else s.setLine n (match r with
    | 0 => { l with mode := BitVec.ofNat 2 (bitsOf w 30 2), pol := bitAt w 29, subOfs := bitAt w 28
                    dly := BitVec.ofNat 9 (min 500 (bitsOf w 19 9)), width := BitVec.ofNat 10 (max 8 (bitsOf w 9 10)) }
    | 1 => { l with mask := BitVec.ofNat 64 (l.mask.toNat / 2 ^ 32 * 2 ^ 32 + w) }
    | _ => { l with mask := BitVec.ofNat 64 (w * 2 ^ 32 + l.mask.toNat % 2 ^ 32) })

/-- TRIG_LINE_WRITE (R394, R685). -/
def execTrigLineWrite (n : Fin 8) (r : Fin 3) (v : Word) (s : State) : Host.Outcome State Fault Refusal :=
  .next (if s.flt.halted then s else s.writeLine n r v)

end Sys2Proof.Machine
end

