-- ==== Sys2Proof/Machine/Actions.lean ====
section
/-!
DEFINITION. Timed-start units, TIME_ACTION, CLAIM and RELEASE (R322–R327, R329, R383, R397, R407, R424, R434, R449, R505–R510,
R634, R645, R646, R738).
-/
namespace Sys2Proof.Machine

/-! ## Timed-start units (R323–R327) -/

/-- A timed-start unit. -/
def State.tsu (s : State) (u : Nat) : Tsu := SMap.get {} s.tb.tsu u

/-- Replaces a timed-start unit. -/
def State.setTsu (s : State) (u : Nat) (x : Tsu) : State := { s with tb := { s.tb with tsu := SMap.set {} s.tb.tsu u x } }

/-- Whether a unit fires now (R324, R325): one with a passed START in a later cycle than the one it passed in. -/
def State.tsuDue (s : State) (u : Nat) : Bool :=
  let x := s.tsu u
  x.armed && !s.flt.halted && match x.passed with
    | some (_, t) => decide (t < s.now)
    | none => decide (x.start ≤ s.now)

/-- A pulse asked of a PPS_OUT pin, once per firing. -/
def PpsPin.ask (p : PpsPin) (t : TimeVal) : PpsPin := if p.mode = 0 then p else { p with want := p.want ++ [t] }

/-- The PPS_OUT pins that a firing pulses: those in MODE 2 that name the unit, and the one that TARGET 7 names (R323, R329). -/
def State.pulsePins (s : State) (u : Nat) (x : Tsu) (t : TimeVal) : State :=
  let hit := fun (n : Nat) (p : PpsPin) => (p.mode == 2 && p.unit.toNat == u) || (x.target == 7 && x.tparam.toNat == n)
  { s with tb := { s.tb with pps := (List.range 4).foldl (fun m n =>
      SMap.modify {} m n fun p => if hit n p then p.ask t else p) s.tb.pps } }

/-- The epoch of a pipeline (R383), and programmes stopped by a mask test ARMED again (R424). -/
def State.setEpoch (s : State) (p : Nat) (t : TimeVal) : State :=
  let q := s.pipe p
  let s1 := s.setPipe p { q with det := { q.det with armed := true, epoch := t } }
  let arm := fun x : Stream =>
    if x.recs.pstate = 2 ∧ bitAt x.prog.pmask.toNat p then { x with recs := { x.recs with pstate := 1 } } else x
  { s1 with hbx := { s1.hbx with streams := s1.hbx.streams.map fun k => (k.1, arm k.2) } }

/-- A copy of a template enters the vat's queue, after what has been taken, unless one is pending; a full queue takes none either (R434,
log entry 54). -/
def State.enterTemplate (s0 : State) (t : Nat) : State :=
  let s := s0.enterTaken
  let v := s.vat
  let z : Sweep := SMap.get {} v.templates t
  if z.tpl.isNone then s
  else if v.queue.any (fun q => q.tpl == some t) || decide (16 ≤ v.queue.length) then
    { s with vat := { v with skipped := satBump v.skipped 1 } }
  else { s with vat := { v with queue := v.queue ++ [z] } }

/-- The action that a firing starts (R323). -/
def State.fireTarget (s : State) (u : Nat) (x : Tsu) (t : TimeVal) (late : Bool) : State :=
  match x.target.toNat with
  | 0 => s.postEvent 0x000B noRing 0 (u + 2 ^ 8 * bitN late + 2 ^ 32 * timeWord t)
  | 1 => s.openWindows u (x.n + 1) t
  | 2 => s.setEpoch x.tparam.toNat t
  | 3 => { s with dnd := { s.dnd with scheduled := true } }
  | 4 => s.enterTemplate x.tparam.toNat
  | 5 => { s with gddr := { s.gddr with frame := 0, aligned := true }
                  xms := { s.xms with
                    st := if s.xms.st = .routed then .aligned else s.xms.st
                    regs := { s.xms.regs with frame := BitVec.ofNat 32 (s.xms.na.getD 0) } } }
  | 6 => { s with pwr := { s.pwr with gpio := SMap.modify {} s.pwr.gpio x.tparam.toNat fun g =>
      if g.func = 1 then { g with want := g.want ++ [t] } else g } }
  | _ => s

/-- A unit after a firing (R324, R325): a periodic one goes on from START + PERIOD, after a step from the first START beyond it. -/
def Tsu.fire (x : Tsu) : Tsu :=
  let y := { x with n := x.n + 1, fired := satBump x.fired 1, passed := none, late := x.late || x.passed.isSome }
  if x.period = 0 ∨ (x.count ≠ 0 ∧ x.count ≤ x.n + 1) then { y with armed := false }
  else match x.passed with
    | some (true, v) =>
      let m := (v - x.start) / x.period + 1
      { y with start := x.start + m * x.period, missed := satBump x.missed (m - 1) }
    | _ => { y with start := x.start + x.period }

/-- A firing of a unit (R324–R327, R609): at its START, or late at the cycle's time. -/
def State.fireUnit (s : State) (u : Nat) : State :=
  let x := s.tsu u
  let late := x.passed.isSome
  let t := if late then s.now else x.start
  let s1 := s.setTsu u x.fire
  let s2 : State := if late then { s1 with flt := { s1.flt with tsuLate := satBump s1.flt.tsuLate 1 } } else s1
  (s2.fireTarget u x t late).pulsePins u x t

/-- TIMED_START_FIRE (R324, R325). -/
def execTimedStartFire (u : Fin 32) (s : State) : Host.Outcome State Fault Refusal :=
  .next (if s.tsuDue u then s.fireUnit u else s)

/-- A firing due in this cycle comes before what disarms or replaces the unit's programme (R326, R506). -/
def State.fireFirst (s : State) (u : Nat) : State := if s.tsuDue u then s.fireUnit u else s

/-- Disarms a unit (R326). -/
def State.disarm (s : State) (u : Nat) : State :=
  let s1 := s.fireFirst u
  s1.setTsu u { s1.tsu u with armed := false, passed := none }

/-! ## TIME_ACTION (R505, R506) -/

/-- The oldest descriptor of the root firmware, if it is a TIME_ACTION of a KIND: its ring, its work and the state without it. -/
def State.timeHead (s : State) (kind : Nat) : Option (Work × State) :=
  match s.fwHead 6 with
  | none => none
  | some (w, s1) => if fieldAt w.bytes 4 1 = kind then some (w, s1) else none

/-- Whether a ring pair holds a unit, pin or line. -/
def State.ringHolds (s : State) (r kind n : Nat) : Bool := (s.holder kind n).any fun k => k.toNat == r

/-- What the TARGET of an arm needs (R506, R645). -/
def State.targetRefused (s : State) (r target tparam : Nat) : Option Refuse :=
  match target with
  | 2 =>
    let h := (s.pipe tparam).handle.toNat
    if s.loaded h ∧ (s.image h).ring.toNat = r then none else some notHeld
  | 4 =>
    let z : Sweep := SMap.get {} s.vat.templates tparam
    if z.tpl.isSome ∧ z.ring.toNat = r then none else some notHeld
  | 6 =>
    let g : Gpio := SMap.get {} s.pwr.gpio tparam
    if !s.ringHolds r 4 tparam then some notHeld else if g.func = 1 then none else some (outConflict, 0xA6)
  | 7 => if s.ringHolds r 2 tparam then none else some notHeld
  | _ => none

/-- Arms a unit (R323, R325, R506). -/
def State.arm (s : State) (u target tparam start period count : Nat) : State :=
  let s1 := s.fireFirst u
  s1.setTsu u { armed := true, late := (s1.tsu u).late, target := BitVec.ofNat 4 target, start, period, count
                tparam := BitVec.ofNat 32 tparam, passed := if start < s.now then some (false, s.now) else none }

/-- TIME_ACTION_ARM (R322, R323, R505, R506, R645). -/
def execTimeActionArm (s : State) : Host.Outcome State Fault Refusal :=
  match s.timeHead 0 with
  | none => .next s
  | some (w, s1) =>
    let b := w.bytes
    let r := w.ring.toNat
    let u := fieldAt b 5 1
    let target := fieldAt b 6 2
    let tparam := fieldAt b 0x20 8
    .next (match timeOfWord (fieldAt b 8 12) with
      | none => s1.finish r w.seqNo outFormat 0x82 (refuseInfo b)
      | some start =>
        if !s1.ringHolds r 1 u then s1.finish r w.seqNo notHeld.1 notHeld.2 (refuseInfo b)
        else match s1.targetRefused r target tparam with
          | some e => s1.finish r w.seqNo e.1 e.2 (refuseInfo b)
          | none => (s1.arm u target tparam start (fieldAt b 0x18 6) (fieldAt b 0x1E 2)).finish r w.seqNo outDone 0 u)

/-- TIME_ACTION_DISARM (R322, R326). -/
def execTimeActionDisarm (s : State) : Host.Outcome State Fault Refusal :=
  match s.timeHead 1 with
  | none => .next s
  | some (w, s1) =>
    let r := w.ring.toNat
    let u := fieldAt w.bytes 5 1
    .next (match timeOfWord (fieldAt w.bytes 8 12) with
      | none => s1.finish r w.seqNo outFormat 0x82 (refuseInfo w.bytes)
      | some _ =>
        if s1.ringHolds r 1 u then (s1.disarm u).finish r w.seqNo outDone 0 u
        else s1.finish r w.seqNo notHeld.1 notHeld.2 (refuseInfo w.bytes))

/-- A programmed pin (R329): edges before now are not its. -/
def PpsPin.program (p : PpsPin) (mode : Nat) (pol : Bool) (unit : Nat) (offset : Int) (width : Nat) (now : TimeVal) : PpsPin :=
  let q := { p with mode := BitVec.ofNat 2 mode, pol, unit := BitVec.ofNat 5 unit, offset, width, want := [] }
  { q with edge := q.lastEdge now }

/-- TIME_ACTION_PPS (R322, R329, R506). -/
def execTimeActionPps (s : State) : Host.Outcome State Fault Refusal :=
  match s.timeHead 2 with
  | none => .next s
  | some (w, s1) =>
    let b := w.bytes
    let r := w.ring.toNat
    let n := fieldAt b 5 1
    let p := fieldAt b 0x28 1
    .next (match timeOfWord (fieldAt b 8 12) with
      | none => s1.finish r w.seqNo outFormat 0x82 (refuseInfo b)
      | some _ =>
        if !s1.ringHolds r 2 n ∨ (p % 4 = 2 ∧ !s1.ringHolds r 1 (p / 8)) then s1.finish r w.seqNo notHeld.1 notHeld.2 (refuseInfo b)
        else
          let pps := SMap.modify {} s1.tb.pps n fun q =>
            q.program (p % 4) (bitAt p 2) (p / 8) (signedOf 32 (fieldAt b 0x2C 4)) (fieldAt b 0x30 4) s1.now
          ({ s1 with tb := { s1.tb with pps } } : State).finish r w.seqNo outDone 0 n)

/-! ## CLAIM (R508, R509, R738) -/

/-- Where a region CLAIM goes, or its refusal with INFO (R509, R738). -/
def State.placeClaim (s : State) (b : List Byte) : Except (Refuse × Nat) Nat :=
  let flags := fieldAt b 6 2
  let n := ceilDiv (fieldAt b 0x10 4) 15 * 15
  let base := fieldAt b 0x14 4
  let name := BitVec.ofNat 64 (fieldAt b 8 8)
  let q := flags / 256
  let meets := fun a m => decide (a < base + n) && decide (base < a + m)
  let used := s.gddr.rgt.any fun p => p.2.valid && p.2.host && p.2.name == name
  let noFit : Except (Refuse × Nat) Nat := .error ((outFit, 0x22), 0)
  if bitAt flags 1 then
    if s.gddr.hidden.any fun k => meets k.base k.lines then .error ((outConflict, 0x90), 0xFFF)
    else if s.gddr.rgt.any fun p => p.2.valid && meets p.2.base.toNat p.2.lines.toNat then .error ((outConflict, 0x93), 0)
    else if used then .error ((outConflict, 0x94), 0)
    else if (s.quarter (lineQuarter base)).withdrawn ∨ (q ≠ 0xFF ∧ (s.quarter q).withdrawn) then noFit
    else .ok base
  else if used then .error ((outConflict, 0x94), 0)
  else match s.fit (if q = 0xFF then List.range 4 else [q]) n with
    | none => noFit
    | some a => .ok a

/-- CLAIM_REGION (R248, R249, R508, R509, R738). -/
def execClaimRegion (s : State) : Host.Outcome State Fault Refusal :=
  match s.fwHead 9 with
  | none => .next s
  | some (w, s1) =>
    let b := w.bytes
    let r := w.ring.toNat
    if fieldAt b 4 1 ≠ 0 then .next s
    else .next (match s1.placeClaim b, s1.freeEntry with
      | .error e, _ => s1.finish r w.seqNo e.1.1 e.1.2 e.2
      | .ok _, none => s1.finish r w.seqNo outFit 0x22 0
      | .ok base, some n =>
        let m := ceilDiv (fieldAt b 0x10 4) 15 * 15
        ((s1.gddrZero base m).setRegion n
          { base := BitVec.ofNat 32 base, lines := BitVec.ofNat 32 m, valid := true, host := true, bar4 := bitAt (fieldAt b 6 2) 0
            ring := w.ring, name := BitVec.ofNat 64 (fieldAt b 8 8) }).finish r w.seqNo outDone 0 (n + 2 ^ 32 * base))

/-- Sets the holder of a unit, pin or line. -/
def State.setHolder (s : State) (kind n : Nat) (r : Option (BitVec 12)) : State :=
  { s with hif := { s.hif with own := { holder := SMap.set none s.hif.own.holder (ownKey kind n) r } } }

/-- CLAIM_RESOURCE (R322, R488, R509). -/
def execClaimResource (s : State) : Host.Outcome State Fault Refusal :=
  match s.fwHead 9 with
  | none => .next s
  | some (w, s1) =>
    let r := w.ring.toNat
    let kind := fieldAt w.bytes 4 1
    let n := fieldAt w.bytes 5 1
    if kind = 0 then .next s
    else if kind = 1 ∧ 30 ≤ n then .next (s1.finish r w.seqNo outConflict 0x92 (refuseInfo w.bytes))
    else match s1.holder kind n with
      | some k => .next (if k = w.ring then s1.finish r w.seqNo outConflict 0x91 (refuseInfo w.bytes) else s1.finish r w.seqNo outConflict 0x90 k.toNat)
      | none => .next ((s1.setHolder kind n (some w.ring)).finish r w.seqNo outDone 0 n)

/-! ## RELEASE (R343, R397, R449, R510, R645) -/

/-- The claimed region of a ring pair with a name. -/
def State.namedRegion (s : State) (r : Nat) (name : BitVec 64) : Option Nat :=
  (s.gddr.rgt.find? fun p => p.2.valid && p.2.host && p.2.ring.toNat == r && p.2.name == name && name != 0).map (·.1)

/-- Whether a claimed region is attached as SHARED, or holds a mask table of an admitted stream (R510). -/
def State.regionBusy (s : State) (n : Nat) : Bool :=
  let g := s.region n
  g.handle != 0 || s.hbx.streams.any fun p =>
    (p.2.charged || p.2.st == .left) && p.2.ring == g.ring && p.2.prog.maskEn && p.2.prog.maskName == g.name

/-- What a RELEASE does to a unit, pin or line (R397, R510, R645). -/
def State.freeUnit (s : State) (kind n : Nat) : State :=
  match kind with
  | 1 => s.disarm n
  | 2 => { s with tb := { s.tb with pps := SMap.modify {} s.tb.pps n fun p => { p with mode := 0, want := [] } } }
  | 3 => s.setLine n { s.line n with mode := 0, sched := [] }
  | _ => { s with pwr := { s.pwr with gpio := SMap.modify {} s.pwr.gpio n fun g => { g with func := 0, want := [] } } }

/-- RELEASE_RESOURCE (R510): a region, unit, pin or line. -/
def execReleaseResource (s : State) : Host.Outcome State Fault Refusal :=
  match s.fwHead 10 with
  | none => .next s
  | some (w, s1) =>
    let r := w.ring.toNat
    let kind := fieldAt w.bytes 4 1
    let n := fieldAt w.bytes 5 1
    if 4 < kind then .next s
    else if kind = 0 then
      match s1.namedRegion r (BitVec.ofNat 64 (fieldAt w.bytes 8 8)) with
      | none => .next (s1.finish r w.seqNo outState 0x95 0)
      | some g => .next (if s1.regionBusy g then s1.finish r w.seqNo outState 0x96 0
          else (s1.freeRegion g).finish r w.seqNo outDone 0 0)
    else if s1.ringHolds r kind n then .next (((s1.freeUnit kind n).setHolder kind n none).finish r w.seqNo outDone 0 0)
    else .next (s1.finish r w.seqNo outState 0x95 0)

/-- Drains an image under RELEASE, which is freed once it rests (R510). -/
def State.drainRelease (s : State) (h : Nat) : State :=
  let im := s.image h
  ((s.setImage h { im with sheet := { im.sheet with draining := true } }).requestDrain h).checkDrain h

/-- RELEASE_IMAGE (R97, R387, R449, R500, R510): pending sweeps that name the image end; once
no sweep runs on it, it drains and is freed. -/
def execReleaseImage (s : State) : Host.Outcome State Fault Refusal :=
  match s.fwHead 10 with
  | none => .next s
  | some (w, s1) =>
    let r := w.ring.toNat
    let h := fieldAt w.bytes 6 2
    let im := s1.image h
    if fieldAt w.bytes 4 1 ≠ 5 then .next s
    else if !s1.loaded h ∨ im.ring.toNat ≠ r ∨ im.releasing.isSome then .next (s1.finish r w.seqNo outState 0x95 0)
    else
      let named := fun z : Sweep => z.handle.toNat == h && z.op == 0
      let s0 := s1.enterTaken
      let ends := s0.vat.queue.filter named
      let s2 : State := { s0 with vat := { s0.vat with queue := s0.vat.queue.filter fun z => !named z } }
      let s3 := ends.foldl (fun s z => s.endPending z outState 0x72) s2
      let s4 := s3.setImage h { im with releasing := some (w.ring, w.seqNo) }
      .next (if s4.vatNames h then s4 else s4.drainRelease h)

/-- RELEASE_ADMISSION (R343, R358, R510). -/
def execReleaseAdmission (s : State) : Host.Outcome State Fault Refusal :=
  match s.fwHead 10 with
  | none => .next s
  | some (w, s1) =>
    let r := w.ring.toNat
    let sid := fieldAt w.bytes 6 2
    if fieldAt w.bytes 4 1 ≠ 6 then .next s
    else if s1.holdsAdmission r sid then .next ((s1.endAdmission sid).finish r w.seqNo outDone 0 0)
    else .next (s1.finish r w.seqNo outState 0x95 0)

end Sys2Proof.Machine
end

