-- ==== Sys2Proof/Machine/AluUnit.lean ====
section
/-!
DEFINITION. The vector unit (R73, R129, R134, R158–R165, R168, R173): lane arithmetic, reductions, comparisons,
conversions, random entries.
-/
namespace Sys2Proof.Machine

/-- The signed range of an integer lane: its lowest value (R129). -/
def intMin (fmt : Nat) : Int := -(2 ^ (laneBits fmt - 1) : Nat)
/-- Its highest value. -/
def intMax (fmt : Nat) : Int := (2 ^ (laneBits fmt - 1) : Nat) - 1

/-- A signed integer lane (R129). -/
def laneInt (fmt x k : Nat) : Int := signedOf (laneBits fmt) (lane fmt x k)

/-- A floating-point lane. -/
def laneF (fmt x k : Nat) : FVal := FVal.ofBits (fmtFloat fmt) (lane fmt x k)

/-- Sends integer lanes clamped to the format, counting the clamped ones (R158). -/
def Fire.emitInts (f : Fire) (fmt : Nat) (l : List Int) : Cluster :=
  let n := countTrue (l.map fun v => decide (v < intMin fmt) || decide (intMax fmt < v))
  let f := f.withTile (f.tile.countSat n 0)
  f.emit (packLanes (laneBits fmt) (l.map fun v => unsignedOf (laneBits fmt) (clampInt (intMin fmt) (intMax fmt) v)))

/-- Sends floating-point lanes rounded to nearest even, counting overflows (R134). -/
def Fire.emitFloats (f : Fire) (fmt : Nat) (l : List FVal) : Cluster :=
  let r := l.map fun v => v.round (fmtFloat fmt) .nearest
  let f := f.withTile (f.tile.countSat 0 (countTrue (r.map (·.2))))
  f.emit (packLanes (laneBits fmt) (r.map (·.1)))

/-- A lane-wise operation: on integers in C4 and C8, on exact values in W16 and F32 (R158, R160). -/
def Fire.lanewise (f : Fire) (onInt : Int → Int → Int) (onF : FVal → FVal → FVal) : Cluster :=
  let fmt := opFmt f.o
  if fmt < 2 then
    f.emitInts fmt ((List.range (laneCount fmt)).map fun k => onInt (laneInt fmt f.a k) (laneInt fmt f.b k))
  else f.emitFloats fmt ((List.range (laneCount fmt)).map fun k => onF (laneF fmt f.a k) (laneF fmt f.b k))

/-- ADD (R158, R160). -/
def addBody (f : Fire) : Except ClEvent Cluster := .ok (f.lanewise (· + ·) FVal.add)

/-- SUB (R158, R160). -/
def subBody (f : Fire) : Except ClEvent Cluster := .ok (f.lanewise (· - ·) FVal.sub)

/-- The larger of two values, −0 below +0, NaN if either is NaN (R160). -/
def FVal.maximum (a b : FVal) : FVal := if a.isNan || b.isNan then .nan else if a.below b then b else a

/-- The smaller of two values, −0 below +0, NaN if either is NaN (R160). -/
def FVal.minimum (a b : FVal) : FVal := if a.isNan || b.isNan then .nan else if b.below a then b else a

/-- MAX (R160). -/
def maxBody (f : Fire) : Except ClEvent Cluster := .ok (f.lanewise max FVal.maximum)

/-- MIN (R160). -/
def minBody (f : Fire) : Except ClEvent Cluster := .ok (f.lanewise min FVal.minimum)

/-- SCALE (R152, R160): A × register SRC, rounded once. -/
def scaleBody (f : Fire) : Except ClEvent Cluster :=
  let fmt := opFmt f.o
  let c := FVal.ofBits (fmtFloat fmt) ((f.tile.reg (opSrc f.o)).toNat % 2 ^ laneBits fmt)
  .ok (f.emitFloats fmt ((List.range (laneCount fmt)).map fun k => (laneF fmt f.a k).mul c))

/-- REDUCE_ADD (R161): the exact sum of all lanes, rounded once. -/
def reduceAddBody (f : Fire) : Except ClEvent Cluster :=
  let fmt := opFmt f.o
  let ks := List.range (laneCount fmt)
  if fmt < 2 then .ok (f.emitScalar (unsignedOf 32 ((ks.map (laneInt fmt f.a)).sum)))
  else
    let v := (ks.tail.map (laneF fmt f.a)).foldl FVal.add (laneF fmt f.a 0)
    let r := v.round (fmtFloat fmt) .nearest
    .ok ((f.withTile (f.tile.countSat 0 (countTrue [r.2]))).emitScalar r.1)

/-- REDUCE_MAX (R161): the largest lane, NaN if any lane is NaN; of −0 and +0 the largest is +0, in the order that R160 gives MAX
(DEDUCED, log entry 110). -/
def reduceMaxBody (f : Fire) : Except ClEvent Cluster :=
  let fmt := opFmt f.o
  let ks := List.range (laneCount fmt)
  if fmt < 2 then .ok (f.emitScalar (unsignedOf 32 ((ks.tail.map (laneInt fmt f.a)).foldl max (laneInt fmt f.a 0))))
  else .ok (f.emitScalar (((ks.tail.map (laneF fmt f.a)).foldl FVal.maximum (laneF fmt f.a 0)).toBits (fmtFloat fmt)))

/-- AND on 128 bits (R73). -/
def andBody (f : Fire) : Except ClEvent Cluster := .ok (f.emit (f.a &&& f.b))

/-- OR on 128 bits (R73). -/
def orBody (f : Fire) : Except ClEvent Cluster := .ok (f.emit (f.a ||| f.b))

/-- XOR on 128 bits (R73). -/
def xorBody (f : Fire) : Except ClEvent Cluster := .ok (f.emit (f.a ^^^ f.b))

/-- A lane moved left by `n`, or arithmetically right by `−n` (R159). The distance is cut at 64, where a left shift of any
nonzero lane clamps and a right shift leaves 0 or −1. -/
def shiftLane (v n : Int) : Int := if 0 ≤ n then v * 2 ^ (min n.toNat 64) else v / 2 ^ (min (-n).toNat 64)

/-- SHIFT (R159). -/
def shiftBody (f : Fire) : Except ClEvent Cluster :=
  let fmt := opFmt f.o
  .ok (f.emitInts fmt ((List.range (laneCount fmt)).map fun k =>
    shiftLane (laneInt fmt f.a k) (signedOf 24 (opImm f.o))))

/-- A condition of CMP on an order (R73): 0 eq, 1 ne, 2 lt, 3 le, 4 gt, 5 ge. -/
def condHolds (c : Nat) (r : Ordering) : Bool :=
  match c with
  | 0 => r == .eq
  | 1 => r != .eq
  | 2 => r == .lt
  | 3 => r != .gt
  | 4 => r == .gt
  | 5 => r != .lt
  | _ => false

/-- Whether a condition holds between two lanes; with a NaN only ne is true (R162). -/
def cmpLane (fmt c x y k : Nat) : Bool :=
  if fmt < 2 then condHolds c (compare (laneInt fmt x k) (laneInt fmt y k))
  else
    let a := laneF fmt x k
    let b := laneF fmt y k
    if a.isNan || b.isNan then c == 1 else condHolds c (a.compare b)

/-- CMP (R162): all-ones or all-zeros lanes. -/
def cmpBody (f : Fire) : Except ClEvent Cluster :=
  let fmt := opFmt f.o
  .ok (f.emit (buildLanes fmt fun k => if cmpLane fmt (bitsOf (opSel f.o) 0 3) f.a f.b k then 2 ^ laneBits fmt - 1 else 0))

/-- SELECT (R73): per lane A where the mask is all ones, else B. -/
def selectBody (f : Fire) : Except ClEvent Cluster :=
  let fmt := opFmt f.o
  .ok (f.emit (buildLanes fmt fun k =>
    if lane fmt f.mask k = 2 ^ laneBits fmt - 1 then lane fmt f.a k else lane fmt f.b k))

/-- MOV (R73). -/
def movBody (f : Fire) : Except ClEvent Cluster := .ok (f.emit f.a)

/-- The nearest integer of a value, ties to even; none for NaN and the infinities. -/
def FVal.nearestInt : FVal → Option Int
  | .fin n m e => some (FVal.ratio (.fin n m e)).roundInt
  | _ => none

/-- One lane converted (R163): its bits, whether an integer clamp, whether a float overflow. -/
def cvtLane (src dst : Nat) (mode : RoundMode) (bits : Nat) : Nat × Bool × Bool :=
  if src = dst then (bits, false, false)
  else if src < 2 ∧ dst < 2 then
    let v := signedOf (laneBits src) bits
    let c := clampInt (intMin dst) (intMax dst) v
    (unsignedOf (laneBits dst) c, decide (c ≠ v), false)
  else if src < 2 then ((FVal.ofInt (signedOf (laneBits src) bits)).toBits (fmtFloat dst), false, false)
  else if dst < 2 then
    match FVal.ofBits (fmtFloat src) bits with
    | .nan => (0, true, false)
    | .inf n => (unsignedOf (laneBits dst) (if n then intMin dst else intMax dst), true, false)
    | .fin n m e =>
      let v := (FVal.ratio (.fin n m e)).roundInt
      let c := clampInt (intMin dst) (intMax dst) v
      (unsignedOf (laneBits dst) c, decide (c ≠ v), false)
  else
    let r := (FVal.ofBits (fmtFloat src) bits).round (fmtFloat dst) mode
    (r.1, false, r.2)

/-- CVT (R163–R165, R168): same lane count in one entry, a widening into several, a narrowing through a pack. -/
def cvtBody (f : Fire) : Except ClEvent Cluster :=
  let src := opFmt f.o
  let dst := bitsOf (opSel f.o) 0 2
  let d := if src = 3 ∧ dst = 2 then f.roundDraw else (none, f)
  let f := d.2
  let l := (List.range (laneCount src)).map fun k => cvtLane src dst (drawMode d.1 k) (lane src f.a k)
  let f := f.withTile (f.tile.countSat (countTrue (l.map (·.2.1))) (countTrue (l.map (·.2.2))))
  let n := laneCount dst
  let out := l.map (·.1)
  if n ≤ laneCount src then
    .ok (f.emitAll 1 ((List.range (laneCount src / n)).map fun e => packLanes (laneBits dst) ((out.drop (n * e)).take n)))
  else
    let r := n / laneCount src
    let p := SMap.get {} f.tile.packs f.i
    let filled := p.entry.toNat + packLanes (laneBits dst) out * 2 ^ (laneBits dst * laneCount src * p.pos)
    let y := f.tile
    if p.pos + 1 = r then .ok ((f.withTile { y with packs := SMap.set {} y.packs f.i {} }).emit filled)
    else .ok (f.withTile { y with packs := SMap.set {} y.packs f.i { pos := p.pos + 1, entry := BitVec.ofNat 128 filled } }).x

/-- RNG (R173): one draw. -/
def rngBody (f : Fire) : Except ClEvent Cluster :=
  let d := f.draw 0 (opSel f.o)
  .ok (d.2.emit d.1.toNat)

end Sys2Proof.Machine
end

