-- ==== Sys2Proof/Machine/Xomos.lean ====
section
/-!
DEFINITION. Xomos ports and the system they join: retry, routes, trigger packets, time, discovery and start (R524–R549, R561–R571).
-/
namespace Sys2Proof.Machine

/-- Whether what arrives on a port is acted on (R561, R611). -/
def State.portOpen (s : State) (p : Nat) : Bool := s.portActive p && !(s.xport p).miswired && !s.flt.halted

/-- The traffic classes of packets (R531): TRIG, COLL and SVC. -/
def packetClass (k : Nat) : Bool := k == 3 || k == 6 || k == 8

/-! ## Link-level retry (R535–R539) -/

/-- The fields of ACK and NAK (R531). -/
def ackFields (seqNo cls : Nat) : Nat := seqNo * 2 ^ 76 + cls * 2 ^ 72

/-- Sends NAK with the SEQ expected, unless one went out for it within 4 µs (R535). -/
def State.sendNak (s : State) (p k : Nat) : State :=
  let x := s.xport p
  let c := x.clsOf k
  if c.nakAt.any fun t => decide (s.runNow < t + 4000 * 65536) then s
  else
    let y := { x with naks := satBump x.naks 1 }
    (s.setXport p (y.setCls k { c with nakAt := some s.runNow })).sendBlock p 0x85 (ackFields c.rxSeq.toNat k)

/-- A LINK block's content taken into the map (R541). -/
def Xms.take (x : Xms) (rank : BitVec 15) (active lsv : BitVec 8) : Xms :=
  { x with map := SMap.set {} x.map rank.toNat { active, lsv }, gone := SMap.set false x.gone rank.toNat false, dirty := true
           last := (rank, lsv) }

/-- A service packet of the link map at a late joiner; the last one confirms it (R569, R571). -/
def State.takeMap (s : State) (p : Nat) (k : Packet) : State :=
  if !s.xms.late || s.xms.st != .flooded || s.xms.regs.parent.toNat != p then s
  else
    let add := fun (x : Xms) (b : BitVec 96) =>
      x.take (BitVec.ofNat 15 (bitsOf b.toNat 73 15)) (BitVec.ofNat 8 (bitsOf b.toNat 65 8)) (BitVec.ofNat 8 (bitsOf b.toNat 57 8))
    let s1 : State := { s with xms := k.data.foldl add s.xms }
    if k.tag ≠ 0 then s1 else ({ s1 with xms := { s1.xms with st := .confirmed, goSeen := true } } : State).sendLink

/-- What an accepted packet does: a trigger message waits for its handling (R544), a packet to another rank goes on (R540), a collective
one waits for its request (R554, R557). -/
def State.takePacket (s : State) (p : Nat) (k : Packet) : State :=
  if k.dst ≠ 0x7FFF ∧ k.dst ≠ s.xms.regs.rank then s.routePacket k
  else if k.kind = 0 ∧ k.cls = 3 ∧ k.data.length = 3 then { s with xms := { s.xms with arrived := s.xms.arrived ++ [(p, k)] } }
  else if k.kind = 3 ∧ k.cls = 8 then s.takeMap p k
  else if (k.kind = 1 ∨ k.kind = 2) ∧ k.cls = 6 then { s with xms := { s.xms with collIn := s.xms.collIn ++ [k] } }
  else s

/-- Whether the CRC, SEQ and LEN of a received packet match (R530–R532). -/
def packetSound (k : XPkt) : Bool :=
  k.tailSeq == k.seq && k.len.toNat == k.data.length && k.len != 0 &&
    packetCrc (headFields k.seq k.cls k.len k.dst k.src k.kind k.tag) k.data == k.crc

/-- XOMOS_PACKET_RX (R531, R532, R535): accepted in SEQ order, or, as one whose CRC, SEQ or LEN is wrong, discarded with a NAK. -/
def execXomosPacketRx (p : Fin 8) (k : XPkt) (s : State) : Host.Outcome State Fault Refusal :=
  if !s.portOpen p || !packetClass k.cls.toNat then .next s
  else
    let n := k.cls.toNat
    let x := s.xport p
    let c := x.clsOf n
    let s1 := if k.seq = c.rxSeq then s.setXport p (x.setCls n { c with nakAt := none }) else s
    if !packetSound k ∨ k.seq ≠ c.rxSeq then .next (s1.sendNak p n)
    else .next ((s.setXport p (x.setCls n { c with nakAt := none, rxSeq := c.rxSeq + 1, ackDue := true })).takePacket p
      { seqNo := k.seq, cls := k.cls, dst := k.dst, src := k.src, kind := k.kind, tag := k.tag, data := k.data })

/-- XOMOS_ACK (R537): the packets up to SEQ are released, and waiting ones take their room. -/
def execXomosAck (p : Fin 8) (cls : BitVec 4) (seq : BitVec 12) (s : State) : Host.Outcome State Fault Refusal :=
  let x := s.xport p
  let c := x.clsOf cls.toNat
  if !s.portOpen p || !packetClass cls.toNat then .next s
  else
    let s1 := s.setXport p (x.setCls cls.toNat { c with store := c.store.filter fun k => decide (2048 ≤ (seq - k.seqNo).toNat) })
    .next (s1.refill p cls.toNat c.queue.length)

/-- A port fails for a cause: it goes down, and is trained again (R538). -/
def State.failPort (s : State) (p cause : Nat) : State :=
  let g := portGroup p
  let s1 := s.moveGroup g cause { s.group g with st := .detect }
  s1.toDetect g (s1.group g)

/-- Resends the held packets of a class from one SEQ on; a packet resent 8 times fails the port (R537, R538). -/
def State.resend (s : State) (p n : Nat) (seq : BitVec 12) : State :=
  let x := s.xport p
  let c := x.clsOf n
  let j := c.store.findIdx fun k => k.seqNo == seq
  let again := (c.store.drop j).map fun k => ({ k with resends := k.resends + 1 } : Packet)
  let y := { x with resends := satBump x.resends again.length }
  let s1 := s.setXport p (y.setCls n { c with store := c.store.take j ++ again })
  let s2 := again.foldl (fun s k => s.sendPacket p k) s1
  if again.any fun k => decide (8 ≤ k.resends) then s2.failPort p 1 else s2

/-- XOMOS_NAK (R537). -/
def execXomosNak (p : Fin 8) (cls : BitVec 4) (seq : BitVec 12) (s : State) : Host.Outcome State Fault Refusal :=
  .next (if s.portOpen p && packetClass cls.toNat then s.resend p cls.toNat seq else s)

/-- ACK_TIMER (R536). -/
def execAckTimer (p : Fin 8) (cls : BitVec 4) (s : State) : Host.Outcome State Fault Refusal :=
  let x := s.xport p
  let c := x.clsOf cls.toNat
  .next (if s.portOpen p && packetClass cls.toNat && c.ackDue then
      (s.setXport p (x.setCls cls.toNat { c with ackDue := false })).sendBlock p 0x84 (ackFields (c.rxSeq - 1).toNat cls.toNat)
    else s)

/-- RESEND_TIMEOUT (R537): from the oldest packet. -/
def execResendTimeout (p : Fin 8) (cls : BitVec 4) (s : State) : Host.Outcome State Fault Refusal :=
  match ((s.xport p).clsOf cls.toNat).store with
  | [] => .next s
  | k :: _ => .next (if s.portOpen p && packetClass cls.toNat then s.resend p cls.toNat k.seqNo else s)

/-- ACK_PROGRESS_TIMEOUT (R538). -/
def execAckProgressTimeout (p : Fin 8) (s : State) : Host.Outcome State Fault Refusal :=
  let held := [3, 6, 8].any fun k => !((s.xport p).clsOf k).store.isEmpty
  .next (if s.portOpen p && held then s.failPort p 2 else s)

/-! ## Routes (R540–R542) -/

/-- LINK (R541): a higher LSV than the one held, modulo 256 (log entry 65), is taken and forwarded. -/
def execLinkBlock (p : Fin 8) (rank : BitVec 15) (active : BitVec 8) (lsv : BitVec 8) (s : State) : Host.Outcome State Fault Refusal :=
  let held : LinkMap := SMap.get {} s.xms.map rank.toNat
  let known := s.xms.map.any fun r => r.1 == rank.toNat
  let d := (lsv - held.lsv).toNat
  if !s.portOpen p || !s.xms.st.placed || rank == s.xms.regs.rank || (known && (d == 0 || decide (128 ≤ d))) then .next s
  else .next (({ s with xms := s.xms.take rank active lsv } : State).floodBlock (some p.val) 0x98
    (linkFields rank.toNat active.toNat lsv.toNat))

/-- The ports in the order in which equal paths are taken (R540). -/
def portOrder : List Nat := [2, 6, 4, 0, 3, 7, 1, 5]

/-- The neighbours of a rank over links that both ends show ACTIVE, each with the place of its port in the order of R540. -/
def Xms.edges (x : Xms) (r : Nat) : List (Nat × Nat) :=
  (List.range 8).filterMap fun j =>
    let p := portOrder.getD j 0
    let b := placeRank x.dims (portPlace x.dims (rankPlace x.dims r) p)
    let up := fun (n q : Nat) => bitAt (SMap.get ({} : LinkMap) x.map n).active.toNat q
    if portUsed x.dims x.sysSkip p && up r p && up b (oppositePort p) then some (j, b) else none

/-- Routes grown hop by hop from a front of ranks: each new rank keeps the first port, in the order of R540, among its shortest paths.
`m` holds the place of that port in the order; `fuel` bounds the hops. -/
def Xms.grow (x : Xms) (own : Nat) : Nat → SMap (Option Nat) → List Nat → SMap (Option Nat)
  | 0, m, _ => m
  | fuel + 1, m, front =>
    let near := front.flatMap fun r => (x.edges r).filterMap fun e =>
      if e.2 = own ∨ (SMap.get none m e.2 : Option Nat).isSome then none else (SMap.get none m r : Option Nat).map fun j => (e.2, j)
    if near.isEmpty then m
    else
      let add := fun (m : SMap (Option Nat)) (e : Nat × Nat) =>
        SMap.modify none m e.1 fun v : Option Nat => some (min (v.getD 8) e.2)
      x.grow own fuel (near.foldl add m) (near.map (·.1)).eraseDups

/-- The routing table of the device (R540): over its own ports in use to their neighbours, and from there over the link map. -/
def State.findRoutes (s : State) : SMap (Option Nat) :=
  let x := s.xms
  let own := x.regs.rank.toNat
  let first := (x.edges own).filter fun e => s.openPorts.contains (portOrder.getD e.1 0) && e.2 != own
  let m := first.foldl (fun m e => SMap.modify none m e.2 fun v : Option Nat => some (min (v.getD 8) e.1)) []
  (x.grow own (systemSize x.dims) m (first.map (·.2)).eraseDups).map fun r => (r.1, r.2.map fun j => portOrder.getD j 0)

/-- Sends on the packets that waited behind ports that are not ACTIVE, by the new table (R541). -/
def State.reroute (s : State) : State :=
  (List.range 8).foldl (fun s p =>
    if s.portActive p then s
    else
      let x := s.xport p
      let held := [3, 6, 8].flatMap fun k => (x.clsOf k).queue
      held.foldl State.routePacket (s.setXport p { x with cls := [] })) s

/-- ROUTE_INSTALL (R540–R542, R566, R569): the tables of a map that has changed. -/
def execRouteInstall (s : State) : Host.Outcome State Fault Refusal :=
  let x := s.xms
  if !x.dirty || !x.goSeen || s.flt.halted || !x.st.placed then .next s
  else
    let routes := s.findRoutes
    let far := systemSize x.dims - 1 - routes.length
    let s1 : State := { s with xms := { x with
      routes, dirty := false, st := if x.st = .confirmed then .routed else x.st
      cnt := { x.cnt with changes := satBump x.cnt.changes 1, unreach := BitVec.ofNat 15 far } } }
    .next (s1.reroute.postEvent 0x0065 noRing 0 (far + 2 ^ 32 * (x.last.1.toNat * 2 ^ 16 + x.last.2.toNat)))

/-! ## Trigger packets (R399, R543, R544) -/

/-- The time of a stored layout, NS taken as it is (log entry 43). -/
def wordTime (w : Nat) : TimeVal := (bitsOf w 48 48 * 10 ^ 9 + bitsOf w 16 30) * 65536 + bitsOf w 0 16

/-- A trigger message from its 256 bits, as SOURCE 2 (R384, R399). -/
def TrigMsg.remote (m : Nat) : TrigMsg :=
  { tpoint := wordTime (bitsOf m 160 96), due := wordTime (bitsOf m 64 96), tseq := BitVec.ofNat 16 (bitsOf m 48 16)
    rank := BitVec.ofNat 15 (bitsOf m 33 15), sid := BitVec.ofNat 10 (bitsOf m 23 10), pipe := BitVec.ofNat 6 (bitsOf m 17 6)
    group := BitVec.ofNat 4 (bitsOf m 13 4), source := 2, line := BitVec.ofNat 3 (bitsOf m 6 3), falling := bitAt m 5
    untimed := bitAt m 4, bad := bitAt m 3 }

/-- Delivers a remote message to the pipelines that accept its group (R399). -/
def State.deliverRemote (s : State) (m : TrigMsg) : State :=
  let ps := (List.range 64).filter fun p => bitAt (s.pipe p).ctl.xin.toNat m.group.toNat
  if ps.isEmpty then s
  else ps.foldl (fun s p => s.postEvent 0x0003 noRing (s.pipe p).handle.toNat m.pack) (s.toHeadboxes m)

/-- 100 µs in 2^−16 ns. -/
def hundredMicros : Nat := 100000 * 65536

/-- XOMOS_TRIGGER_PACKET (R543, R544): an accepted trigger packet is delivered once and forwarded, or discarded and counted. -/
def execXomosTriggerPacket (p : Fin 8) (m : BitVec 256) (hops : BitVec 6) (s : State) : Host.Outcome State Fault Refusal :=
  let mine := fun a : Nat × Packet =>
    a.1 == p.val && a.2.tag.setWidth 6 == hops && (a.2.data == (List.range 3).map fun k => BitVec.ofNat 96 (bitsOf m.toNat (96 * k) 96))
  match s.xms.arrived.find? mine with
  | none => .next s
  | some a =>
    let x := s.xms
    let keys := x.keys.filter fun k => decide (s.runNow < k.seen + hundredMicros)
    let t := TrigMsg.remote m.toNat
    let same := fun k : TrigKey => k.rank == t.rank && k.pipe == t.pipe && k.tseq == t.tseq && k.bad == t.bad
    let put := fun (c : XmsCnt) (keys : List TrigKey) =>
      ({ s with xms := { x with arrived := x.arrived.eraseIdx (x.arrived.findIdx mine), keys, cnt := c } } : State)
    if s.flt.halted then .next s
    else if keys.any same then .next (put { x.cnt with dup := x.cnt.dup + 1 } keys)
    else if t.due + hundredMicros < s.now then .next (put { x.cnt with stale := satBump x.cnt.stale 1 } keys)
    else if 4096 ≤ keys.length then .next (put { x.cnt with full := satBump x.cnt.full 1 } keys)
    else
      let s1 := (put x.cnt (keys ++ [{ rank := t.rank, pipe := t.pipe, tseq := t.tseq, bad := t.bad, seen := s.runNow }])).deliverRemote t
      .next (if hops = 0 then s1
        else s1.floodPacket (some p.val) { a.2 with tag := BitVec.ofNat 32 (hops.toNat - 1), seqNo := 0, resends := 0 })

/-! ## Time (R546, R547, R549) -/

/-- The fields of TSYNC (R531). -/
def tsyncFields (exch stage : Nat) (t : TimeVal) : Nat := 
  exch * 2 ^ 80 + stage * 2 ^ 78 + timeWord t / 2 ^ 48 % 2 ^ 16 * 2 ^ 62 + timeWord t % 2 ^ 46 * 2 ^ 16

/-- TSYNC_REQUEST_TIMER (R547). -/
def execTsyncRequestTimer (s : State) : Host.Outcome State Fault Refusal :=
  if s.xms.regs.frame.toNat % 65536 ≠ 0 ∨ !s.gddr.aligned ∨ s.flt.halted then .next s
  else
    let n := s.xms.exch + 1
    .next (s.openPorts.foldl (fun s p =>
      let f := s.takePhase
      let t1 := f.2.markTime { phase := f.1 }
      (f.2.setXport p { s.xport p with tsync := some (n.toNat, t1), t2 := none, t4 := none }).sendBlock p 0x88 (tsyncFields n.toNat 0 t1))
      { s with xms := { s.xms with exch := n } })

/-- The difference of two times of which one is known modulo 65,536 s, taken nearest 0. -/
def timeGap (a b : TimeVal) : Int := Int.bmod ((a : Int) - b) (65536 * second)

/-- The end of a time exchange (R547): D on every port, e on the time parent. -/
def State.syncDone (s : State) (p : Nat) (t1 t2 t3 t4 : TimeVal) : State :=
  let x := s.xport p
  let asym := signedOf 16 x.asym.toNat * 1024
  let d := (((t4 : Int) - t1) - timeGap t3 t2) / 2 + asym
  let e := (timeGap t1 t2 + timeGap t4 t3) / 2 - asym
  let s1 := s.setXport p { x with tsync := none, t2 := none, t4 := none, delay := BitVec.ofInt 16 (clampInt 0 65535 (d / 4096)) }
  if s.xms.regs.parent.toNat = p then s1.measureDue 3 e else s1

/-- TSYNC (R547, R549): a request is answered with response, follow-up and CALIGN; the others complete the own exchange. -/
def execTsync (p : Fin 8) (m : TsyncMsg) (s : State) : Host.Outcome State Fault Refusal :=
  let x := s.xport p
  let mine := x.tsync.filter fun t => t.1 == m.exch.toNat
  if !s.portOpen p then .next s
  else match m.stage.toNat, mine, x.t2, x.t4 with
    | 0, _, _, _ =>
      let n := m.exch.toNat
      let s1 := s.sendBlock p 0x88 (tsyncFields n 1 (s.markTime m.mark))
      let f := s1.takePhase
      .next ((f.2.sendBlock p 0x88 (tsyncFields n 2 (f.2.markTime { phase := f.1 }))).sendCalign p 0)
    | 1, some _, _, _ => .next (s.setXport p { x with t2 := some m.time, t4 := some (s.markTime m.mark) })
    | 2, some t, some t2, some t4 => .next (s.syncDone p t.2 t2 m.time t4)
    | _, _, _, _ => .next s

/-- The local time of the neighbour's boundary that a CALIGN names, in 2^−16 ÷ 3 ns (R567). -/
def State.boundaryOf (s : State) (p : Nat) (m : CalignMsg) : Int :=
  3 * ((s.markTime m.mark : Int) - (s.xport p).delay.toNat * 4096 - m.ofs.toNat * 1024)

/-- The frame offset of a neighbour from a CALIGN with NA 0 (R549). -/
def State.frameOffset (s : State) (p : Nat) (m : CalignMsg) : State :=
  let x := s.xport p
  let own := (3 * s.now : Nat) - (s.frameAge : Int)
  let o := Int.bmod (s.boundaryOf p m - own) frameUnits
  let w := o / (3 * 4096)
  let wide := decide (100 * 3 * 65536 < o.natAbs)
  let s1 := s.setXport p { x with
    fofs := BitVec.ofInt 16 (clampInt (-32768) 32767 w), drift := wide || (x.drift && decide (50 * 3 * 65536 ≤ o.natAbs)) }
  if wide && !x.drift then s1.postEvent 0x0067 noRing 0 (p + 2 ^ 32 * unsignedOf 32 w) else s1

/-- CALIGN (R549, R567, R571): with NA 0 the frame offset, by which a late joiner aligns to its parent; else the first one is
forwarded, and the parent's arms the alignment. -/
def execCalign (p : Fin 8) (m : CalignMsg) (s : State) : Host.Outcome State Fault Refusal :=
  let x := s.xms
  let up := x.regs.parent.toNat = p.val
  let arm := fun (s : State) (na : Nat) => s.armAlign (s.boundaryOf p m) na (BitVec.ofNat 32 na - m.nk).toNat
  if !s.portOpen p then .next s
  else if m.na = 0 then
    let s1 := s.frameOffset p m
    .next (if up ∧ x.late ∧ x.st = .routed ∧ x.na.isNone then
      arm s1 (alignFrame m.nk.toNat ((3 * s.now : Nat) - s.boundaryOf p m : Int).toNat) else s1)
  else if !x.goSeen ∨ (x.st ≠ .confirmed ∧ x.st ≠ .routed) ∨ x.regs.parent = 0xF ∨ x.late then .next s
  else
    let s1 := if x.na.isNone then s.floodCalign (some p.val) m.na.toNat else s
    .next (if up then arm s1 m.na.toNat else { s1 with xms := { s1.xms with na := some m.na.toNat } })

/-! ## Discovery (R561–R566, R571) -/

/-- The fields of the device's COORD (R531). -/
def State.coordFields (s : State) (late : Bool) : Nat :=
  let r := s.xms.regs
  let d := s.xms.dims
  r.originId.toNat * 2 ^ 56 + r.x.toNat * 2 ^ 51 + r.y.toNat * 2 ^ 46 + r.z.toNat * 2 ^ 41 + (d.1 - 1) * 2 ^ 36 + (d.2.1 - 1) * 2 ^ 31 +
    (d.2.2 - 1) * 2 ^ 26 + bitN s.xms.sysSkip * 2 ^ 25 + r.epoch.toNat * 2 ^ 17 + r.parent.toNat * 2 ^ 13 + s.xms.hops.toNat * 2 ^ 7 +
    bitN late * 2 ^ 6

/-- DISC (R561, R571): the neighbour's DEVID and port; a port that is not the opposite one marks the link MISWIRED. A device that
holds a coordinate answers with its COORD, LATE once it has left FLOODED. -/
def execDisc (p : Fin 8) (devid : BitVec 32) (port : BitVec 4) (version : BitVec 4) (s : State) : Host.Outcome State Fault Refusal :=
  if !s.portActive p || s.flt.halted || version != 1 then .next s
  else
    let bad := port.toNat != oppositePort p
    let s1 := s.setXport p { s.xport p with nbValid := true, nbId := devid, nbPort := port.setWidth 3, miswired := bad }
    .next (if bad then s1.tryConfirm else if !s.xms.st.placed then s1 else s1.sendBlock p 0x91 (s1.coordFields (s.xms.st != .flooded)))

/-- The coordinate of a COORD's sender. -/
def CoordMsg_place (m : CoordMsg) : Nat × Nat × Nat := (m.x.toNat, m.y.toNat, m.z.toNat)

/-- The dimensions in a COORD. -/
def CoordMsg_dims (m : CoordMsg) : Nat × Nat × Nat := (m.dx.toNat + 1, m.dy.toNat + 1, m.dz.toNat + 1)

/-- The coordinate that a COORD implies for the receiver: one step from the sender opposite to the port's direction (R563). -/
def impliedPlace (p : Nat) (m : CoordMsg) : Nat × Nat × Nat := portPlace (CoordMsg_dims m) (CoordMsg_place m) (oppositePort p)

/-- The coordinate the device holds. -/
def Xms.place (x : Xms) : Nat × Nat × Nat := (x.regs.x.toNat, x.regs.y.toNat, x.regs.z.toNat)

/-- A coordinate in 15 bits, X lowest (R572). -/
def placeBits (q : Nat × Nat × Nat) : Nat := q.1 + 2 ^ 5 * q.2.1 + 2 ^ 10 * q.2.2

/-- Marks a link MISWIRED and posts MISWIRED (R564). -/
def State.miswire (s : State) (p : Nat) (q : Nat × Nat × Nat) : State :=
  let x := s.xport p
  (s.setXport p { x with miswired := true }).postEvent 0x0062 noRing 0 (p + 2 ^ 32 * x.nbId.toNat + 2 ^ 64 * placeBits q)

/-- The device is the later one of two with a coordinate: DUPLICATE (R564). -/
def State.duplicate (s : State) (q : Nat × Nat × Nat) : State :=
  ({ s with xms := { s.xms with st := .duplicate } } : State).postEvent 0x0068 noRing 0 (placeBits q)

/-- Whether a neighbour on another port in use holds a coordinate in the same system (R564). -/
def State.placeTaken (s : State) (p : Nat) (origin : BitVec 32) (q : Nat × Nat × Nat) : Bool :=
  s.openPorts.any fun o => o != p && (s.xport o).coord.any fun c => c.origin == origin && (c.x.toNat, c.y.toNat, c.z.toNat) == q

/-- The registers and marks of a new system: nothing confirmed, routed or aligned in it yet (R563, R569). A READY device takes its place in
the new system and stays READY, with its routes (DEDUCED, log entry 65). -/
def Xms.enter (x : Xms) (m : CoordMsg) (p : Nat) (q : Nat × Nat × Nat) : Xms :=
  let y := if x.st = .ready then x
    else { x with st := .flooded, late := m.late, goSeen := false, map := [], routes := [], dirty := false, na := none, gone := [] }
  { y with
    dims := CoordMsg_dims m, sysSkip := m.skip, hops := m.hops + 1
    ports := x.ports.map fun k => (k.1, { k.2 with confirm := none })
    regs := { x.regs with
      x := BitVec.ofNat 5 q.1, y := BitVec.ofNat 5 q.2.1, z := BitVec.ofNat 5 q.2.2, parent := BitVec.ofNat 4 p, epoch := m.epoch
      rank := BitVec.ofNat 15 (placeRank (CoordMsg_dims m) q), originId := m.origin, count := 0, missing := 0 } }

/-- The device takes its time from its parent: TBS.CTRL is set and locked, unless it is locked (R546). -/
def State.followParent (s : State) : State :=
  let c := s.tb.ctrl
  if c.lock then s else { s with tb := s.tb.setCtrl { c with srcEn := 8, primary := 3, lock := true } }

/-- A device accepts a COORD of another system, or its first (R546, R563, R569). -/
def State.joinSystem (s : State) (p : Nat) (m : CoordMsg) : State :=
  let q := impliedPlace p m
  let was := s.xms.regs.origin && !s.xms.regs.originLost
  let x := s.xms.enter m p q
  let s1 : State := { s with
    xms := { x with regs := { x.regs with originLost := x.regs.originLost || was } }
    tb := if s.xms.st = .ready then s.tb
      else { s.tb with tsu := SMap.modify {} s.tb.tsu 30 fun u : Tsu => { u with armed := false, passed := none } } }
  let s2 := if was then s1.postEvent 0x0063 noRing 0 m.origin.toNat else s1
  let s3 := s2.followParent
  (s3.floodBlock none 0x91 (s3.coordFields (x.st == .ready))).tryConfirm

/-- A device accepts a COORD of a higher EPOCH: its coordinate stays (R563). -/
def State.newEpoch (s : State) (p : Nat) (m : CoordMsg) : State :=
  let x := s.xms
  let s1 : State := { s with xms := { x with
    hops := m.hops + 1
    ports := x.ports.map fun k => (k.1, { k.2 with confirm := none })
    regs := { x.regs with parent := BitVec.ofNat 4 p, epoch := m.epoch } } }
  (s1.floodBlock none 0x91 (s1.coordFields (x.st == .ready))).tryConfirm

/-- A COORD whose implied coordinate is not the one held marks the link. Where its sender holds the device's own coordinate, the later of the
two is DUPLICATE: the one that is not yet READY; where neither is, which is later is a free value (R564; DEDUCED, log entry 65). -/
def State.displaced (s : State) (p : Nat) (m : CoordMsg) (q : Nat × Nat × Nat) : State :=
  let s1 := s.miswire p q
  if CoordMsg_place m ≠ s.xms.place ∨ s.xms.st = .ready then s1.tryConfirm
  else if m.late then s1.duplicate s.xms.place
  else
    let f := s1.takeFree
    if f.1 % 2 = 0 then f.2.tryConfirm else f.2.duplicate s.xms.place

/-- COORD (R563, R564, R569, R571): recorded, and accepted where R563 says so. A late joiner that names this device as its parent gets
the link map. -/
def execCoord (p : Fin 8) (m : CoordMsg) (s : State) : Host.Outcome State Fault Refusal :=
  let x := s.xms
  let q := impliedPlace p m
  let held := x.st.placed
  let same := held && m.origin == x.regs.originId
  let rx : CoordRx := { origin := m.origin, x := m.x, y := m.y, z := m.z, parent := m.parent, hops := m.hops, epoch := m.epoch }
  let s1 := s.setXport p { s.xport p with
    coord := some rx, nbRank := BitVec.ofNat 15 (placeRank (CoordMsg_dims m) (CoordMsg_place m)) }
  if !s.portOpen p || x.st == .alone || x.st == .duplicate then .next s
  else if same && q != x.place then .next (s.displaced p m q)
  else if !held || decide (m.origin < x.regs.originId) then
    .next (if s.placeTaken p m.origin q then s.duplicate q else s1.joinSystem p m)
  else if same && decide (x.regs.epoch < m.epoch) then .next (s1.newEpoch p m)
  else if same && x.st != .flooded && x.goSeen && m.parent.toNat == oppositePort p then .next (s1.sendMap p)
  else .next s1.tryConfirm

/-- CONFIRM (R565). -/
def execConfirm (p : Fin 8) (origin : BitVec 32) (epoch : BitVec 8) (count : BitVec 15) (s : State) : Host.Outcome State Fault Refusal :=
  let r := s.xms.regs
  .next (if s.portOpen p ∧ s.xms.st = .flooded ∧ origin = r.originId ∧ epoch = r.epoch then
      (s.setXport p { s.xport p with confirm := some count }).tryConfirm
    else s)

/-- GO (R565, R566): the first one is forwarded. -/
def execGo (p : Fin 8) (origin : BitVec 32) (epoch : BitVec 8) (count : BitVec 15) (s : State) : Host.Outcome State Fault Refusal :=
  let r := s.xms.regs
  .next (if s.portOpen p ∧ s.xms.st = .confirmed ∧ !s.xms.goSeen ∧ origin = r.originId ∧ epoch = r.epoch then
      (s.floodBlock (some p.val) 0x93 (s.confirmFields count.toNat)).confirmedWith count.toNat
    else s)

/-- A write of XMS.SYSCFG (R15, R561, R562): fields under LOCK stay, START counts at a designated origin. -/
def State.writeSysCfg (s : State) (v : Nat) : State :=
  let r := s.xms.regs
  let r1 : XmsRegs := if r.lock then r else
    { r with enable := bitAt v 31, origin := bitAt v 30, skip := bitAt v 28, dx := BitVec.ofNat 5 (bitsOf v 23 5)
             dy := BitVec.ofNat 5 (bitsOf v 18 5), dz := BitVec.ofNat 5 (bitsOf v 13 5) }
  { s with xms := { s.xms with
      regs := { r1 with lock := r.lock || bitAt v 12 }
      started := s.xms.started || (bitAt v 29 && r1.origin) } }

/-- XMS_START (R562). -/
def execXmsStart (v : Word) (s : State) : Host.Outcome State Fault Refusal :=
  .next (if s.flt.halted then s else s.writeSysCfg v.toNat)

/-- XMS_LOCK (R696). -/
def execXmsLock (s : State) : Host.Outcome State Fault Refusal :=
  .next (if s.flt.halted then s else { s with xms := { s.xms with regs := { s.xms.regs with lock := true } } })

/-- ORIGIN_FLOOD (R562): the origin takes (0,0,0), EPOCH 1 and HOPS 0 and sends COORD. -/
def execOriginFlood (s : State) : Host.Outcome State Fault Refusal :=
  let x := s.xms
  if !x.started || !x.regs.origin || x.st != .ports || s.flt.halted then .next s
  else
    let r := { x.regs with x := 0, y := 0, z := 0, rank := 0, parent := 0xF, epoch := 1, originId := s.devId }
    let s1 : State := { s with xms := { x with
      st := .flooded, hops := 0, late := false, sysSkip := r.skip, dims := (r.dx.toNat + 1, r.dy.toNat + 1, r.dz.toNat + 1), regs := r } }
    .next (s1.floodBlock none 0x91 (s1.coordFields false)).tryConfirm

/-- SYSTEM_READY (R568). -/
def execSystemReady (s : State) : Host.Outcome State Fault Refusal :=
  let x := s.xms
  if x.st ≠ .aligned ∨ s.bru.stage ≠ .ready ∨ s.flt.halted then .next s
  else .next (({ s with xms := { x with st := .ready } } : State).postEvent 0x0064 noRing 0
    (x.regs.count.toNat + 2 ^ 16 * x.regs.missing.toNat + 2 ^ 32 * x.na.getD 0))

end Sys2Proof.Machine
end

