-- ==== Sys2Proof/Machine/Collective.lean ====
section
/-!
DEFINITION. The collective engine: requests of region 15, their results, and the replay of a sheet across devices (R550–R560).
-/
namespace Sys2Proof.Machine

/-! ## Region 15 and image lines (R551) -/

/-- The physical line of region 15's line `n`. -/
def State.collLine (s : State) (im : Image) (n : Nat) : Nat :=
  match im.collRegion with
  | none => 0
  | some r => (s.region r.rgt).base.toNat + n

/-- The request entries of region 15. -/
def Image.collSlots (im : Image) : Nat := min (((im.collRegion.map (·.lines)).getD 17) - 17) 4096

/-- The line of a request entry. -/
def State.requestLine (s : State) (im : Image) (k : Nat) : Nat := s.collLine im (17 + k % max 1 im.collSlots)

/-- Bytes of a line of region 15. -/
def State.lineBytes (s : State) (l : Nat) : List Byte := s.gddrRead (64 * l) 64

/-- The physical line of an image line that some region with an attribute bit covers (R212, R215). -/
def State.imageLine (s : State) (im : Image) (bit a : Nat) : Option Nat :=
  (im.regions.find? fun r => bitAt r.attr.toNat bit && decide (r.ibase ≤ a) && decide (a < r.ibase + r.lines)).map fun r =>
    (s.region r.rgt).base.toNat + (a - r.ibase)

/-- The physical lines of `bytes` bytes from an image line on; none where one is not covered. -/
def State.imageLines (s : State) (im : Image) (bit a bytes : Nat) : Option (List Nat) :=
  ((List.range (ceilDiv bytes 64)).map fun k => s.imageLine im bit (a + k)).foldr (fun l acc => l.bind fun x => acc.map (x :: ·)) (some [])

/-! ## Requests (R552, R554, R557) -/

/-- A request entry of region 15 (R552). -/
structure CollReq where
  op : Nat
  dtype : Nat
  group : Nat
  root : Nat
  elements : Nat
  src : Nat
  dst : Nat
  deriving DecidableEq, Repr

/-- The fields of a request entry. -/
def CollReq.ofBytes (b : List Byte) : CollReq :=
  { op := fieldAt b 0 1, dtype := fieldAt b 1 1 % 16, group := fieldAt b 1 1 / 16, root := fieldAt b 2 2, elements := fieldAt b 4 4
    src := fieldAt b 8 4, dst := fieldAt b 12 4 }

/-- Bytes of an element (R552). -/
def CollReq.size (q : CollReq) : Nat := if q.dtype = 1 then 2 else 4

/-- Bytes that each member reads from its SRC. -/
def CollReq.srcBytes (q : CollReq) : Nat := if q.op = 5 then 0 else q.elements * q.size

/-- Bytes written to DST on each member of a group of `g`. -/
def CollReq.dstBytes (q : CollReq) (g : Nat) : Nat :=
  match q.op with
  | 2 => q.elements / max 1 g * q.size
  | 3 => g * q.elements * q.size
  | 5 => 0
  | _ => q.elements * q.size

/-- The ranks of a group record's members in ascending rank, none for a record that is not VALID or reaches outside the system (R551,
R552, R558). -/
def groupMembers (dims : Nat × Nat × Nat) (b : List Byte) : List Nat :=
  let w := fieldAt b 0 4
  let f := fun k => bitsOf w (5 * k) 5
  let span := fun lo hi => (List.range (hi + 1 - lo)).map (lo + ·)
  if !bitAt w 30 || decide (dims.1 ≤ f 1) || decide (dims.2.1 ≤ f 3) || decide (dims.2.2 ≤ f 5) then []
  else (span (f 4) (f 5)).flatMap fun z => (span (f 2) (f 3)).flatMap fun y => (span (f 0) (f 1)).map fun x => placeRank dims (x, y, z)

/-! ## Results (R555–R557) -/

/-- The balanced reduction of R555; `fuel` bounds its depth. -/
def collTree {α : Type} (d : α) (f : α → α → α) : Nat → List α → α
  | 0, l => l.headD d
  | fuel + 1, l =>
    if l.length ≤ 1 then l.headD d
    else
      let h := 2 ^ Nat.log2 (l.length - 1)
      f (collTree d f fuel (l.take h)) (collTree d f fuel (l.drop h))

/-- ⊕ on F32 encodings and INT32 words (R556). -/
def collOp (dtype : Nat) (a b : Nat) : Nat :=
  match dtype with
  | 2 => unsignedOf 32 (clampInt (-(2 ^ 31)) (2 ^ 31 - 1) (signedOf 32 a + signedOf 32 b))
  | 3 => ((FVal.ofBits f32 a).maximum (FVal.ofBits f32 b)).toBits f32
  | _ => ((FVal.ofBits f32 a).add (FVal.ofBits f32 b)).toBits f32

/-- One reduced element: W16 inputs are widened and the result is rounded once; a NaN result is canonical (R555, R556). -/
def collReduce (dtype : Nat) (vs : List Nat) : Nat :=
  let wide := fun v => if dtype = 1 then (FVal.ofBits w16 v).toBits f32 else v
  let r := collTree 0 (collOp dtype) vs.length (vs.map wide)
  match dtype with
  | 1 => (FVal.ofBits f32 r).toBits w16
  | 2 => r
  | _ => (FVal.ofBits f32 r).toBits f32

/-- Element `i` of a member's bytes. -/
def CollReq.elem (q : CollReq) (b : List Byte) (i : Nat) : Nat := fieldAt b (i * q.size) q.size

/-- Elements `from_` to `from_ + n − 1` of the reduction over the members' bytes, in member order. -/
def CollReq.reduced (q : CollReq) (srcs : List (List Byte)) (from_ n : Nat) : List Byte :=
  (List.range n).flatMap fun i => natLe q.size (collReduce q.dtype (srcs.map fun b => q.elem b (from_ + i)))

/-- What member `m` gets in DST, from the SRC bytes of every member (R557). -/
def CollReq.result (q : CollReq) (srcs : List (List Byte)) (m : Nat) : List Byte :=
  let n := q.elements / max 1 srcs.length
  match q.op with
  | 1 => q.reduced srcs 0 q.elements
  | 2 => q.reduced srcs (m * n) n
  | 3 => srcs.flatten
  | 4 => srcs.getD q.root []
  | _ => []

/-! ## Ends (R553, R558, R559) -/

/-- The sheet of an image completes FATAL, its pipelines halt (R559, R590). -/
def State.collFatal (s : State) (h : Nat) (check : BitVec 8) : State :=
  if (s.image h).kind = 1 then ((s.image h).pipes.foldl (fun s p => s.haltPipe p 1) s).endSheet h outFatal check 0 false
  else s.abortSheet h outFatal check 0

/-- Counts an ended request in XMS.COLL (R558, R559). -/
def XmsCnt.ended (c : XmsCnt) (status : Nat) : XmsCnt :=
  match status with
  | 2 => { c with mismatch := satBump c.mismatch 1 }
  | 3 => { c with timeout := satBump c.timeout 1 }
  | 6 => { c with lost := satBump c.lost 1 }
  | _ => c

/-- The count of the next request of a group at an image, from 1 (R554). -/
def State.collCount (s : State) (h : Nat) (q : CollReq) : Nat := SMap.get 0 (s.image h).collCnt q.group + 1

/-- TAG of a collective packet (R557); of a KIND 2 packet with chunk 0 (DEDUCED, log entry 66). -/
def CollReq.tag (q : CollReq) (n chunk : Nat) : BitVec 32 := BitVec.ofNat 32 (q.group * 2 ^ 28 + n % 256 * 2 ^ 20 + chunk)

/-- The end of request `k`, the `n`-th of its group: STATUS; STATUS 2–7 post COLL_FAULT, with the rank concerned (R553, R558). -/
def State.noteEnd (s : State) (h k : Nat) (q : CollReq) (n status rank : Nat) : State :=
  let l := s.requestLine (s.image h) k
  let s1 := (s.gddrWrite (64 * l + 0x3C) [BitVec.ofNat 8 status]).asks classColl true (64 * l) 64
  let s2 : State := { s1 with xms := { s1.xms with cnt := s1.xms.cnt.ended status } }
  if status = 1 then s2 else s2.postEvent 0x0066 noRing h (q.group + 2 ^ 4 * (n % 256) + 2 ^ 16 * status + 2 ^ 32 * rank)

/-- The request at the head of an image's queue has ended: CONS and DONE, and its packets go (R553). -/
def State.passRequest (s : State) (h : Nat) (q : CollReq) : State :=
  let im := s.image h
  let k := im.collNext
  let n := s.collCount h q
  let a := 64 * s.collLine im 0
  let s1 := (s.gddrWrite (a + 8) (natLe 8 (k + 1) ++ natLe 8 (k + 1))).asks classColl true a 64
  let s2 := s1.setImage h { im with collNext := k + 1, collCnt := SMap.set 0 im.collCnt q.group n, collEnded := im.collEnded.filter (· != k) }
  { s2 with xms := { s2.xms with collIn := s2.xms.collIn.filter fun p => p.tag.toNat / 2 ^ 20 != (q.tag n 0).toNat / 2 ^ 20 } }

/-- A request entry of an image, by its index. -/
def State.requestAt (s : State) (h k : Nat) : CollReq := CollReq.ofBytes (s.lineBytes (s.requestLine (s.image h) k))

/-- Passes the requests at the head that have ended before their turn (R559); `fuel` bounds them. -/
def State.skipEnded (s : State) (h : Nat) : Nat → State
  | 0 => s
  | fuel + 1 =>
    let k := (s.image h).collNext
    if (s.image h).collEnded.contains k then (s.passRequest h (s.requestAt h k)).skipEnded h fuel else s

/-- Ends the request at the head of an image's queue, and passes those behind it that have ended (R553, R558). Where the engine writes part
of an uncorrectable line for it, it is told as for a read (R590, R733). -/
def State.endRequest (s : State) (h : Nat) (q : CollReq) (status rank : Nat) : State :=
  let im := s.image h
  let l := s.requestLine im im.collNext
  let l0 := s.collLine im 0
  let s1 := ((s.noteEnd h im.collNext q (s.collCount h q) status rank).passRequest h q).skipEnded h im.collEnded.length
  match [l, l0].find? s.lineBad with
  | none => s1
  | some b => (s1.lineFault b h).collFatal h 0xA5

/-- Whether the collective engine serves an image: feature 6 is granted, and no sheet waits to be replayed (R550, R560). -/
def State.collServes (s : State) (h : Nat) : Bool :=
  let im := s.image h
  s.loaded h && bitAt im.granted.toNat 6 && !im.sheet.replayWait && !s.xms.replayDue.contains h && !s.flt.halted

/-- The requests that an image has presented: PROD of line 0 (R551). -/
def State.collProd (s : State) (im : Image) : Nat := fieldAt (s.lineBytes (s.collLine im 0)) 0 8

/-- The members of the group that a request names. -/
def State.membersOf (s : State) (im : Image) (q : CollReq) : List Nat :=
  groupMembers s.xms.dims (s.lineBytes (s.collLine im (1 + q.group)))

/-- Whether a rank has left the system or cannot be reached (R542, R559). -/
def State.rankLost (s : State) (r : Nat) : Bool :=
  r != s.xms.regs.rank.toNat && (SMap.get false s.xms.gone r || (s.nextPort r).isNone)

/-- Whether a request is out of range on this device (R557, R558). -/
def State.collRange (s : State) (im : Image) (q : CollReq) (g : Nat) : Bool :=
  q.op == 0 || decide (5 < q.op) || decide (3 < q.dtype) || (q.op == 4 && decide (g ≤ q.root)) ||
    decide (384 * 2 ^ 20 < q.elements * q.size) || (q.op == 2 && q.elements % max 1 g != 0) ||
    (s.imageLines im 0 q.src q.srcBytes).isNone || (s.imageLines im 1 q.dst (q.dstBytes g)).isNone

/-- Writes bytes to physical lines in order, in COLL slots (R253). -/
def State.writeLines (s : State) : List Nat → List Byte → State
  | [], _ => s
  | l :: ls, bs => ((s.gddrWrite (64 * l) (bs.take 64)).asks classColl true (64 * l) 64).writeLines ls (bs.drop 64)

/-! ## Packets of a collective (R554, R557) -/

/-- Sends a collective packet to each of some ranks. -/
def State.collSend (s : State) (ranks : List Nat) (kind : BitVec 4) (tag : BitVec 32) (data : List (BitVec 96)) : State :=
  ranks.foldl (fun s r => s.routePacket { cls := 6, dst := BitVec.ofNat 15 r, src := s.xms.regs.rank, kind, tag, data }) s

/-- Bytes as `n` data blocks of 12, zeros after them (DEDUCED, log entry 66). -/
def collBlocks (n : Nat) (bs : List Byte) : List (BitVec 96) := (List.range n).map fun j => BitVec.ofNat 96 (fieldAt bs (12 * j) 12)

/-- The bytes of data blocks. -/
def blockData (bs : List (BitVec 96)) : List Byte := bs.flatMap fun b => natLe 12 b.toNat

/-- The engine's reads of a request entry and of its group's line, once for each request (R253, R551). -/
def State.askRequest (s : State) (h : Nat) (q : CollReq) : State :=
  let im := s.image h
  if im.collNext < im.collHead then s
  else (s.asks classColl false (64 * s.requestLine im im.collNext) 64).asks classColl false (64 * s.collLine im (1 + q.group)) 64

/-- Presents the request at the head to the other members, once: bytes 0x00–0x07 in a KIND 2 packet (R554). -/
def State.sendHead (s : State) (h : Nat) (q : CollReq) (others : List Nat) : State :=
  let im := s.image h
  let k := im.collNext
  if k < im.collHead then s
  else
    let l := s.requestLine im k
    ((s.askRequest h q).setImage h { im with collHead := k + 1 }).collSend others 2 (q.tag (s.collCount h q) 0) (collBlocks 1 ((s.lineBytes l).take 8))

/-- Sends the SRC of the request at the head to the other members, once, in KIND 1 packets of 32 blocks, read in COLL slots (R557). Which
of it each of them needs the spec leaves to the engine: it sends all (DESIGN CHOICE, log entry 66). -/
def State.sendData (s : State) (h : Nat) (q : CollReq) (others : List Nat) (src : List Nat) : State :=
  let im := s.image h
  let k := im.collNext
  if k < im.collData then s
  else
    let n := s.collCount h q
    let bs := (src.flatMap s.lineBytes).take q.srcBytes
    let s1 := src.foldl (fun s l => s.asks classColl false (64 * l) 64) (s.setImage h { im with collData := k + 1 })
    (List.range (if src = [] then 0 else ceilDiv q.srcBytes 384)).foldl (fun s c =>
      s.collSend others 1 (q.tag n c) (collBlocks 32 ((bs.drop (384 * c)).take 384))) s1

/-- A collective packet that has come from a rank. -/
def State.collGot (s : State) (kind : BitVec 4) (rank : Nat) (tag : BitVec 32) : Option Packet :=
  s.xms.collIn.find? fun p => p.kind == kind && p.src.toNat == rank && p.tag == tag

/-- What a member has presented for the `n`-th request of a group (R554). -/
def State.peerHead (s : State) (q : CollReq) (n rank : Nat) : Option (List Byte) :=
  (s.collGot 2 rank (q.tag n 0)).map fun p => (blockData p.data).take 8

/-- The SRC of a member, once all its packets have come (R557). -/
def State.peerData (s : State) (q : CollReq) (n rank : Nat) : Option (List Byte) :=
  let cs := (List.range (ceilDiv q.srcBytes 384)).map fun c => s.collGot 1 rank (q.tag n c)
  if cs.all Option.isSome then some ((blockData (cs.flatMap fun p => (p.map (·.data)).getD [])).take q.srcBytes) else none

/-- Whether a member's SRC is read for a request: the root's of a BROADCAST, none's of a BARRIER (R557). -/
def CollReq.reads (q : CollReq) (members : List Nat) (rank : Nat) : Bool :=
  q.op != 5 && (q.op != 4 || members.getD q.root 0 == rank)

/-- What the other members of a group have presented and sent, in member order, once all of it has come. -/
def State.collPeers (s : State) (q : CollReq) (n : Nat) (members : List Nat) : Option (List CollPeer) :=
  let one := fun r => (s.peerHead q n r).bind fun head =>
    if q.reads members r then (s.peerData q n r).map fun src => ({ head, src } : CollPeer) else some { head, src := [] }
  let ps := (members.filter (· != s.xms.regs.rank.toNat)).map one
  if ps.all Option.isSome then some (ps.filterMap id) else none

/-- Performs the request at the head, whose group has `members`, with the data of the others in member order. A line of DST of which it
writes part and that is uncorrectable ends the sheets as a read of one does (R590, R733). -/
def State.perform (s : State) (h : Nat) (q : CollReq) (members src dst : List Nat) (peers : List CollPeer) : State :=
  let m := members.idxOf s.xms.regs.rank.toNat
  let srcs := (peers.map (·.src)).insertIdx m ((src.flatMap s.lineBytes).take q.srcBytes)
  let bs := q.result srcs m
  let s1 := s.writeLines dst bs
  match (if bs.length % 64 = 0 then none else dst.getLast?.filter s.lineBad) with
  | some l => (s1.lineFault l h).collFatal h 0xA5
  | none => s1.endRequest h q 1 0

/-- Whether the engine reads PROD now: it knows of no further request, and has not read it in this calender frame (R553). -/
def State.collPollDue (s : State) (im : Image) : Bool :=
  decide (im.collSeen ≤ im.collNext) && im.collFrame != some s.xms.regs.frame.toNat

/-- The engine's read of PROD, where it is due (R553). -/
def State.collPoll (s : State) (h : Nat) : State :=
  let im := s.image h
  if s.collPollDue im then
    (s.asks classColl false (64 * s.collLine im 0) 64).setImage h
      { im with collSeen := s.collProd im, collFrame := some s.xms.regs.frame.toNat }
  else s

/-- The exchange for the request at the head, which every check has passed: what it presents, then, once every member has presented the
same, its data, and its result once the data of all have come, which `peers` says (R554, R557). -/
def State.exchange (s : State) (h : Nat) (q : CollReq) (members : List Nat) (peers : List CollPeer) : State :=
  let im := s.image h
  let own := s.xms.regs.rank.toNat
  let others := members.filter (· != own)
  let n := s.collCount h q
  let head := (s.lineBytes (s.requestLine im im.collNext)).take 8
  let s1 := s.sendHead h q others
  if others.any fun r => (s.peerHead q n r).isNone then s1
  else match others.find? fun r => s.peerHead q n r != some head with
    | some r => s1.endRequest h q 2 r
    | none =>
      match s.imageLines im 0 q.src q.srcBytes, s.imageLines im 1 q.dst (q.dstBytes members.length) with
      | some src, some dst =>
        let reads := if q.reads members own then src else []
        match reads.find? s.lineBad with
        | some l => (s1.lineFault l h).collFatal h 0xA5
        | none =>
          let s2 := s1.sendData h q others reads
          if s.collPeers q n members = some peers then s2.perform h q members src dst peers else s2
      | _, _ => s1

/-- The engine takes the next request that it knows of and performs it, once every member has presented its matching one (R552–R558). -/
def State.takeRequest (s : State) (h : Nat) (peers : List CollPeer) : State :=
  let im := s.image h
  let own := s.xms.regs.rank.toNat
  let k := im.collNext
  if im.collSeen ≤ k then s
  else if s.lineBad (s.requestLine im k) then (s.lineFault (s.requestLine im k) h).collFatal h 0xA5
  else
    let q := s.requestAt h k
    let gl := s.collLine im (1 + q.group)
    let members := s.membersOf im q
    if s.lineBad gl then (s.lineFault gl h).collFatal h 0xA5
    else if !members.contains own then (s.askRequest h q).endRequest h q 4 own
    else if s.collRange im q members.length then (s.askRequest h q).endRequest h q 5 own
    else match members.find? s.rankLost with
      | some r => ((s.takeFree.2.askRequest h q).endRequest h q 6 r).collFatal h (BitVec.ofNat 8 s.takeFree.1)
      | none => s.exchange h q members peers

/-- COLL_REQUEST (R552–R558): the engine looks for requests of an image and takes the next; `peers` is what the others' packets have
brought when it performs one. -/
def execCollRequest (h : BitVec 16) (peers : List CollPeer) (s : State) : Host.Outcome State Fault Refusal :=
  let n := h.toNat
  let im := s.image n
  if !s.collServes n then .next s
  else if s.collPollDue im && s.lineBad (s.collLine im 0) then .next ((s.lineFault (s.collLine im 0) n).collFatal n 0xA5)
  else .next ((s.collPoll n).takeRequest n peers)

/-- COLL_TIMEOUT (R554): the request at the head ends with TIMEOUT. Which member is absent is a free value (log entry 66). -/
def execCollTimeout (h : BitVec 16) (s : State) : Host.Outcome State Fault Refusal :=
  let n := h.toNat
  let im := s.image n
  let q := CollReq.ofBytes (s.lineBytes (s.requestLine im im.collNext))
  if !s.collServes n ∨ s.collProd im ≤ im.collNext ∨ !(s.membersOf im q).contains s.xms.regs.rank.toNat then .next s
  else
    let f := s.takeFree
    .next (f.2.endRequest n q 3 (f.1 % 2 ^ 15))

/-- The open requests of an image whose group holds a rank, by index (R559). -/
def State.lostRequests (s : State) (h rank : Nat) : List Nat :=
  let im := s.image h
  ((List.range (min (s.collProd im - im.collNext) im.collSlots)).map (im.collNext + ·)).filter fun k =>
    !im.collEnded.contains k && (s.membersOf im (s.requestAt h k)).contains rank

/-- Ends every open request of an image whose group holds a rank with MEMBER_LOST; those behind an open one of another group are passed
in their turn (R553, R559). -/
def State.loseMember (s : State) (h rank : Nat) : State :=
  let im := s.image h
  let ks := s.lostRequests h rank
  let place := fun k => ((List.range (k + 1 - im.collNext)).map (im.collNext + ·)).countP fun j =>
    (s.requestAt h j).group == (s.requestAt h k).group
  let s1 := ks.foldl (fun t k => t.noteEnd h k (s.requestAt h k) (SMap.get 0 im.collCnt (s.requestAt h k).group + place k) 6 rank) s
  (s1.setImage h { s1.image h with collEnded := im.collEnded ++ ks }).skipEnded h (im.collEnded ++ ks).length

/-- MEMBER_LOST (R559): a member left or became unreachable. -/
def execMemberLost (rank : BitVec 15) (s : State) : Host.Outcome State Fault Refusal :=
  if rank = s.xms.regs.rank ∨ !s.xms.st.placed ∨ s.flt.halted then .next s
  else
    let s1 : State := { s with xms := { s.xms with gone := SMap.set false s.xms.gone rank.toNat true } }
    .next ((s.images.map (·.1)).foldl (fun s h =>
      if !s.collServes h || s.lostRequests h rank.toNat == [] then s
      else
        let f := (s.loseMember h rank.toNat).takeFree
        f.2.collFatal h (BitVec.ofNat 8 f.1)) s1)

/-- COLL_REPLAY (R541, R560): once the routes are installed the sheet is aborted and replayed, reported CONTAINED. The unit that the
record names is a free value (log entry 66). -/
def execCollReplay (h : BitVec 16) (s : State) : Host.Outcome State Fault Refusal :=
  let n := h.toNat
  let im := s.image n
  if !s.loaded n ∨ !bitAt im.granted.toNat 6 ∨ !im.sheet.active ∨ s.xms.dirty ∨ s.flt.halted then .next s
  else
    let f := s.takeFree
    let x := f.2.xms
    let s1 : State := { f.2 with xms := { x with
      replayDue := x.replayDue.filter (· != n), cnt := { x.cnt with replays := satBump x.cnt.replays 1 } } }
    let s2 := s1.faultRecord { kind := BitVec.ofNat 8 f.1, cls := 1, action := 3, handle := h, ring := BitVec.ofNat 16 (s.imageRing n) }
    let s3 := if im.sheet.replayWait then s2 else s2.interruptSheet n
    .next (s3.recoverWith n fun s => s.replay n)

end Sys2Proof.Machine
end

