-- ==== Sys2Proof/Machine/VAT.lean ====
section
/-!
DEFINITION. The vat: sweeps, fetching, batches, commits and the sweep report (R425–R450, R503, R590).
-/
namespace Sys2Proof.Machine

/-- Enters the sweep of a descriptor in the pending queue (R434). -/
def State.enterSweep (s : State) (op : Nat) : State :=
  match s.vatHead (some op) with
  | none => s
  | some (w, s1) => s1.enterWork w

/-- VAT_RUN (R433, R434). -/
def execVatRun (s : State) : Host.Outcome State Fault Refusal := .next (s.enterSweep 0)

/-- VAT_LOAD (R433, R434). -/
def execVatLoad (s : State) : Host.Outcome State Fault Refusal := .next (s.enterSweep 1)

/-- VAT_STORE (R433, R434). -/
def execVatStore (s : State) : Host.Outcome State Fault Refusal := .next (s.enterSweep 2)

/-- VAT_CLEAR (R433, R434). -/
def execVatClear (s : State) : Host.Outcome State Fault Refusal := .next (s.enterSweep 3)

/-- VAT_ARM (R433, R434, R445): the checks of R445 are made, and the sweep is stored. -/
def execVatArm (s : State) : Host.Outcome State Fault Refusal :=
  match s.vatHead none with
  | none => .next s
  | some (w, s1) => .next (s1.enterWork w)

/-- Starts the sweep at the head of the queue. -/
def State.startSweep (s : State) (z : Sweep) : State :=
  let v := s.vat
  let seq := if z.op = 0 then v.seq + 1 else v.seq
  { s with vat := { v with
      busy := true, op := z.op, seq
      run := { sweep := z, models := s.sweepModels z, tstart := s.now, tend := s.now, full := s.selectsAll z } } }

/-- SWEEP_START (R434, R444, R445). A refused sweep whose report cannot reach the host waits. After a function reset a sweep that needs a
host address ends at once (R473, log entry 56). -/
def execSweepStart (s : State) : Host.Outcome State Fault Refusal :=
  let s0 := s.enterTaken
  match s0.vat.queue with
  | [] => .next s0
  | z :: rest =>
    let s1 : State := { s0 with vat := { s0.vat with queue := rest } }
    if s.vat.busy ∨ s.flt.halted then .next s
    else if !s.pcx.cfg.busMaster && (s1.sweepRanges z).any (fun p => onHost p.1) then .next (s1.endPending z 0x0E 0xA0)
    else match s1.sweepRefused z with
      | some e => .next (if vatAddr z.report && !s.vatReach z.report then s0 else s1.endPending z e.1 e.2)
      | none => .next (s1.startSweep z)

/-! ## Walking the selection (R433, R435, R437) -/

/-- The next place of the selection, from `i` on, whose context lies in a quarter. A place whose index cannot be read counts to
quarter 0 (log entry 55). -/
def State.seek (s : State) (z : Sweep) (q : Nat) : Nat → Nat → Option (Nat × Option Nat)
  | 0, _ => none
  | fuel + 1, i =>
    let c := s.selected z i
    if (c.getD 0) % 4 = q then some (i, c) else s.seek z q fuel (i + 1)

/-- What a quarter has still to walk. -/
def State.nextPlace (s : State) (q : Nat) : Option (Nat × Option Nat) :=
  let r := s.vat.run
  let i := SMap.get 0 r.next q
  s.seek r.sweep q (r.sweep.count - i) i

/-- Closes an open batch: the `k`-th that its quarter closes for its model is numbered `4k + q` (R437). -/
def Run.close (r : Run) (b : Batch) : Run :=
  let key := 4 * b.model + b.quarter
  let k := SMap.get 0 r.counts key
  { r with
    open_ := r.open_.erase b
    closed := r.closed ++ [{ b with num := 4 * k + b.quarter }]
    counts := SMap.set 0 r.counts key (k + 1) }

/-- Appends a context to the open batch of its MODEL and CBSET, which closes when full; a 65th open batch closes the one whose
first context came earliest (R437). -/
def Run.append (r : Run) (q model cbset : Nat) (x : Ctx) : Run :=
  let mine := r.open_.filter fun b => b.quarter == q
  let same := fun b : Batch => b.quarter == q && b.model == model && b.cbset == cbset
  let r1 := if mine.any same then { r with open_ := r.open_.map fun b => if same b then { b with ctxs := b.ctxs ++ [x] } else b }
    else
      let r0 := match mine.head? with
        | some b => if 64 ≤ mine.length then r.close b else r
        | none => r
      { r0 with open_ := r0.open_ ++ [{ model, cbset, quarter := q, ctxs := [x] }] }
  match r1.open_.find? same with
  | none => r1
  | some b => if (r1.models.getD model {}).batch ≤ b.ctxs.length then r1.close b else r1

/-- Closes every open batch of a quarter, oldest first. -/
def Run.closeAll (r : Run) (q : Nat) : Run := (r.open_.filter fun b => b.quarter == q).foldl Run.close r

/-! ## The cache (R442, R443) -/

/-- Drops the `k` clean entries used longest ago. -/
def dropClean : Nat → List (Nat × Bool) → List (Nat × Bool)
  | 0, l => l
  | _ + 1, [] => []
  | k + 1, (c, d) :: rest => if d then (c, d) :: dropClean (k + 1) rest else dropClean k rest

/-- The cache of a quarter with room for `n` more entries, none while there is no free room. -/
def Vat.withRoom (v : Vat) (q n : Nat) (cached : List (Nat × Bool)) : Option (List (Nat × Bool)) :=
  let size := ctxSize v.wide
  let used := SMap.get 0 v.inflight q + size * cached.length + n
  let k := ceilDiv (used - 16384) size
  if k ≤ cached.countP fun p => !p.2 then some (dropClean k cached) else none

/-- Changes the run of the vat. -/
def State.modRun (s : State) (f : Run → Run) : State := { s with vat := { s.vat with run := f s.vat.run } }

/-- Sets the cache of a quarter. -/
def State.setCache (s : State) (q : Nat) (l : List (Nat × Bool)) : State :=
  { s with vat := { s.vat with cache := SMap.set [] s.vat.cache q l } }

/-- What a context holds: the contents that the cache has yet to write back, else its lines (R443). -/
def State.ctxRead (s : State) (c : Nat) : List Byte :=
  match SMap.get [] s.vat.held c with
  | [] => s.gddrRead (64 * s.ctxLine c) (ctxBytes s.vat.wide)
  | b => b

/-- Puts the new contents of a context in the cache, `cached` being the rest of its quarter's, to be written back (R441–R443). -/
def State.dirty (s : State) (c : Nat) (b : List Byte) (cached : List (Nat × Bool)) : State :=
  let s1 := s.setCache (c % 4) (cached ++ [(c, true)])
  { s1 with vat := { s1.vat with held := SMap.set [] s1.vat.held c b } }

/-- Puts a context that has been read in the cache again, dirty where it waits to be written back. -/
def State.reuse (s : State) (c : Nat) (cached : List (Nat × Bool)) : State :=
  s.setCache (c % 4) (cached ++ [(c, SMap.get [] s.vat.held c != [])])

/-- A context with its RSV fields 0 (R436). -/
def clearRsv (b : List Byte) : List Byte :=
  ((b.set 6 (b.getD 6 0 &&& 7)).set 7 0).take 0x1C ++ List.replicate 4 0 ++ b.drop 0x20

/-! ## CONTEXT_FETCH (R435, R436, R437, R442, R448) -/

/-- Whether a context is lost (R430). -/
def State.ctxLost (s : State) (c : Nat) : Bool := SMap.get false s.vat.lost (c % 4) || (s.quarter (c % 4)).withdrawn

/-- The fault record of a line, or of an entry of a context cache, that the vat cannot read (R590, R618). -/
def State.vatUnitFault (s : State) (kind : BitVec 8) (loc : Nat) : State :=
  let z := s.vat.run.sweep
  s.faultRecord { kind, cls := 3, action := 8, handle := z.handle, loc := BitVec.ofNat 32 loc, ring := z.ring.setWidth 16 }

/-- Asks for the VAT slots of a context (R253). -/
def State.vatSlots (s : State) (write : Bool) (c : Nat) : State :=
  s.asks classVat write (64 * s.ctxLine c) (ctxBytes s.vat.wide)

/-- READ_ERROR: the context is rewritten as FAULTED, ASSET kept where its line can be read (R448). -/
def State.readError (s : State) (c : Nat) : State :=
  let line := s.ctxLine c
  let asset := if s.lineBad line then [0, 0, 0, 0] else s.gddrRead (64 * line) 4
  let s1 := (s.gddrWrite (64 * line) (asset ++ [0, 0, 4] ++ List.replicate (ctxBytes s.vat.wide - 7) 0)).vatSlots true c
  { s1 with vat := { s1.vat with
      held := SMap.set [] s1.vat.held c []
      readErr := SMap.modify 0 s1.vat.readErr (c % 4) fun n : BitVec 16 => satBump n 1 } }

/-- The first line of a context that cannot be read. -/
def State.ctxBadLine (s : State) (c : Nat) : Option Nat :=
  ((List.range (4 * ctxSize s.vat.wide)).map (s.ctxLine c + ·)).find? s.lineBad

/-- LOC of an entry of a context cache (R618). -/
def cacheLoc (q entry : Nat) : Nat := q * 2 ^ 30 + entry

/-- Counts a fetch served by the cache. -/
def State.vatHit (s : State) (q : Nat) : State :=
  let s1 : State := { s with vat := { s.vat with hits := SMap.modify 0 s.vat.hits q fun n : BitVec 32 => n + 1 } }
  s1.modRun fun r => { r with hits := r.hits + 1 }

/-- What a RUN does with a context it has read: its status (R435), or its place in a batch. -/
def State.runContext (s : State) (i c : Nat) (b : List Byte) (cached : List (Nat × Bool)) : Nat × State :=
  let r := s.vat.run
  let q := c % 4
  let model := fieldAt b 4 1
  let input := vatLoc (r.sweep.data + i * r.sweep.stride)
  let keep := fun n : Nat => (n, s.reuse c cached)
  if !bitAt (fieldAt b 6 1) 0 then keep 1
  else if bitAt (fieldAt b 6 1) 1 then keep 2
  else if r.models.length ≤ model then keep 3
  else match s.devRead input (16 * (r.models.getD model {}).inB) with
    | none => keep 8
    | some inp =>
      let s0 := (s.setCache q cached).asksAt classVat false input (16 * (r.models.getD model {}).inB)
      let s1 := s0.modRun fun r => r.append q model (fieldAt b 5 1) { sel := i, num := c, old := b, inp }
      (7, { s1 with vat := { s1.vat with inflight := SMap.modify 0 s1.vat.inflight q fun n : Nat => n + 2 * ctxSize s1.vat.wide } })

/-- What a sweep does with a context that is not lost, `cached` being the cache without it, with room, and `lost` an entry of a context
that the cache holds, found uncorrectable: its status so far. An input record or a source that cannot be read gives READ_ERROR and leaves
the context (DESIGN CHOICE, log entry 55). -/
def State.useContext (s : State) (i c : Nat) (hit : Bool) (lost : Option Nat) (cached : List (Nat × Bool)) : Nat × State :=
  let z := s.vat.run.sweep
  let q := c % 4
  let n := ctxBytes s.vat.wide
  let io := vatLoc (z.data + i * z.stride)
  let fetch := fun s : State =>
    let b := s.ctxRead c
    if z.op = 0 then s.runContext i c b cached
    else if !bitAt (fieldAt b 6 1) 0 then (1, s.reuse c cached)
    else (0, ((s.devWrite io b).asksAt classVat true io n).reuse c cached)
  if z.op = 3 then (0, s.dirty c (List.replicate n 0) cached)
  else if z.op = 1 then
    match s.devRead io n with
    | none => (8, s)
    | some b => (0, (s.asksAt classVat false io n).dirty c (clearRsv b) cached)
  else if hit then match lost with
    | some k => (8, ((s.vatUnitFault 12 (cacheLoc q k)).readError c).setCache q cached)
    | none => fetch (s.vatHit q)
  else match s.ctxBadLine c with
    | some l => (8, ((s.vatUnitFault 6 l).readError c).setCache q cached)
    | none => fetch (s.vatSlots false c)

/-- The status of the context at a place of the selection, and what the sweep does with it; none while the cache has no free
room (R435, R442). -/
def State.fetchContext (s : State) (i : Nat) (lost : Option Nat) (sel : Option Nat) : Option (Nat × State) :=
  let v := s.vat
  match sel with
  | none => some (8, s)
  | some c =>
    let q := c % 4
    if vatCount v.wide ≤ c then some (5, s)
    else if SMap.get false v.run.seen c then some (4, s)
    else
      let s1 := s.modRun fun r => { r with seen := SMap.set false r.seen c true }
      if s.ctxLost c then some (6, s1)
      else
        let all : List (Nat × Bool) := SMap.get [] v.cache q
        (v.withRoom q ((if v.run.sweep.op = 0 then 2 else 1) * ctxSize v.wide) (all.filter fun p => p.1 != c)).map fun cached =>
          s1.useContext i c (all.any fun p => p.1 == c) lost cached

/-- Whether the host addresses that a fetch needs can be reached. -/
def State.fetchReach (s : State) : Bool :=
  let z := s.vat.run.sweep
  (!z.list || s.vatReach z.listA) && (z.op == 3 || (z.op == 0 && maxIn s.vat.run.models == 0) || s.vatReach z.data)

/-- CONTEXT_FETCH (R435–R437, R442, R448, R590): the next context of the quarter, in selection order. -/
def execContextFetch (q : CacheUse) (s : State) : Host.Outcome State Fault Refusal :=
  let z := s.vat.run.sweep
  if !s.vat.busy || s.vat.run.fault || s.vat.run.cut || s.flt.halted || !s.gddrRuns || !s.fetchReach then .next s
  else match s.nextPlace q.quarter with
    | none => .next (s.modRun fun r => r.closeAll q.quarter)
    | some (i, sel) =>
      let s0 := if z.list then s.asksAt classVat false (vatLoc (z.listA + 4 * i)) 4 else s
      match s0.fetchContext i (q.lost.map Fin.val) sel with
      | none => .next s
      | some (n, s1) =>
        let s2 := s1.modRun fun r => { r with status := SMap.set 7 r.status i n, next := SMap.set 0 r.next q.quarter (i + 1) }
        .next (if (s2.nextPlace q.quarter).isNone then s2.modRun fun r => r.closeAll q.quarter else s2)

/-! ## BATCH_DELIVERY (R438, R447) -/

/-- Entry `e` of a context or record (R438). -/
def entryOf (b : List Byte) (e : Nat) : Entry := BitVec.ofNat 128 (fieldAt b (16 * e) 16)

/-- The port that a batch goes to, and the key of its port. -/
def Run.portOf (r : Run) (b : Batch) : Option (VatPort × Nat) :=
  let ps := (r.models.getD b.model {}).ports
  let p := b.num % max ps.length 1
  ps[p]?.map fun x => (x, 16 * b.model + p)

/-- The cluster at a port coordinate (R431). -/
def xyCluster (xy : BitVec 16) : Option Nat := clusterAt (bitsOf xy.toNat 10 6) (bitsOf xy.toNat 5 5)

/-- The entries of a batch (R438). -/
def State.batchEntries (s : State) (b : Batch) : List Entry :=
  let r := s.vat.run
  let head := 0xB1 * 2 ^ 120 + b.model * 2 ^ 112 + b.cbset * 2 ^ 104 + b.ctxs.length * 2 ^ 96 + s.vat.seq.toNat * 2 ^ 64
  BitVec.ofNat 128 head :: b.ctxs.flatMap fun x =>
    let n := (r.models.getD b.model {}).inB
    (List.range (ctxBytes s.vat.wide / 16)).map (entryOf x.old) ++ (List.range n).map (entryOf x.inp)

/-- Starts the delivery of the oldest closed batch of a quarter, if no other quarter delivers at its port. -/
def State.startBatch (s : State) (q : Nat) : State :=
  let r := s.vat.run
  match r.closed.find? fun b => b.quarter == q with
  | none => s
  | some b => match r.portOf b with
    | none => s
    | some (_, key) =>
      if r.sending.any (fun p => p.2.1 == key && !p.2.2.isEmpty) then s
      else
        let es := s.batchEntries b
        s.modRun fun r => { r with
          closed := r.closed.erase b, sending := SMap.set (0, []) r.sending q (key, es), delivered := r.delivered ++ [(key, b)]
          batches := if b.again then r.batches else r.batches + 1 }

/-- Delivers the next entry of the batch that a quarter delivers, while its ingress tile has room. -/
def State.sendEntry (s : State) (q : Nat) : State :=
  let r := s.vat.run
  let d := SMap.get (0, []) r.sending q
  match d.2 with
  | [] => s
  | e :: rest =>
    let port := ((r.models.getD (d.1 / 16) {}).ports.getD (d.1 % 16) {})
    match xyCluster port.inXy with
    | none => s
    | some c =>
      let x := s.cl c
      let t := port.inTile.toNat
      if s.clocked c ∧ x.fires ∧ x.tileOpen t ∧ (x.tile t).room 5 then
        (s.setCl c (x.push t 5 e)).modRun fun r => { r with sending := SMap.set (0, []) r.sending q (d.1, rest) }
      else s

/-- Reads the model table again before batches are delivered again (R432); without it the sweep ends (log entry 55). -/
def State.rereadModels (s : State) : State :=
  let r := s.vat.run
  if !r.reread then s
  else s.modRun fun r => match s.modelTable r.sweep.handle.toNat with
    | none => { r with reread := false, fault := true }
    | some d => { r with reread := false, models := readModels d }

/-- BATCH_DELIVERY (R438, R447): the next entry of the batch that the quarter delivers, or of its oldest closed batch. -/
def execBatchDelivery (q : Fin 4) (s : State) : Host.Outcome State Fault Refusal :=
  let s1 := s.rereadModels
  if !s.vat.busy || s.flt.halted || s1.vat.run.fault then .next (if s.vat.busy && !s.flt.halted then s1 else s)
  else
    let s2 := if (SMap.get (0, []) s1.vat.run.sending q).2 = [] then s1.startBatch q else s1
    .next (s2.sendEntry q)

/-! ## CONTEXT_COMMIT (R439–R441) -/

/-- Pops up to `n` entries of a queue. -/
def popUpTo (y : Tile) (q : Nat) : Nat → Tile × List Entry
  | 0 => (y, [])
  | n + 1 => match y.queue q with
    | [] => (y, [])
    | e :: _ =>
      let r := popUpTo (y.pop q) q n
      (r.1, e :: r.2)

/-- The bytes of entries. -/
def entryBytesOf (es : List Entry) : List Byte := es.flatMap fun e => natLe 16 e.toNat

/-- A context stepped by a RUN (R441). -/
def stepContext (old body : List Byte) (seq : BitVec 32) (t : TimeVal) : List Byte :=
  old.take 8 ++ natLe 4 (fieldAt old 8 4 + 1) ++ natLe 4 seq.toNat ++ natLe 12 (timeWord t) ++ (old.drop 0x1C).take 4 ++ body

/-- Commits one context of a batch with its return entries; a context lost meanwhile gets status LOST (R430, R441). -/
def State.commitContext (s : State) (x : Ctx) (es : List Entry) : State :=
  let r := s.vat.run
  let v := s.vat
  let q := x.num % 4
  let size := ctxSize v.wide
  let bodyN := ctxBytes v.wide / 16 - 2
  let ready : State := { s with vat := { v with inflight := SMap.modify 0 v.inflight q fun n : Nat => n - 2 * size } }
  let mark := fun (s : State) (n : Nat) => s.modRun fun r => { r with status := SMap.set 7 r.status x.sel n }
  if s.ctxLost x.num then mark ready 6
  else
    let ctx := stepContext x.old (entryBytesOf (es.take bodyN)) v.seq r.tstart
    let s1 := ready.dirty x.num ctx (SMap.get [] v.cache q)
    let gone := r.cut && onHost r.sweep.out
    mark (if gone then s1 else s1.vatWrite (vatLoc (r.sweep.out + x.sel * r.sweep.ostride)) (entryBytesOf (es.drop bodyN))) 0

/-- Commits a batch whose returns are all in. -/
def State.commitBatch (s : State) (key per : Nat) (b : Batch) : State :=
  let es := SMap.get [] s.vat.run.ret key
  let s1 := (b.ctxs.mapIdx fun k x => (k, x)).foldl (fun s p => s.commitContext p.2 ((es.drop (per * p.1)).take per)) s
  s1.modRun fun r => { r with ret := SMap.set [] r.ret key [], delivered := r.delivered.erase (key, b) }

/-- CONTEXT_COMMIT (R439, R441): takes what the egress tile of a port holds for its oldest batch, and commits the batch once
everything is in. -/
def execContextCommit (m : Fin 16) (port : Fin 16) (s : State) : Host.Outcome State Fault Refusal :=
  let r := s.vat.run
  let key := 16 * m.val + port.val
  let model := r.models.getD m {}
  let per := ctxBytes s.vat.wide / 16 - 2 + model.outB
  if !s.vat.busy || s.flt.halted || r.fault || r.reread then .next s
  else match r.delivered.find? fun p => p.1 == key, xyCluster (model.ports.getD port {}).outXy with
    | some (_, b), some c =>
      let got := SMap.get [] r.ret key
      let need := per * b.ctxs.length - got.length
      let t := (model.ports.getD port {}).outTile.toNat
      let x := s.cl c
      let y := popUpTo (x.tile t) 5 need
      let s1 := (s.setCl c (x.setTile t y.1)).modRun fun r => { r with ret := SMap.set [] r.ret key (got ++ y.2) }
      .next (if y.2.length = need ∧ (model.outB = 0 ∨ r.cut ∨ s.vatReach r.sweep.out) then s1.commitBatch key per b else s1)
    | _, _ => .next s

/-! ## Function resets (R473) -/

/-- What a function reset does to the vat: sweeps that need a host address end; of the one that runs, the batches whose delivery
has begun are still committed, without output records in host memory (log entry 56). -/
def State.cutSweeps (s0 : State) : State :=
  let s := s0.enterTaken
  let needs := fun z => (s.sweepRanges z).any fun p => onHost p.1
  let ends := s.vat.queue.filter needs
  let s1 : State := { s with vat := { s.vat with queue := s.vat.queue.filter fun z => !needs z } }
  let s2 := ends.foldl (fun s z => s.endPending z 0x0E 0xA0) s1
  if s.vat.busy && needs s.vat.run.sweep then s2.modRun fun r => { r with cut := true, open_ := [], closed := [] } else s2

/-! ## CACHE_WRITEBACK and SWEEP_COMPLETE (R443–R445, R449) -/

/-- The place in the selection of the context that a sweep has touched. -/
def State.placeOf (s : State) (c : Nat) : Option Nat :=
  let z := s.vat.run.sweep
  (List.range z.count).find? fun i => s.selected z i == some c

/-- Gives a context that its dirty entry has lost READ_ERROR, in the sweep that dirtied it (R448, R590). -/
def State.loseDirty (s : State) (c entry : Nat) : State :=
  let s1 := (s.vatUnitFault 12 (cacheLoc (c % 4) entry)).readError c
  match s.placeOf c with
  | none => s1
  | some i => s1.modRun fun r => { r with status := SMap.set 7 r.status i 8 }

/-- Writes back what the cache holds of a context, in VAT write slots (R443). -/
def State.writeBack (s : State) (c : Nat) : State :=
  let s1 := (s.gddrWrite (64 * s.ctxLine c) (s.ctxRead c)).vatSlots true c
  { s1 with vat := { s1.vat with held := SMap.set [] s1.vat.held c [] } }

/-- CACHE_WRITEBACK (R443): the oldest dirty entry of the quarter is written. -/
def execCacheWriteback (q : CacheUse) (s : State) : Host.Outcome State Fault Refusal :=
  let l : List (Nat × Bool) := SMap.get [] s.vat.cache q.quarter
  let k := l.findIdx fun p => p.2
  match l[k]? with
  | none => .next s
  | some p =>
    if s.flt.halted ∨ !s.gddrRuns then .next s
    else
      let s1 := match q.lost with
        | some e => (s.loseDirty p.1 e).setCache q.quarter (l.eraseIdx k)
        | none => (s.writeBack p.1).setCache q.quarter (l.set k (p.1, false))
      .next (s1.modRun fun r => { r with tend := s.now })

/-- Whether nothing of the sweep is left but its report: all is walked and committed, or the sweep has faulted, and no entry is
dirty. -/
def State.sweepDone (s : State) : Bool :=
  let r := s.vat.run
  let walked := r.cut || ((List.range 4).all (fun q => (s.nextPlace q).isNone) && r.open_ == [])
  let idle := walked && r.closed == [] && r.delivered == []
  s.vat.busy && (r.fault || idle) && s.vat.cache.all fun p => p.2.all fun c => !c.2

/-- How many contexts of the selection have one of some statuses. -/
def Run.statusCount (r : Run) (l : List Nat) : Nat :=
  let n := r.status.countP fun p => l.contains p.2
  if l.contains 7 then n + (r.sweep.count - r.status.length) else n

/-- The sweep report (R444). -/
def State.sweepReport (s : State) (outcome check : BitVec 8) : List Byte :=
  let r := s.vat.run
  let n := fun l => natLe 4 (r.statusCount l)
  [outcome, check, 0, 0] ++ natLe 4 s.vat.seq.toNat ++ n [0] ++ n [1, 2] ++ n [3] ++ n [4, 5] ++ n [6, 8] ++ n [7] ++
    natLe 12 (timeWord r.tstart) ++ natLe 4 r.batches ++ natLe 12 (timeWord r.tend) ++ natLe 4 r.hits

/-- The status bytes of a sweep (R433, R435). -/
def Run.statusBytes (r : Run) : List Byte := (List.range r.sweep.count).map fun i => BitVec.ofNat 8 (SMap.get 7 r.status i)

/-- Ends the sweep: its status bytes, its report, its completion; a full CLEAR sets the table's mode, its caches then empty
(R427, R444, R445). -/
def State.completeSweep (s : State) : State :=
  let r := s.vat.run
  let z := r.sweep
  let outcome : BitVec 8 := if r.fault then 0x0C else if r.cut then 0x0E else outDone
  let check : BitVec 8 := if r.fault then 0x73 else if r.cut then 0xA0 else 0
  let gone := fun a => r.cut && onHost a
  let s1 := if z.stat = 0 || gone z.stat then s else s.vatWrite (vatLoc z.stat) r.statusBytes
  let s2 := if gone z.report then s1 else s1.vatWrite (vatLoc z.report) (s.sweepReport outcome check)
  let s2 := s2.endSweep z outcome check s.vat.seq.toNat
  let v := s2.vat
  let faults := if r.fault then (List.range 4).foldl (fun m q => SMap.modify 0 m q fun n : BitVec 8 => satBump n 1) v.faults
    else v.faults
  let full := r.full && !r.cut && !r.fault
  { s2 with vat := { v with
      busy := false, inflight := [], run := {}, faults, wide := if full then z.wide else v.wide
      cache := if full && z.wide != v.wide then [] else v.cache } }

/-- SWEEP_COMPLETE (R443–R445, R449): an image under RELEASE that the sweep held drains then. -/
def execSweepComplete (s : State) : Host.Outcome State Fault Refusal :=
  let z := s.vat.run.sweep
  let reach := s.vat.run.cut || (s.vatReach z.report && (z.stat == 0 || s.vatReach z.stat))
  if !s.sweepDone || s.flt.halted || !reach then .next s
  else
    let s1 := s.completeSweep
    let h := z.handle.toNat
    .next (if z.op = 0 ∧ (s1.image h).releasing.isSome then s1.drainRelease h else s1)

end Sys2Proof.Machine
end

