-- ==== Sys2Proof/Machine/Burst.lean ====
section
/-!
DEFINITION. Bursts of GDDR6, and what the work that a line was read for is told where the line proves uncorrectable only then (R240,
R245–R247, R256–R260, R448, R517, R590, R733).
-/
namespace Sys2Proof.Machine

/-! ## Telling the work (R245, R590) -/

/-- Whether bytes of a place lie in a line of GDDR6. -/
def Loc.covers (l : Loc) (n line : Nat) : Bool :=
  match l with
  | .gddr a => n != 0 && decide (a / 64 ≤ line) && decide (line ≤ (a + n - 1) / 64)
  | _ => false

/-- Whether the copy of a channel has read a line: of what it has moved, or of its queue. -/
def Channel.hasRead (x : Channel) (line : Nat) : Bool :=
  if !x.paced then x.src.covers x.moved line
  else (Loc.gddr x.header).covers 64 line ||
    if x.fills then x.src.covers (x.moved * x.entryBytes) line
    else x.moved != 0 && (Loc.gddr (x.header + 64)).covers (x.entries * x.entryBytes) line

/-- The copies that have read a line end with MEM_ERROR (R517). -/
def State.tellDma (s : State) (line : Nat) : State :=
  (List.range 32).foldl (fun s c =>
    let x := s.chan c
    if x.st ≠ .idle ∧ x.outcome = 0 ∧ x.hasRead line then s.memError c else s) s

/-- Takes contexts out of batches, and batches out that hold none then. -/
def dropContexts (gone : Ctx → Bool) (bs : List Batch) : List Batch :=
  (bs.map fun b => { b with ctxs := b.ctxs.filter (!gone ·) }).filter fun b => b.ctxs != []

/-- A context of the running sweep that was read from an uncorrectable line gets READ_ERROR (R448). -/
def State.tellContext (s : State) (line : Nat) (x : Ctx) : State :=
  let s1 := (s.vatUnitFault 6 line).readError x.num
  let s2 : State := { s1 with vat := { s1.vat with
    inflight := SMap.modify 0 s1.vat.inflight (x.num % 4) fun n : Nat => n - 2 * ctxSize s1.vat.wide } }
  s2.modRun fun r => { r with status := SMap.set 7 r.status x.sel 8 }

/-- The contexts read from a line that wait to be delivered leave their batches with READ_ERROR (R448). -/
def State.tellVat (s : State) (line : Nat) : State :=
  let r := s.vat.run
  let gone := fun x : Ctx => decide (s.ctxLine x.num ≤ line) && decide (line < s.ctxLine x.num + 4 * ctxSize s.vat.wide)
  let xs := ((r.open_ ++ r.closed).flatMap (·.ctxs)).filter gone
  if !s.vat.busy || xs == [] then s
  else
    let s1 := s.modRun fun r => { r with open_ := dropContexts gone r.open_, closed := dropContexts gone r.closed }
    xs.foldl (fun s x => s.tellContext line x) s1

/-- Whether the request at the head of an image's queue has been read from a line, or its data have (R551–R557). -/
def State.collRead (s : State) (h line : Nat) : Bool :=
  let im := s.image h
  let k := im.collNext
  let q := s.requestAt h k
  s.collServes h && decide (k < im.collSeen) && (line == s.collLine im 0 || (decide (k < im.collHead) &&
    (line == s.requestLine im k || line == s.collLine im (1 + q.group))) ||
    (decide (k < im.collData) && (((s.imageLines im 0 q.src q.srcBytes).getD []).contains line)))

/-- The collective engine has read an uncorrectable line: every member's sheet ends FATAL (R590). -/
def State.tellColl (s : State) (line : Nat) : State :=
  (s.images.map (·.1)).foldl (fun s h => if s.collRead h line then (s.lineFault line h).collFatal h 0xA5 else s) s

/-- Whether a cluster has fetched a line of the configuration that it takes, or has taken in its sheet (R120). -/
def State.fetchedConfig (s : State) (c line : Nat) : Bool :=
  let x := s.cl c
  let im := s.image x.regs.handle.toNat
  let streams := x.cfg.fetching || x.cfg.started
  let idx := if streams then x.cfg.index else x.regs.cidx
  c != 880 && (streams || x.st == .run || x.st == .drain) &&
    match (im.map.findIdx? (· == some c)).bind fun v => im.section_ v idx.toNat with
    | none => false
    | some g => decide (g.line ≤ line) && decide (line < if streams then x.cfg.line else g.line + ceilDiv g.bytes 64)

/-- The clusters that have fetched an uncorrectable line of their configuration: their sheets end FATAL (R590). -/
def State.tellConfig (s : State) (line : Nat) : State :=
  (s.fab.clusters.map (·.1)).foldl (fun s c =>
    let h := (s.cl c).regs.handle.toNat
    if s.fetchedConfig c line then (s.lineFault line h).abortFor h c outFatal 0xA5 0 else s) s

/-- Tells the work of a class that a line it has read is uncorrectable (R245, R590). The data moved with the command that asked; what has
passed out of the device since, or into a record, stays (DESIGN CHOICE, log entry 34). -/
def State.tellWork (s : State) (cls line : Nat) : State :=
  if cls = classDma then s.tellDma line
  else if cls = classVat then s.tellVat line
  else if cls = classColl then s.tellColl line
  else if cls = classFar then s.tellConfig line
  else s

/-! ## Bursts (R240, R243–R246, R256–R260) -/

/-- A line of a request is served: a far read takes it or meets an uncorrectable one, a far write stores its 64 bytes; the lines of other
classes moved with the command that asked (R75–R77, R245, R733; log entry 34). -/
def State.serve (s : State) (t : Target) (cls : Nat) (write : Bool) (line : Nat) : State :=
  match t with
  | .run k => s.askDone k line
  | .ecc => s.oweEcc cls line false
  | .far c k =>
    let q := (s.cl c).farQ.getD k {}
    if write then
      if s.lineLost line then s.setFar c k { q with served := .bad }
      else (s.gddrWrite (64 * line) q.data).setFar c k { q with served := .ok }
    else if s.lineBad line then s.setFar c k { q with served := .bad }
    else s.setFar c k { q with served := .ok, data := s.gddrRead (64 * line) 64 }

/-- The work of a read that was no cluster's is told where the line proves uncorrectable (R590). -/
def State.tellRead (s : State) (t : Target) (cls line : Nat) (told : Bool) : State :=
  match t with
  | .run _ => if told then s else s.tellWork cls line
  | _ => s

/-- The second burst of a line ends its request: a read is checked, and where it fails its work told; a write leaves the other classes
without the group's ECC line, which waits to be written too (R245, R246). -/
def State.lineDone (s : State) (t : Target) (cls line errs : Nat) (write : Bool) : State :=
  if t = .ecc then s.serve t cls write line
  else if write then
    let whole := s.inWhole cls line || s.wholeGroup cls line
    (((s.eccWrite cls line).serve t cls true line).noteWhole cls line whole).oweEcc cls line true
  else ((s.lineRead line errs).serve t cls false line).tellRead t cls line (s.lineBad line || decide (errs < 2))

/-- GDDR6_BURST (R240, R243–R246, R256–R260): one 32 B burst, the high or the low half of a line, of a request that is ready, or of the ECC
line that the class has changed; without one the slot stays unused. The data of classes other than FAR move in the commands that ask for
them (log entry 34). -/
def execGddr6Burst (slot : Fin 1024) (cls : Fin 16) (half : HalfLine) (errs : Fin 4) (s : State) : Host.Outcome State Fault Refusal :=
  let line := half.line
  let high := half.high
  let write := s.slotWrites slot
  let s1 := if cls.val = classFar then s.sendFar (lineQuarter line) (lineChannel line) (crossDepth classFar) else s
  match s1.ready cls write line with
  | none => .next s1
  | some t =>
    let b := t.burst cls write line high
    if !s1.slotServes slot cls line || !s1.halfDue b || (write && t != .ecc && !s1.eccReady cls line) then .next s1
    else
      let s2 := (s1.clearRepeats b).noteHalf b
      .next (if high then s2.lineDone t cls line errs write else s2)

/-! ## Retry (R247) -/

/-- A request is served without its data, its line uncorrectable (R247, R590). -/
def State.serveBad (s : State) (t : Target) (cls line : Nat) : State :=
  match t with
  | .run k => s.askDone k line
  | .ecc => s.oweEcc cls line false
  | .far c k => s.setFar c k { (s.cl c).farQ.getD k {} with served := .bad }

/-- The burst of the patrol, or of a copy, on half of a line's group, if it is the next one there (R267–R269). -/
def State.copyBurstAt (s : State) (line : Nat) (high : Bool) : Option Beat :=
  let e := lineQuarter line
  let ch := lineChannel line
  let q := s.quarter e
  let a := SMap.get 0 q.patrol ch
  if q.patrols then
    if lineH line = a / 1024 ∧ high = (a % 64 != 0) then some (copyBurst e ch a) else none
  else if (List.range 2).any fun b => q.copies b && q.copyChannel b == ch && q.copy.ptr b == lineH line then
    some (burstOf 9 false line high)
  else none

/-- The burst of a class on half of a line: of a request, with what it serves; of the ECC line that it needs; or of the patrol or a copy
(R246, R247, R267). -/
def State.burstAt (s : State) (cls : Nat) (write : Bool) (line : Nat) (high : Bool) : Option (Beat × Option Target) :=
  match s.ready cls write line with
  | some t => some (t.burst cls write line high, some t)
  | none =>
    if !write && s.eccWanted cls line then some (eccBurst cls false line high, none)
    else if cls = 9 ∧ !write then (s.copyBurstAt line high).map fun b => (b, none)
    else none

/-- A burst has failed its fourth repeat: its line is treated as uncorrectable (R245, R247). -/
def State.giveUpBurst (s : State) (cls : Nat) (write : Bool) (line : Nat) (b : Beat) (t : Option Target) : State :=
  let e := lineQuarter line
  let ch := lineChannel line
  let s1 := s.clearRepeats b
  let s2 := if b.high then s1.noteHalf b else s1
  match t with
  | some .ecc => (s2.codeword e ch 2).serveBad .ecc cls line
  | some t => ((s2.lineRead line 2).serveBad t cls line).tellRead t cls line (write || s.lineBad line)
  | none =>
    if cls ≠ 9 then s2.codeword e ch 2
    else if (s.quarter e).patrols then
      let a := SMap.get 0 (s.quarter e).patrol ch
      (s1.checkLine e ch a 2).patrolTo e ch (a - a % 64 + 64)
    else s1.lineRead line 2

/-- EDC_RETRY (R247): the burst failed its link check. It is repeated in a later slot of the class, or after four failed repeats its line
is treated as uncorrectable. -/
def execEdcRetry (slot : Fin 1024) (cls : Fin 16) (half : HalfLine) (s : State) : Host.Outcome State Fault Refusal :=
  let line := half.line
  let write := s.slotWrites slot
  match s.burstAt cls write line half.high with
  | none => .next s
  | some (b, t) =>
    if !s.slotServes slot cls line || (cls.val != 9 && !s.halfDue b) then .next s
    else
      let e := lineQuarter line
      let q := s.quarter e
      if q.repeats.count b < 4 then
        let s1 := s.setQuarter e { q with repeats := q.repeats ++ [b] }
        match q.physical (lineChannel line) with
        | none => .next s1
        | some p => .next ((s1.chanErr e p fun x => { x with retry := satBump x.retry 1 }).deviceError e (p / 2) 1)
      else .next (s.giveUpBurst cls write line b t)

end Sys2Proof.Machine
end

