-- ==== Sys2Proof/Machine/Pcie.lean ====
section
/-!
DEFINITION. The host link: link state, BAR2 and BAR4 accesses, MSI-X, function resets and device power states (R454–R476, R693,
R695, R733).
-/
namespace Sys2Proof.Machine

/-! ## The link (R454, R455, R475, R676) -/

/-- Whether the link is in L0. -/
def State.linkUp (s : State) : Bool := s.pcx.regs.width != 0 && !s.pcx.perstLow

/-- Whether the controller is powered and out of reset (R472, R476, R676). -/
def State.pcieOn (s : State) : Bool := s.bru.pcieUp && s.bru.stage != .dead && (s.pwr.st == .run || s.pwr.st == .trim)

/-- Changes the PCX registers. -/
def State.modPcx (s : State) (f : PcxRegs → PcxRegs) : State := { s with pcx := { s.pcx with regs := f s.pcx.regs } }

/-- The fields of PCX.LINK while the link is down. -/
def PcxRegs.down (r : PcxRegs) : PcxRegs := { r with width := 0, rate := 0, flit := false, reversed := false, degraded := false }

/-- PCIE_LINK_UP (R451, R454, R455): the link enters L0. 64.0 GT/s has Flit mode only. A width or rate is new when PCX.LINK shows
another, 0 while the link is down (DEDUCED, log entry 57). -/
def execPcieLinkUp (width : Fin 5) (rate : Fin 6) (flit : Bool) (reversed : Bool) (s : State) : Host.Outcome State Fault Refusal :=
  let w : BitVec 5 := BitVec.ofNat 5 (2 ^ width.val)
  let k : BitVec 3 := BitVec.ofNat 3 (rate.val + 1)
  if !s.pcieOn || s.pcx.perstLow || (rate.val == 5 && !flit) then .next s
  else
    let degraded := decide (width.val < 4) || decide (rate.val < 5)
    let s1 := s.modPcx fun r => { r with
      width := w, rate := k, flit, reversed, degraded, changes := satBump r.changes (bitN (r.width != w || r.rate != k)) }
    .next (if degraded then s1.postEvent 0x000A noRing 0 (s1.pcxReg 0) else s1)

/-! ## BAR2 and BAR4 (R460–R464) -/

/-- BAR2_BAD_WRITE (R460). -/
def execBar2BadWrite (s : State) : Host.Outcome State Fault Refusal :=
  .next (if s.barsUp then (s.modPcx fun r => { r with bar2Bad := satBump r.bar2Bad 1 }).aerError 20 else s)

/-- The bytes of the BAR4 window (R458, R461). -/
def State.bar4Bytes (s : State) : Nat := 2 ^ 30 * 2 ^ s.pcx.cfg.bar4Log.toNat

/-- Whether a line may be reached through BAR4 (R251, R461, R462). -/
def State.bar4Line (s : State) (line : Nat) : Bool :=
  decide (64 * line < s.bar4Bytes) && s.gddr.rgt.any fun p =>
    p.2.valid && p.2.bar4 && decide (p.2.base.toNat ≤ line) && decide (line < p.2.base.toNat + p.2.lines.toNat)

/-- The lines that a byte range touches. -/
def linesOf (a n : Nat) : List Nat := if n = 0 then [] else (List.range ((a + n - 1) / 64 - a / 64 + 1)).map fun k => a / 64 + k

/-- A request to BAR4 that reaches a line outside every BAR4 region (R462). -/
def State.bar4Unsupported (s : State) : State := (s.modPcx fun r => { r with bar4Ur := satBump r.bar4Ur 1 }).aerError 20

/-- BAR4_READ (R251, R462–R464), in slots of class DMA. What the host gets is the bytes before the first uncorrectable line. No request
reads no byte, or more than 4,096. -/
def execBar4Read (addr : BitVec 37) (len : Nat) (s : State) : Host.Outcome State Fault Refusal :=
  let a := addr.toNat
  if len < 1 ∨ 4096 < len ∨ !s.linkUp then .next s
  else if !s.barsUp then .next (s.emit (.read false []))
  else if !(linesOf a len).all s.bar4Line then .next (s.bar4Unsupported.emit (.read false []))
  else if !s.gddrRuns then .next s
  else match (linesOf a len).find? s.lineBad with
    | none => .next ((s.asks classDma false a len).emit (.read true (s.gddrRead a len)))
    | some l =>
      .next ((((s.asks classDma false a len).modPcx fun r => { r with bar4Ca := satBump r.bar4Ca 1 }).aerError 15).emit
        (.read false (s.gddrRead a (64 * l - a))))

/-- BAR4_WRITE (R251, R462–R464, R733), in slots of class DMA; a line written in part is read too. Each line that cannot be merged is
discarded and counted. No request writes
no byte, or more than 512. -/
def execBar4Write (addr : BitVec 37) (data : List Byte) (poisoned : Bool) (s : State) : Host.Outcome State Fault Refusal :=
  let a := addr.toNat
  let n := data.length
  if n < 1 ∨ 512 < n ∨ !s.barsUp then .next s
  else if poisoned then .next (s.aerError 12)
  else if !(linesOf a n).all s.bar4Line then .next s.bar4Unsupported
  else if !s.gddrRuns then .next s
  else
    let part := (linesOf a n).filter fun l => decide (64 * l < a) || decide (a + n < 64 * l + 64)
    let bad := part.countP s.lineBad
    let s1 := part.foldl (fun s l => s.asks classDma false (64 * l) 64) ((s.gddrWrite a data).asks classDma true a n)
    .next (if bad = 0 then s1 else (s1.modPcx fun r => { r with bar4Ca := satBump r.bar4Ca bad }).aerError 15)

/-- BAR0_BAD_READ (R459). -/
def execBar0BadRead (s : State) : Host.Outcome State Fault Refusal :=
  if !s.linkUp then .next s
  else if !s.barsUp then .next (s.emit (.read false []))
  else .next (((s.modPcx fun r => { r with bar0Bad := satBump r.bar0Bad 1 }).aerError 20).emit (.read false []))

/-- WCNT_LO_READ (R693): the low half of W, while the high half is kept for the next read. -/
def execWcntLoRead (sid : Fin 1024) (s : State) : Host.Outcome State Fault Refusal :=
  if !s.linkUp then .next s
  else if !s.barsUp then .next (s.emit (.read false []))
  else
    let w := (s.stream sid).buf.w
    let s1 : State := { s with wcap := SMap.set none s.wcap sid (some (BitVec.ofNat 32 (w / 2 ^ 32))) }
    .next (s1.emit (.read true (natLe 4 w)))

/-! ## MSI-X (R465, R466) -/

/-- Sends the message that waits for a vector, if nothing masks it. -/
def State.sendPending (s : State) (v : Nat) : State :=
  let e := SMap.get {} s.pcx.msix v
  if e.pending && !e.masked && !s.pcx.cfg.funcMask && s.pcx.cfg.msixEn && s.hostUp then
    ({ s with pcx := { s.pcx with msix := SMap.set {} s.pcx.msix v { e with pending := false } } } : State).emit (.msix v)
  else s

/-- Sets the mask bit of a vector. -/
def State.setMask (s : State) (v : Nat) (m : Bool) : State :=
  let e := SMap.get {} s.pcx.msix v
  ({ s with pcx := { s.pcx with msix := SMap.set {} s.pcx.msix v { e with masked := m } } } : State).sendPending v

/-- MSIX_UNMASK (R466): a BAR0 write clears the mask bit of a vector. -/
def execMsixUnmask (v : Fin 4096) (s : State) : Host.Outcome State Fault Refusal :=
  .next (if s.writable then s.setMask v false else s)

/-! ## Function resets (R473–R476, R695) -/

/-- A ring pair after a function reset: its registers at reset, the completions of records and of template sweeps kept (R473,
R474, R695). -/
def Ring.functionReset (g : Ring) : Ring := { nextSeq := g.nextSeq, waiting := g.stop.waiting }

/-- Ends the copy of a channel that needs a host address, and drops those that wait (R473). -/
def State.cutChannel (s : State) (c : Nat) : State :=
  let x := s.chan c
  let host := fun b o => bitsOf (fieldAt b o 8) 60 4 == 0
  let needs := fun w : Work =>
    if bitAt (fieldAt w.bytes 4 1) 0 then host w.bytes (if bitAt (fieldAt w.bytes 4 1) 1 then 8 else 0x10)
    else host w.bytes 8 || host w.bytes 0x10
  let s1 := s.setChan c { x with queue := x.queue.filter fun w => !needs w }
  if x.st ≠ .idle ∧ x.outcome = 0 ∧ x.moved < x.total ∧ (x.src.isHost || x.dst.isHost) then s1.copyError c 0x0E 0xA0 else s1

/-- Clusters that a completion not written would have cleared are cleared (R499). -/
def State.clearFor (s : State) (r : Nat) : State :=
  (((s.ring r).waiting.filterMap (·.clear))).foldl (fun s h => s.clearAborted h.toNat) s

/-- Configuration space after a function reset: what is sticky is kept (R473). -/
def Config_.functionReset (c : Config_) : Config_ :=
  { aer := c.aer, aerCor := c.aerCor, aerFirst := c.aerFirst, aerLog := c.aerLog, other := c.other }

/-- A function reset (R473, R474, R695): configuration space but the sticky AER bits, the MSI-X table, the ring pairs and the rings
of RGC; DMA work and sweeps that need a host address end. -/
def State.functionReset (s : State) : State :=
  let s1 := (s.hif.rings.map (·.1)).foldl State.clearFor s
  let s2 := (List.range 32).foldl State.cutChannel s1.cutSweeps
  let g := s2.hif.rgc
  { s2 with
    pcx := { s2.pcx with cfg := s2.pcx.cfg.functionReset, msix := [], doeBusy := none }
    hif := { s2.hif with
      rings := s2.hif.rings.map fun p => (p.1, p.2.functionReset)
      rgc := { seq := g.seq, loss := g.loss, last := g.last }
      bells := [] } }

/-- PERST (R475): PERST_N resets the host link and the function when it is asserted; the link can train once it is high. -/
def execPerst (low : Bool) (s : State) : Host.Outcome State Fault Refusal :=
  let set := fun s : State => ({ s with pcx := { s.pcx with perstLow := low } } : State)
  if low = s.pcx.perstLow then .next s
  else if !low || !s.pcieOn then .next (set s)
  else .next (set (s.functionReset.modPcx fun r => { r.down with perst := satBump r.perst 1 }))

/-- HOT_RESET (R475): a Hot Reset or DL_Down. Either takes the link down until it has trained again. -/
def execHotReset (_down : Bool) (s : State) : Host.Outcome State Fault Refusal :=
  .next (if !s.linkUp then s else s.functionReset.modPcx fun r => { r.down with hot := satBump r.hot 1 })

/-- Whether a configuration request is performed (R475, R676). -/
def State.configUp (s : State) : Bool := s.linkUp && s.bru.stage.reported

/-- FUNCTION_LEVEL_RESET (R473–R475). -/
def execFunctionLevelReset (s : State) : Host.Outcome State Fault Refusal :=
  .next (if s.configUp then s.functionReset.modPcx fun r => { r with flr := satBump r.flr 1 } else s)

/-! ## Device power states (R472) -/

/-- Changes the power state of the function. -/
def State.setD3 (s : State) (on : Bool) : State := { s with pcx := { s.pcx with cfg := { s.pcx.cfg with d3hot := on } } }

/-- D3HOT_ENTRY (R472). -/
def execD3hotEntry (s : State) : Host.Outcome State Fault Refusal := .next (if s.configUp then s.setD3 true else s)

/-- D0_ENTRY (R472): requests resume with the configuration kept; messages held meanwhile are sent (log entry 57). -/
def execD0Entry (s : State) : Host.Outcome State Fault Refusal :=
  .next (if s.configUp && s.pcx.cfg.d3hot then (s.pcx.msix.map (·.1)).foldl State.sendPending (s.setD3 false) else s)

end Sys2Proof.Machine
end

