-- ==== Sys2Proof/Machine/Security.lean ====
section
/-!
DEFINITION. Identity, manifests, updates, SMBus commands and attestation (R470, R471, R632, R648–R669).
-/
namespace Sys2Proof.Machine

/-! ## Keys (R648–R650) -/

/-- The bytes of an ASCII string. -/
def ascii (t : String) : List Byte := t.toList.map fun c => BitVec.ofNat 8 c.toNat

/-- The DeviceID private key: d of R648. -/
def State.deviceKey (s : State) : List Byte := (sha512 (ascii "WIELOR-DEVID" ++ natLe 32 s.sec.fuses.seed.toNat)).take 32

/-- The Alias private key of a manifest: a of R648. -/
def State.aliasKey (s : State) (manifest : List Byte) : List Byte :=
  (sha512 (ascii "WIELOR-ALIAS" ++ s.deviceKey ++ sha512 manifest)).take 32

/-- The Device Serial Number (R650). -/
def State.deviceSerial (s : State) : BitVec 64 := BitVec.ofNat 64 (leNat ((sha512 (edPublic s.deviceKey)).take 8))

/-! ## The boot flash (R653, R654) -/

/-- Bytes of the boot flash: an erased byte reads 0xFF (PRESUMED, log entry 5). -/
def flashRead (m : Mem) (a : Nat) : Nat → List Byte
  | 0 => []
  | n + 1 => SMap.get 0xFF m a :: flashRead m (a + 1) n

/-- Writes bytes of the boot flash. -/
def flashWrite (m : Mem) (a : Nat) : List Byte → Mem
  | [] => m
  | b :: bs => flashWrite (SMap.set 0xFF m a b) (a + 1) bs

/-- A pointer record (R654). -/
structure Pointer where
  gen : Nat := 0
  active : Nat := 0
  pending : Bool := false
  setid : Nat := 0
  deriving DecidableEq, Repr

/-- The pointer record in 64 bytes, if its MAGIC and CRC are valid. -/
def readPointer (b : List Byte) : Option Pointer :=
  if fieldAt b 0 4 = 0x57505452 ∧ fieldAt b 60 4 = (crc32 (b.take 60)).toNat then
    some { gen := fieldAt b 4 4, active := fieldAt b 8 1 % 2, pending := bitAt (fieldAt b 8 1) 1, setid := fieldAt b 16 8 }
  else none

/-- The 64 bytes of a pointer record. -/
def Pointer.bytes (p : Pointer) : List Byte :=
  let b := natLe 4 0x57505452 ++ natLe 4 p.gen ++ natLe 8 (p.active + 2 * bitN p.pending) ++ natLe 8 p.setid ++ List.replicate 36 0
  b ++ natLe 4 (crc32 b).toNat

/-- The copy of the pointer record that the ROM uses, with its number. -/
def State.pointer (s : State) : Option (Pointer × Nat) :=
  let p := fun k => (readPointer (flashRead s.sec.flash (0x10000 * k) 64)).map fun x => (x, k)
  match p 0, p 1 with
  | some a, some b => some (if a.1.gen < b.1.gen then b else a)
  | some a, none => some a
  | none, b => b

/-- Rewrites the pointer record: to the other copy, with GEN + 1. -/
def State.writePointer (s : State) (p : Pointer) (copy : Nat) : State :=
  { s with sec := { s.sec with pending := p.pending, flash := flashWrite s.sec.flash (0x10000 * (1 - copy)) { p with gen := p.gen + 1 }.bytes } }

/-- The first byte of a set area. -/
def areaBase (n : Nat) : Nat := if n = 0 then 0x1000000 else 0x2800000

/-- The most bytes of a set. -/
def maxSet : Nat := 25165824

/-- The bytes of a set area. -/
def State.area (s : State) (n : Nat) : List Byte := flashRead s.sec.flash (areaBase n) maxSet

/-! ## The manifest (R655, R656) -/

/-- A part entry. -/
structure Part where
  type : Nat := 0
  off : Nat := 0
  bytes : Nat := 0
  digest : List Byte := []
  deriving DecidableEq, Repr

/-- NPART of a set. -/
def npart (b : List Byte) : Nat := fieldAt b 6 1

/-- The bytes of the manifest of a set. -/
def manifestOf (b : List Byte) : List Byte := b.take (64 + 96 * npart b + 96)

/-- The bytes that the signature covers. -/
def signedPart (b : List Byte) : List Byte := b.take (64 + 96 * npart b + 32)

/-- The public key that a manifest carries. -/
def carriedKey (b : List Byte) : List Byte := (b.drop (64 + 96 * npart b)).take 32

/-- The parts of a set. -/
def partsOf (b : List Byte) : List Part :=
  (List.range (npart b)).map fun k =>
    let o := 64 + 96 * k
    { type := fieldAt b o 1, off := fieldAt b (o + 8) 4, bytes := fieldAt b (o + 0xC) 4, digest := (b.drop (o + 0x20)).take 64 }

/-- The bytes of a part. -/
def Part.data (p : Part) (b : List Byte) : List Byte := (b.drop p.off).take p.bytes

/-- The part of a type, empty where a set has none. -/
def partData (b : List Byte) (t : Nat) : List Byte :=
  match (partsOf b).find? fun p => p.type == t with
  | none => []
  | some p => p.data b

/-! ## Verification (R652, R657) -/

/-- Whether the format of a set is wrong: check 1. -/
def setMalformed (b : List Byte) (limit : Nat) : Bool :=
  let n := npart b
  let size := fieldAt b 0x18 4
  let head := 64 + 96 * n + 96
  let ps := partsOf b
  fieldAt b 0 4 != 0x574D4654 || fieldAt b 4 2 != 1 || decide (n < 7) || decide (8 < n) || decide (3 < fieldAt b 7 1) ||
    decide (64 < fieldAt b 8 1) || decide (3 < fieldAt b 9 1) || !zeroAt b 0xA 0x10 || !zeroAt b 0x1C 0x40 || decide (size < head) ||
    decide (maxSet < size) || decide (limit < size) ||
    (List.range n).any (fun k => !zeroAt b (64 + 96 * k + 1) (64 + 96 * k + 4) || !zeroAt b (64 + 96 * k + 0x10) (64 + 96 * k + 0x20)) ||
    ps.any (fun p => p.off % 64 != 0 || decide (p.off < head) || decide (size < p.off + p.bytes)) ||
    (List.range n).any fun i => (List.range i).any fun j =>
      let p := ps.getD i {}
      let q := ps.getD j {}
      decide (p.off < q.off + q.bytes) && decide (q.off < p.off + p.bytes)

/-- The image that the dandy can run, with the tiles of DND.SRC where they are known (R632). -/
def State.dandyImage (s : State) (b : List Byte) (tiles : Option (Nat × Nat)) : Option Loaded :=
  match (if b.length < fieldAt b 0x20 8 then .error (fmtErr 0x40) else s.loadHeader (b.take (fieldAt b 0x20 8)) : Except LoadErr Loaded) with
  | .error _ => none
  | .ok l0 => match l0.checkWith (Loaded.dandyHooks tiles) with
    | .error _ => none
    | .ok l =>
      let cfg := l.sects.filter fun g => g.type == 1
      if l.h.kind ≠ 0 ∨ l.h.vw ≠ 1 ∨ l.h.vh ≠ 1 ∨ l.h.nreg ≠ 0 ∨ l.h.featReq / 16 ≠ 0 ∨ cfg.any (fun g => g.index != 0) ∨
        262144 < (cfg.map (·.bytes)).sum then none
      else some l

/-- The fused policy of a set: REVOKE and JTAG, 0 where it has none. -/
def policyOf (b : List Byte) : Nat × Nat :=
  let n := leNat (partData b 6)
  (bitsOf n 0 4, bitsOf n 4 2)

/-- Whether the fused policy of a set breaks R652 or R656. -/
def State.policyBad (s : State) (b : List Byte) : Bool :=
  let n := leNat (partData b 6)
  let after := s.sec.fuses.revoked ||| BitVec.ofNat 4 (policyOf b).1
  n / 64 != 0 || decide (1 < (policyOf b).2) || bitAt (policyOf b).1 (fieldAt b 7 1) || after == 0xF

/-- Whether the sparing policy of a set breaks its ranges (R656). -/
def sparingBad (p : List Byte) : Bool :=
  let f := Config.partField 8
  (List.range 5).any (fun k => decide (f k p < 1) || decide (65535 < f k p) || decide (f (5 + k) p < 1) || decide (3600000000 < f (5 + k) p)) ||
    decide (f 10 p < 70) || decide (94 < f 10 p)

/-- Whether the lane tables of a set break their ranges (R656): the start peaking of each lane in dB (R293), XPT.CAL.ASYM of each port
(R547). -/
def laneTablesBad (p : List Byte) : Bool :=
  let f := Config.partField 4
  (List.range 8).any (fun k => decide (65535 < f k p)) || 
    (List.range 26).any fun g => (List.range (groupLanes g)).any fun l => decide (14 < f (8 + 32 * g + l) p)

/-- The first content check that fails: the TYPE of its part (R656). -/
def State.contentBad (s : State) (b : List Byte) : Option Nat :=
  if (s.dandyImage (partData b 3) none).isNone then some 3
  else if laneTablesBad (partData b 4) then some 4
  else if !calenderOk (partData b 5) then some 5
  else if (partsOf b).any (fun p => p.type == 6) && s.policyBad b then some 6
  else if sparingBad (partData b 8) then some 8
  else none

/-- Verifies a set of at most `limit` bytes: the code of the first check that fails and the TYPE of the part concerned; 0 where
all pass (R657). -/
def State.verifySet (s : State) (b : List Byte) (limit : Nat) : Nat × Nat :=
  let f := s.sec.fuses
  let slot := fieldAt b 7 1
  let ps := partsOf b
  let has := fun t => ps.any fun p => p.type == t
  if setMalformed b limit then (1, 0)
  else if SMap.get 0 f.rootKeys slot ≠ BitVec.ofNat 512 (leNat (sha512 (carriedKey b))) then (2, 0)
  else if bitAt f.revoked.toNat slot then (3, 0)
  else if !edVerify (carriedKey b) (signedPart b) ((b.drop (64 + 96 * npart b + 32)).take 64) then (4, 0)
  else if !bitAt (fieldAt b 9 1) (if s.stepA1 then 0 else 1) then (5, 0)
  else if fieldAt b 8 1 < f.antiRollback then (6, 0)
  else if !([1, 2, 3, 4, 5, 7, 8].all has) || ps.any (fun p => p.type == 0 || decide (8 < p.type) || decide (1 < ps.countP fun q => q.type == p.type)) then
    (7, 0)
  else match ps.find? fun p => sha512 (p.data b) != p.digest with
    | some p => (8, p.type)
    | none => match s.contentBad b with
      | some t => (9, t)
      | none => (0, 0)

/-! ## UPDATE_GO (R659, R660) -/

/-- Ends an update. -/
def State.updateDone (s : State) (st : BitVec 2) (code : Nat) : State :=
  { s with sec := { s.sec with ustate := st, ucode := BitVec.ofNat 4 code, job := none } }

/-- The copy of the set of `n` bytes at an address, none where the range is not in regions with HOST 1, is out of bounds, or cannot be
read (log entry 58). -/
def State.stagedSet (s : State) (a n : Nat) : Option (List Byte) :=
  let held := fun l => s.gddr.rgt.any fun p => p.2.valid && p.2.host && decide (p.2.base.toNat ≤ l) && decide (l < p.2.base.toNat + p.2.lines.toNat)
  if n < 1 ∨ maxSet < n ∨ !(linesOf a n).all held ∨ s.rangeBad a n then none else some (s.gddrRead a n)

/-- A write of 1 to SEC.UCTRL.GO (R659, R660): an update begins, unless one is in progress. -/
def State.updateGo (s : State) : State :=
  if s.sec.ustate = 1 then { s with sec := { s.sec with ign := satBump s.sec.ign 1 } }
  else { s with sec := { s.sec with ustate := 1, job := some (s.sec.uaddr.toNat, s.sec.ubytes.toNat) } }

/-- The work of an update (R659): the set is copied, verified and written to the area that is not active, and the pointer record names it. -/
def State.stage (s : State) (a n : Nat) : State :=
  match s.stagedSet a n with
  | none => s.updateDone 3 1
  | some b =>
    let s := s.asks classDma false a b.length
    let code := (s.verifySet b b.length).1
    match s.pointer with
    | none => s.updateDone 3 (if code = 0 then 10 else code)
    | some (p, copy) =>
      if code ≠ 0 then s.updateDone 3 code
      else
        let set := b.take (fieldAt b 0x18 4)
        let s1 : State := { s with sec := { s.sec with flash := flashWrite s.sec.flash (areaBase (1 - p.active)) set } }
        (s1.writePointer { p with pending := true, setid := fieldAt b 0x10 8 } copy).updateDone 2 0

/-- UPDATE_GO (R659, R660). -/
def execUpdateGo (s : State) : Host.Outcome State Fault Refusal := .next (if s.writable then s.updateGo else s)

/-! ## SMBus commands (R665–R667) -/

/-- The certificate chain of slot 0 (R650; free bytes, log entry 22). -/
def State.certChain (s : State) : List Byte :=
  let seed := s.sec.fuses.seed.toNat
  let a := s.sec.alias_.toNat
  (List.range (Config.certLength seed a)).map (Config.certByte seed a)

/-- The state that IDENTITY returns (R665). -/
def State.identityState (s : State) : Nat :=
  if s.bru.stage = .dead then 4
  else if s.flt.halted then 3
  else if s.pwr.st = .watch then 2
  else if s.bru.stage = .ready then 1
  else 0

/-- Whether the device answers on SMBus: it has power and is not held in reset. -/
def State.smbusUp (s : State) : Bool := !s.bru.held && s.pwr.st != .off

/-- STEPPING as a byte (R456). -/
def State.stepping (s : State) : Byte := if s.stepA1 then 0xA1 else 0xB0

/-- IDENTITY (R665, R666): the values in the order in which R665 names them (DEDUCED, log entry 60). -/
def execIdentity (s : State) : Host.Outcome State Fault Refusal :=
  .next (if !s.smbusUp then s
    else s.emit (.smbus (natLe 4 s.devId.toNat ++ natLe 8 s.sec.serial.toNat ++ [s.stepping] ++ natLe 8 s.sec.setid.toNat ++
      natLe 1 s.sec.svn.toNat ++ natLe 1 s.identityState)))

/-- CERT (R665, R666). -/
def execCert (off : BitVec 32) (s : State) : Host.Outcome State Fault Refusal :=
  .next (if s.smbusUp then s.emit (.smbus ((s.certChain.drop off.toNat).take 255)) else s)

/-- The 128 bytes of a Dead report (R667): its fields in the order given, the rest 0 (DEDUCED, log entry 60). -/
def State.deadBody (s : State) (nonce : BitVec 256) : List Byte :=
  let b := natLe 4 0x57444544 ++ natLe 4 s.devId.toNat ++ natLe 8 s.sec.serial.toNat ++ [s.stepping] ++ natLe 8 s.sec.setid.toNat ++
    natLe 1 s.sec.svn.toNat ++ natLe 1 s.sec.deadCheck ++ natLe 1 s.sec.deadPart ++ natLe 1 s.sec.deadCode ++ natLe 32 nonce.toNat
  b ++ List.replicate (128 - b.length) 0

/-- DEAD_REPORT (R665–R667): answered in Dead; outside Dead there is no failure to report. -/
def execDeadReport (nonce : BitVec 256) (s : State) : Host.Outcome State Fault Refusal :=
  .next (if s.smbusUp && s.bru.stage == .dead then
    s.emit (.smbus (s.deadBody nonce ++ edSign s.deviceKey (s.deadBody nonce))) else s)

/-- REAM_READ (R620, R665, R666). -/
def execReamRead (off : BitVec 32) (s : State) : Host.Outcome State Fault Refusal :=
  .next (if s.smbusUp then s.emit (.smbus ((s.flt.ream.drop off.toNat).take 255)) else s)

/-! ## The SPDM responder (R470, R471, R668, R669)

The layouts of SPDM 1.3 and DOE messages are PRESUMED from the standards that R470 and R668 name (log entry 59). -/

/-- The connection of a transport. -/
def State.spdm (s : State) (smbus : Bool) : Spdm := if smbus then s.pcx.spdmBus else s.pcx.spdmDoe

/-- Replaces the connection of a transport. -/
def State.setSpdm (s : State) (smbus : Bool) (c : Spdm) : State :=
  if smbus then { s with pcx := { s.pcx with spdmBus := c } } else { s with pcx := { s.pcx with spdmDoe := c } }

/-- A data object of CMA/SPDM, padded to whole DW. -/
def doeObject (type : Nat) (b : List Byte) : List Byte :=
  let n := ceilDiv b.length 4
  natLe 4 (1 + 2 ^ 16 * type) ++ natLe 4 (n + 2) ++ b ++ List.replicate (4 * n - b.length) 0

/-- Returns a data object on the mailbox. -/
def State.doeAnswer (s : State) (type : Nat) (b : List Byte) : State :=
  let s1 := s.modPcx fun r => { r with doeReqs := r.doeReqs + 1 }
  ({ s1 with pcx := { s1.pcx with doeBusy := none } } : State).emit (.doe (doeObject type b))

/-- Sends a response on the transport of its request. -/
def State.spdmSend (s : State) (smbus : Bool) (b : List Byte) : State := if smbus then s.emit (.smbus b) else s.doeAnswer 1 b

/-- An ERROR response. -/
def spdmError (version code : Nat) (data : Nat := 0) : List Byte := natLe 1 version ++ natLe 1 0x7F ++ natLe 1 code ++ natLe 1 data

/-- Whether the responder runs (R471, R666). -/
def State.spdmUp (s : State) : Bool :=
  !s.bru.held && s.bru.stage.reported && (s.pwr.st == .run || s.pwr.st == .trim)

/-- Whether a request with a code reaches the responder: over MCTP, or as the object that the mailbox holds. -/
def State.spdmHas (s : State) (q : SpdmReq) (code : Nat) : Bool :=
  s.spdmUp && fieldAt q.body 1 1 == code && (q.smbus || (s.pcx.doeBusy == some q.body && s.configUp))

/-- Answers a request of version 1.3 with `f`, unless the connection is not yet so far or the request is too short. -/
def State.spdmReply (s : State) (q : SpdmReq) (size : Nat) (far : Bool) (f : State → State × List Byte) : State :=
  if fieldAt q.body 0 1 ≠ 0x13 then s.spdmSend q.smbus (spdmError 0x13 0x41)
  else if !far then s.spdmSend q.smbus (spdmError 0x13 0x04)
  else if q.body.length < size then s.spdmSend q.smbus (spdmError 0x13 0x01)
  else
    let r := f s
    r.1.spdmSend q.smbus r.2

/-- A response header. -/
def spdmHead (code p1 p2 : Nat) : List Byte := natLe 1 0x13 ++ natLe 1 code ++ natLe 1 p1 ++ natLe 1 p2

/-- The answer to GET_VERSION (R668): the connection starts anew. -/
def State.answerVersion (s : State) (q : SpdmReq) : State :=
  if fieldAt q.body 0 1 ≠ 0x10 then s.spdmSend q.smbus (spdmError 0x10 0x41)
  else
    let r := [0x10, 0x04, 0, 0, 0, 1] ++ natLe 2 0x1300
    (s.setSpdm q.smbus { version := true, vca := q.body ++ r }).spdmSend q.smbus r

/-- The answer to GET_CAPABILITIES (R668): CERT_CAP, CHAL_CAP and MEAS_CAP with signatures. -/
def State.answerCapabilities (s : State) (q : SpdmReq) : State :=
  let c := s.spdm q.smbus
  let r := spdmHead 0x61 0 0 ++ [0, Config.spdmTime, 0, 0] ++ natLe 4 0x16 ++ natLe 4 Config.spdmSize.toNat ++ natLe 4 Config.spdmSize.toNat
  s.spdmReply q 20 (c.version && !c.caps) fun s =>
    (s.setSpdm q.smbus { c with caps := true, vca := c.vca ++ q.body ++ r }, r)

/-- The answer to NEGOTIATE_ALGORITHMS (R668): Ed25519, SHA-512, and the DMTF measurement format, where the request offers them. -/
def State.answerAlgorithms (s : State) (q : SpdmReq) : State :=
  let c := s.spdm q.smbus
  let b := q.body
  let pick := fun o bit => if bitAt (fieldAt b o 4) bit then 2 ^ bit else 0
  let r := spdmHead 0x63 0 0 ++ natLe 2 36 ++ natLe 1 (fieldAt b 6 1 % 2) ++ [0] ++ natLe 4 8 ++ natLe 4 (pick 8 10) ++
    natLe 4 (pick 12 2) ++ List.replicate 16 0
  s.spdmReply q 32 (c.caps && !c.algs) fun s =>
    (s.setSpdm q.smbus { c with algs := true, vca := c.vca ++ b ++ r }, r)

/-- The certificate chain in the form of SPDM. -/
def State.spdmChain (s : State) : List Byte :=
  let c := s.certChain
  natLe 4 (c.length + 68) ++ natLe 64 Config.rootDigest.toNat ++ c

/-- The answer to GET_DIGESTS (R668). -/
def State.answerDigests (s : State) (q : SpdmReq) : State :=
  let c := s.spdm q.smbus
  let r := spdmHead 0x01 1 1 ++ sha512 s.spdmChain
  s.spdmReply q 4 c.algs fun s => (s.setSpdm q.smbus { c with certs := c.certs ++ q.body ++ r, meas := [] }, r)

/-- The answer to GET_CERTIFICATE (R668): part of the chain of slot 0. -/
def State.answerCertificate (s : State) (q : SpdmReq) : State :=
  let c := s.spdm q.smbus
  let off := fieldAt q.body 4 2
  let rest := s.spdmChain.drop off
  let part := rest.take (fieldAt q.body 6 2)
  let r := if fieldAt q.body 2 1 % 16 ≠ 0 ∨ rest = [] then spdmError 0x13 0x01
    else spdmHead 0x02 0 0 ++ natLe 2 part.length ++ natLe 2 (rest.length - part.length) ++ part
  s.spdmReply q 8 c.algs fun s => (s.setSpdm q.smbus { c with certs := c.certs ++ q.body ++ r, meas := [] }, r)

/-- What the Alias key signs for a response: the version prefix, the context, and the digest of the messages. -/
def spdmSigned (context : String) (msgs : List Byte) : List Byte :=
  let v := ascii "dmtf-spdm-v1.3.*"
  let x := ascii context
  v ++ v ++ v ++ v ++ List.replicate (36 - x.length) 0 ++ x ++ sha512 msgs

/-- A signature by the Alias key. -/
def State.aliasSign (s : State) (context : String) (msgs : List Byte) : List Byte :=
  edSign (natLe 32 s.sec.alias_.toNat) (spdmSigned context msgs)

/-- The type byte of a measurement: immutable ROM, mutable firmware, or raw fuse state. -/
def measType (k : Nat) : Byte := if k = 1 then 0 else if k = 11 then 0x82 else 1

/-- A measurement block (R669). -/
def State.measBlock (s : State) (k : Nat) : List Byte :=
  let v := natLe (if k = 11 then 2 else 64) (SMap.get 0 s.sec.meas k).toNat
  natLe 1 k ++ [1] ++ natLe 2 (v.length + 3) ++ [measType k] ++ natLe 2 v.length ++ v

/-- The measurement indices. -/
def measAll : List Nat := (List.range 11).map (· + 1)

/-- Free bytes for a nonce. -/
def State.freeNonce (s : State) : List Byte × State := ((List.range 32).map (Config.freeByte s.free), { s with free := s.free + 1 })

/-- The answer to CHALLENGE (R668): signed by the Alias key over the messages so far. The responder's nonce is free. -/
def State.answerChallenge (s : State) (q : SpdmReq) : State :=
  let c := s.spdm q.smbus
  let all := sha512 (measAll.flatMap s.measBlock)
  s.spdmReply q 44 c.algs fun s =>
    if fieldAt q.body 2 1 ≠ 0 then (s, spdmError 0x13 0x01)
    else
      let n := s.freeNonce
      let r := spdmHead 0x03 0 1 ++ sha512 s.spdmChain ++ n.1 ++ (if fieldAt q.body 3 1 = 0 then [] else all) ++ natLe 2 0 ++
        (q.body.drop 36).take 8
      let sig := n.2.aliasSign "responder-challenge_auth signing" (c.vca ++ c.certs ++ q.body ++ r)
      (n.2.setSpdm q.smbus { c with certs := [], meas := [] }, r ++ sig)

/-- The answer to GET_MEASUREMENTS (R668, R669): the number of blocks, one block, or all; signed where the request asks so. -/
def State.answerMeasurements (s : State) (q : SpdmReq) : State :=
  let c := s.spdm q.smbus
  let op := fieldAt q.body 3 1
  let sign := bitAt (fieldAt q.body 2 1) 0
  let ks := if op = 0 then [] else if op = 0xFF then measAll else measAll.filter (· == op)
  let rec_ := ks.flatMap s.measBlock
  let ctx := (q.body.drop (if sign then 37 else 4)).take 8
  s.spdmReply q (if sign then 45 else 12) c.algs fun s =>
    if (ks = [] ∧ op ≠ 0) ∨ (sign ∧ fieldAt q.body 36 1 ≠ 0) then (s, spdmError 0x13 0x01)
    else
      let n := s.freeNonce
      let r := spdmHead 0x60 (if op = 0 then 11 else 0) 0 ++ natLe 1 ks.length ++ natLe 3 rec_.length ++ rec_ ++ n.1 ++ natLe 2 0 ++ ctx
      let msgs := c.meas ++ q.body ++ r
      let sig := if sign then n.2.aliasSign "responder-measurements signing" (c.vca ++ msgs) else []
      (n.2.setSpdm q.smbus { c with meas := if sign then [] else msgs }, r ++ sig)

/-- Serves a whole request by its code (R471, R668). -/
def State.spdmServe (s : State) (q : SpdmReq) : State :=
  match fieldAt q.body 1 1 with
  | 0x84 => s.answerVersion q
  | 0xE1 => s.answerCapabilities q
  | 0xE3 => s.answerAlgorithms q
  | 0x81 => s.answerDigests q
  | 0x82 => s.answerCertificate q
  | 0x83 => s.answerChallenge q
  | 0xE0 => s.answerMeasurements q
  | _ => s

/-- What the responder serves before a request: the one that the mailbox holds was complete before a request over SMBus (R471). -/
def State.spdmBefore (s : State) (q : SpdmReq) : State :=
  match s.pcx.doeBusy with
  | some b => if q.smbus && s.configUp then s.spdmServe { smbus := false, body := b } else s
  | none => s

/-- The responder meets a request with a code, if one is there (R471). -/
def State.spdmTake (s : State) (q : SpdmReq) (code : Nat) : State := if s.spdmHas q code then (s.spdmBefore q).spdmServe q else s

/-- GET_VERSION (R471, R668). -/
def execGetVersion (q : SpdmReq) (s : State) : Host.Outcome State Fault Refusal := .next (s.spdmTake q 0x84)

/-- GET_CAPABILITIES (R471, R668). -/
def execGetCapabilities (q : SpdmReq) (s : State) : Host.Outcome State Fault Refusal := .next (s.spdmTake q 0xE1)

/-- NEGOTIATE_ALGORITHMS (R471, R668). -/
def execNegotiateAlgorithms (q : SpdmReq) (s : State) : Host.Outcome State Fault Refusal := .next (s.spdmTake q 0xE3)

/-- GET_DIGESTS (R471, R668). -/
def execGetDigests (q : SpdmReq) (s : State) : Host.Outcome State Fault Refusal := .next (s.spdmTake q 0x81)

/-- GET_CERTIFICATE (R471, R668). -/
def execGetCertificate (q : SpdmReq) (s : State) : Host.Outcome State Fault Refusal := .next (s.spdmTake q 0x82)

/-- CHALLENGE (R471, R668). -/
def execChallenge (q : SpdmReq) (s : State) : Host.Outcome State Fault Refusal := .next (s.spdmTake q 0x83)

/-- GET_MEASUREMENTS (R471, R668, R669). -/
def execGetMeasurements (q : SpdmReq) (s : State) : Host.Outcome State Fault Refusal := .next (s.spdmTake q 0xE0)

/-! ## DOE (R470) -/

/-- The codes of the SPDM requests that the responder serves (R668). -/
def spdmCodes : List Nat := [0x84, 0xE1, 0xE3, 0x81, 0x82, 0x83, 0xE0]

/-- The largest data object, 16,384 DW (R470). -/
def maxDoe : Nat := 65536

/-- DOE_REQUEST (R470, R471): discovery is answered; an SPDM request is held for the responder, or answered as unsupported; an object
of another type, or of a wrong length, is discarded without an answer (PRESUMED, log entry 59). -/
def execDoeRequest (object : List Byte) (s : State) : Host.Outcome State Fault Refusal :=
  let type := fieldAt object 2 1
  let body := object.drop 8
  if !s.configUp || !s.spdmUp || s.pcx.doeBusy.isSome then .next s
  else if maxDoe < object.length ∨ fieldAt object 0 2 ≠ 1 ∨ bitsOf (fieldAt object 4 4) 0 18 * 4 ≠ object.length then .next s
  else if type = 0 then
    let k := fieldAt body 0 1
    .next (s.doeAnswer 0 (if k = 0 then [1, 0, 0, 1] else if k = 1 then [1, 0, 1, 0] else [0xFF, 0xFF, 0xFF, 0]))
  else if type = 1 then
    if spdmCodes.contains (fieldAt body 1 1) then .next { s with pcx := { s.pcx with doeBusy := some body } }
    else .next (s.doeAnswer 1 (spdmError 0x13 0x07 (fieldAt body 1 1)))
  else .next s

/-- DOE Abort: the request that the mailbox holds is discarded (R470). -/
def State.doeAbort (s : State) : State :=
  let s1 := s.modPcx fun r => { r with doeAborts := satBump r.doeAborts 1 }
  { s1 with pcx := { s1.pcx with doeBusy := none } }

/-- DOE_ABORT (R470). -/
def execDoeAbort (s : State) : Host.Outcome State Fault Refusal := .next (if s.configUp then s.doeAbort else s)

end Sys2Proof.Machine
end

