-- ==== Sys2Proof/Machine/Startup.lean ====
section
/-!
DEFINITION. Resets and the stages of bring-up (R596, R661–R664, R670–R687).
-/
namespace Sys2Proof.Machine

/-! ## Resets (R672–R674) -/

/-- The state after a power-on reset, or after a device reset, which keeps the fault log, the retained ream and FLT.REAM (R672). What
failed a start is kept for the Dead report (log entry 61). -/
def State.afterReset (s : State) (device : Bool) (cause : BitVec 4) : State :=
  let f := s.flt
  let z : Flt := { fuses := f.fuses, repairs := f.repairs, fuseFull := decide (512 ≤ f.fuses) }
  let kept : Flt := { z with
    log := f.log, logSeq := f.logSeq, ream := f.ream, reamSeq := f.reamSeq, reamCnt := f.reamCnt, reamForm := f.reamForm, reamTrunc := f.reamTrunc }
  let x := s.sec
  { State.reset with
    pending := s.pending, free := s.free, out := s.out, host := s.host, stepA1 := s.stepA1, enables := s.enables
    flt := if device then kept else z
    sec := { fuses := x.fuses, flash := x.flash, deadCheck := x.deadCheck, deadPart := x.deadPart, deadCode := x.deadCode
             tap := if device then x.tap else {} }
    pcx := { perstLow := s.pcx.perstLow }
    pwr := { wakeLow := s.pwr.wakeLow, gpio := s.pwr.gpio.map fun p => (p.1, { level := p.2.level }) }
    bru := { cause } }

/-! ## Dead (R663, R664) -/

/-- The device blows its DEAD fuse and enters Dead, for a check of R663, a part and a code of R657. -/
def State.enterDead (s : State) (check part code : Nat) : State :=
  { s with
    sec := { s.sec with fuses := { s.sec.fuses with dead := true }, deadCheck := check, deadPart := part, deadCode := code }
    bru := { s.bru with stage := .dead }
    pcx := { perstLow := s.pcx.perstLow }
    lanes := [], trp := {}, hif := {} }

/-! ## ROM (R648, R658, R661, R669, R675) -/

/-- The set of an area as SEC.SET and SEC.FUSE show it. -/
def State.noteSet (s : State) (n : Nat) : State :=
  let b := s.area n
  { s with sec := { s.sec with setid := BitVec.ofNat 64 (fieldAt b 0x10 8), svn := BitVec.ofNat 8 (fieldAt b 8 1) } }

/-- A field of the active set's part. -/
def State.partField (s : State) (type field : Nat) : Nat :=
  match s.pointer with
  | none => 0
  | some (p, _) => Config.partField type field (partData (s.area p.active) type)

/-- The fuse state as measurement 11 has it: F, the revocation fuses and JTAG (R669; the bit order is DEDUCED, log entry 59). -/
def Fuses.bits (f : Fuses) : Nat := f.antiRollback + 2 ^ 7 * f.revoked.toNat + 2 ^ 11 * f.jtag.toNat

/-- The measurements of a start from a set (R669). -/
def State.measurements (s : State) (b : List Byte) : SMap (BitVec 512) :=
  let digest := fun t => match (partsOf b).find? fun p => p.type == t with
    | none => 0
    | some p => BitVec.ofNat 512 (leNat p.digest)
  let m := (List.range 8).foldl (fun m k => SMap.set 0 m (3 + k) (digest (1 + k)))
    (SMap.set 0 (SMap.set 0 [] 1 Config.romDigest) 2 (BitVec.ofNat 512 (leNat (sha512 (manifestOf b)))))
  SMap.set 0 m 11 (BitVec.ofNat 512 s.sec.fuses.bits)

/-- Whether the device's registers take a value of the board record or the sparing policy, read as a field of a part. -/
def State.fieldMap (s : State) (type first n w : Nat) : SMap (BitVec w) :=
  (List.range n).map fun k => (k, BitVec.ofNat w (s.partField type (first + k)))

/-- What the root firmware takes from the manifest as it starts: buckets, PWR.TLIM, subsystem IDs, XMS.SYSCFG.ENABLE and XPT.CAL.ASYM
(R456, R547, R561, R592, R629, R656; log entry 58). -/
def State.applyManifest (s : State) : State :=
  let x := s.xms
  let ids := s.partField 7 0 % 2 ^ 16 + s.partField 7 1 % 2 ^ 16 * 2 ^ 16
  let asym := fun (m : SMap XPort) p => SMap.modify {} m p fun q : XPort => { q with asym := BitVec.ofNat 16 (s.partField 4 p) }
  { s with
    flt := { s.flt with thr := s.fieldMap 8 0 5 16, leak := s.fieldMap 8 5 5 32 }
    pwr := { s.pwr with tlim := BitVec.ofNat 8 (s.partField 8 10) }
    pcx := { s.pcx with cfg := { s.pcx.cfg with other := SMap.set 0 s.pcx.cfg.other 0x2C (BitVec.ofNat 32 ids) } }
    xms := { x with regs := { x.regs with enable := bitAt (s.partField 7 2) 0 }, ports := (List.range 8).foldl asym x.ports } }

/-- The root firmware of a verified set starts: keys, measurements and the manifest's values (R648–R650, R669). -/
def State.startSet (s : State) (n : Nat) : State :=
  let b := s.area n
  let s1 := s.noteSet n
  let s2 : State := { s1 with
    sec := { s1.sec with alias_ := BitVec.ofNat 256 (leNat (s1.aliasKey (manifestOf b))), serial := s1.deviceSerial, meas := s1.measurements b }
    bru := { s1.bru with stage := .rootFw } }
  s2.applyManifest

/-- Verifies the active set and starts from it, or enters Dead (R658, R663). -/
def State.tryActive (s : State) (n : Nat) : State :=
  let v := s.verifySet (s.area n) maxSet
  if v.1 = 0 then s.startSet n else (s.noteSet n).enterDead 1 v.2 v.1

/-- The work of the ROM (R658, R661, R663). A flash without a valid pointer record fails verification with FORMAT (DEDUCED, log entry
61). -/
def State.romStage (s : State) : State :=
  let s := { s with bru := { s.bru with stage := .rom }, sec := { s.sec with serial := s.deviceSerial } }
  match s.pointer with
  | none => if s.sec.fuses.dead then s.enterDead s.sec.deadCheck s.sec.deadPart s.sec.deadCode else s.enterDead 1 0 1
  | some (p, copy) =>
    if s.sec.fuses.dead then (s.noteSet p.active).enterDead s.sec.deadCheck s.sec.deadPart s.sec.deadCode
    else if !p.pending then s.tryActive p.active
    else
      let other := 1 - p.active
      let s1 := { s with bru := { s.bru with pendingSet := true } }
      if (s.verifySet (s.area other) maxSet).1 = 0 then
        (s1.writePointer { p with active := other, pending := false, setid := fieldAt (s.area p.active) 0x10 8 } copy).startSet other
      else (s1.writePointer { p with pending := false } copy).tryActive p.active

/-- RESET_RELEASE (R671, R675, R712): bring-up begins. The supplies are then within their limits. -/
def execResetRelease (s : State) : Host.Outcome State Fault Refusal :=
  .next (if s.bru.held && s.enables == 3 then
      ({ s with bru := { s.bru with held := false }, pwr := { s.pwr with st := .run } } : State).romStage
    else s)

/-- RESET_ASSERT (R672–R674): a device reset, held until RESET_N rises; in Watch the power manager restores the rails first. -/
def execResetAssert (s : State) : Host.Outcome State Fault Refusal :=
  .next (if s.bru.held then s
    else if s.pwr.st = .watch then ({ s with enables := 1 } : State).afterReset true 3
    else s.afterReset true 1)

/-- The device in Off: nothing is kept but fuses and boot flash (R622, R672). -/
def State.off (s : State) : State :=
  let s1 := ({ s with enables := 0 } : State).afterReset false 0
  { s1 with pwr := { s1.pwr with st := .off } }

/-- PWRGOOD_FALL (R674). -/
def execPwrgoodFall (s : State) : Host.Outcome State Fault Refusal := .next s.off

/-- A write of BRU.SWRST (R687): with the key, a device reset, which is released at once. -/
def State.writeSwrst (s : State) (v : Word) : State :=
  if v.toNat % 2 ^ 16 = 0x5753 then
    let s1 := s.afterReset true 2
    ({ s1 with bru := { s1.bru with held := false } } : State).romStage
  else s

/-- SOFTWARE_RESET (R685, R687): in FATAL_HALT too. -/
def execSoftwareReset (v : Word) (s : State) : Host.Outcome State Fault Refusal :=
  .next (if s.barsUp then s.writeSwrst v else s)

/-- PCIE_OUT_OF_RESET (R676). In Dead the link is held in reset (R476, R664). -/
def execPcieOutOfReset (s : State) : Host.Outcome State Fault Refusal :=
  .next (if s.bru.held || s.bru.stage == .dead || s.pwr.st == .watch then s else { s with bru := { s.bru with pcieUp := true } })

/-! ## Repair fuses (R596, R678) -/

/-- Whether a repair is burned. -/
def State.burned (s : State) (kind : BitVec 8) (loc : BitVec 32) : Bool := s.flt.repairs.contains (kind, loc)

/-- Notes a repair that a start found, unless it is burned already. -/
def State.foundFault (s : State) (kind : BitVec 8) (loc : BitVec 32) : State :=
  if s.burned kind loc then s else s.noteRepair kind.toNat loc

/-- The bridge repairs of the fuses: spare wires in use, and retired groups with the reserve groups in their places. -/
def State.repairBridges (s : State) : State :=
  (List.range 80).foldl (fun (s : State) k =>
    let b := k / 2
    let d := k % 2
    let wires := (List.range 96).foldl (fun m g =>
      SMap.set none m g ((List.range 16).find? fun w => s.burned 2 (wireLoc b d g w))) (s.bridge k).wires
    s.setBridge k (((List.range 96).filter fun g => s.burned 3 (wireLoc b d g 0)).foldl (fun x g => (x.retire k g).1)
      { s.bridge k with wires })) s

/-! ## ROOT_FW (R255, R264, R266, R675) -/

/-- A table of the active set's calender part. -/
def State.calTable (s : State) (first n : Nat) : SMap (BitVec 16) :=
  tableMap ((List.range n).map fun k => BitVec.ofNat 16 (s.partField 5 (first + k)))

/-- Enables a group at start: with the peaking of the lane tables, of 0 to 14 dB, the lane that the fuses replace, and a Xomos port
without 4 Gb/s (R293, R296, R335, R529, R596). -/
def State.enableGroup (s : State) (g : Nat) : State :=
  let x := s.group g
  let lanes := (List.range (groupLanes g)).foldl (fun m l =>
    let start := BitVec.ofNat 4 (s.partField 4 (8 + 32 * g + l) % 15)
    SMap.modify {} m l fun y : Lane => { y with start, peak := start }) x.lanes
  let y := { x with enable := true, lanes, rateMask := if 16 ≤ g ∧ g < 24 then 0xE else x.rateMask }
  s.toDetect g (match (List.range (dataLanes g)).find? fun l => hasSpare g && s.burned 4 (laneLoc g l) with
    | none => y
    | some l => { y with spareUsed := true, spareFor := BitVec.ofNat 5 l })

/-- A service core that the fuses name is fenced at start, and a core that is not takes its roles: the spare, or else an active one (R596,
R606–R608). -/
def State.fuseCore (s : State) (k : Nat) : State :=
  if !s.burned 9 (coreLoc k) then s
  else
    let good := fun j => j != k && s.core j != .fenced && !s.burned 9 (coreLoc j)
    match (List.range 3).find? (fun j => good j && s.core j == .spare) |>.orElse fun _ => (List.range 3).find? good with
    | none => s.setCore k CoreSt.fenced
    | some j => (s.rolesOf k).foldl (fun (s : State) r => s.giveRole r j)
        (if s.rolesOf k == [] then s.setCore k CoreSt.fenced else (s.setCore k CoreSt.fenced).setCore j CoreSt.active)

/-- ROOT_FW_REPORT (R255, R534, R606, R675, R676, R681): the calender tables are installed, the time base is INVALID as after reset, the
edge dies are released. -/
def execRootFwReport (ms : BitVec 16) (s : State) : Host.Outcome State Fault Refusal :=
  if s.bru.stage ≠ .rootFw then .next s
  else
    let s1 := (List.range 3).foldl State.fuseCore s
    let s2 : State := { s1 with
      bru := { s1.bru with stage := .edge, tRootFw := ms }
      pwr := { s1.pwr with lock := true }
      gddr := { s1.gddr with gcal := s1.calTable gcalField 1024, mcal := s1.calTable mcalField 1024 }
      xms := { s1.xms with segments := s1.calTable xcalField 32 } }
    .next ((s2.enableGroup 24).enableGroup 25)

/-- ROOT_FW_TIMEOUT (R663): check 2 of R663, part TYPE 1. -/
def execRootFwTimeout (s : State) : Host.Outcome State Fault Refusal :=
  .next (if s.bru.stage = .rootFw then s.enterDead 2 1 0 else s)

/-! ## EDGE (R241, R252, R271–R274, R335, R425, R561, R641, R677) -/

/-- A position at the start of a quarter's BIST. -/
def State.startQuarter (s : State) (e : Nat) : State :=
  s.setQuarter e { withdrawn := s.burned 8 (BitVec.ofNat 32 e) }

/-- A position that failed BIST, or that the fuses name, is LOST; the spare serves its logical device, or the quarter is withdrawn
(R241, R274, R677). -/
def State.positionLost (s : State) (e m : Nat) (found : Bool) : State :=
  let q := s.quarter e
  let d := q.dev m
  let loc := deviceLoc e m
  let rec_ : FaultRec := { kind := 5, cls := 1, loc }
  let note := fun (s : State) (r : FaultRec) => if found then (s.faultRecord r).foundFault 5 loc else s
  let q1 := q.setDev m { st := .lost }
  if d.st = .spare then note (s.setQuarter e q1) rec_
  else match q1.spare with
    | some k => note (s.setQuarter e (q1.setDev k { logical := d.logical })) { rec_ with action := 2, spare := deviceLoc e k }
    | none => note (if q.withdrawn then s.setQuarter e q1 else (s.setQuarter e q1).withdraw e 5 loc) rec_

/-- BIST and zeroing of a quarter: positions of the fuses, then those that fail, the spare before the others (R677). -/
def State.testQuarter (s : State) (e : Nat) (fail : BitVec 12) : State :=
  let order := 11 :: List.range 11
  let fused := fun (s : State) m => s.burned 5 (deviceLoc e m)
  let s1 := (order.filter (fused s)).foldl (fun s m => s.positionLost e m false) (s.startQuarter e)
  let s2 := (order.filter fun m => bitAt fail.toNat m && !fused s m).foldl (fun s m => s.positionLost e m true) s1
  s2.gddrClear (e * quarterLines) quarterLines

/-- The context table at start: a region in each quarter at its lowest free line; none in a quarter withdrawn (R425, R430). -/
def State.placeContexts (s : State) : State :=
  (List.range 4).foldl (fun s e =>
    if (s.region e).valid then s
    else match s.fitIn e 1048590 with
      | some b => s.setRegion e { base := BitVec.ofNat 32 b, lines := 1048590, valid := true }
      | none => s.loseContexts e) s

/-- The groups of an edge die: its stock groups, and its Xomos ports where ENABLE is set (R335, R561). -/
def State.edgeGroups (s : State) (e : Nat) : List Nat :=
  (List.range 4).map (4 * e + ·) ++ if s.xms.regs.enable then [16 + 2 * e, 17 + 2 * e] else []

/-- All four edge dies are up: frames aligned, bridges trained, the context table placed, the compute dies released (R252, R425, R675). -/
def State.edgesUp (s : State) : State :=
  let s1 := s.repairBridges.placeContexts
  { s1 with gddr := { s1.gddr with aligned := true, frame := 0 }, bru := { s1.bru with stage := .compute } }

/-- EDGE_REPORT (R675, R677): the edge die has reported and its quarter is ready; after Watch GDDR6 is neither tested nor zeroed. -/
def execEdgeReport (e : Fin 4) (bistFail : BitVec 12) (s : State) : Host.Outcome State Fault Refusal :=
  let b := s.bru
  if b.stage ≠ .edge ∨ bitAt b.edgeUp.toNat e then .next s
  else
    let s1 := if b.fromWatch then s else s.testQuarter e bistFail
    let q := s1.quarter e
    let s2 := s1.setQuarter e { q with gTable := BitVec.ofNat 16 (s.partField 5 0), mTable := BitVec.ofNat 16 (s.partField 5 1) }
    let s3 := (s2.edgeGroups e).foldl State.enableGroup s2
    let up := b.edgeUp ||| BitVec.ofNat 4 (2 ^ e.val)
    let x := s3.xms
    let s4 : State := { s3 with
      bru := { s3.bru with edgeUp := up }
      xms := if x.regs.enable && x.st == .alone then { x with st := .ports } else x }
    .next (if up = 0xF then s4.edgesUp else s4)

/-- EDGE_TIMEOUT (R663): check 3 of R663, part TYPE 2. -/
def execEdgeTimeout (e : Fin 4) (s : State) : Host.Outcome State Fault Refusal :=
  .next (if s.bru.stage = .edge ∧ !bitAt s.bru.edgeUp.toNat e then s.enterDead 3 2 0 else s)

/-! ## COMPUTE (R35, R595, R596, R605, R678, R679) -/

/-- Fences a cluster that a start found bad, for a cause (R594, R605, R678). -/
def State.fenceAtStart (s : State) (c cause : Nat) : State :=
  if s.service c = .fenced then s
  else
    ((s.takeOut c cause).faultRecord
      { kind := 1, cls := 1, action := 1, loc := clusterLoc c, detail := BitVec.ofNat 32 cause }).foundFault 1 (clusterLoc c)

/-- Fences the clusters of a die that the repair fuses name: what they are fenced for is not recorded (log entry 62). -/
def State.fenceFused (s : State) (k : Nat) : State :=
  ((dieClusters k).filter fun c => s.burned 1 (clusterLoc c)).foldl (fun s c => s.takeOut c 0) s

/-- Sets the PLLs of a die at start, and notes a failure found: `fails` is 0 where the active PLL locks, 1 where it fails, 2 where
both fail (R35, R678). -/
def State.startPlls (s : State) (k fails : Nat) : State :=
  let a := s.burned 7 (pllLoc k false)
  let b := s.burned 7 (pllLoc k true)
  let first := a || decide (1 ≤ fails)
  let second := b || fails == 2 || (a && fails == 1)
  let note := fun (spare : Bool) (s : State) =>
    if s.burned 7 (pllLoc k spare) then s
    else (s.faultRecord { kind := 7, cls := 1, action := if spare then 1 else 2, loc := pllLoc k spare }).noteRepair 7 (pllLoc k spare)
  let s1 := s.setDie k { pllLost := first && second, spareInUse := first }
  let s2 := if first then note false s1 else s1
  if second then note true s2 else s2

/-- Whether a cluster is fused as in service (R18). -/
def fusedInService (c : Nat) : Bool := (SMap.get Service.inService fusedSpares c) == .inService

/-- Brings in a spare for each cluster fused as in service that is fenced (R595, R679). -/
def State.mapSpares (s : State) : State :=
  ((List.range 880).filter fun c => fusedInService c && s.service c == .fenced).foldl (fun s c =>
    match s.pickSpare c with
    | none => s
    | some d => (s.setService d .inService).setCl d { s.cl d with st := .idle }) s

/-- Marks a compute die as dealt with, and maps the spares after the last one (R679). -/
def State.dieDone (s : State) (k : Nat) (passed : Bool) : State :=
  let bit : BitVec 20 := BitVec.ofNat 20 (2 ^ k)
  let b := s.bru
  let s1 : State := { s with bru := if passed then { b with cdDone := b.cdDone ||| bit } else { b with cdOut := b.cdOut ||| bit } }
  if s1.bru.cdDone ||| s1.bru.cdOut = 0xFFFFF then s1.mapSpares else s1

/-- Whether a compute die is still at work in COMPUTE. -/
def State.dieWaits (s : State) (k : Nat) : Bool :=
  s.bru.stage == .compute && !bitAt (s.bru.cdDone ||| s.bru.cdOut).toNat k

/-- COMPUTE_BIST_DONE (R596, R605, R678, R679). -/
def execComputeBistDone (k : Fin 20) (fail : BitVec 44) (pllFail : Fin 3) (s : State) : Host.Outcome State Fault Refusal :=
  if !s.dieWaits k then .next s
  else
    let s1 := (s.startPlls k pllFail).fenceFused k
    let s2 := if (s1.die k).pllLost then (dieClusters k).foldl (fun s c => s.fenceAtStart c 6) s1
      else ((dieClusters k).filter fun c => bitAt fail.toNat (c % 44)).foldl (fun s c => s.fenceAtStart c 7) s1
    let s3 := ((dieClusters k).filter fun c => s2.service c == .inService).foldl (fun s c => s.setCl c { s.cl c with st := .idle }) s2
    .next (s3.dieDone k true)

/-- COMPUTE_TIMEOUT (R605, R678): every cluster of the die is fenced. -/
def execComputeTimeout (k : Fin 20) (s : State) : Host.Outcome State Fault Refusal :=
  .next (if s.dieWaits k then ((dieClusters k).foldl (fun s c => s.fenceAtStart c 6) s).dieDone k false else s)

/-! ## READY (R620, R662, R680, R681) -/

/-- Blows the fuses that the active set asks for: F up to its SVN, and those its fused policy names (R662). -/
def State.blowFuses (s : State) : State :=
  match s.pointer with
  | none => s
  | some (p, _) =>
    let b := s.area p.active
    let y := policyOf b
    let x := s.sec.fuses
    if x.antiRollback < s.sec.svn.toNat then
      { s with sec := { s.sec with fuses := { x with
          antiRollback := s.sec.svn.toNat, revoked := x.revoked ||| BitVec.ofNat 4 y.1, jtag := x.jtag ||| BitVec.ofNat 2 y.2 } } }
    else s

/-- Whether R680 holds but for READY itself. -/
def State.readyNow (s : State) : Bool :=
  s.bru.stage == .compute && s.bru.edgeUp == 0xF && s.gddr.aligned && (s.bru.cdDone ||| s.bru.cdOut) == 0xFFFFF

/-- DEVICE_READY (R620, R662, R680, R681): the doorbells held since ROOT_FW act now. -/
def execDeviceReady (ms : BitVec 16) (s : State) : Host.Outcome State Fault Refusal :=
  if !s.readyNow then .next s
  else
    let s1 : State := ({ s with bru := { s.bru with stage := .ready, tReady := ms } } : State).blowFuses.copyRetained
    let s2 := s1.hif.bells.foldl (fun s b => s.bell b.1 b.2.1 b.2.2) s1
    .next { s2 with hif := { s2.hif with bells := [] } }

end Sys2Proof.Machine
end

