-- ==== Sys2Proof/Machine/Power.lean ====
section
/-!
DEFINITION. Power states, throttling, thermal limits, Watch and its wakes, GPIO lines (R622–R630, R638–R647, R711–R714).
-/
namespace Sys2Proof.Machine

/-! ## Trim and the cap (R623–R625) -/

/-- Whether the device is in Run or Trim. -/
def State.awake (s : State) : Bool := !s.bru.held && (s.pwr.st == .run || s.pwr.st == .trim)

/-- Changes the state of each in-service cluster that no image owns. -/
def State.setUnowned (s : State) (v : CState) : State :=
  ((List.range 880).filter fun c => s.service c == .inService && (s.cl c).regs.handle == 0).foldl
    (fun s c => s.setCl c { s.cl c with st := v }) s

/-- A write of PWR.CTRL.TRIM (R623, R624). -/
def State.writeTrim (s : State) (on : Bool) : State :=
  if on ∧ s.pwr.st = .run then { s.setUnowned .off with pwr := { s.pwr with st := .trim } }
  else if !on ∧ s.pwr.st = .trim then { s.setUnowned .idle with pwr := { s.pwr with st := .run } }
  else s

/-- TRIM_ENTER (R622, R623). -/
def execTrimEnter (s : State) : Host.Outcome State Fault Refusal := .next (if s.writable then s.writeTrim true else s)

/-- TRIM_EXIT (R623, R624). -/
def execTrimExit (s : State) : Host.Outcome State Fault Refusal := .next (if s.writable then s.writeTrim false else s)

/-- A write of PWR.CAP (R625). -/
def State.writeCap (s : State) (v : Word) : State :=
  { s with pwr := { s.pwr with cap := BitVec.ofNat 16 (max 600 (min 1750 (v.toNat % 2 ^ 16))) } }

/-- PWR_CAP_WRITE (R625). -/
def execPwrCapWrite (v : Word) (s : State) : Host.Outcome State Fault Refusal := .next (if s.writable then s.writeCap v else s)

/-! ## Throttling (R626–R629) -/

/-- A throttle level after one update: `above` its limit it rises, `calm` for 100 µs it falls (R626). -/
def throttleStep (t : BitVec 4) (above calm : Bool) : BitVec 4 :=
  if above ∧ t < 15 then t + 1 else if calm ∧ 0 < t then t - 1 else t

/-- A die's temperature as reported, and its peak (R629). -/
def Therm.read (h : Therm) (tj : BitVec 8) : Therm := { h with tj, peak := if h.peak.toInt < tj.toInt then tj else h.peak }

/-- A die at an update: its temperature, and a compute die's own level (R629). The last ten updates make 100 µs. -/
def Therm.report (h : Therm) (compute : Bool) (tj tlim : BitVec 8) : Therm :=
  let t := tj.toInt
  let l := tlim.toInt
  let calm := if 100 * t < 98 * l then h.calm + 1 else 0
  { h.read tj with calm, level := if compute then throttleStep h.level (decide (l < t)) (decide (10 ≤ calm)) else 0 }

/-- The temperatures that the 25 dies report at an update. -/
def State.reportTemps (s : State) (temps : Vector (BitVec 8) 25) : State :=
  { s with pwr := { s.pwr with therm := (List.range 25).foldl (fun m d =>
      SMap.modify {} m d fun h : Therm => h.report (decide (d < 20)) (temps.toArray.getD d 0) s.pwr.tlim) s.pwr.therm } }

/-- Temperatures that dies report between updates. -/
def State.readTemps (s : State) (temps : List (Fin 25 × BitVec 8)) : State :=
  { s with pwr := { s.pwr with therm := temps.foldl (fun m p => SMap.modify {} m p.1 fun h : Therm => h.read p.2) s.pwr.therm } }

/-- The body of THROTTLE and CAP_UNMET (R647). -/
def Pwr.throttleBody (p : Pwr) : Nat := p.tlevel.toNat + 2 ^ 32 * (p.power.toNat + 2 ^ 16 * p.cap.toNat)

/-- Posts THROTTLE for a level not yet posted, at most once per 1 ms (100 updates, R647). -/
def State.postThrottle (s : State) : State :=
  if s.pwr.thrDue && s.pwr.thrWait == 0 then
    ({ s with pwr := { s.pwr with thrDue := false, thrWait := 100 } } : State).postEvent 0x0050 noRing 0 s.pwr.throttleBody
  else s

/-- Posts CAP_UNMET once the cap has been unmet at level 15 for 10 ms, at most once per second (R628). -/
def State.postCapUnmet (s : State) : State :=
  if 1000 ≤ s.pwr.unmet ∧ s.pwr.capWait = 0 then
    ({ s with pwr := { s.pwr with capWait := 100000 } } : State).postEvent 0x0051 noRing 0 s.pwr.throttleBody
  else s

/-- THROTTLE_UPDATE (R626, R628, R629, R647), every 10 µs: `below` says that P has stayed below 98 % of the cap since the update before; ten
such updates in a row make the whole preceding 100 µs. -/
def execThrottleUpdate (watts : BitVec 12) (below : Bool) (temps : Vector (BitVec 8) 25) (s : State) :
    Host.Outcome State Fault Refusal :=
  if !s.awake then .next s
  else
    let p := s.pwr
    let above := decide (p.cap.toNat < watts.toNat)
    let calm := if below && decide (100 * watts.toNat < 98 * p.cap.toNat) then p.calm + 1 else 0
    let t := throttleStep p.tlevel above (decide (10 ≤ calm))
    let s1 : State := { s with pwr := { p with
      power := watts, tlevel := t, calm, thrDue := p.thrDue || t != p.tlevel, thrWait := p.thrWait - 1, capWait := p.capWait - 1
      unmet := if above ∧ t = 15 then p.unmet + 1 else 0 } }
    .next (s1.reportTemps temps).postThrottle.postCapUnmet

/-! ## Thermal emergencies (R630) -/

/-- Whether any die has an emergency. -/
def State.emergency (s : State) : Bool := s.pwr.therm.any fun p => p.2.emerg

/-- Posts THERMAL (R647). -/
def State.thermalEvent (s : State) (die : Nat) (start : Bool) (tj : BitVec 8) : State :=
  s.postEvent 0x0052 noRing 0 (die + 2 ^ 8 * bitN start + 2 ^ 16 * tj.toNat)

/-- Whether a die reports its temperature: every one in Run and Trim, in Watch the root die and the edge die of the watch group (R622). -/
def State.reports (s : State) (die : Nat) : Bool :=
  s.awake || (!s.bru.held && s.pwr.st == .watch && (die == 24 || die == 20 + s.dnd.group.toNat / 4))

/-- THERMAL_EMERGENCY_START (R388, R630): operations stop in the clusters concerned, and every pipeline that one of them serves
halts with cause THERMAL. -/
def execThermalEmergencyStart (die : Fin 25) (tj : BitVec 8) (s : State) : Host.Outcome State Fault Refusal :=
  let h : Therm := SMap.get {} s.pwr.therm die
  if !s.reports die || h.emerg || decide (tj.toInt ≤ 95) then .next s
  else
    let s1 := s.readTemps [(die, tj)]
    let s2 : State := { s1 with pwr := { s1.pwr with therm := SMap.modify {} s1.pwr.therm die fun h : Therm => { h with emerg := true } } }
    let stopped := (List.range 64).filter fun p => (s2.pipeClusters p).any s2.tooHot
    .next ((if s.flt.halted then s2 else stopped.foldl (fun s p => s.haltPipe p 2) s2).thermalEvent die true tj)

/-- THERMAL_EMERGENCY_END (R630): every die has stayed below 92 °C for 10 ms, as the dies that report now say, and the others said last. -/
def execThermalEmergencyEnd (temps : List (Fin 25 × BitVec 8)) (s : State) : Host.Outcome State Fault Refusal :=
  let s1 := s.readTemps temps
  if s.bru.held || !s.emergency || (s.pwr.st != .watch && !s.awake) || s1.pwr.therm.any (fun p => decide (92 ≤ p.2.tj.toInt)) then .next s
  else
    let dies := s1.pwr.therm.filter fun p => p.2.emerg
    let s2 : State := { s1 with pwr := { s1.pwr with therm := s1.pwr.therm.map fun p => (p.1, { p.2 with emerg := false }) } }
    .next (dies.foldl (fun s p => s.thermalEvent p.1 false p.2.tj) s2)

/-- THERMTRIP (R630): at 105 °C the device goes to Off, with no ream. -/
def execThermtrip (_die : Fin 25) (tj : BitVec 8) (s : State) : Host.Outcome State Fault Refusal :=
  .next (if s.bru.held || decide (tj.toInt < 105) then s else s.off.emit .thermtrip)

/-! ## GPIO lines (R644–R646) -/

/-- A GPIO line. -/
def State.gpio (s : State) (n : Nat) : Gpio := SMap.get {} s.pwr.gpio n

/-- Replaces a GPIO line. -/
def State.setGpio (s : State) (n : Nat) (g : Gpio) : State := { s with pwr := { s.pwr with gpio := SMap.set {} s.pwr.gpio n g } }

/-- Whether an armed unit has TARGET 6 for a line (R645). -/
def State.pulseArmed (s : State) (n : Nat) : Bool :=
  s.tb.tsu.any fun p => p.2.armed && p.2.target == 6 && p.2.tparam.toNat == n

/-- A write of PWR.GPIOn (R644, R645). -/
def State.writeGpio (s : State) (n : Nat) (v : Word) : State :=
  let g := s.gpio n
  let w := v.toNat
  let func : BitVec 2 := BitVec.ofNat 2 (bitsOf w 30 2)
  if (s.holder 4 n).isNone then { s with pwr := { s.pwr with unclWr := satBump s.pwr.unclWr 1 } }
  else if g.func = 1 ∧ func ≠ 1 ∧ s.pulseArmed n then { s with pwr := { s.pwr with funcIgn := satBump s.pwr.funcIgn 1 } }
  else s.setGpio n { g with func, pol := bitAt w 29, width := BitVec.ofNat 10 (max 8 (bitsOf w 19 10)) }

/-- GPIO_WRITE (R644, R645). -/
def execGpioWrite (n : Fin 16) (v : Word) (s : State) : Host.Outcome State Fault Refusal :=
  .next (if s.writable then s.writeGpio n v else s)

/-- GPIO_PULSE (R646): the oldest firing asked for, placed to 1/64 ns (R330). -/
def execGpioPulse (n : Fin 16) (s : State) : Host.Outcome State Fault Refusal :=
  let g := s.gpio n
  match g.want with
  | [] => .next s
  | t0 :: rest =>
    let t := t0 / 1024 * 1024
    let w := g.width.toNat * 65536
    let g1 := { g with want := rest }
    if g.func ≠ 1 then .next (s.setGpio n g1)
    else if g.lastEnd ≠ 0 ∧ t < g.lastEnd + w then .next (s.setGpio n { g1 with merged := satBump g.merged 1 })
    else .next ((s.setGpio n { g1 with lastEnd := t + w }).emit (.gpio n t g.width.toNat g.pol))

/-! ## The dandy's image (R631–R633) -/

/-- The bytes of the dandy image: the manifest's, or those in a region that the host claimed; none where the region is not (R632). -/
def State.dandyBytes (s : State) : Option (List Byte) :=
  let d := s.dnd
  let n := d.imgBytes.toNat
  let a := d.imgLo.toNat + 2 ^ 32 * d.imgHi.toNat
  let held := fun l => s.gddr.rgt.any fun p => p.2.valid && p.2.host && decide (p.2.base.toNat ≤ l) && decide (l < p.2.base.toNat + p.2.lines.toNat)
  if n = 0 then s.pointer.map fun p => partData (s.area p.1.active) 3
  else if (linesOf a n).all held && !s.rangeBad a n then some (s.gddrRead a n) else none

/-- The dandy image, if it passes the checks of R632. -/
def State.dandyLoaded (s : State) : Option Loaded :=
  s.dandyBytes.bind fun b => s.dandyImage b (some (s.dnd.itile.toNat, s.dnd.otile.toNat))

/-- Loads the dandy (R631, R633): SRAM, seed and sheet count; the configuration of index 0 into the program store. -/
def State.loadDandy (s : State) (l : Loaded) : State :=
  let x := s.cl 880
  let part := fun t => match l.sects.find? fun g => g.type == t with
    | none => []
    | some g => g.data l.bytes
  let x1 := ({ x.abort with st := .idle } : Cluster).initSram (part 2)
  let x2 := { x1 with regs := { x.regs with
    seed := BitVec.ofNat 64 l.h.seed, sround := Config.sround l.h.seed 0, wdog := wdogLimit l.h.wdog, sheetCount := 0, cidx := 0xFFFF
    vx := 0, vy := 0, lock := true, fwin := [], evtCnt := [] } }
  { s.setCl 880 x2 with dnd := { s.dnd with loaded := true, changed := false, sheets := 0, prog := part 1, win := {} } }

/-- DANDY_LOAD (R633). An image that R632 refuses leaves the dandy without one (DESIGN CHOICE, log entry 63). -/
def execDandyLoad (s : State) : Host.Outcome State Fault Refusal :=
  if !s.awake || !s.dnd.changed || s.flt.halted then .next s
  else match s.dandyLoaded with
    | some l => .next (s.loadDandy l)
    | none => .next { s with dnd := { s.dnd with loaded := false, changed := false, win := {} } }

/-! ## Entering Watch (R450, R622, R638, R714) -/

/-- Whether an enabled level wake source is asserted (R640): DANDY, DANDY_FAULT, WAKE_N, PERST_N or a GPIO line with FUNC 2. -/
def State.levelAsserted (s : State) : Bool :=
  let p := s.pwr
  let on := fun b => bitAt p.wakeEn.toNat b
  (on 0 && s.dnd.asserted) || (on 1 && decide (8 ≤ s.dnd.abortRun)) || (on 3 && p.wakeLow) || (on 4 && s.pcx.perstLow) ||
    (on 5 && p.gpio.any fun g => g.2.func == 2 && (g.2.level != g.2.pol))

/-- The first cause of R638 that refuses Watch, 0 where none does. -/
def State.watchRefusal (s : State) : Nat :=
  if s.images.any fun p => p.2.map != [] then 1
  else if s.hbx.streams.any fun p => p.2.st == .admitted then 2
  else if s.vat.busy || s.vat.queue != [] || s.hif.vatIn != [] || s.vat.cache.any (fun p => p.2.any (·.2)) then 3
  else if s.hif.dma.any fun p => p.2.st != .idle || p.2.queue != [] then 4
  else if s.dandyLoaded.isNone then 5
  else if (s.group s.dnd.group.toNat).st ≠ .active ∨ (s.stream s.dnd.sid.toNat).st ≠ .joined then 6
  else if s.levelAsserted then 7
  else 0

/-- A quarter in Watch: its positions, and the initialising of a spare, which goes on at exit; a copy ends as under R273. -/
def Quarter.sleep (q : Quarter) : Quarter :=
  let z := q.endCopy
  { devs := z.devs, withdrawn := z.withdrawn, copy := if z.copy.init then z.copy else {} }

/-- The device in Watch: everything but what R622 keeps is as after a device reset (R622, R638, R642). -/
def State.asleep (s : State) : State :=
  let r := ({ s with enables := 0 } : State).afterReset true 0
  let g := s.dnd.group.toNat
  let x := s.stream s.dnd.sid.toNat
  { r with
    fab := { r.fab with clusters := SMap.set {} [] 880 (s.cl 880) }
    gddr := { bytes := s.gddr.bytes, bad := s.gddr.bad, rgt := s.gddr.rgt, quarters := s.gddr.quarters.map fun p => (p.1, p.2.sleep) }
    lanes := SMap.set {} [] g (s.group g)
    vat := { wide := s.vat.wide, lost := s.vat.lost }
    sec := { s.sec with uaddr := 0, ubytes := 0, ustate := 0, ucode := 0, ign := 0 }
    pwr := { s.pwr with st := .watch, mode := 1, wake := 0, waking := false, sinceWait := 0, watchAsked := false }
    dnd := { s.dnd with heldJoin := some (x.fmt, x.fcode) }
    bru := { held := false } }

/-- The entry sequence of Watch, up to cycle W (R638). -/
def State.enterWatch (s : State) : State :=
  match s.dandyLoaded with
  | some l =>
    let f := (s.loadDandy l).asleep.takeFree
    { f.2 with pwr := { f.2.pwr with entryEnds := f.1 % 600001 } }
  | none => s

/-- A write of 1 to PWR.CTRL.WATCH (R638); a request that is not refused waits while an update is in progress (R660). -/
def State.requestWatch (s : State) : State :=
  let n := s.watchRefusal
  if n ≠ 0 then ({ s with pwr := { s.pwr with wref := BitVec.ofNat 4 n } } : State).postEvent 0x0054 noRing 0 n
  else if s.sec.ustate = 1 then { s with pwr := { s.pwr with watchAsked := true } }
  else s.enterWatch

/-- The update in progress is done, and then a request for Watch that waited for it is taken up (R659, R660); the root firmware does neither
in FATAL_HALT (log entry 115). -/
def State.updateTick (s : State) : State :=
  match s.sec.job with
  | none => s
  | some (a, n) =>
    if s.flt.halted then s
    else
      let s1 := s.stage a n
      if s1.pwr.watchAsked then ({ s1 with pwr := { s1.pwr with watchAsked := false } } : State).requestWatch else s1

/-- WATCH (R623, R638): the command stands for cycle W. How long after W entry completes is a free value of at most 50 µs (log entry
94). -/
def execWatch (s : State) : Host.Outcome State Fault Refusal := .next (if s.writable then s.requestWatch else s)

/-! ## Waking (R639–R642, R714) -/

/-- The exit from Watch begins, where a source has been recorded and entry is complete (R639, R641, R714). -/
def State.beginExit (s : State) : State :=
  if s.pwr.st = .watch ∧ s.pwr.wake ≠ 0 ∧ s.pwr.entryEnds ≤ s.pwr.sinceWait then
    { s with pwr := { s.pwr with waking := true }, enables := s.enables ||| 1 }
  else s

/-- One ns in Watch: 1.2 SVC cycles more since W. -/
def State.watchTick (s : State) : State :=
  ({ s with pwr := { s.pwr with sinceWait := s.pwr.sinceWait + 12 } } : State).beginExit

/-- Whether an edge source that becomes active now is lost: in SVC cycles W + 2 to W + 7 (R639). -/
def Pwr.edgeLost (p : Pwr) : Bool := decide (20 ≤ p.sinceWait) && decide (p.sinceWait < 80)

/-- A wake source seen in Watch: recorded, unless it is an edge in the window of R639. Exit follows once entry is complete (R639–R641,
R714). -/
def State.wakeBy (s : State) (b : Nat) : State :=
  if s.pwr.st = .watch ∧ bitAt s.pwr.wakeEn.toNat b ∧ ¬(6 ≤ b ∧ s.pwr.edgeLost) then
    ({ s with pwr := { s.pwr with wake := s.pwr.wake ||| BitVec.ofNat 8 (2 ^ b) } } : State).beginExit
  else s

/-- Whether a wake source can be active in a state (R640). -/
def State.wakeSource (s : State) (b : Nat) : Bool :=
  match b with
  | 0 => s.dnd.asserted
  | 1 => decide (8 ≤ s.dnd.abortRun)
  | 4 => s.pcx.perstLow
  | 5 => s.pwr.gpio.any fun g => g.2.func == 2
  | 6 => s.pwr.gpio.any fun g => g.2.func == 3
  | _ => true

/-- WAKE (R639–R641). -/
def execWake (bit : Fin 8) (s : State) : Host.Outcome State Fault Refusal :=
  .next (if s.wakeSource bit then s.wakeBy bit else s)

/-- SMBUS_WAKE (R640, R665, R666). -/
def execSmbusWake (s : State) : Host.Outcome State Fault Refusal := .next (if s.smbusUp then s.wakeBy 7 else s)

/-- The start after Watch (R641, R642): TRIM is 0, every GPIO FUNC is 0, the watch group trains again. -/
def State.leaveWatch (s : State) : State :=
  ({ s with
    lanes := []
    tb := {}
    pwr := { s.pwr with st := .run, waking := false, gpio := s.pwr.gpio.map fun p => (p.1, { p.2 with func := 0 }) }
    dnd := { s.dnd with asserted := false, hits := 0, heldJoin := none }
    bru := { held := false, fromWatch := true } } : State).romStage

/-- SUPPLY_WITHIN_LIMITS (R711, R714): rail 0 VDD_AO, 1 VDD_SOC, 2 VDD_ARITH, 3 another rail. -/
def execSupplyWithinLimits (rail : Fin 4) (s : State) : Host.Outcome State Fault Refusal :=
  .next (match rail.val with
    | 0 => if s.pwr.st = .watch then s else { s with enables := s.enables ||| 1 }
    | 1 => if s.enables.getLsbD 0 then { s with enables := s.enables ||| 2 } else s
    | 2 => if s.enables = 3 ∧ s.pwr.waking then s.leaveWatch else s
    | _ => s)

end Sys2Proof.Machine
end

