-- ==== Sys2Proof/Machine/Dandy.lean ====
section
/-!
DEFINITION. The dandy's windows (R634–R637).
-/
namespace Sys2Proof.Machine

/-- Starts a sheet of configuration index 0 in the dandy: delivered after a load, restored from then on (R126, R128, R633). -/
def State.startDandy (s : State) : State :=
  let x0 := s.cl 880
  let x := ({ x0 with st := if x0.st = .aborted then .idle else x0.st } : Cluster).startSheet
  let n := s.dnd.prog.length
  let held := x.regs.cidx == 0
  let x1 := { x with
    drainHeld := false
    regs := { x.regs with sheetCount := BitVec.ofNat 32 s.dnd.sheets }
    cfg := { fetching := !held, restore := held, linesLeft := ceilDiv n 64, entriesLeft := n / 16
             gen := if held then x.regs.gen else !x.regs.gen } }
  { s.setCl 880 x1 with dnd := { s.dnd with sheets := s.dnd.sheets + 1 } }

/-- Whether the dandy has power and its schedule runs (R634). -/
def State.dandyRuns (s : State) : Bool :=
  !s.bru.held && !s.flt.halted && (s.pwr.st == .watch || ((s.pwr.st == .run || s.pwr.st == .trim) && s.dnd.scheduled))

/-- DANDY_WINDOW_START (R634, R635). A tick during a window begins none (DESIGN CHOICE, log entry 63). -/
def execDandyWindowStart (s : State) : Host.Outcome State Fault Refusal :=
  if !s.dandyRuns || s.dnd.win.active then .next s
  else
    let s1 := if s.dnd.loaded then s.startDandy else s
    .next { s1 with dnd := { s1.dnd with windows := s1.dnd.windows + 1, win := { active := true } } }

/-- The FMT and FCODE that a frame of the watched SID must have: of the join state, as it is in Run or as held in Watch (R635). -/
def State.watchedJoin (s : State) : Option (BitVec 4 × BitVec 4) :=
  let x := s.stream s.dnd.sid.toNat
  if s.pwr.st = .watch then s.dnd.heldJoin
  else if x.st = .joined ∨ x.st = .admitted then some (x.fmt, x.fcode) else none

/-- Whether a frame passes checks 1–3 of R350 for a join state. -/
def framePasses (f : StockFrame) (j : BitVec 4 × BitVec 4) : Bool :=
  let x : Stream := { st := .joined, fmt := j.1, fcode := j.2 }
  x.identity (f.sid.toNat / 64) f && frameStructured f x && frameCrc f == f.crc

/-- The entries of a frame (R365). -/
def frameEntries (f : StockFrame) (j : BitVec 4 × BitVec 4) : List Entry :=
  let fmt := j.1.toNat
  (List.range (frameSamples j.2.toNat / entryLanes fmt)).map (frameEntry f fmt)

/-- A window has all its frames, or has failed: the drain of the dandy is requested (R97, R635). -/
def State.endWindow (s : State) : State :=
  let x := s.cl 880
  s.setCl 880 (if x.st = .run then { x with st := .drain } else if x.st = .config then { x with drainHeld := true }
    else x)

/-- DANDY_FRAME (R635, R636): the next frame of the watched SID. One that fails a check, or whose SEQ does not follow, fails the
window. Its entries stand in L1 of the ingress tile in order, those beyond the queue's depth on their way (log entry 63). -/
def execDandyFrame (f : StockFrame) (s : State) : Host.Outcome State Fault Refusal :=
  let d := s.dnd
  let n := atLeastOne d.nfr.toNat
  if !s.dandyRuns || !d.win.active || d.win.bad || decide (n ≤ d.win.frames) || f.sid != d.sid ||
      (s.group d.group.toNat).st != .active then .next s
  else
    let next := !(d.win.frames != 0 && f.seq != d.win.seqNo)
    match s.watchedJoin.filter (framePasses f), next with
    | some j, true =>
      let x := s.cl 880
      let x1 := if d.loaded then (frameEntries f j).foldl (fun x e => x.push d.itile.toNat 5 e) x else x
      let k := d.win.frames + 1
      let s1 : State := { s.setCl 880 x1 with dnd := { d with win := { d.win with frames := k, seqNo := f.seq + 1 } } }
      .next (if k = n then s1.endWindow else s1)
    | _, _ => .next ({ s with dnd := { d with win := { d.win with bad := true } } } : State).endWindow

/-- A window abandoned (R636). -/
def Dnd.abandon (d : Dnd) : Dnd := { d with abandoned := satBump d.abandoned 1, hits := 0, abortRun := 0, win := {} }

/-- A window that yields a score (R637): the new state, and whether CONSEC windows in a row are hits. -/
def Dnd.judge (d : Dnd) (score : BitVec 32) : Dnd × Bool :=
  let hit := (FVal.ofBits f32 d.thr.toNat).le (FVal.ofBits f32 score.toNat)
  let n := if hit then d.hits + 1 else 0
  ({ d with score, hits := n, abortRun := 0, win := {} }, decide (atLeastOne d.consec.toNat ≤ n))

/-- CONSEC hits (R637): the wake source DANDY in Watch, DANDY_HIT in Run. -/
def State.dandyHit (s : State) : State :=
  if s.pwr.st = .watch then { s with dnd := { s.dnd with asserted := true } }
  else
    ({ s with dnd := { s.dnd with hits := 0 } } : State).postEvent 0x0053 noRing 0 (s.dnd.score.toNat + 2 ^ 32 * s.dnd.windows.toNat)

/-- DANDY_DECISION (R635–R637): the cluster is drained but for the decision entries in L1 of the decision tile, which are popped. One whose
configuration is still to come has not run its sheet. -/
def execDandyDecision (s : State) : Host.Outcome State Fault Refusal :=
  let d := s.dnd
  let w := d.win
  let x := s.cl 880
  let y := x.tile d.otile.toNat
  let x1 := s.drainView 880
  let drained := if x.working || x.awaits then x.st == .drain && x1.empty else true
  if !s.dandyRuns || !w.active || (!w.bad && decide (w.frames < atLeastOne d.nfr.toNat)) || !drained then .next s
  else
    let s1 := s.setCl 880 (if x.working then { x1 with st := .drained } else x1)
    match y.queue 5 ++ (y.chest.filter fun p => p.1 == 5).map (·.2) with
    | [e] =>
      if w.bad then .next { s1 with dnd := d.abandon }
      else
        let z := d.judge (e.setWidth 32)
        let s2 : State := { s1 with dnd := z.1 }
        .next (if z.2 then s2.dandyHit else s2)
    | _ => .next { s1 with dnd := d.abandon }

end Sys2Proof.Machine
end

