-- ==== Sys2Proof/Machine/MemSync.lean ====
section
/-!
DEFINITION. The memory, far, synchronisation and steering operations of a tile (R73, R74, R82–R85, R101–R116, R141–R145).
-/
namespace Sys2Proof.Machine

/-- LD (R73): the entry of the SRAM stream. With another SELA, which no rule refuses, it emits what A selects (DESIGN CHOICE, log entry
90). -/
def ldBody (f : Fire) : Except ClEvent Cluster := .ok (f.emit f.a)

/-- ST (R73, R85): A to SRAM at the pointer in register DST, which advances 16 B. -/
def stBody (f : Fire) : Except ClEvent Cluster :=
  let y := f.tile
  let p := (y.reg (opDst f.o)).toNat
  if !y.sramOk p 16 then .error (sramRange f.t p)
  else .ok (f.withTile ((y.sramWrite p (natLe 16 f.a)).setReg (opDst f.o) (BitVec.ofNat 32 (p + 16)))).x

/-- LDI (R73): sign-extended IMM to register DST. -/
def ldiBody (f : Fire) : Except ClEvent Cluster :=
  .ok (f.withTile (f.tile.setReg (opDst f.o) (BitVec.ofInt 32 (signedOf 24 (opImm f.o))))).x

/-- The 16-bit word `w` of a table image at SRAM address `p` (R143). -/
def Tile.imageWord (y : Tile) (p w : Nat) : Nat := y.sram.readLe (p + 2 * w) 2

/-- Replaces product table `n` by the image at `p` (R143). -/
def Tile.loadTable (y : Tile) (n p : Nat) : Tile :=
  let put := fun (m : SMap (BitVec 16)) w => SMap.set 0 m (256 * n + w) (BitVec.ofNat 16 (y.imageWord p w))
  { y with tables := (List.range 256).foldl put y.tables }

/-- Entries of a codebook image by its header (R143). -/
def bookEntries (header : Nat) : Nat := if bitAt header 0 then 33 else 3

/-- Replaces codebook slot `k` by the image at `p` (R135, R143). -/
def Tile.loadBook (y : Tile) (k p : Nat) : Tile :=
  let h := y.sram.readLe p 16
  let n := if bitAt h 0 then 256 else 16
  let put := fun (m : SMap (BitVec 12)) w => SMap.set 0 m w (BitVec.ofNat 12 (y.imageWord (p + 16) w))
  let b : Codebook := { wide := bitAt h 0, zero := BitVec.ofNat 8 (bitsOf h 8 8), vals := (List.range n).foldl put [] }
  { y with books := SMap.set {} y.books k b }

/-- TBL_LD (R141–R144): loads the target SEL[27:24] from the stream, whose pointer advances past the image. -/
def tblLdBody (f : Fire) : Except ClEvent Cluster :=
  let y := f.tile
  let p := (y.reg (opSrc f.o)).toNat
  let target := bitsOf (opSel f.o) 0 4
  if !y.sramOk p 16 then .error (sramRange f.t p)
  else
    let n := if target < 4 then 512 else 16 * bookEntries (y.sram.readLe p 16)
    if !y.sramOk p n then .error (sramRange f.t p)
    else
      let z := if target < 4 then y.loadTable target p else y.loadBook (target - 4) p
      .ok (f.withTile (z.setReg (opSrc f.o) (BitVec.ofNat 32 (p + n)))).x

/-- FAR_RD and FAR_WR (R74, R85): the far unit takes the lines on. -/
def farBody (write : Bool) (f : Fire) : Except ClEvent Cluster :=
  let y := f.tile
  let sram := 16 * bitsOf (opImm f.o) 0 10
  let n := bitsOf (opImm f.o) 16 8
  if !y.sramOk sram (64 * n) then .error (sramRange f.t sram)
  else
    let job : FarJob := { write, line := (y.reg (opSrc f.o)).toNat, left := n, sram
                          flagMode := bitsOf (opSel f.o) 6 2, flag := bitsOf (opSel f.o) 0 6 }
    .ok (f.withTile { y with farJobs := y.farJobs ++ (if n = 0 then [] else [job]) }).x

/-- The event of an update that R84 refuses. -/
def flagOverflow (t f : Nat) : ClEvent := { code := .flagOverflow, detail := f + t * 2 ^ 32 }

/-- FLAG_INC (R73, R82, R84): adds IMM[15:0] to flag SEL[29:24]. -/
def flagIncBody (f : Fire) : Except ClEvent Cluster :=
  let n := bitsOf (opSel f.o) 0 6
  match f.x.flagAdd n (bitsOf (opImm f.o) 0 16) with
  | none => .error (flagOverflow f.t n)
  | some x => .ok x

/-- WAIT_FLAG (R73, R82, R83): subtracts IMM[15:0] from the flag and emits its prior value; its tile has had its turn. -/
def waitFlagBody (f : Fire) : Except ClEvent Cluster :=
  let n := bitsOf (opSel f.o) 0 6
  let v := f.x.flag n
  let x := f.x.setFlag n (v - BitVec.ofNat 16 (bitsOf (opImm f.o) 0 16))
  let g : Fire := { f with x := { x with waitTurn := SMap.set none x.waitTurn n (some f.t) } }
  .ok (g.emitScalar v.toNat)

/-- VALUE of a loop counter (R106). -/
def Cluster.cntV (x : Cluster) (k : Nat) : BitVec 24 := SMap.get 0 x.cntVal k

/-- LIMIT of a loop counter (R106). -/
def Cluster.cntL (x : Cluster) (k : Nat) : BitVec 24 := SMap.get 0 x.cntLim k

/-- CNT_SET (R108): VALUE and LIMIT take IMM, or A's bits [23:0]. -/
def cntSetBody (f : Fire) : Except ClEvent Cluster :=
  let k := bitsOf (opSel f.o) 0 4
  let v : BitVec 24 := BitVec.ofNat 24 (if opSelA f.o = 0 then opImm f.o else f.a)
  .ok { f.x with cntVal := SMap.set 0 f.x.cntVal k v, cntLim := SMap.set 0 f.x.cntLim k v }

/-- CNT_STEP (R109, R110): a wrap to LIMIT from VALUE 0 or 1, else a step down; the token by IMM. -/
def cntStepBody (f : Fire) : Except ClEvent Cluster :=
  let k := bitsOf (opSel f.o) 0 4
  let v := f.x.cntV k
  let wrap := decide (v.toNat ≤ 1)
  let v' := if wrap then f.x.cntL k else v - 1
  let g : Fire := { f with x := { f.x with cntVal := SMap.set 0 f.x.cntVal k v' } }
  if !wrap && bitAt (opImm f.o) 13 then .ok g.x
  else .ok (g.emitToken (mkToken (bitsOf (opImm f.o) (if wrap then 14 else 19) 5) (bitsOf (opImm f.o) 0 13)))

/-- TOKEN, generate form (R103). -/
def tokenGenBody (f : Fire) : Except ClEvent Cluster :=
  .ok (f.emitToken (mkToken (bitsOf (opSel f.o) 3 5) (bitsOf (f.tile.reg (opSrc f.o)).toNat 0 24)))

/-- TOKEN, relay form (R103): bits [31:0] of A with [26:24] cleared. -/
def tokenRelayBody (f : Fire) : Except ClEvent Cluster :=
  .ok (f.emitToken (mkToken (bitsOf f.a 27 5) (bitsOf f.a 0 24)))

/-- TOKEN, test form (R103). -/
def tokenTestBody (f : Fire) : Except ClEvent Cluster :=
  let rl := if bitsOf f.a 0 32 ≠ 0 then bitsOf (opSel f.o) 3 5 else bitsOf (opImm f.o) 19 5
  .ok (f.emitToken (mkToken rl (bitsOf (opImm f.o) 0 16)))

/-- The form of a TOKEN word: 0 generate, 1 relay, 2 test (R103). -/
def tokenForm (o : BitVec 64) : Nat :=
  if opSelA o = 0 then 0 else if opSelB o = 0x9 then 2 else 1

/-- The head token after one count is taken: gone at COUNT 0 (R113, R114). -/
def Tile.takeCount (y : Tile) : Tile :=
  match y.tokenQ with
  | [] => y
  | k :: rest => { y with tokenQ := if tokCount k ≤ 1 then rest else (k - 1) :: rest }

/-- A firing of SWITCH, MERGE, REPEAT or DROP (R112, R113, R115). -/
def Cluster.steer (x : Cluster) (t i : Nat) : Except ClEvent Cluster :=
  let y := x.tile t
  let o := y.op i
  match steerStep o (y.tokenQ.headD 0) with
  | none => .ok x
  | some st =>
    if st.error then .error { code := .routeError, detail := t * 2 ^ 32 }
    else
      let e := (y.queue st.queue).headD 0
      let z := (y.countFire i).takeCount
      let x := x.setTile t (if st.popData then z.pop st.queue else z)
      .ok (if st.emit then x.send t st.mask (if st.toDst then dstQueue o else none) e else x)

end Sys2Proof.Machine
end

