-- ==== Sys2Proof/Machine/MulUnit.lean ====
section
/-!
DEFINITION. The multiply array and the accumulators (R45, R146–R157, R166–R168): what MUL, MAC, MACR, ACC_RD, ACC_CLR and
FMA do to a tile.
-/
namespace Sys2Proof.Machine

/-- Integer products with the accumulator each goes to: C4 table words with the zero skip, which a 256-entry codebook never takes (R45,
R138, R148), C8 codebook products (R147). -/
def Fire.intProducts (f : Fire) : List (Nat × Int) :=
  let y := f.tile
  let sel := opSel f.o
  if opFmt f.o = 0 then
    let slot := y.book (bitsOf sel 2 1)
    (List.range (if opSelB f.o = 0xA then 64 else 32)).map fun k =>
      let a := lane 0 f.a (k % 32)
      let b := bitsOf f.b (4 * k) 4
      (k, if !slot.wide ∧ a = slot.zero.toNat then 0 else (y.tableWord (bitsOf sel 0 2) (16 * a + b)).toInt)
  else
    (List.range 16).map fun k => (k, (y.book 0).value (lane 1 f.a k) * (y.book 1).value (lane 1 f.b k))

/-- Floating-point products with the accumulator each goes to (R147). -/
def Fire.floatProducts (f : Fire) : List (Nat × FVal) :=
  let g := fmtFloat (opFmt f.o)
  (List.range (laneCount (opFmt f.o))).map fun k =>
    (k, (FVal.ofBits g (lane (opFmt f.o) f.a k)).mul (FVal.ofBits g (lane (opFmt f.o) f.b k)))

/-- The lowest and highest accumulator value (R149). -/
def accMin : Int := -549755813888
/-- The highest accumulator value. -/
def accMax : Int := 549755813887

/-- Sets accumulators. -/
def Tile.setAccs (y : Tile) (l : List (Nat × BitVec 40)) : Tile :=
  { y with accs := l.foldl (fun m p => SMap.set 0 m p.1 p.2) y.accs }

/-- Sets accumulators to products, added to their old values where `add` holds (R149–R151, R166, R168). -/
def Fire.accumulate (f : Fire) (add : Bool) : Fire :=
  if opFmt f.o < 2 then
    let y := f.tile
    let l := f.intProducts.map fun p => (p.1, if add then (y.acc p.1).toInt + p.2 else p.2)
    let n := countTrue (l.map fun p => decide (p.2 < accMin) || decide (accMax < p.2))
    f.withTile ((y.setAccs (l.map fun p => (p.1, BitVec.ofInt 40 (clampInt accMin accMax p.2)))).countSat n 0)
  else
    let d := f.roundDraw
    let f := d.2
    let y := f.tile
    let l := f.floatProducts.map fun p =>
      (p.1, (if add then (FVal.ofBits f32 (y.accF p.1)).add p.2 else p.2).round f32 (drawMode d.1 p.1))
    f.withTile ((y.setAccs (l.map fun p => (p.1, BitVec.ofNat 40 p.2.1))).countSat 0 (countTrue (l.map fun p => p.2.2)))

/-- The entries of a read-out with shift `s` (R153, R154), and the firing after its draw and counts. -/
def Fire.readout (f : Fire) (s : Nat) : List Nat × Fire :=
  let y := f.tile
  let fmt := opFmt f.o
  if fmt < 2 then
    ((List.range (if fmt = 0 then 16 else 4)).map fun e => buildLanes 3 fun k => accToF32 (y.acc (4 * e + k)) s, f)
  else if fmt = 3 then ([buildLanes 3 fun k => y.accF k], f)
  else
    let d := f.roundDraw
    let l := (List.range 8).map fun k => (FVal.ofBits f32 (y.accF k)).round w16 (drawMode d.1 k)
    ([packLanes 16 (l.map (·.1))], d.2.withTile (d.2.tile.countSat 0 (countTrue (l.map (·.2)))))

/-- Sets all 64 accumulators to 0 (R151). -/
def Tile.clearAccs (y : Tile) : Tile := { y with accs := [] }

/-- MUL (R147, R150). -/
def mulBody (f : Fire) : Except ClEvent Cluster := .ok (f.accumulate false).x

/-- MAC (R149, R150). -/
def macBody (f : Fire) : Except ClEvent Cluster := .ok (f.accumulate true).x

/-- MACR (R156): at the firing that brings the count to IMM it reads out, clears and restarts the count. -/
def macrBody (f : Fire) : Except ClEvent Cluster :=
  let f := f.accumulate true
  let y := f.tile
  let n := SMap.get 0 y.macrCnt f.i + 1
  if n = opImm f.o then
    let r := f.readout 0
    let f := r.2.withTile { r.2.tile.clearAccs with macrCnt := SMap.set 0 y.macrCnt f.i 0 }
    .ok (f.emitAll 0 r.1)
  else .ok (f.withTile { y with macrCnt := SMap.set 0 y.macrCnt f.i n }).x

/-- ACC_RD (R153–R155). -/
def accRdBody (f : Fire) : Except ClEvent Cluster :=
  let r := f.readout (bitsOf (opImm f.o) 0 6)
  .ok (r.2.emitAll 0 r.1)

/-- ACC_CLR (R151). -/
def accClrBody (f : Fire) : Except ClEvent Cluster := .ok (f.withTile f.tile.clearAccs).x

/-- FMA (R152): A × B + register SRC per lane, rounded once. -/
def fmaBody (f : Fire) : Except ClEvent Cluster :=
  let fmt := opFmt f.o
  let g := fmtFloat fmt
  let d := f.roundDraw
  let f := d.2
  let c := FVal.ofBits g ((f.tile.reg (opSrc f.o)).toNat % 2 ^ laneBits fmt)
  let l := (List.range (laneCount fmt)).map fun k =>
    (((FVal.ofBits g (lane fmt f.a k)).mul (FVal.ofBits g (lane fmt f.b k))).add c).round g (drawMode d.1 k)
  let f := f.withTile (f.tile.countSat 0 (countTrue (l.map (·.2))))
  .ok (f.emit (packLanes (laneBits fmt) (l.map (·.1))))

end Sys2Proof.Machine
end

