-- ==== Sys2Proof/Machine/SfuUnit.lean ====
section
/-!
DEFINITION. The special-function unit (R139, R174–R176). W16 results are the exact function rounded once, found from
fixed-point values with errors far below the distance to any rounding point; F32 results are a free choice among the
values the bounds of R175 allow (log entry 20).
-/
namespace Sys2Proof.Machine

/-- The fraction bits of the fixed-point values. -/
def fxBits : Nat := 192

/-- The fixed-point 1. -/
def fxOne : Nat := 2 ^ fxBits

/-- atanh z = z + z^3/3 + z^5/5 + … in fixed point, `n` further terms. -/
def fxAtanhFrom (z2 : Nat) : Nat → Nat → Nat → Nat → Nat
  | 0, _, _, acc => acc
  | n + 1, p, k, acc =>
    let p' := p * z2 / fxOne
    fxAtanhFrom z2 n p' (k + 2) (acc + p' / k)

/-- atanh of num ÷ den at most 1/3. -/
def fxAtanh (num den : Nat) : Nat :=
  let z := num * fxOne / den
  fxAtanhFrom (z * z / fxOne) 70 z 3 z

/-- ln 2 in fixed point. -/
def fxLn2 : Nat := 2 * fxAtanh 1 3

/-- e^r in fixed point by its series, `n` further terms. -/
def fxExpFrom (r : Nat) : Nat → Nat → Nat → Nat → Nat
  | 0, _, _, acc => acc
  | n + 1, p, k, acc =>
    let p' := p * r / fxOne / k
    fxExpFrom r n p' (k + 1) (acc + p')

/-- e^x for a rational x, cut at ±120, as a rational. -/
def expRatio (x : Ratio) : Ratio :=
  let v : Int := clampInt (-(120 * fxOne : Nat)) (120 * fxOne : Nat) (x.num * fxOne / x.den)
  let k : Int := v / (fxLn2 : Int)
  let r := (v - k * fxLn2).toNat
  let m := fxExpFrom r 60 fxOne 1 fxOne
  ⟨(m * 2 ^ k.toNat : Nat), fxOne * 2 ^ (-k).toNat⟩

/-- ln x for a rational x above 0, as a rational. -/
def lnRatio (x : Ratio) : Ratio :=
  let n := x.num.toNat
  let k := ratLog2 n x.den
  let a := n * 2 ^ (-k).toNat
  let b := x.den * 2 ^ k.toNat
  ⟨k * fxLn2 + 2 * fxAtanh (a - b) (a + b), fxOne⟩

/-- tanh x as a rational. -/
def tanhRatio (x : Ratio) : Ratio :=
  if x.num.natAbs * 4096 < x.den then
    ⟨x.num * (3 * x.den * x.den - x.num * x.num), 3 * x.den * x.den * x.den⟩
  else
    let e := expRatio ⟨2 * x.num, x.den⟩
    ⟨e.num - e.den, e.num.toNat + e.den⟩

/-- 1 ÷ (1 + e^−x) as a rational. -/
def sigmRatio (x : Ratio) : Ratio :=
  let e := expRatio x
  ⟨e.num, e.num.toNat + e.den⟩

/-- 1 ÷ √x for a rational x above 0, as a rational just below the root's value, exact where the root is. -/
def rsqrtRatio (x : Ratio) : Ratio :=
  let k : Int := ratLog2 x.num.toNat x.den / 2
  let m := isqrt (x.den * 2 ^ (2 * k).toNat * 2 ^ (2 * fxBits) / (x.num.toNat * 2 ^ (-(2 * k)).toNat))
  ⟨(m * 2 ^ (-k).toNat : Nat), fxOne * 2 ^ k.toNat⟩

/-- The special functions. -/
inductive Sfu where
  | exp | log | rcp | rsqrt | tanh | sigm
  deriving DecidableEq, Repr

/-- The opcode of a special function (R73). -/
def Sfu.opc : Sfu → Nat
  | .exp => 0x15
  | .log => 0x16
  | .rcp => 0x17
  | .rsqrt => 0x18
  | .tanh => 0x19
  | .sigm => 0x1A

/-- The value of a function at a finite argument where it is defined and not a case of R176. -/
def Sfu.value (g : Sfu) (x : Ratio) : Ratio :=
  match g with
  | .exp => expRatio x
  | .log => lnRatio x
  | .rcp => Ratio.div ⟨1, 1⟩ x
  | .rsqrt => rsqrtRatio x
  | .tanh => tanhRatio x
  | .sigm => sigmRatio x

/-- The results of R176, where they apply. -/
def Sfu.special (g : Sfu) (x : FVal) : Option FVal :=
  let one : FVal := .fin false 1 0
  let zeroP : FVal := .fin false 0 0
  let half : FVal := .fin false 1 (-1)
  match x, g with
  | .nan, _ => some .nan
  | .inf false, .exp => some (.inf false)
  | .inf false, .log => some (.inf false)
  | .inf false, .rcp => some zeroP
  | .inf false, .rsqrt => some zeroP
  | .inf false, .tanh => some one
  | .inf false, .sigm => some one
  | .inf true, .exp => some zeroP
  | .inf true, .log => some .nan
  | .inf true, .rcp => some (.fin true 0 0)
  | .inf true, .rsqrt => some .nan
  | .inf true, .tanh => some (.fin true 1 0)
  | .inf true, .sigm => some zeroP
  | .fin n m e, g =>
    if m = 0 then
      match g with
      | .exp => some one
      | .log => some (.inf true)
      | .rcp => some (.inf n)
      | .rsqrt => some (.inf n)
      | .tanh => some (.fin n 0 e)
      | .sigm => some half
    else if n && (g == .log || g == .rsqrt) then some .nan
    else none

/-- The bound of R175 on F32 results, in units in the last place. -/
def Sfu.ulps : Sfu → Nat
  | .rcp | .rsqrt => 1
  | _ => 2

/-- An F32 encoding by its signed place among the F32 values, with the sign of a zero. -/
def f32OfOrdinal (minus : Bool) (n : Int) : Nat :=
  (if n < 0 ∨ n = 0 ∧ minus then f32.signBit else 0) + min n.natAbs f32.infBits

/-- An F32 result within the bound of R175 of an exact value, chosen by the free value. Units in the last place are counted as F32
encodings on either side of the exact value, also next to a power of two (DESIGN CHOICE, log entry 20). A zero chosen for a value other
than zero has a free sign (DESIGN CHOICE, log entry 107). -/
def Sfu.pickF32 (g : Sfu) (bits : Nat) (v : Ratio) : Nat :=
  let n := v.num.natAbs
  let down := if n = 0 then 0 else roundMag f32 .down n v.den
  let exact := (FVal.ofBits f32 down).ratio.eqv ⟨n, v.den⟩
  let lo : Int := (down : Int) - g.ulps + (if exact then 0 else 1)
  let width := 2 * g.ulps + (if exact then 1 else 0)
  let free := Config.sfuPick g.opc bits
  let pick := lo + (free % width : Nat)
  f32OfOrdinal (n != 0 && free / width % 2 == 1) (if v.num < 0 then -pick else pick)

/-- One lane of a special function: its bits and whether a finite input overflowed (R175, R176). -/
def Sfu.lane (g : Sfu) (fmt bits : Nat) : Nat × Bool :=
  let x := FVal.ofBits (fmtFloat fmt) bits
  match g.special x with
  | some v => (v.toBits (fmtFloat fmt), false)
  | none =>
    let v := g.value x.ratio
    if fmt = 2 then v.round w16
    else
      let r := g.pickF32 bits v
      (r, r % f32.signBit == f32.infBits)

/-- The firing of a special function. -/
def Sfu.fire (g : Sfu) (f : Fire) : Except ClEvent Cluster :=
  let fmt := opFmt f.o
  let l := (List.range (laneCount fmt)).map fun k => g.lane fmt (Machine.lane fmt f.a k)
  let f := f.withTile (f.tile.countSat 0 (countTrue (l.map (·.2))))
  .ok (f.emit (packLanes (laneBits fmt) (l.map (·.1))))

/-- Breakpoint `i` of a piecewise table (R139). -/
def Tile.breakpoint (y : Tile) (n i : Nat) : FVal := FVal.ofBits w16 (y.tableWord n i).toNat

/-- The segment of an input: 0 below b0, else the largest index whose breakpoint is at or below it (R139). -/
def Tile.segment (y : Tile) (n : Nat) (x : FVal) : Nat :=
  if x.lt (y.breakpoint n 0) then 0
  else (List.range 64).foldl (fun s i => if (y.breakpoint n i).le x then i else s) 0

/-- The exact value of a piecewise table at an input (R139). -/
def Tile.pwlAt (y : Tile) (n : Nat) (x : FVal) : FVal :=
  if x.isNan then .nan
  else
    let i := y.segment n x
    let s := FVal.ofBits w16 (y.tableWord n (64 + i)).toNat
    let c := FVal.ofBits f32 ((y.tableWord n (128 + 2 * i)).toNat + 65536 * (y.tableWord n (129 + 2 * i)).toNat)
    c.add (s.mul x)

/-- PWL (R139). -/
def pwlBody (f : Fire) : Except ClEvent Cluster :=
  let fmt := opFmt f.o
  let n := bitsOf (opSel f.o) 0 2
  let l := (List.range (laneCount fmt)).map fun k =>
    (f.tile.pwlAt n (FVal.ofBits (fmtFloat fmt) (lane fmt f.a k))).round (fmtFloat fmt) .nearest
  let f := f.withTile (f.tile.countSat 0 (countTrue (l.map (·.2))))
  .ok (f.emit (packLanes (laneBits fmt) (l.map (·.1))))

end Sys2Proof.Machine
end

