-- ==== Sys2Proof/Machine/SizUnit.lean ====
section
/-!
DEFINITION. The sizing unit (R178–R203): scale vectors, quantising, dequantising, guards and channel statistics.
-/
namespace Sys2Proof.Machine

/-- Channels of a sizing operation, 2^LOG2_NCH (R178). -/
def sizChannels (o : BitVec 64) : Nat := 2 ^ bitsOf (opImm o) 10 3

/-- The code format of a sizing operation, SEL[25:24]. -/
def sizCode (o : BitVec 64) : Nat := bitsOf (opSel o) 0 2

/-- The codebook slot of a sizing operation, SEL[26]. -/
def sizSlot (o : BitVec 64) : Nat := bitsOf (opSel o) 2 1

/-- The byte address of the scale vector (R178, R182). -/
def sizVector (o : BitVec 64) : Nat := 16 * bitsOf (opImm o) 0 10

/-- A channel record as held (R183). -/
structure ChanRec where
  s : Nat := 0
  off : Nat := 0
  zr : Bool := false
  deriving DecidableEq, Repr

/-- The record of an entry (R183). -/
def ChanRec.ofEntry (e : Entry) : ChanRec :=
  { s := bitsOf e.toNat 0 32, off := bitsOf e.toNat 32 32, zr := bitAt e.toNat 64 }

/-- The entry of a record (R183). -/
def ChanRec.toNat (r : ChanRec) : Nat := r.s + 2 ^ 32 * r.off + (if r.zr then 2 ^ 64 else 0)

/-- Whether a record is valid (R191): O finite; with ZR 0 also S positive, normal and finite. -/
def ChanRec.valid (r : ChanRec) : Bool :=
  decide (bitsOf r.off 23 8 ≠ 255) &&
    (r.zr || (decide (r.s < 2 ^ 31) && decide (bitsOf r.s 23 8 ≠ 0) && decide (bitsOf r.s 23 8 ≠ 255)))

/-- O as a value. -/
def ChanRec.o (r : ChanRec) : FVal := FVal.ofBits f32 r.off

/-- S as a value. -/
def ChanRec.scale (r : ChanRec) : FVal := FVal.ofBits f32 r.s

/-- The number of candidate codes of a slot for a code format (R187). -/
def Codebook.candidates (b : Codebook) (code : Nat) : Nat := min (if b.wide then 256 else 16) (if code = 0 then 16 else 256)

/-- The lowest candidate whose value minimises a cost; candidates are taken in rising order (R187, R189). -/
def bestCode (n : Nat) (cost : Nat → Ratio) : Nat :=
  (List.range n).foldl (fun k j => if (cost j).lt (cost k) then j else k) 0

/-- V_LO of a slot (R187). -/
def Codebook.low (b : Codebook) (n : Nat) : Int := (List.range n).foldl (fun v j => min v (b.value j)) (b.value 0)

/-- V_HI of a slot (R187). -/
def Codebook.high (b : Codebook) (n : Nat) : Int := (List.range n).foldl (fun v j => max v (b.value j)) (b.value 0)

/-- The effective zero code Z (R187). -/
def Codebook.zeroCode (b : Codebook) (n : Nat) : Nat :=
  if b.zero.toNat < n then b.zero.toNat else bestCode n fun j => ⟨(b.value j).natAbs, 1⟩

/-- The lowest code whose value is `v`. -/
def Codebook.codeOf (b : Codebook) (n : Nat) (v : Int) : Nat := ((List.range n).find? fun j => b.value j == v).getD 0

/-- What quantising one element gives: its code, whether clipped, nonzero, underflowed. -/
structure Quantised where
  code : Nat := 0
  clipped : Bool := false
  nonzero : Bool := false
  under : Bool := false
  deriving DecidableEq, Repr

/-- One element quantised under a record (R187–R193). -/
def quantElement (b : Codebook) (n : Nat) (r : ChanRec) (x : FVal) : Quantised :=
  let z := b.zeroCode n
  if !r.valid then { code := z }
  else if r.zr then { code := z, clipped := !x.eqv r.o }
  else
    match x with
    | .nan => { code := z, clipped := true }
    | .inf neg => { code := b.codeOf n (if neg then b.low n else b.high n), clipped := true, nonzero := true }
    | .fin s m e =>
      let u := ((FVal.ratio (.fin s m e)).div r.scale.ratio).sub r.o.ratio
      let nz := decide (u.num ≠ 0)
      if u.lt ⟨b.low n, 1⟩ then { code := b.codeOf n (b.low n), clipped := true, nonzero := nz }
      else if Ratio.lt ⟨b.high n, 1⟩ u then { code := b.codeOf n (b.high n), clipped := true, nonzero := nz }
      else
        let k := bestCode n fun j => (u.sub ⟨b.value j, 1⟩).abs
        { code := k, nonzero := nz, under := nz && k == z }

/-- A SCALE_GUARD to post (R198): channel, cause and window counts. -/
structure Guard where
  t : Nat := 0
  i : Nat := 0
  channel : Nat := 0
  cause : Nat := 0
  win : Window := {}
  deriving DecidableEq, Repr

/-- The held copy of operation `i`. -/
def Tile.held (y : Tile) (i : Nat) : HeldCopy := SMap.get {} y.siz.held i

/-- Sets the held copy of operation `i`. -/
def Tile.setHeld (y : Tile) (i : Nat) (h : HeldCopy) : Tile :=
  { y with siz := { y.siz with held := SMap.set {} y.siz.held i h } }

/-- The copy a firing uses: loaded before the first firing of a sheet, and again where a gating entry asks for it
(R184–R186). -/
def Fire.loadHeld (f : Fire) : Except ClEvent Fire :=
  let y := f.tile
  let h := y.held f.i
  let reload := (selQueue (opSelB f.o)).isSome && bitAt f.b 0
  if h.loaded && !reload then .ok f
  else
    let a := sizVector f.o
    let n := sizChannels f.o
    if !y.sramOk a (16 * (1 + n)) then .error (sramRange f.t a)
    else
      let entry := fun k => BitVec.ofNat 128 (y.sram.readLe (a + 16 * k) 16)
      .ok (f.withTile (y.setHeld f.i
        { h with loaded := true, head := entry 0, recs := (List.range n).map fun c => entry (c + 1), win := [] }))

/-- Posts a guard unless the held copy, channel and cause have posted in this sheet, setting the tile's bit of CLC.SGUARD
(R198). -/
def Fire.postGuard (f : Fire) (posts : List Guard) (channel cause : Nat) (w : Window) : Fire × List Guard :=
  let y := f.tile
  let h := y.held f.i
  let key := 4 * channel + cause
  if h.posted.contains key then (f, posts)
  else
    let f := f.withTile (y.setHeld f.i { h with posted := h.posted ++ [key] })
    ({ f with x := { f.x with regs := { f.x.regs with sguard := f.x.regs.sguard ||| BitVec.ofNat 64 (2 ^ f.t) } } },
     posts ++ [{ t := f.t, i := f.i, channel, cause, win := w }])

/-- Adds one element's counts to the tile and to its window (R196, R197). -/
def Tile.countElement (y : Tile) (i c : Nat) (q : Quantised) : Tile :=
  let b2n := fun b : Bool => if b then 1 else 0
  let h := y.held i
  let w := SMap.get {} h.win c
  let w : Window := { e := w.e + 1, c := w.c + b2n q.clipped, d := w.d + b2n q.nonzero, u := w.u + b2n q.under }
  let y := y.setHeld i { h with win := SMap.set {} h.win c w }
  { y with siz := { y.siz with
      clip := SMap.modify 0 y.siz.clip c (satBump · (b2n q.clipped))
      ufl := SMap.modify 0 y.siz.ufl c (satBump · (b2n q.under))
      clipTotal := satBump y.siz.clipTotal (b2n q.clipped)
      uflTotal := satBump y.siz.uflTotal (b2n q.under) } }

/-- Tests a complete window of a channel and clears it (R197). -/
def Fire.testWindow (f : Fire) (posts : List Guard) (c : Nat) : Fire × List Guard :=
  let y := f.tile
  let h := y.held f.i
  let w := SMap.get {} h.win c
  let hd := h.head.toNat
  let size := if bitsOf hd 16 16 = 0 then 65536 else bitsOf hd 16 16
  if w.e < size then (f, posts)
  else
    let f := f.withTile (y.setHeld f.i { h with win := SMap.set {} h.win c {} })
    let r := if bitAt hd 32 && decide (w.c * 65536 > bitsOf hd 0 16 * w.e) then f.postGuard posts c 0 w else (f, posts)
    if bitAt hd 33 && decide (w.d > 0) && decide (w.u = w.d) then r.1.postGuard r.2 c 1 w else r

/-- Quantises the elements of a firing in rising order (R181), gathering their codes. -/
def Fire.quantElements (n : Nat) (f : Fire) (posts : List Guard) : List (Nat × FVal) → List Nat × Fire × List Guard
  | [] => ([], f, posts)
  | (c, x) :: rest =>
    let r := ChanRec.ofEntry ((f.tile.held f.i).recs.getD c 0)
    let q := quantElement (f.tile.book (sizSlot f.o)) n r x
    let f := f.withTile (f.tile.countElement f.i c q)
    let p := if r.valid then (f, posts) else f.postGuard posts c 2 (SMap.get {} (f.tile.held f.i).win c)
    let p := p.1.testWindow p.2 c
    let l := p.1.quantElements n p.2 rest
    (q.code :: l.1, l.2)

/-- QUANT (R180–R193, R196–R198). -/
def quantBody (f : Fire) : Except ClEvent (Cluster × List Guard) :=
  match f.loadHeld with
  | .error e => .error e
  | .ok f =>
    let fmt := opFmt f.o
    let code := sizCode f.o
    let ln := laneCount fmt
    let p := SMap.get {} f.tile.packs f.i
    let els := (List.range ln).map fun l => ((p.pos * ln + l) % sizChannels f.o, laneF fmt f.a l)
    let r := f.quantElements ((f.tile.book (sizSlot f.o)).candidates code) [] els
    let f := r.2.1
    let filled := p.entry.toNat + packLanes (laneBits code) r.1 * 2 ^ (laneBits code * ln * p.pos)
    let y := f.tile
    if p.pos + 1 = laneCount code / ln then
      .ok ((f.withTile { y with packs := SMap.set {} y.packs f.i {} }).emit filled, r.2.2)
    else
      let p' : Pack := { pos := p.pos + 1, entry := BitVec.ofNat 128 filled }
      .ok ((f.withTile { y with packs := SMap.set {} y.packs f.i p' }).x, r.2.2)

/-- One code turned back into a value and its overflow (R194, R195). -/
def dequantElement (b : Codebook) (n fmt : Nat) (r : ChanRec) (code : Nat) : Nat × Bool :=
  let g := fmtFloat fmt
  if !r.valid then (g.nanBits, false)
  else if r.zr then r.o.round g .nearest
  else
    let v := if code < n then b.value code else 0
    (((FVal.ofInt v).add r.o).mul r.scale).round g .nearest

/-- DEQUANT (R180, R194, R195, R198). -/
def dequantBody (f : Fire) : Except ClEvent (Cluster × List Guard) :=
  match f.loadHeld with
  | .error e => .error e
  | .ok f =>
    let fmt := opFmt f.o
    let code := sizCode f.o
    let b := f.tile.book (sizSlot f.o)
    let n := b.candidates code
    let recs := (f.tile.held f.i).recs.map ChanRec.ofEntry
    let chan := fun e => e % sizChannels f.o
    let l := (List.range (laneCount code)).map fun e =>
      dequantElement b n fmt (recs.getD (chan e) {}) (lane code f.a e)
    let p := (List.range (min (laneCount code) (sizChannels f.o))).foldl
      (fun p c => if (recs.getD c {}).valid then p else p.1.postGuard p.2 c 2 {}) (f, ([] : List Guard))
    let f := p.1.withTile (p.1.tile.countSat 0 (countTrue (l.map (·.2))))
    let ln := laneCount fmt
    let out := l.map (·.1)
    .ok (f.emitAll 2 ((List.range (laneCount code / ln)).map fun e => packLanes (laneBits fmt) ((out.drop (ln * e)).take ln)), p.2)

/-- The statistics of channel `c`. -/
def Tile.stat (y : Tile) (c : Nat) : ChanStats := SMap.get {} y.siz.stats c

/-- The statistics of a channel after one element, and overflows counted (R200). -/
def ChanStats.add (s : ChanStats) (x : FVal) : ChanStats × Nat :=
  if x.isNan then ({ s with nans := satBump s.nans 1 }, 0)
  else
    let get := fun w : BitVec 32 => FVal.ofBits f32 w.toNat
    let sum := ((get s.sum).add x).round f32 .nearest
    let sq := ((get s.sumsq).add (x.mul x)).round f32 .nearest
    ({ s with
        count := satBump s.count 1
        min := BitVec.ofNat 32 (((get s.min).minimum x).toBits f32)
        max := BitVec.ofNat 32 (((get s.max).maximum x).toBits f32)
        sum := BitVec.ofNat 32 sum.1
        sumsq := BitVec.ofNat 32 sq.1 }, countTrue [sum.2, sq.2])

/-- STATS mode 0 (R180, R181, R200). -/
def statsAddBody (f : Fire) : Except ClEvent Cluster :=
  let fmt := opFmt f.o
  let ln := laneCount fmt
  let p := SMap.get {} f.tile.packs f.i
  let y := (List.range ln).foldl (fun (y : Tile) l =>
    let c := (p.pos * ln + l) % sizChannels f.o
    let r := (y.stat c).add (laneF fmt f.a l)
    let z : Tile := { y with siz := { y.siz with stats := SMap.set {} y.siz.stats c r.1 } }
    z.countSat 0 r.2) f.tile
  let pos := if p.pos + 1 = laneCount (sizCode f.o) / ln then 0 else p.pos + 1
  let p' : Pack := { pos, entry := 0 }
  .ok (f.withTile { y with packs := SMap.set {} y.packs f.i p' }).x

/-- The two entries of a channel (R201). -/
def Tile.statEntries (y : Tile) (c : Nat) : List Nat :=
  let s := y.stat c
  [packLanes 32 [s.min.toNat, s.max.toNat, s.sum.toNat, s.sumsq.toNat],
   s.count.toNat + 2 ^ 32 * s.nans.toNat + 2 ^ 64 * (SMap.get 0 y.siz.clip c).toNat +
     2 ^ 88 * (SMap.get 0 y.siz.ufl c).toNat]

/-- STATS mode 1 (R201). -/
def statsEmitBody (f : Fire) : Except ClEvent Cluster :=
  .ok (f.emitAll 2 ((List.range (sizChannels f.o)).flatMap f.tile.statEntries))

/-- A quotient of values less an integer, rounded to F32: IEEE rules where an operand is infinite or the divisor 0, a zero quotient with
its sign (R134, R202). -/
def quotLess (a b : FVal) (v : Int) : Nat × Bool :=
  match a, b with
  | .nan, _ => (f32.nanBits, false)
  | _, .nan => (f32.nanBits, false)
  | .inf _, .inf _ => (f32.nanBits, false)
  | .inf n, .fin m _ _ => (FVal.inf (n != m)).round f32 .nearest
  | .fin n _ _, .inf m => ((FVal.fin (n != m) 0 0).sub (FVal.ofInt v)).round f32 .nearest
  | .fin n m e, .fin k l j =>
    if l = 0 then (if m = 0 then (f32.nanBits, false) else (FVal.inf (n != k)).round f32 .nearest)
    else if m = 0 then ((FVal.fin (n != k) 0 0).sub (FVal.ofInt v)).round f32 .nearest
    else (((FVal.ratio (.fin n m e)).div (FVal.ratio (.fin k l j))).sub ⟨v, 1⟩).round f32

/-- 2^−126 as F32, the least scale derived (R202). -/
def leastScale : Nat := 0x00800000

/-- The derived record of a channel and its overflows (R202, R203). -/
def ChanStats.derive (s : ChanStats) (lo hi : Int) : ChanRec × Nat :=
  let mn := FVal.ofBits f32 s.min.toNat
  let mx := FVal.ofBits f32 s.max.toNat
  if s.count = 0 then ({ s := 0x3F800000, off := 0, zr := true }, 0)
  else if mn.lt mx then
    let q := quotLess (mx.sub mn) (FVal.ofInt (hi - lo)) 0
    let sc := if q.1 < leastScale then leastScale else q.1
    let o := quotLess mn (FVal.ofBits f32 sc) lo
    ({ s := sc, off := o.1, zr := false }, countTrue [q.2, o.2])
  else ({ s := 0x3F800000, off := s.min.toNat, zr := true }, 0)

/-- STATS mode 2 (R202, R203). -/
def statsDeriveBody (f : Fire) : Except ClEvent Cluster :=
  let y := f.tile
  let b := y.book (sizSlot f.o)
  let n := b.candidates (sizCode f.o)
  let l := (List.range (sizChannels f.o)).map fun c => (y.stat c).derive (b.low n) (b.high n)
  let f := f.withTile (y.countSat 0 ((l.map (·.2)).sum))
  .ok (f.emitAll 2 (l.map fun r => r.1.toNat))

/-- STATS mode 3 (R200): the statistics return to their initial values. -/
def statsClearBody (f : Fire) : Except ClEvent Cluster :=
  let y := f.tile
  .ok (f.withTile { y with siz := { y.siz with stats := [] } }).x

end Sys2Proof.Machine
end

