-- ==== Sys2Proof/Machine/Fire.lean ====
section
/-!
DEFINITION. The firings of tile operations (R60–R65, R73): each meaning is one firing of the operation at a store index
of a tile, if the operation there has the opcode and may issue; otherwise nothing happens (log entry 1).
-/
namespace Sys2Proof.Machine

/-- An operation that only some words of its opcode name: `form` says which (R103, R178). -/
def State.fireForm (s : State) (opc : Nat) (form : BitVec 64 → Bool) (body : Fire → Except ClEvent Cluster)
    (c t i : Nat) : State :=
  if form (((s.cl c).tile t).op i) then s.fireOp opc body c t i else s

/-- Posts the SCALE_GUARD events of a firing (R198, R523). -/
def State.postGuards (s : State) (c : Nat) (l : List Guard) : State :=
  let r := (s.cl c).regs
  l.foldl (fun s g => s.postEvent 0x0002 (s.imageRing r.handle.toNat) r.handle.toNat
    (physX c * 2 ^ 26 + physY c * 2 ^ 21 + r.vx.toNat * 2 ^ 15 + r.vy.toNat * 2 ^ 10 +
      (g.t + 2 ^ 6 * g.i + 2 ^ 12 * g.channel + 2 ^ 17 * g.cause) * 2 ^ 32 +
      (g.win.e + 2 ^ 32 * g.win.c + 2 ^ 64 * g.win.d + 2 ^ 96 * g.win.u) * 2 ^ 64)) s

/-- One firing of QUANT or DEQUANT, whose guards are posted (R184–R198). -/
def State.fireSiz (s : State) (opc : Nat) (body : Fire → Except ClEvent (Cluster × List Guard)) (c t i : Nat) : State :=
  let x := s.cl c
  if opOpc ((x.tile t).op i) = opc ∧ s.mayFire c t i then
    match (x.take t i).bind body with
    | .ok r => (s.setCl c r.1).postGuards c r.2
    | .error ev => s.clusterEvent c ev
  else s

/-- One firing of SWITCH, MERGE, REPEAT or DROP (R112–R115). -/
def State.fireSteer (s : State) (opc : Nat) (c t i : Nat) : State :=
  let x := s.cl c
  if opOpc ((x.tile t).op i) = opc ∧ s.mayFire c t i then
    match x.steer t i with
    | .ok x' => s.setCl c x'
    | .error ev => s.clusterEvent c ev
  else s

/-- The outcome of a command that leads to a next state. -/
abbrev Result := Host.Outcome State Fault Refusal

/-- MUL (R45, R147, R150, R151). -/
def execMulOp (c : ClusterId) (t : TileId) (i : OpIx) (s : State) : Result :=
  .next (s.fireOp 0x01 mulBody c t i)

/-- MAC (R45, R149, R150). -/
def execMac (c : ClusterId) (t : TileId) (i : OpIx) (s : State) : Result :=
  .next (s.fireOp 0x02 macBody c t i)

/-- MACR (R156). -/
def execMacr (c : ClusterId) (t : TileId) (i : OpIx) (s : State) : Result :=
  .next (s.fireOp 0x03 macrBody c t i)

/-- ACC_RD (R153–R155). -/
def execAccRd (c : ClusterId) (t : TileId) (i : OpIx) (s : State) : Result :=
  .next (s.fireOp 0x04 accRdBody c t i)

/-- ACC_CLR (R151). -/
def execAccClr (c : ClusterId) (t : TileId) (i : OpIx) (s : State) : Result :=
  .next (s.fireOp 0x05 accClrBody c t i)

/-- FMA (R152). -/
def execFma (c : ClusterId) (t : TileId) (i : OpIx) (s : State) : Result :=
  .next (s.fireOp 0x06 fmaBody c t i)

/-- ADD (R158, R160). -/
def execAddOp (c : ClusterId) (t : TileId) (i : OpIx) (s : State) : Result :=
  .next (s.fireOp 0x07 addBody c t i)

/-- SUB (R158, R160). -/
def execSubOp (c : ClusterId) (t : TileId) (i : OpIx) (s : State) : Result :=
  .next (s.fireOp 0x08 subBody c t i)

/-- MAX (R160). -/
def execMaxOp (c : ClusterId) (t : TileId) (i : OpIx) (s : State) : Result :=
  .next (s.fireOp 0x09 maxBody c t i)

/-- MIN (R160). -/
def execMinOp (c : ClusterId) (t : TileId) (i : OpIx) (s : State) : Result :=
  .next (s.fireOp 0x0A minBody c t i)

/-- SCALE (R152, R160). -/
def execScale (c : ClusterId) (t : TileId) (i : OpIx) (s : State) : Result :=
  .next (s.fireOp 0x0B scaleBody c t i)

/-- REDUCE_ADD (R161). -/
def execReduceAdd (c : ClusterId) (t : TileId) (i : OpIx) (s : State) : Result :=
  .next (s.fireOp 0x0C reduceAddBody c t i)

/-- REDUCE_MAX (R161). -/
def execReduceMax (c : ClusterId) (t : TileId) (i : OpIx) (s : State) : Result :=
  .next (s.fireOp 0x0D reduceMaxBody c t i)

/-- AND (R73). -/
def execAndOp (c : ClusterId) (t : TileId) (i : OpIx) (s : State) : Result :=
  .next (s.fireOp 0x0E andBody c t i)

/-- OR (R73). -/
def execOrOp (c : ClusterId) (t : TileId) (i : OpIx) (s : State) : Result :=
  .next (s.fireOp 0x0F orBody c t i)

/-- XOR (R73). -/
def execXorOp (c : ClusterId) (t : TileId) (i : OpIx) (s : State) : Result :=
  .next (s.fireOp 0x10 xorBody c t i)

/-- SHIFT (R159). -/
def execShift (c : ClusterId) (t : TileId) (i : OpIx) (s : State) : Result :=
  .next (s.fireOp 0x11 shiftBody c t i)

/-- CMP (R162). -/
def execCmp (c : ClusterId) (t : TileId) (i : OpIx) (s : State) : Result :=
  .next (s.fireOp 0x12 cmpBody c t i)

/-- SELECT (R73). -/
def execSelectOp (c : ClusterId) (t : TileId) (i : OpIx) (s : State) : Result :=
  .next (s.fireOp 0x13 selectBody c t i)

/-- CVT (R163–R165, R168). -/
def execCvt (c : ClusterId) (t : TileId) (i : OpIx) (s : State) : Result :=
  .next (s.fireOp 0x14 cvtBody c t i)

/-- EXP (R175, R176). -/
def execExpOp (c : ClusterId) (t : TileId) (i : OpIx) (s : State) : Result :=
  .next (s.fireOp 0x15 Sfu.exp.fire c t i)

/-- LOG (R175, R176). -/
def execLogOp (c : ClusterId) (t : TileId) (i : OpIx) (s : State) : Result :=
  .next (s.fireOp 0x16 Sfu.log.fire c t i)

/-- RCP (R175, R176). -/
def execRcp (c : ClusterId) (t : TileId) (i : OpIx) (s : State) : Result :=
  .next (s.fireOp 0x17 Sfu.rcp.fire c t i)

/-- RSQRT (R175, R176). -/
def execRsqrt (c : ClusterId) (t : TileId) (i : OpIx) (s : State) : Result :=
  .next (s.fireOp 0x18 Sfu.rsqrt.fire c t i)

/-- TANH (R175, R176). -/
def execTanh (c : ClusterId) (t : TileId) (i : OpIx) (s : State) : Result :=
  .next (s.fireOp 0x19 Sfu.tanh.fire c t i)

/-- SIGM (R175, R176). -/
def execSigm (c : ClusterId) (t : TileId) (i : OpIx) (s : State) : Result :=
  .next (s.fireOp 0x1A Sfu.sigm.fire c t i)

/-- PWL (R139). -/
def execPwl (c : ClusterId) (t : TileId) (i : OpIx) (s : State) : Result :=
  .next (s.fireOp 0x1B pwlBody c t i)

/-- LD (R73, R85). -/
def execLd (c : ClusterId) (t : TileId) (i : OpIx) (s : State) : Result :=
  .next (s.fireOp 0x1F ldBody c t i)

/-- ST (R73, R85). -/
def execSt (c : ClusterId) (t : TileId) (i : OpIx) (s : State) : Result :=
  .next (s.fireOp 0x20 stBody c t i)

/-- MOV (R73). -/
def execMov (c : ClusterId) (t : TileId) (i : OpIx) (s : State) : Result :=
  .next (s.fireOp 0x21 movBody c t i)

/-- LDI (R41, R73). -/
def execLdi (c : ClusterId) (t : TileId) (i : OpIx) (s : State) : Result :=
  .next (s.fireOp 0x22 ldiBody c t i)

/-- TBL_LD (R141–R145). -/
def execTblLd (c : ClusterId) (t : TileId) (i : OpIx) (s : State) : Result :=
  .next (s.fireOp 0x23 tblLdBody c t i)

/-- FAR_RD (R74, R85). -/
def execFarRd (c : ClusterId) (t : TileId) (i : OpIx) (s : State) : Result :=
  .next (s.fireOp 0x24 (farBody false) c t i)

/-- FAR_WR (R74, R85). -/
def execFarWr (c : ClusterId) (t : TileId) (i : OpIx) (s : State) : Result :=
  .next (s.fireOp 0x25 (farBody true) c t i)

/-- FLAG_INC (R82, R84). -/
def execFlagInc (c : ClusterId) (t : TileId) (i : OpIx) (s : State) : Result :=
  .next (s.fireOp 0x26 flagIncBody c t i)

/-- WAIT_FLAG (R82, R83). -/
def execWaitFlag (c : ClusterId) (t : TileId) (i : OpIx) (s : State) : Result :=
  .next (s.fireOp 0x27 waitFlagBody c t i)

/-- CNT_SET (R108). -/
def execCntSet (c : ClusterId) (t : TileId) (i : OpIx) (s : State) : Result :=
  .next (s.fireOp 0x28 cntSetBody c t i)

/-- CNT_STEP (R109, R110). -/
def execCntStep (c : ClusterId) (t : TileId) (i : OpIx) (s : State) : Result :=
  .next (s.fireOp 0x29 cntStepBody c t i)

/-- RNG (R170, R173). -/
def execRng (c : ClusterId) (t : TileId) (i : OpIx) (s : State) : Result :=
  .next (s.fireOp 0x2F rngBody c t i)

/-- QUANT (R180–R193, R196–R198). -/
def execQuant (c : ClusterId) (t : TileId) (i : OpIx) (s : State) : Result :=
  .next (s.fireSiz 0x1C quantBody c t i)

/-- DEQUANT (R194, R195). -/
def execDequant (c : ClusterId) (t : TileId) (i : OpIx) (s : State) : Result :=
  .next (s.fireSiz 0x1D dequantBody c t i)

/-- STATS mode 0 (R200). -/
def execStatsAccumulate (c : ClusterId) (t : TileId) (i : OpIx) (s : State) : Result :=
  .next (s.fireForm 0x1E (fun o => statsMode o == 0) statsAddBody c t i)

/-- STATS mode 1 (R201). -/
def execStatsEmit (c : ClusterId) (t : TileId) (i : OpIx) (s : State) : Result :=
  .next (s.fireForm 0x1E (fun o => statsMode o == 1) statsEmitBody c t i)

/-- STATS mode 2 (R202, R203). -/
def execStatsDerive (c : ClusterId) (t : TileId) (i : OpIx) (s : State) : Result :=
  .next (s.fireForm 0x1E (fun o => statsMode o == 2) statsDeriveBody c t i)

/-- STATS mode 3 (R200). -/
def execStatsClear (c : ClusterId) (t : TileId) (i : OpIx) (s : State) : Result :=
  .next (s.fireForm 0x1E (fun o => statsMode o == 3) statsClearBody c t i)

/-- TOKEN, generate form (R103). -/
def execTokenGenerate (c : ClusterId) (t : TileId) (i : OpIx) (s : State) : Result :=
  .next (s.fireForm 0x2E (fun o => tokenForm o == 0) tokenGenBody c t i)

/-- TOKEN, relay form (R103). -/
def execTokenRelay (c : ClusterId) (t : TileId) (i : OpIx) (s : State) : Result :=
  .next (s.fireForm 0x2E (fun o => tokenForm o == 1) tokenRelayBody c t i)

/-- TOKEN, test form (R103). -/
def execTokenTest (c : ClusterId) (t : TileId) (i : OpIx) (s : State) : Result :=
  .next (s.fireForm 0x2E (fun o => tokenForm o == 2) tokenTestBody c t i)

/-- SWITCH (R112, R115). -/
def execSwitchOp (c : ClusterId) (t : TileId) (i : OpIx) (s : State) : Result :=
  .next (s.fireSteer 0x2A c t i)

/-- MERGE (R112). -/
def execMergeOp (c : ClusterId) (t : TileId) (i : OpIx) (s : State) : Result :=
  .next (s.fireSteer 0x2B c t i)

/-- REPEAT (R112, R114). -/
def execRepeatOp (c : ClusterId) (t : TileId) (i : OpIx) (s : State) : Result :=
  .next (s.fireSteer 0x2C c t i)

/-- DROP (R112). -/
def execDropOp (c : ClusterId) (t : TileId) (i : OpIx) (s : State) : Result :=
  .next (s.fireSteer 0x2D c t i)

end Sys2Proof.Machine
end

