-- ==== Sys2Proof/Machine/Registers.lean ====
section
/-!
DEFINITION. Writes of BAR0 registers (R15, R16, R459, R609, R685, R688–R698).
-/
namespace Sys2Proof.Machine

/-- The flag of a W1C bit after a host write, and whether a set met the clear (R609). -/
def clearFlag (flag one meets : Bool) : Bool × Bool := if one then (meets, meets) else (flag, false)

/-- Counts a set that met a clear (R609). -/
def Flt.met (f : Flt) (m : Bool) : Flt := if m then { f with meets := satBump f.meets 1 } else f

/-- The part of a word in bits [31:6] of an address. -/
def addrLo (v : Word) : Nat := v.toNat / 64 * 64

/-- An address of which one half is written. -/
def halfWrite (a : BitVec 64) (high : Bool) (n : Nat) : BitVec 64 :=
  if high then BitVec.ofNat 64 (n * 2 ^ 32 + a.toNat % 2 ^ 32) else BitVec.ofNat 64 (a.toNat / 2 ^ 32 * 2 ^ 32 + n)

/-! ## TBS (spec 09) -/

/-- A domain tracker's configuration written (TBS.DOMCFG). A tracker that becomes enabled is LISTENING, one that is disabled DISABLED, and
one that becomes slave-only is neither MASTER nor PASSIVE (PRESUMED from IEEE 1588, log entry 38). -/
def Domain.configure (d : Domain) (n : Nat) : Domain :=
  let en := bitAt n 31
  let kept := if bitAt n 27 && (d.pstate == 4 || d.pstate == 5) then 1 else d.pstate
  { d with
    en, profile := bitAt n 30, udp := bitAt n 29, port := bitAt n 28, slaveOnly := bitAt n 27, domain := BitVec.ofNat 8 (bitsOf n 16 8)
    prio1 := BitVec.ofNat 8 (bitsOf n 8 8), prio2 := BitVec.ofNat 8 (bitsOf n 0 8)
    pstate := if !en then 0 else if d.en then kept else 1, parent := if en then d.parent else none }

/-- A write of TBS.DOMCFG. A tracker that is disabled loses qualification. -/
def State.writeDomain (s : State) (d n : Nat) : State :=
  let x : Domain := SMap.get {} s.tb.domains d
  let t : TimeBase := { s.tb with domains := SMap.set {} s.tb.domains d (x.configure n) }
  { s with tb := if x.en && !bitAt n 31 then t.lose d else t }

/-- A write of the flag TBS.TSU.LATE (R609). -/
def State.writeTsu (s : State) (u n : Nat) (meets : Bool) : State :=
  let x : Tsu := SMap.get {} s.tb.tsu u
  let r := clearFlag x.late (bitAt n 30) meets
  { s with
    tb := { s.tb with tsu := SMap.set {} s.tb.tsu u { x with late := r.1 } }
    flt := ({ s.flt with tsuLate := satBump s.flt.tsuLate (bitN r.2) } : Flt).met r.2 }

/-- A write in block TBS; RWL fields stay under LOCK (R15). -/
def State.writeTbsReg (s : State) (o : Nat) (v : Word) (meets : Bool) : State :=
  let n := v.toNat
  let c := s.tb.ctrl
  if o = 0x00 then s.writeTbs v
  else if o = 0x08 then (if bitAt n 0 then s.latch else s)
  else if 0x100 ≤ o ∧ o < 0x180 then s.writeTsu ((o - 0x100) / 4) n meets
  else if c.lock then s
  else if 0x40 ≤ o ∧ o < 0x50 then
    let k := (o - 0x40) / 4
    let g : Gains := { kp := BitVec.ofNat 16 (bitsOf n 16 16), ki := BitVec.ofNat 16 (bitsOf n 0 16) }
    { s with tb := { s.tb with gains := SMap.set (servoReset k) s.tb.gains k g } }
  else if o = 0x50 then
    { s with tb := { s.tb with ctrl := { c with qualN := BitVec.ofNat 4 (bitsOf n 8 4), qualThr := BitVec.ofNat 8 (bitsOf n 0 8) } } }
  else if o = 0x60 ∨ o = 0x64 then s.writeDomain ((o - 0x60) / 4) n
  else if o = 0x88 ∨ o = 0x8C then
    { s with tb := { s.tb with ports := SMap.modify {} s.tb.ports ((o - 0x88) / 4) fun q : TimePort =>
        { q with rxLat := BitVec.ofNat 8 (bitsOf n 24 8), txLat := BitVec.ofNat 8 (bitsOf n 16 8), asym := BitVec.ofNat 16 (bitsOf n 0 16) } } }
  else s

/-! ## TRP (spec 11) -/

/-- A write in block TRP. -/
def State.writeTrpReg (s : State) (o : Nat) (v : Word) (meets : Bool) : State :=
  let n := v.toNat
  if o < 0x800 then
    let p := o / 0x20
    let q := s.pipe p
    match o % 0x20 with
    | 0x00 =>
      let r := clearFlag q.wrIgn (bitAt n 23) meets
      ({ s with flt := ({ s.flt with wrIgn := satBump s.flt.wrIgn (bitN r.2) } : Flt).met r.2 } : State).setPipe p { q with wrIgn := r.1 }
    | 0x08 => s.writeDet p false v
    | 0x0C => s.writeDet p true v
    | 0x18 =>
      s.setPipe p { q with ctl := { q.ctl with
        xout := bitAt n 31, groupOut := BitVec.ofNat 4 (bitsOf n 27 4), xin := BitVec.ofNat 16 (bitsOf n 0 16) } }
    | _ => s
  else if o < 0x880 then
    let k := (o - 0x800) / 0x10
    match o % 0x10 with
    | 0x0 => s.writeLine k 0 v
    | 0x4 => s.writeLine k 1 v
    | 0x8 => s.writeLine k 2 v
    | _ =>
      let l := s.line k
      let r := clearFlag l.unclaimedWr (bitAt n 30) meets
      ({ s with flt := ({ s.flt with unclWr := satBump s.flt.unclWr (bitN r.2) } : Flt).met r.2 } : State).setLine k { l with unclaimedWr := r.1 }
  else s

/-! ## RNG and RGC (spec 15) -/

/-- A write in block RNG. -/
def State.writeRngReg (s : State) (r o : Nat) (v : Word) : State :=
  let g := s.ring r
  match o with
  | 0x00 => s.setRing r { g with sqb := halfWrite g.sqb false (addrLo v) }
  | 0x04 => s.setRing r { g with sqb := halfWrite g.sqb true v.toNat }
  | 0x08 => s.setRing r { g with cqb := halfWrite g.cqb false (addrLo v) }
  | 0x0C => s.setRing r { g with cqb := halfWrite g.cqb true v.toNat }
  | 0x10 => s.writeRingCfg r v
  | _ => s

/-- A write in block RGC. -/
def State.writeRgcReg (s : State) (o : Nat) (v : Word) : State :=
  let g := s.hif.rgc
  let put := fun (x : Rgc) => { s with hif := { s.hif with rgc := x } }
  let half := fun (a : BitVec 64) => halfWrite a (o % 8 == 4) (if o % 8 = 4 then v.toNat else addrLo v)
  if o < 0x08 then put { g with evt := { g.evt with base := half g.evt.base } }
  else if o < 0x10 then put { g with buf := half g.buf }
  else if o < 0x18 then put { g with ream := { g.ream with base := half g.ream.base } }
  else if o = 0x18 then s.writeEvtCfg v
  else if o = 0x20 then s.setReamRing v
  else if o = 0x24 then put { g with mib := BitVec.ofNat 16 (bitsOf v.toNat 0 16) }
  else s

/-! ## MSI-X, PWR, DND, SEC -/

/-- A write of a word of the MSI-X table (R465, R466). -/
def State.writeMsix (s : State) (o : Nat) (v : Word) : State :=
  let k := o / 16
  let e : Vector_ := SMap.get {} s.pcx.msix k
  let put := fun (x : Vector_) => { s with pcx := { s.pcx with msix := SMap.set {} s.pcx.msix k x } }
  match o % 16 with
  | 0x0 => put { e with addr := halfWrite e.addr false (v.toNat / 4 * 4) }
  | 0x4 => put { e with addr := halfWrite e.addr true v.toNat }
  | 0x8 => put { e with data := v }
  | _ => s.setMask k (bitAt v.toNat 0)

/-- A write in block PWR. -/
def State.writePwrReg (s : State) (o : Nat) (v : Word) : State :=
  if o = 0x00 then
    let s1 := s.writeTrim (bitAt v.toNat 30)
    if bitAt v.toNat 31 then s1.requestWatch else s1
  else if o = 0x04 then s.writeCap v
  else if o = 0x14 then { s with pwr := { s.pwr with wakeEn := v.setWidth 8 } }
  else if 0x200 ≤ o ∧ o < 0x240 then s.writeGpio ((o - 0x200) / 4) v
  else s

/-- A write in block DND. Changes of the source and of the image are acted on at the next load (R632). -/
def State.writeDndReg (s : State) (o : Nat) (v : Word) : State :=
  let d := s.dnd
  let n := v.toNat
  let put := fun (x : Dnd) => { s with dnd := x }
  match o with
  | 0x00 => put { d with
      group := BitVec.ofNat 4 (bitsOf n 28 4), sid := BitVec.ofNat 10 (bitsOf n 18 10), itile := BitVec.ofNat 6 (bitsOf n 12 6)
      otile := BitVec.ofNat 6 (bitsOf n 6 6), changed := true }
  | 0x04 => put { d with nfr := BitVec.ofNat 8 (bitsOf n 24 8), consec := BitVec.ofNat 4 (bitsOf n 20 4) }
  | 0x08 => put { d with period := BitVec.ofNat 16 (bitsOf n 0 16) }
  | 0x0C => put { d with thr := v }
  | 0x10 => put { d with imgLo := v, changed := true }
  | 0x14 => put { d with imgHi := v.setWidth 5, changed := true }
  | 0x18 => put { d with imgBytes := v, changed := true }
  | _ => s

/-- A write in block SEC (R659). -/
def State.writeSecReg (s : State) (o : Nat) (v : Word) : State :=
  let x := s.sec
  match o with
  | 0x00 => { s with sec := { x with uaddr := halfWrite x.uaddr false (addrLo v) } }
  | 0x04 => { s with sec := { x with uaddr := halfWrite x.uaddr true (v.toNat % 32) } }
  | 0x08 => { s with sec := { x with ubytes := v } }
  | 0x0C => if bitAt v.toNat 0 then s.updateGo else s
  | _ => s

/-! ## REGISTER_WRITE -/

/-- A write at an aligned DW of BAR0. Offsets without a register, RO fields and registers that the root firmware alone writes take
nothing (R100, R459, R698). -/
def State.writeBar0 (s : State) (off : Nat) (v : Word) (meets : Bool) : State :=
  let o := off % 0x10000
  match off / 0x10000 with
  | 0x40 => s.writeTbsReg o v meets
  | 0x50 => s.writeTrpReg o v meets
  | 0x78 => s.writeRgcReg o v
  | 0x80 => s.writeMsix o v
  | 0x88 => if o = 0 then s.writeSysCfg v.toNat else s
  | 0x90 =>
    if o ≠ 0 then s
    else
      let r := clearFlag s.flt.retained (bitAt v.toNat 26) meets
      { s with flt := ({ s.flt with retained := r.1, reamCnt := s.flt.reamCnt + BitVec.ofNat 16 (bitN r.2) } : Flt).met r.2 }
  | 0xA0 => s.writePwrReg o v
  | 0xB0 => s.writeDndReg o v
  | 0xC0 => s.writeSecReg o v
  | 0xD0 => if o = 0xC then s.writeSwrst v else s
  | k => if 0x70 ≤ k ∧ k < 0x74 then s.writeRngReg ((off - 0x700000) / 0x40) (off % 0x40) v else s

/-- REGISTER_WRITE (R459, R609, R685): one DW at a BAR0 offset, discarded and counted where it is not aligned; in FATAL_HALT only
BRU.SWRST acts. -/
def execRegisterWrite (off : BitVec 28) (v : Word) (meets : Bool) (s : State) : Host.Outcome State Fault Refusal :=
  let a := off.toNat
  .next (if !s.barsUp then s
    else if a % 4 ≠ 0 then (s.modPcx fun r => { r with bar0Bad := satBump r.bar0Bad 1 }).aerError 20
    else if s.flt.halted ∧ a ≠ 0xD0000C then s
    else s.writeBar0 a v meets)

end Sys2Proof.Machine
end

