-- ==== Sys2Proof/Machine/Dispatch.lean ====
section
/-!
DEFINITION. exec: the meaning of each command, one arm per constructor.
-/
namespace Sys2Proof.Machine

/-- The effect of a command on everything but the queue of waiting commands. -/
def exec (i : Instr) (s : State) : Host.Outcome State Fault Refusal :=
  match i with
  | .linkHop h => Sys2Proof.Machine.execLinkHop h s
  | .mulOp c t ix => Sys2Proof.Machine.execMulOp c t ix s
  | .mac c t ix => Sys2Proof.Machine.execMac c t ix s
  | .macr c t ix => Sys2Proof.Machine.execMacr c t ix s
  | .accRd c t ix => Sys2Proof.Machine.execAccRd c t ix s
  | .readoutEntryEmit c t u => Sys2Proof.Machine.execReadoutEntryEmit c t u s
  | .accClr c t ix => Sys2Proof.Machine.execAccClr c t ix s
  | .fma c t ix => Sys2Proof.Machine.execFma c t ix s
  | .addOp c t ix => Sys2Proof.Machine.execAddOp c t ix s
  | .subOp c t ix => Sys2Proof.Machine.execSubOp c t ix s
  | .maxOp c t ix => Sys2Proof.Machine.execMaxOp c t ix s
  | .minOp c t ix => Sys2Proof.Machine.execMinOp c t ix s
  | .scale c t ix => Sys2Proof.Machine.execScale c t ix s
  | .reduceAdd c t ix => Sys2Proof.Machine.execReduceAdd c t ix s
  | .reduceMax c t ix => Sys2Proof.Machine.execReduceMax c t ix s
  | .andOp c t ix => Sys2Proof.Machine.execAndOp c t ix s
  | .orOp c t ix => Sys2Proof.Machine.execOrOp c t ix s
  | .xorOp c t ix => Sys2Proof.Machine.execXorOp c t ix s
  | .shift c t ix => Sys2Proof.Machine.execShift c t ix s
  | .cmp c t ix => Sys2Proof.Machine.execCmp c t ix s
  | .selectOp c t ix => Sys2Proof.Machine.execSelectOp c t ix s
  | .cvt c t ix => Sys2Proof.Machine.execCvt c t ix s
  | .expOp c t ix => Sys2Proof.Machine.execExpOp c t ix s
  | .logOp c t ix => Sys2Proof.Machine.execLogOp c t ix s
  | .rcp c t ix => Sys2Proof.Machine.execRcp c t ix s
  | .rsqrt c t ix => Sys2Proof.Machine.execRsqrt c t ix s
  | .tanh c t ix => Sys2Proof.Machine.execTanh c t ix s
  | .sigm c t ix => Sys2Proof.Machine.execSigm c t ix s
  | .pwl c t ix => Sys2Proof.Machine.execPwl c t ix s
  | .quant c t ix => Sys2Proof.Machine.execQuant c t ix s
  | .dequant c t ix => Sys2Proof.Machine.execDequant c t ix s
  | .statsAccumulate c t ix => Sys2Proof.Machine.execStatsAccumulate c t ix s
  | .statsEmit c t ix => Sys2Proof.Machine.execStatsEmit c t ix s
  | .statsDerive c t ix => Sys2Proof.Machine.execStatsDerive c t ix s
  | .statsClear c t ix => Sys2Proof.Machine.execStatsClear c t ix s
  | .ld c t ix => Sys2Proof.Machine.execLd c t ix s
  | .st c t ix => Sys2Proof.Machine.execSt c t ix s
  | .mov c t ix => Sys2Proof.Machine.execMov c t ix s
  | .ldi c t ix => Sys2Proof.Machine.execLdi c t ix s
  | .tblLd c t ix => Sys2Proof.Machine.execTblLd c t ix s
  | .farRd c t ix => Sys2Proof.Machine.execFarRd c t ix s
  | .farWr c t ix => Sys2Proof.Machine.execFarWr c t ix s
  | .farRequestEntry c t => Sys2Proof.Machine.execFarRequestEntry c t s
  | .farReadLineComplete c t => Sys2Proof.Machine.execFarReadLineComplete c t s
  | .farWriteLineComplete c t => Sys2Proof.Machine.execFarWriteLineComplete c t s
  | .flagInc c t ix => Sys2Proof.Machine.execFlagInc c t ix s
  | .waitFlag c t ix => Sys2Proof.Machine.execWaitFlag c t ix s
  | .cntSet c t ix => Sys2Proof.Machine.execCntSet c t ix s
  | .cntStep c t ix => Sys2Proof.Machine.execCntStep c t ix s
  | .switchOp c t ix => Sys2Proof.Machine.execSwitchOp c t ix s
  | .mergeOp c t ix => Sys2Proof.Machine.execMergeOp c t ix s
  | .repeatOp c t ix => Sys2Proof.Machine.execRepeatOp c t ix s
  | .dropOp c t ix => Sys2Proof.Machine.execDropOp c t ix s
  | .tokenGenerate c t ix => Sys2Proof.Machine.execTokenGenerate c t ix s
  | .tokenRelay c t ix => Sys2Proof.Machine.execTokenRelay c t ix s
  | .tokenTest c t ix => Sys2Proof.Machine.execTokenTest c t ix s
  | .tokenZeroLeave c t => Sys2Proof.Machine.execTokenZeroLeave c t s
  | .rng c t ix => Sys2Proof.Machine.execRng c t ix s
  | .chestSpillBegin c t q => Sys2Proof.Machine.execChestSpillBegin c t q s
  | .chestRefill c t q => Sys2Proof.Machine.execChestRefill c t q s
  | .watchdogExpiry c => Sys2Proof.Machine.execWatchdogExpiry c s
  | .sheetEnd h => Sys2Proof.Machine.execSheetEnd h s
  | .partialPackEmit h => Sys2Proof.Machine.execPartialPackEmit h s
  | .tokenOverrun c => Sys2Proof.Machine.execTokenOverrun c s
  | .clusterDrained c => Sys2Proof.Machine.execClusterDrained c s
  | .clcDrain c => Sys2Proof.Machine.execClcDrain c s
  | .clcAbort c => Sys2Proof.Machine.execClcAbort c s
  | .configFetch c => Sys2Proof.Machine.execConfigFetch c s
  | .configEntryDelivery c => Sys2Proof.Machine.execConfigEntryDelivery c s
  | .sheetRestore c => Sys2Proof.Machine.execSheetRestore c s
  | .bridgeWireFailure b d g w => Sys2Proof.Machine.execBridgeWireFailure b d g w s
  | .bridgeSubstitution b d => Sys2Proof.Machine.execBridgeSubstitution b d s
  | .flitRetransmit b d g w => Sys2Proof.Machine.execFlitRetransmit b d g w s
  | .pllLockLoss k => Sys2Proof.Machine.execPllLockLoss k s
  | .pllSwitchComplete k => Sys2Proof.Machine.execPllSwitchComplete k s
  | .loadImage => Sys2Proof.Machine.execLoadImage s
  | .gddr6Burst slot cls half errs => Sys2Proof.Machine.execGddr6Burst slot cls half errs s
  | .eccLineFetch slot cls half => Sys2Proof.Machine.execEccLineFetch slot cls half s
  | .edcRetry slot cls half => Sys2Proof.Machine.execEdcRetry slot cls half s
  | .gddr6Refresh e ch slot => Sys2Proof.Machine.execGddr6Refresh e ch slot s
  | .patrolRead e ch slot errs => Sys2Proof.Machine.execPatrolRead e ch slot errs s
  | .deviceCopyStart e m => Sys2Proof.Machine.execDeviceCopyStart e m s
  | .deviceCopyGroup e b group => Sys2Proof.Machine.execDeviceCopyGroup e b group s
  | .deviceSwitch e => Sys2Proof.Machine.execDeviceSwitch e s
  | .deviceLost e m => Sys2Proof.Machine.execDeviceLost e m s
  | .spareInitComplete e => Sys2Proof.Machine.execSpareInitComplete e s
  | .lnpEnable g => Sys2Proof.Machine.execLnpEnable g s
  | .lnpDisable g => Sys2Proof.Machine.execLnpDisable g s
  | .lnpRetrain g => Sys2Proof.Machine.execLnpRetrain g s
  | .lnpEidleEnter g => Sys2Proof.Machine.execLnpEidleEnter g s
  | .lnpEidleExit g => Sys2Proof.Machine.execLnpEidleExit g s
  | .losAssert g l => Sys2Proof.Machine.execLosAssert g l s
  | .losDeassert g l => Sys2Proof.Machine.execLosDeassert g l s
  | .characterLock g l => Sys2Proof.Machine.execCharacterLock g l s
  | .characterLockLoss g l errs => Sys2Proof.Machine.execCharacterLockLoss g l errs s
  | .baseAcqTimeout g => Sys2Proof.Machine.execBaseAcqTimeout g s
  | .caps g m => Sys2Proof.Machine.execCaps g m s
  | .offer g rate => Sys2Proof.Machine.execOffer g rate s
  | .step g rate count => Sys2Proof.Machine.execStep g rate count s
  | .rateSwitchTimeout g => Sys2Proof.Machine.execRateSwitchTimeout g s
  | .blockLock g l hs => Sys2Proof.Machine.execBlockLock g l hs s
  | .blockLockLoss g l hs => Sys2Proof.Machine.execBlockLockLoss g l hs s
  | .align g l frame skew => Sys2Proof.Machine.execAlign g l frame skew s
  | .eqSweepComplete g l good => Sys2Proof.Machine.execEqSweepComplete g l good s
  | .ready g spare lane => Sys2Proof.Machine.execReady g spare lane s
  | .trainingTimeout g => Sys2Proof.Machine.execTrainingTimeout g s
  | .spareRequest g l peer => Sys2Proof.Machine.execSpareRequest g l peer s
  | .spareAcknowledge g l good => Sys2Proof.Machine.execSpareAcknowledge g l good s
  | .spareAbandon g l peer => Sys2Proof.Machine.execSpareAbandon g l peer s
  | .spareSwitch g => Sys2Proof.Machine.execSpareSwitch g s
  | .eidle g l copy => Sys2Proof.Machine.execEidle g l copy s
  | .burst g count => Sys2Proof.Machine.execBurst g count s
  | .servoMeasurement src e => Sys2Proof.Machine.execServoMeasurement src e s
  | .announceTimeout d => Sys2Proof.Machine.execAnnounceTimeout d s
  | .ppsInTimeout => Sys2Proof.Machine.execPpsInTimeout s
  | .ptpFrameRx p f => Sys2Proof.Machine.execPtpFrameRx p f s
  | .ptpFrameTx p f => Sys2Proof.Machine.execPtpFrameTx p f s
  | .ppsInEdge falling phase => Sys2Proof.Machine.execPpsInEdge falling phase s
  | .ppsOutPulse n => Sys2Proof.Machine.execPpsOutPulse n s
  | .timedStartFire u => Sys2Proof.Machine.execTimedStartFire u s
  | .tbsLatch => Sys2Proof.Machine.execTbsLatch s
  | .tbsLock => Sys2Proof.Machine.execTbsLock s
  | .hello g pid sources version => Sys2Proof.Machine.execHello g pid sources version s
  | .sjoin g lsn fmt fcode rate => Sys2Proof.Machine.execSjoin g lsn fmt fcode rate s
  | .sleave g lsn sid => Sys2Proof.Machine.execSleave g lsn sid s
  | .bye g pid => Sys2Proof.Machine.execBye g pid s
  | .suspendTimeout sid => Sys2Proof.Machine.execSuspendTimeout sid s
  | .stockFrame g f => Sys2Proof.Machine.execStockFrame g f s
  | .admitPipe => Sys2Proof.Machine.execAdmitPipe s
  | .triggerBlockDelivery f e pin => Sys2Proof.Machine.execTriggerBlockDelivery f e pin s
  | .ingressPlacement p port now => Sys2Proof.Machine.execIngressPlacement p port now s
  | .decisionJudge p arrival => Sys2Proof.Machine.execDecisionJudge p arrival s
  | .triggerMessageSend p => Sys2Proof.Machine.execTriggerMessageSend p s
  | .pipelineRestart p => Sys2Proof.Machine.execPipelineRestart p s
  | .trigOutPulse n => Sys2Proof.Machine.execTrigOutPulse n s
  | .trigInEdge n falling mark => Sys2Proof.Machine.execTrigInEdge n falling mark s
  | .trpDetWrite p b v => Sys2Proof.Machine.execTrpDetWrite p b v s
  | .trigLineWrite n r v => Sys2Proof.Machine.execTrigLineWrite n r v s
  | .headboxTriggerMessage e => Sys2Proof.Machine.execHeadboxTriggerMessage e s
  | .recordComplete sid => Sys2Proof.Machine.execRecordComplete sid s
  | .recordHandoff sid => Sys2Proof.Machine.execRecordHandoff sid s
  | .recordLost sid => Sys2Proof.Machine.execRecordLost sid s
  | .bufferReallocate sid => Sys2Proof.Machine.execBufferReallocate sid s
  | .vatRun => Sys2Proof.Machine.execVatRun s
  | .vatLoad => Sys2Proof.Machine.execVatLoad s
  | .vatStore => Sys2Proof.Machine.execVatStore s
  | .vatClear => Sys2Proof.Machine.execVatClear s
  | .vatArm => Sys2Proof.Machine.execVatArm s
  | .sweepStart => Sys2Proof.Machine.execSweepStart s
  | .contextFetch q => Sys2Proof.Machine.execContextFetch q s
  | .batchDelivery q => Sys2Proof.Machine.execBatchDelivery q s
  | .contextCommit m port => Sys2Proof.Machine.execContextCommit m port s
  | .cacheWriteback q => Sys2Proof.Machine.execCacheWriteback q s
  | .sweepComplete => Sys2Proof.Machine.execSweepComplete s
  | .pcieLinkUp width rate flit reversed => Sys2Proof.Machine.execPcieLinkUp width rate flit reversed s
  | .registerWrite off v meets => Sys2Proof.Machine.execRegisterWrite off v meets s
  | .doorbellSqTail r v => Sys2Proof.Machine.execDoorbellSqTail r v s
  | .doorbellCqHead r v => Sys2Proof.Machine.execDoorbellCqHead r v s
  | .doorbellEvtHead v => Sys2Proof.Machine.execDoorbellEvtHead v s
  | .doorbellReamHead v => Sys2Proof.Machine.execDoorbellReamHead v s
  | .bar2BadWrite => Sys2Proof.Machine.execBar2BadWrite s
  | .bar4Read addr len => Sys2Proof.Machine.execBar4Read addr len s
  | .bar4Write addr data poisoned => Sys2Proof.Machine.execBar4Write addr data poisoned s
  | .msixUnmask v => Sys2Proof.Machine.execMsixUnmask v s
  | .completionTimeout e => Sys2Proof.Machine.execCompletionTimeout e s
  | .doeRequest object => Sys2Proof.Machine.execDoeRequest object s
  | .doeAbort => Sys2Proof.Machine.execDoeAbort s
  | .getVersion q => Sys2Proof.Machine.execGetVersion q s
  | .getCapabilities q => Sys2Proof.Machine.execGetCapabilities q s
  | .negotiateAlgorithms q => Sys2Proof.Machine.execNegotiateAlgorithms q s
  | .getDigests q => Sys2Proof.Machine.execGetDigests q s
  | .getCertificate q => Sys2Proof.Machine.execGetCertificate q s
  | .challenge q => Sys2Proof.Machine.execChallenge q s
  | .getMeasurements q => Sys2Proof.Machine.execGetMeasurements q s
  | .perst low => Sys2Proof.Machine.execPerst low s
  | .hotReset down => Sys2Proof.Machine.execHotReset down s
  | .functionLevelReset => Sys2Proof.Machine.execFunctionLevelReset s
  | .d3hotEntry => Sys2Proof.Machine.execD3hotEntry s
  | .ringEnable r v => Sys2Proof.Machine.execRingEnable r v s
  | .ringDisable r v => Sys2Proof.Machine.execRingDisable r v s
  | .ringDrained r => Sys2Proof.Machine.execRingDrained r s
  | .eventRingEnable v => Sys2Proof.Machine.execEventRingEnable v s
  | .reamRingEnable v => Sys2Proof.Machine.execReamRingEnable v s
  | .descriptorTake r => Sys2Proof.Machine.execDescriptorTake r s
  | .runSheet => Sys2Proof.Machine.execRunSheet s
  | .drainSheet => Sys2Proof.Machine.execDrainSheet s
  | .dmaCopy ch => Sys2Proof.Machine.execDmaCopy ch s
  | .dmaCopyComplete ch => Sys2Proof.Machine.execDmaCopyComplete ch s
  | .pacedCopy ch => Sys2Proof.Machine.execPacedCopy ch s
  | .pacedPoll ch => Sys2Proof.Machine.execPacedPoll ch s
  | .timeActionArm => Sys2Proof.Machine.execTimeActionArm s
  | .timeActionDisarm => Sys2Proof.Machine.execTimeActionDisarm s
  | .timeActionPps => Sys2Proof.Machine.execTimeActionPps s
  | .seal r => Sys2Proof.Machine.execSeal r s
  | .fence r => Sys2Proof.Machine.execFence r s
  | .claimRegion => Sys2Proof.Machine.execClaimRegion s
  | .claimResource => Sys2Proof.Machine.execClaimResource s
  | .releaseResource => Sys2Proof.Machine.execReleaseResource s
  | .releaseImage => Sys2Proof.Machine.execReleaseImage s
  | .releaseAdmission => Sys2Proof.Machine.execReleaseAdmission s
  | .completionWrite r => Sys2Proof.Machine.execCompletionWrite r s
  | .xomosPacketRx p k => Sys2Proof.Machine.execXomosPacketRx p k s
  | .xomosAck p cls seq => Sys2Proof.Machine.execXomosAck p cls seq s
  | .xomosNak p cls seq => Sys2Proof.Machine.execXomosNak p cls seq s
  | .ackTimer p cls => Sys2Proof.Machine.execAckTimer p cls s
  | .resendTimeout p cls => Sys2Proof.Machine.execResendTimeout p cls s
  | .ackProgressTimeout p => Sys2Proof.Machine.execAckProgressTimeout p s
  | .linkBlock p rank active lsv => Sys2Proof.Machine.execLinkBlock p rank active lsv s
  | .routeInstall => Sys2Proof.Machine.execRouteInstall s
  | .xomosTriggerPacket p m hops => Sys2Proof.Machine.execXomosTriggerPacket p m hops s
  | .tsyncRequestTimer => Sys2Proof.Machine.execTsyncRequestTimer s
  | .tsync p m => Sys2Proof.Machine.execTsync p m s
  | .calign p m => Sys2Proof.Machine.execCalign p m s
  | .disc p devid port version => Sys2Proof.Machine.execDisc p devid port version s
  | .coord p m => Sys2Proof.Machine.execCoord p m s
  | .confirm p origin epoch count => Sys2Proof.Machine.execConfirm p origin epoch count s
  | .go p origin epoch count => Sys2Proof.Machine.execGo p origin epoch count s
  | .xmsStart v => Sys2Proof.Machine.execXmsStart v s
  | .xmsLock => Sys2Proof.Machine.execXmsLock s
  | .originFlood => Sys2Proof.Machine.execOriginFlood s
  | .systemReady => Sys2Proof.Machine.execSystemReady s
  | .collRequest h peers => Sys2Proof.Machine.execCollRequest h peers s
  | .collTimeout h => Sys2Proof.Machine.execCollTimeout h s
  | .memberLost rank => Sys2Proof.Machine.execMemberLost rank s
  | .collReplay h => Sys2Proof.Machine.execCollReplay h s
  | .bucketLeak k => Sys2Proof.Machine.execBucketLeak k s
  | .clusterFence c cause t => Sys2Proof.Machine.execClusterFence c cause t s
  | .spareBistComplete c pass => Sys2Proof.Machine.execSpareBistComplete c pass s
  | .fuseBurn => Sys2Proof.Machine.execFuseBurn s
  | .clusterMove c => Sys2Proof.Machine.execClusterMove c s
  | .checkpoint role => Sys2Proof.Machine.execCheckpoint role s
  | .coreWatchdog core => Sys2Proof.Machine.execCoreWatchdog core s
  | .deviceFatal cause => Sys2Proof.Machine.execDeviceFatal cause s
  | .trimEnter => Sys2Proof.Machine.execTrimEnter s
  | .trimExit => Sys2Proof.Machine.execTrimExit s
  | .pwrCapWrite v => Sys2Proof.Machine.execPwrCapWrite v s
  | .throttleUpdate watts below temps => Sys2Proof.Machine.execThrottleUpdate watts below temps s
  | .thermalEmergencyStart die tj => Sys2Proof.Machine.execThermalEmergencyStart die tj s
  | .thermalEmergencyEnd temps => Sys2Proof.Machine.execThermalEmergencyEnd temps s
  | .thermtrip die tj => Sys2Proof.Machine.execThermtrip die tj s
  | .watch => Sys2Proof.Machine.execWatch s
  | .dandyWindowStart => Sys2Proof.Machine.execDandyWindowStart s
  | .dandyFrame f => Sys2Proof.Machine.execDandyFrame f s
  | .dandyDecision => Sys2Proof.Machine.execDandyDecision s
  | .wake bit => Sys2Proof.Machine.execWake bit s
  | .gpioWrite n v => Sys2Proof.Machine.execGpioWrite n v s
  | .gpioPulse n => Sys2Proof.Machine.execGpioPulse n s
  | .updateGo => Sys2Proof.Machine.execUpdateGo s
  | .identity => Sys2Proof.Machine.execIdentity s
  | .cert off => Sys2Proof.Machine.execCert off s
  | .deadReport nonce => Sys2Proof.Machine.execDeadReport nonce s
  | .reamRead off => Sys2Proof.Machine.execReamRead off s
  | .smbusWake => Sys2Proof.Machine.execSmbusWake s
  | .resetRelease => Sys2Proof.Machine.execResetRelease s
  | .resetAssert => Sys2Proof.Machine.execResetAssert s
  | .pwrgoodFall => Sys2Proof.Machine.execPwrgoodFall s
  | .pcieOutOfReset => Sys2Proof.Machine.execPcieOutOfReset s
  | .rootFwReport ms => Sys2Proof.Machine.execRootFwReport ms s
  | .rootFwTimeout => Sys2Proof.Machine.execRootFwTimeout s
  | .edgeReport e bistFail => Sys2Proof.Machine.execEdgeReport e bistFail s
  | .edgeTimeout e => Sys2Proof.Machine.execEdgeTimeout e s
  | .computeBistDone k fail pllFail => Sys2Proof.Machine.execComputeBistDone k fail pllFail s
  | .computeTimeout k => Sys2Proof.Machine.execComputeTimeout k s
  | .deviceReady ms => Sys2Proof.Machine.execDeviceReady ms s
  | .softwareReset v => Sys2Proof.Machine.execSoftwareReset v s
  | .mcPllLoss e => Sys2Proof.Machine.execMcPllLoss e s
  | .correctedSramError c => Sys2Proof.Machine.execCorrectedSramError c s
  | .serviceCoreError core corrected => Sys2Proof.Machine.execServiceCoreError core corrected s
  | .invalidHeader g l u => Sys2Proof.Machine.execInvalidHeader g l u s
  | .d0Entry => Sys2Proof.Machine.execD0Entry s
  | .dandyLoad => Sys2Proof.Machine.execDandyLoad s
  | .tbsCtrlWrite v => Sys2Proof.Machine.execTbsCtrlWrite v s
  | .wcntLoRead sid => Sys2Proof.Machine.execWcntLoRead sid s
  | .bar0BadRead => Sys2Proof.Machine.execBar0BadRead s
  | .supplyWithinLimits rail => Sys2Proof.Machine.execSupplyWithinLimits rail s

end Sys2Proof.Machine
end

