-- ==== Sys2Proof/Machine/Tick.lean ====
section
/-!
DEFINITION. What happens when no command waits: one TIME cycle of the time base (R308), and in it what runs with the clocks alone.
Every other time-driven effect is a command of its own (log entry 1).
-/
namespace Sys2Proof.Machine

/-- The cycles of which the time base keeps its `run`: longer than any frame lasts on a lane. -/
def keptCycles : Nat := 65536

/-- The time base after one TIME cycle: 1 ns + FADJ × 2^−32 ns more (R308). -/
def TimeBase.tick (t : TimeBase) : TimeBase :=
  { t with value := ((t.value : Int) + 2 ^ 32 + t.fadj).toNat, run := ((t.run : Int) + 2 ^ 32 + t.fadj).toNat
           past := (t.run :: t.past).take keptCycles }

/-- The deckle clock after one TIME cycle: 12 fifths of an ARITH cycle more (R31, R368). -/
def DeckleClock.tick (k : DeckleClock) : DeckleClock := { k with arith := k.arith + 12 }

/-- The deckle clocks after one TIME cycle: one of a die without a locked PLL stands (R35, R368). -/
def State.deckleTick (s : State) : State :=
  let tick := fun (m : SMap DeckleClock) (d : Nat) =>
    if (SMap.get {} s.fab.dies d : DieSt).pllLost then m else SMap.set {} m d ((s.deckle d).tick)
  { s with trp := { s.trp with clocks := (List.range 20).foldl tick s.trp.clocks } }

/-- A deckle clock at a calender frame boundary `r` ÷ 3 ns ago: the time base timestamps every fifth (R368). -/
def DeckleClock.boundary (k : DeckleClock) (value r : Nat) : DeckleClock :=
  if k.frames + 1 < 5 then { k with frames := k.frames + 1 }
  else { k with frames := 0, stampArith := k.arith - 4 * r, stampTime := (value - r * 2 ^ 32 / 3) / 65536 / 1024 * 1024 }

/-- The calender after one TIME cycle, once it is aligned: a frame is 2,048 ÷ 3 ns, and XMS.FRAME counts frames (R252); with a new segment
the packets that waited for its class leave (R533). -/
def State.frameTick (s : State) : State :=
  let p := s.gddr.frame + 3
  let next := fun t : State => if t.segment = s.segment then t else t.beginSegment
  if !s.gddr.aligned then s
  else if p < 2048 then next { s with gddr := { s.gddr with frame := p } }
  else
    let clock := fun (m : SMap DeckleClock) (d : Nat) => SMap.set {} m d ((s.deckle d).boundary s.tb.value (p - 2048))
    next { s with gddr := { s.gddr with frame := p - 2048 }, trp := { s.trp with clocks := (List.range 20).foldl clock s.trp.clocks }
                  xms := { s.xms with regs := { s.xms.regs with frame := s.xms.regs.frame + 1 } } }

/-! ## The transmitters of the lanes (R284, R287, R288) -/

/-- The line rate of a group in bits per ns (R281). -/
def LnpGroup.bitRate (x : LnpGroup) : Nat := if x.rate = 0 then 0 else 2 ^ (x.rate.toNat + 1)

/-- Whether a group's transmitter sends frames of block slots (R287, R304). -/
def LnpGroup.sendsSlots (x : LnpGroup) : Bool := x.rate != 0 && !x.txIdle && x.st != .off && x.st != .fail

/-- A lane's transmitter over one slot, in which it stuffs `n` bits if it sends a block (R288): at a slack slot where 98 are owed it sends
none, and makes them good; a data block that would leave more than 1,024 owed is withheld, which makes 98 good and counts in STUFF_LATE. -/
def Lane.txSlot (y : Lane) (slot n : Nat) (data : Bool) : Lane :=
  if slot % 128 = 127 ∧ 98 ≤ y.owed then { y with owed := y.owed - 98 }
  else if slot % 128 ≠ 127 ∧ slot ≠ 0 ∧ data ∧ 1024 < y.owed + n then
    { y with owed := y.owed - 98, stuffLate := satBump y.stuffLate 1 }
  else { y with owed := y.owed + n }

/-- Whether a lane of a group carries blocks of the layer above: once the group is ACTIVE, the data lanes and a spare that copies one
(R298, R301). -/
def LnpGroup.carries (x : LnpGroup) (g l : Nat) : Bool :=
  (x.st == .active || x.st == .eidle) && (decide (l < dataLanes g) || x.txSpare.isSome)

/-- The slot after one that has ended: a burst ends with a new frame (R287, R305). -/
def LnpGroup.nextSlot (x : LnpGroup) : LnpGroup :=
  if 1 < x.txBurst then { x with txBurst := x.txBurst - 1 }
  else if x.txBurst = 0 ∧ x.txSlot + 1 < 1024 then { x with txSlot := x.txSlot + 1 }
  else { x with txBurst := 0, txSlot := 0, txFrame := x.txFrame + 1 }

/-- A group's transmitter at the end of a slot. How many bits, 0 to 4, were stuffed on each lane, and whether its slot carried data, are
free values: the spec leaves the scrambler's state open, and the layer above its data (log entry 93). A slot of a burst carries none. -/
def LnpGroup.txSlotEnd (x : LnpGroup) (g f : Nat) : LnpGroup :=
  let lane := fun (x : LnpGroup) (l : Nat) =>
    let d := f / 10 ^ l
    if x.txBurst ≠ 0 then x.setLane l { x.lane l with owed := (x.lane l).owed + d % 5 }
    else x.setLane l ((x.lane l).txSlot x.txSlot (d % 5) (d / 5 % 2 == 1 && x.carries g l))
  ((List.range (dataLanes g + 1)).foldl lane x).nextSlot

/-- A group's transmitter over one TIME cycle: a slot ends every 98 bits (R282). -/
def LnpGroup.txTick (x : LnpGroup) (g f : Nat) : LnpGroup :=
  if !x.sendsSlots then x
  else
    let n := x.txBits + x.bitRate
    if n < 98 then { x with txBits := n } else ({ x with txBits := n - 98 } : LnpGroup).txSlotEnd g f

/-- The transmitters of all lanes over one TIME cycle. -/
def State.laneTick (s : State) : State :=
  if !s.lanes.any (·.2.sendsSlots) then s
  else
    let f := s.takeFree
    { f.2 with lanes := s.lanes.map fun p => (p.1, p.2.txTick p.1 (f.1 / 10 ^ (18 * p.1))) }

/-- One TIME cycle. The time base, the calender and the lanes do not run while the device is held in reset, nor in
Watch (R622, R672), where only the time since W is counted (R639). The root firmware ends an update in the cycle after it began (log entry 115). -/
def tick (s : State) : State :=
  if s.bru.held then s
  else if s.pwr.st = .watch then s.watchTick
  else ({ s with tb := s.tb.tick } : State).deckleTick.frameTick.laneTick.updateTick

end Sys2Proof.Machine
end

