-- ==== Sys2Proof/Safety.lean ====
section
/-!
DEFINITION. What counts as a safe step: one that answers a next state.
-/
namespace Sys2Proof

/-- The outcome is a next state. -/
def completes (o : Host.Outcome Machine.State Machine.Fault Machine.Refusal) : Prop := ∃ t, o = .next t

/-- The memories of a state are in canonical form: host memory, GDDR6, boot flash. -/
def memoriesWf (s : Machine.State) : Bool :=
  Machine.Mem.wf 0 s.host && Machine.Mem.wf 0 s.gddr.bytes && Machine.Mem.wf 0xFF s.sec.flash

/-- The operation at a store index of a tile has the opcode, is among those the cycle issues, and takes its inputs as the
firing `f` (R60–R63, R73). -/
def Fires (s : Machine.State) (opc c t i : Nat) (f : Machine.Fire) : Prop :=
  Machine.opOpc (((s.cl c).tile t).op i) = opc ∧ s.mayFire c t i = true ∧ (s.cl c).take t i = .ok f

end Sys2Proof
end

