-- ==== Sys2Proof/Certificates/Slice0/Obligations.lean ====
section
/-!
DEFINITION. The statements for the provers. Each holds in every state that meets its hypotheses.
-/

open Sys2Proof Sys2Proof.Machine

/-- For every state whose queue of waiting commands begins with a command, step answers exactly what exec of that command answers on the same state with the command taken from its queue. -/
def Obligations.StepRunsTheFrontCommand : Prop :=
  ∀ (s : State) (i : Instr) (rest : List Instr), s.pending = i :: rest → step s = exec i { s with pending := rest }

/-- MODEL'S CHOICE (log entry 1): with no command waiting, a step is one TIME cycle. Held in reset nothing changes. In Watch the time since cycle W grows by 1.2 SVC cycles, and the exit begins where a source is recorded and entry is complete. Else the time base advances by 1 ns and FADJ × 2^−32 ns and the deckle clock of every die with a locked PLL by 2.4 ARITH cycles, then the calender and the lanes' transmitters take their cycle; while the calender is not aligned and no transmitter sends slots, nothing else changes. Last, an update in progress is done (log entry 115). An aligned calender moves 3 of the 2,048 parts of its frame, and at the frame's end XMS.FRAME counts and every deckle clock meets a boundary; with a new Xomos segment the packets that wait for it leave. -/
def Obligations.IdleStepTicksTheTimeBase : Prop :=
  ∀ (s u : State), s.pending = [] →
    (s.bru.held = true → step s = .next s) ∧
    (s.bru.held = false → s.pwr.st = .watch →
      step s = .next (if s.pwr.wake ≠ 0 ∧ s.pwr.entryEnds ≤ s.pwr.sinceWait + 12 then
        { s with pwr := { s.pwr with sinceWait := s.pwr.sinceWait + 12, waking := true }, enables := s.enables ||| 1 }
      else { s with pwr := { s.pwr with sinceWait := s.pwr.sinceWait + 12 } })) ∧
    (s.bru.held = false → s.pwr.st ≠ .watch →
      u = { s with tb := { s.tb with value := ((s.tb.value : Int) + 2 ^ 32 + s.tb.fadj).toNat
                                     run := ((s.tb.run : Int) + 2 ^ 32 + s.tb.fadj).toNat
                                     past := (s.tb.run :: s.tb.past).take keptCycles }
                   trp := { s.trp with clocks := (List.range 20).foldl (fun m d =>
                     if (SMap.get {} s.fab.dies d : DieSt).pllLost then m
                     else SMap.set {} m d { s.deckle d with arith := (s.deckle d).arith + 12 }) s.trp.clocks } } →
      step s = .next u.frameTick.laneTick.updateTick ∧
      (s.gddr.aligned = false → s.lanes.any (·.2.sendsSlots) = false → s.sec.job = none → step s = .next u) ∧
      (s.gddr.aligned = true → s.lanes.any (·.2.sendsSlots) = false → ∀ v : State,
        v = (if s.gddr.frame + 3 < 2048 then { u with gddr := { s.gddr with frame := s.gddr.frame + 3 } }
          else { u with
            gddr := { s.gddr with frame := s.gddr.frame + 3 - 2048 }
            trp := { u.trp with clocks := (List.range 20).foldl (fun m d =>
              SMap.set {} m d ((u.deckle d).boundary u.tb.value (s.gddr.frame + 3 - 2048))) u.trp.clocks }
            xms := { s.xms with regs := { s.xms.regs with frame := s.xms.regs.frame + 1 } } }) →
        (v.segment = u.segment → s.sec.job = none → step s = .next v) ∧
        (v.segment ≠ u.segment → v.beginSegment.lanes.any (·.2.sendsSlots) = false → step s = .next v.beginSegment.updateTick)))

/-- At reset host memory, GDDR6 and the boot flash are in their canonical form: addresses strictly rise and no listed byte equals what an unlisted one reads as. Their contents are the model's choice (log entry 5). -/
def Obligations.ResetMemoriesAreCanonical : Prop :=
  memoriesWf State.reset = true

/-- For every state whose host memory, GDDR6 bytes and boot flash are in canonical form, and every next state that a step answers, whichever of the 275 commands is at the front of the queue or none is, the three memories of the next state are in canonical form again. -/
def Obligations.MemoriesStayCanonical : Prop :=
  ∀ s t : State, memoriesWf s = true → step s = .next t → memoriesWf t = true

/-- While the fabric at its source is clocked, LINK_HOP with an entry there takes it away and puts it, with the GEN of its sender, into the tile input that accepts it, into the empty pass-through register of the next link, or at the tail of a crossing queue of fewer than 8. An entry of another cluster enters only a cluster that takes entries, with that cluster's GEN, and in the stream's turn where the tile serves both streams. An entry for a queue in spill waits while a queue of a lower code claims the chest's write. An entry is discarded with ROUTE_ERROR, an event of the cluster that sent it, where it has no way on, or the cluster it reaches is fenced or is not configured. An error that the tile raises is that cluster's event. In every other case, with no entry at the source among them, nothing changes. -/
def Obligations.LinkHopMovesOneEntry : Prop :=
  ∀ (s : State) (h : Hop), s.clocked (hopAt h) = true →
    (s.hopSource h = none → exec (.linkHop h) s = .next s) ∧
    (∀ (e : Entry) (gen : Bool), s.hopSource h = some (e, gen, .nowhere) →
      exec (.linkHop h) s = .next ((s.hopLeave h).clusterEvent (s.hopHome h).1 (routeError (s.hopHome h).2))) ∧
    (∀ (e : Entry) (gen : Bool) (c t d : Nat), s.hopSource h = some (e, gen, .sink c t d none) →
      (s.chestTaken c t d = true → exec (.linkHop h) s = .next s) ∧
      (s.chestTaken c t d = false → ∀ x : Cluster, ((s.hopLeave h).cl c).arrive t d e = .ok x → exec (.linkHop h) s = .next ((s.hopLeave h).setCl c x)) ∧
      (((s.hopLeave h).cl c).arrive t d e = .error none → exec (.linkHop h) s = .next s) ∧
      (s.chestTaken c t d = false → ∀ ev : ClEvent, ((s.hopLeave h).cl c).arrive t d e = .error (some ev) →
        exec (.linkHop h) s = .next ((s.hopLeave h).clusterEvent c ev))) ∧
    (∀ (e : Entry) (gen : Bool) (c t d k : Nat) (side : Nat × Bool), s.hopSource h = some (e, gen, .sink c t d (some k)) →
      side = (s.cl c).sideTile d k →
      ((s.service c = .fenced ∨ ((s.cl c).takes = false ∧ s.willTake c = false)) →
        exec (.linkHop h) s = .next ((s.hopLeave h).clusterEvent (s.hopHome h).1 (routeError (s.hopHome h).2))) ∧
      (s.service c ≠ .fenced → (s.cl c).takes = false → s.willTake c = true → exec (.linkHop h) s = .next s) ∧
      (s.service c ≠ .fenced → (s.cl c).takes = true →
        ((gen ≠ (s.cl c).regs.gen ∨ s.chestTaken c side.1 d = true ∨ (side.2 = true ∧ (k == 1) ≠ ((s.cl c).tile side.1).inTurn)) → exec (.linkHop h) s = .next s) ∧
        (gen = (s.cl c).regs.gen → (side.2 = false ∨ (k == 1) = ((s.cl c).tile side.1).inTurn) →
          s.chestTaken c side.1 d = false → ∀ x : Cluster,
          ((s.hopLeave h).cl c).arrive side.1 d e = .ok x → exec (.linkHop h) s = .next ((s.hopLeave h).setCl c
            (if side.2 then x.setTile side.1 { x.tile side.1 with inTurn := !(x.tile side.1).inTurn } else x))))) ∧
    (∀ (e : Entry) (gen : Bool) (l : PLink), s.hopSource h = some (e, gen, .pass l) →
      exec (.linkHop h) s = .next (if (s.link l.key).pass = none then
        (s.hopLeave h).setLink l.key { (s.hopLeave h).link l.key with pass := some (gen, e) } else s)) ∧
    (∀ (e : Entry) (gen : Bool) (l : PLink), s.hopSource h = some (e, gen, .cross l) →
      exec (.linkHop h) s = .next (if (s.link l.key).cross.length < 8 then
        (s.hopLeave h).setLink l.key { (s.hopLeave h).link l.key with
          cross := ((s.hopLeave h).link l.key).cross ++ [(gen, e)] } else s))

/-- While cluster c is clocked: READOUT_ENTRY_EMIT sends the next entry of a unit's result where its outputs and destination have room and no queue of a lower code claims the chest's write before it. FAR_REQUEST_ENTRY turns the next line of a far job, translated by the far windows, into a request; a line that no window gives raises FAR_RANGE. FAR_READ_LINE_COMPLETE writes the served line to tile SRAM and FAR_WRITE_LINE_COMPLETE retires it; a line that raises a flag adds 1 to it, or raises FLAG_OVERFLOW; an uncorrectable line is a fault record and ends the work of its image. TOKEN_ZERO_LEAVE drops a head token of COUNT 0. CHEST_SPILL_BEGIN puts a full queue of a working cluster into spill where no queue of a lower code claims the chest's write, marks the event, and lets the entry that waits at a neighbour hop into the chest; with no chest entry free it marks CHEST_FULL instead; in a trigger cluster a full queue is a stall of cause 2. CHEST_REFILL moves the oldest chest entry of a queue to its tail and ends the spill with the last one. -/
def Obligations.FarLinesAndEmissionsComplete : Prop :=
  ∀ (s : State) (c : ClusterId) (t : TileId) (x : Cluster) (y : Tile), x = s.cl c → y = x.tile t → s.clocked c = true →
    (∀ (u : EmitUnit) (ix : Nat) (e : Entry) (rest : List (Nat × Entry)),
      (SMap.get {} y.emit (EmitKey u)).entries = (ix, e) :: rest →
      y.outsFree (outMask (y.op ix)) = true → y.destRoom (localDest (y.op ix)) none = true → s.served c t (localDest (y.op ix)) = true →
      exec (.readoutEntryEmit c t u) s = .next (s.setCl c
        ((x.setTile t { y with emit := SMap.set {} y.emit (EmitKey u) { entries := rest } }).send t
          (outMask (y.op ix)) (localDest (y.op ix)) e))) ∧
    (∀ (j : FarJob) (rest : List FarJob), y.farJobs = j :: rest → x.farRoom j.write = true →
      (∀ l : Nat, x.regs.translate j.write j.line = some l → exec (.farRequestEntry c t) s = .next (s.setCl c
        { x.setTile t { y with farJobs :=
              if j.left ≤ 1 then rest else { j with line := j.line + 1, left := j.left - 1, sram := j.sram + 64 } :: rest } with
          farQ := x.farQ ++ [{ tile := t, write := j.write, line := l, sram := j.sram
                               data := if j.write then y.sram.readBytes j.sram 64 else []
                               inc := j.flagMode == 2 || (j.flagMode == 1 && j.left == 1), flag := j.flag }] })) ∧
      (x.regs.translate j.write j.line = none → exec (.farRequestEntry c t) s = .next
        (s.clusterEvent c { code := .farRange, detail := j.line % 2 ^ 32 + t * 2 ^ 32 }))) ∧
    (∀ (q : FarReq) (w : Cluster) (u : State), x.farQ.find? (fun r => r.tile == t.val) = some q →
      w = { x with farQ := removeFirst (fun r => r.tile == t.val) x.farQ } →
      u = s.setCl c (if q.write then w else w.setTile t ((w.tile t).sramWrite q.sram q.data)) →
      (∀ r : State,
        (q.served = .ok ∧ r = if q.inc then match (u.cl c).flagAdd q.flag 1 with
            | some z => u.setCl c z
            | none => u.clusterEvent c { code := .flagOverflow, detail := q.flag + t * 2 ^ 32 }
          else u) ∨
        (q.served = .bad ∧ r = ((s.setCl c w).faultRecord
          { kind := 6, cls := 3, action := 8, handle := BitVec.ofNat 16 x.regs.handle.toNat, loc := BitVec.ofNat 32 q.line
            ring := BitVec.ofNat 16 ((s.setCl c w).imageRing x.regs.handle.toNat) }).abortFor x.regs.handle.toNat c outFatal 0xA5 0) →
        (q.write = false → exec (.farReadLineComplete c t) s = .next r) ∧
        (q.write = true → exec (.farWriteLineComplete c t) s = .next r))) ∧
    (∀ (k : BitVec 32) (rest : List (BitVec 32)), y.tokenQ = k :: rest → tokCount k = 0 → y.dropsZero = true →
      exec (.tokenZeroLeave c t) s = .next (s.setCl c (x.setTile t { y with tokenQ := rest }))) ∧
    (∀ (q : Fin 7) (u : State), x.working = true →
      (x.regs.trigger = true → s.spillDue c t q = true → exec (.chestSpillBegin c t q) s = .next (s.stall c 2)) ∧
      (x.regs.trigger = false → s.chestShort c t q = true → x.regs.event.getLsbD 7 = false →
        exec (.chestSpillBegin c t q) s = .next (s.setCl c { x with regs := x.regs.setEvent 7 })) ∧
      (x.regs.trigger = false → s.chestShort c t q = false → s.spillDue c t q = true → s.chestFirst c t q = true →
        u = s.setCl c { x.setTile t { y with spill := y.spill ||| BitVec.ofNat 7 (2 ^ q.val) } with regs := x.regs.setEvent 1 } →
        (4 ≤ q.val → exec (.chestSpillBegin c t q) s = .next u) ∧
        (q.val < 4 → exec (.chestSpillBegin c t q) s = .next (match s.sender c t q with
          | none => u
          | some h => u.hop h)))) ∧
    (∀ (q : Fin 7) (e : Entry), y.chest.find? (fun p => p.1 == q.val) = some (q.val, e) → y.queueLen q < queueDepth q →
      exec (.chestRefill c t q) s = .next (s.setCl c (x.setTile t
        { y.enqueue q e with
          chest := removeFirst (fun p => p.1 == q.val) y.chest
          spill := if (removeFirst (fun p => p.1 == q.val) y.chest).any (fun p => p.1 == q.val) then y.spill
                   else y.spill &&& ~~~(BitVec.ofNat 7 (2 ^ q.val)) })))

/-- An operation of the multiply array that issues with its inputs taken as the firing f answers a next state in which only cluster c is changed. In an integer format MUL replaces and MAC adds to the accumulators, each clamped to 40 bits and the clamped ones counted. MACR accumulates, and at the firing that brings its count to IMM it reads out with shift 0, clears all accumulators and restarts its count. ACC_RD sends the first entry of the read-out with shift IMM[5:0] and keeps the rest for the unit. ACC_CLR makes every accumulator 0. FMA sends A × B + register SRC per lane, rounded once. -/
def Obligations.MultiplyArrayResults : Prop :=
  ∀ (s : State) (c : ClusterId) (t : TileId) (ix : OpIx) (f : Fire),
    (Fires s 0x01 c t ix f → opFmt f.o < 2 → exec (.mulOp c t ix) s = .next (s.setCl c (f.withTile
      ((f.tile.setAccs (f.intProducts.map fun p => (p.1, BitVec.ofInt 40 (clampInt accMin accMax p.2)))).countSat
        (countTrue (f.intProducts.map fun p => decide (p.2 < accMin) || decide (accMax < p.2))) 0)).x)) ∧
    (Fires s 0x02 c t ix f → opFmt f.o < 2 → exec (.mac c t ix) s = .next (s.setCl c (f.withTile
      ((f.tile.setAccs (f.intProducts.map fun p =>
          (p.1, BitVec.ofInt 40 (clampInt accMin accMax ((f.tile.acc p.1).toInt + p.2))))).countSat
        (countTrue (f.intProducts.map fun p =>
          decide ((f.tile.acc p.1).toInt + p.2 < accMin) || decide (accMax < (f.tile.acc p.1).toInt + p.2))) 0)).x)) ∧
    (Fires s 0x01 c t ix f → 2 ≤ opFmt f.o → exec (.mulOp c t ix) s = .next (s.setCl c (f.accumulate false).x)) ∧
    (Fires s 0x02 c t ix f → 2 ≤ opFmt f.o → exec (.mac c t ix) s = .next (s.setCl c (f.accumulate true).x)) ∧
    (∀ g : Fire, g = f.accumulate true → Fires s 0x03 c t ix f →
      (SMap.get 0 g.tile.macrCnt g.i + 1 ≠ opImm g.o → exec (.macr c t ix) s = .next (s.setCl c
        (g.withTile { g.tile with macrCnt := SMap.set 0 g.tile.macrCnt g.i (SMap.get 0 g.tile.macrCnt g.i + 1) }).x)) ∧
      (SMap.get 0 g.tile.macrCnt g.i + 1 = opImm g.o → exec (.macr c t ix) s = .next (s.setCl c
        (((g.readout 0).2.withTile { (g.readout 0).2.tile.clearAccs with
          macrCnt := SMap.set 0 g.tile.macrCnt g.i 0 }).emitAll 0 (g.readout 0).1)))) ∧
    (Fires s 0x04 c t ix f → exec (.accRd c t ix) s = .next (s.setCl c
      ((f.readout (bitsOf (opImm f.o) 0 6)).2.emitAll 0 (f.readout (bitsOf (opImm f.o) 0 6)).1))) ∧
    (Fires s 0x05 c t ix f → exec (.accClr c t ix) s = .next (s.setCl c (f.withTile { f.tile with accs := [] }).x)) ∧
    (∀ (g : Fire) (l : List (Nat × Bool)), g = f.roundDraw.2 →
      l = (List.range (laneCount (opFmt f.o))).map (fun k =>
        (((laneF (opFmt f.o) g.a k).mul (laneF (opFmt f.o) g.b k)).add
          (FVal.ofBits (fmtFloat (opFmt f.o)) ((g.tile.reg (opSrc g.o)).toNat % 2 ^ laneBits (opFmt f.o)))).round
          (fmtFloat (opFmt f.o)) (drawMode f.roundDraw.1 k)) →
      Fires s 0x06 c t ix f → exec (.fma c t ix) s = .next (s.setCl c
        ((g.withTile (g.tile.countSat 0 (countTrue (l.map (·.2))))).emit (packLanes (laneBits (opFmt f.o)) (l.map (·.1))))))

/-- A lane operation that issues with its inputs taken as the firing f answers a next state in which only cluster c is changed. In C4 and C8, ADD, SUB, MAX, MIN and SHIFT send per lane the sum, the difference, the larger, the smaller and the shifted value, clamped to the signed range of the lane, clamped lanes counted. In W16 and F32, ADD, SUB, MAX, MIN and SCALE (by register SRC) send the exact lane result rounded once, overflows counted. -/
def Obligations.LaneArithmeticResults : Prop :=
  ∀ (s : State) (c : ClusterId) (t : TileId) (ix : OpIx) (f : Fire) (fmt : Nat) (ks : List Nat),
    fmt = opFmt f.o → ks = List.range (laneCount fmt) →
    (fmt < 2 →
      (Fires s 0x07 c t ix f → exec (.addOp c t ix) s = .next (s.setCl c
        (f.emitInts fmt (ks.map fun k => laneInt fmt f.a k + laneInt fmt f.b k)))) ∧
      (Fires s 0x08 c t ix f → exec (.subOp c t ix) s = .next (s.setCl c
        (f.emitInts fmt (ks.map fun k => laneInt fmt f.a k - laneInt fmt f.b k)))) ∧
      (Fires s 0x09 c t ix f → exec (.maxOp c t ix) s = .next (s.setCl c
        (f.emitInts fmt (ks.map fun k => max (laneInt fmt f.a k) (laneInt fmt f.b k))))) ∧
      (Fires s 0x0A c t ix f → exec (.minOp c t ix) s = .next (s.setCl c
        (f.emitInts fmt (ks.map fun k => min (laneInt fmt f.a k) (laneInt fmt f.b k)))))) ∧
    (2 ≤ fmt →
      (Fires s 0x07 c t ix f → exec (.addOp c t ix) s = .next (s.setCl c
        (f.emitFloats fmt (ks.map fun k => (laneF fmt f.a k).add (laneF fmt f.b k))))) ∧
      (Fires s 0x08 c t ix f → exec (.subOp c t ix) s = .next (s.setCl c
        (f.emitFloats fmt (ks.map fun k => (laneF fmt f.a k).sub (laneF fmt f.b k))))) ∧
      (Fires s 0x09 c t ix f → exec (.maxOp c t ix) s = .next (s.setCl c
        (f.emitFloats fmt (ks.map fun k => (laneF fmt f.a k).maximum (laneF fmt f.b k))))) ∧
      (Fires s 0x0A c t ix f → exec (.minOp c t ix) s = .next (s.setCl c
        (f.emitFloats fmt (ks.map fun k => (laneF fmt f.a k).minimum (laneF fmt f.b k)))))) ∧
    (Fires s 0x0B c t ix f → exec (.scale c t ix) s = .next (s.setCl c
      (f.emitFloats fmt (ks.map fun k => (laneF fmt f.a k).mul
        (FVal.ofBits (fmtFloat fmt) ((f.tile.reg (opSrc f.o)).toNat % 2 ^ laneBits fmt)))))) ∧
    (Fires s 0x11 c t ix f → exec (.shift c t ix) s = .next (s.setCl c
      (f.emitInts fmt (ks.map fun k => shiftLane (laneInt fmt f.a k) (signedOf 24 (opImm f.o))))))

/-- An operation of the vector unit that issues with its inputs taken as the firing f answers a next state in which only cluster c is changed: AND, OR and XOR send the bitwise results on 128 bits, MOV sends A, CMP sends a lane of ones where the condition SEL[26:24] holds and of zeros elsewhere, SELECT takes A where the mask lane is all ones and else B, REDUCE_ADD and REDUCE_MAX in an integer format set register DST and send to the directions the exact sum, modulo 2^32, and the largest lane. -/
def Obligations.BitwiseAndComparedLanes : Prop :=
  ∀ (s : State) (c : ClusterId) (t : TileId) (ix : OpIx) (f : Fire) (fmt : Nat), fmt = opFmt f.o →
    (Fires s 0x0E c t ix f → exec (.andOp c t ix) s = .next (s.setCl c (f.emit (f.a &&& f.b)))) ∧
    (Fires s 0x0F c t ix f → exec (.orOp c t ix) s = .next (s.setCl c (f.emit (f.a ||| f.b)))) ∧
    (Fires s 0x10 c t ix f → exec (.xorOp c t ix) s = .next (s.setCl c (f.emit (f.a ^^^ f.b)))) ∧
    (Fires s 0x21 c t ix f → exec (.mov c t ix) s = .next (s.setCl c (f.emit f.a))) ∧
    (Fires s 0x12 c t ix f → exec (.cmp c t ix) s = .next (s.setCl c (f.emit (buildLanes fmt fun k =>
      if cmpLane fmt (bitsOf (opSel f.o) 0 3) f.a f.b k then 2 ^ laneBits fmt - 1 else 0)))) ∧
    (Fires s 0x13 c t ix f → exec (.selectOp c t ix) s = .next (s.setCl c (f.emit (buildLanes fmt fun k =>
      if lane fmt f.mask k = 2 ^ laneBits fmt - 1 then lane fmt f.a k else lane fmt f.b k)))) ∧
    (fmt < 2 → Fires s 0x0C c t ix f → exec (.reduceAdd c t ix) s = .next (s.setCl c
      (f.emitScalar (unsignedOf 32 (((List.range (laneCount fmt)).map (laneInt fmt f.a)).sum))))) ∧
    (fmt < 2 → Fires s 0x0D c t ix f → exec (.reduceMax c t ix) s = .next (s.setCl c
      (f.emitScalar (unsignedOf 32 (((List.range (laneCount fmt)).tail.map (laneInt fmt f.a)).foldl max (laneInt fmt f.a 0)))))) ∧
    (2 ≤ fmt → Fires s 0x0D c t ix f → exec (.reduceMax c t ix) s = .next (s.setCl c (f.emitScalar
      ((((List.range (laneCount fmt)).tail.map (laneF fmt f.a)).foldl FVal.maximum (laneF fmt f.a 0)).toBits (fmtFloat fmt))))) ∧
    (∀ r : Nat × Bool, r = (((List.range (laneCount fmt)).tail.map (laneF fmt f.a)).foldl FVal.add (laneF fmt f.a 0)).round
        (fmtFloat fmt) .nearest → 2 ≤ fmt → Fires s 0x0C c t ix f →
      exec (.reduceAdd c t ix) s = .next (s.setCl c ((f.withTile (f.tile.countSat 0 (countTrue [r.2]))).emitScalar r.1)))

/-- A special function that issues with its inputs taken as the firing f answers a next state in which only cluster c is changed: every lane of the entry it sends is its function's lane of A, overflows of finite inputs counted. PWL sends the value of the piecewise table SEL[25:24] at each lane, rounded. A result of F32 within the bound of R175 is a free value (log entry 20). -/
def Obligations.SpecialFunctionResults : Prop :=
  ∀ (s : State) (c : ClusterId) (t : TileId) (ix : OpIx) (f : Fire) (fmt : Nat), fmt = opFmt f.o →
    (∀ (g : Sfu) (l : List (Nat × Bool)), l = (List.range (laneCount fmt)).map (fun k => g.lane fmt (lane fmt f.a k)) →
      Fires s g.opc c t ix f →
      exec (match g with
        | .exp => Instr.expOp c t ix | .log => Instr.logOp c t ix | .rcp => Instr.rcp c t ix | .rsqrt => Instr.rsqrt c t ix
        | .tanh => Instr.tanh c t ix | .sigm => Instr.sigm c t ix) s
      = .next (s.setCl c ((f.withTile (f.tile.countSat 0 (countTrue (l.map (·.2))))).emit (packLanes (laneBits fmt) (l.map (·.1)))))) ∧
    (∀ l : List (Nat × Bool), l = (List.range (laneCount fmt)).map (fun k =>
        (f.tile.pwlAt (bitsOf (opSel f.o) 0 2) (laneF fmt f.a k)).round (fmtFloat fmt) .nearest) →
      Fires s 0x1B c t ix f →
      exec (.pwl c t ix) s
      = .next (s.setCl c ((f.withTile (f.tile.countSat 0 (countTrue (l.map (·.2))))).emit (packLanes (laneBits fmt) (l.map (·.1))))))

/-- In W16 and F32, with every encoding whose value is the one named: a NaN gives the format's NaN from every function; EXP gives 1 at either zero, +∞ at +∞ and +0 at −∞; LOG gives −∞ at either zero, NaN at −∞ and at every finite value below 0; RCP and RSQRT give the infinity of the zero's sign; TANH gives the zero itself, and ±1 at the infinities; SIGM gives one half at either zero, 1 at +∞ and +0 at −∞. None of these counts an overflow. -/
def Obligations.SpecialFunctionLanes : Prop :=
  ∀ (fmt b : Nat) (g : FloatFmt), fmt = 2 ∨ fmt = 3 → g = fmtFloat fmt →
    (FVal.ofBits g b = .nan → ∀ h : Sfu, h.lane fmt b = (g.nanBits, false)) ∧
    (∀ (n : Bool) (e : Int), FVal.ofBits g b = .fin n 0 e →
      Sfu.exp.lane fmt b = ((FVal.fin false 1 0).toBits g, false) ∧
      Sfu.log.lane fmt b = ((FVal.inf true).toBits g, false) ∧
      Sfu.rcp.lane fmt b = ((FVal.inf n).toBits g, false) ∧ Sfu.rsqrt.lane fmt b = ((FVal.inf n).toBits g, false) ∧
      Sfu.tanh.lane fmt b = ((FVal.fin n 0 e).toBits g, false) ∧
      Sfu.sigm.lane fmt b = ((FVal.fin false 1 (-1)).toBits g, false)) ∧
    (∀ (m : Nat) (e : Int), FVal.ofBits g b = .fin true m e → m ≠ 0 →
      Sfu.log.lane fmt b = (g.nanBits, false) ∧ Sfu.rsqrt.lane fmt b = (g.nanBits, false)) ∧
    (FVal.ofBits g b = .inf false →
      Sfu.exp.lane fmt b = ((FVal.inf false).toBits g, false) ∧ Sfu.log.lane fmt b = ((FVal.inf false).toBits g, false) ∧
      Sfu.rcp.lane fmt b = (0, false) ∧ Sfu.tanh.lane fmt b = ((FVal.fin false 1 0).toBits g, false) ∧
      Sfu.sigm.lane fmt b = ((FVal.fin false 1 0).toBits g, false)) ∧
    (FVal.ofBits g b = .inf true →
      Sfu.exp.lane fmt b = (0, false) ∧ Sfu.log.lane fmt b = (g.nanBits, false) ∧ Sfu.rcp.lane fmt b = (g.signBit, false) ∧
      Sfu.tanh.lane fmt b = ((FVal.fin true 1 0).toBits g, false) ∧ Sfu.sigm.lane fmt b = (0, false))

/-- A CVT from a format other than F32 to W16 that issues with its inputs taken as the firing f answers a next state in which only cluster c is changed. Its lanes are converted by R163, integer clamps and overflows counted. With no more target lanes than source lanes an entry it sends the first of its entries and keeps the rest for the unit; else it adds its lanes to its pack, and sends the pack and empties it at the last position. RNG sends the next draw of the stream of its identity SEL. -/
def Obligations.ConversionsAndDraws : Prop :=
  ∀ (s : State) (c : ClusterId) (t : TileId) (ix : OpIx) (f : Fire),
    (∀ (src dst : Nat) (l : List (Nat × Bool × Bool)) (g : Fire) (p : Pack) (filled : Nat),
      src = opFmt f.o → dst = bitsOf (opSel f.o) 0 2 → ¬(src = 3 ∧ dst = 2) →
      l = (List.range (laneCount src)).map (fun k => cvtLane src dst .nearest (lane src f.a k)) →
      g = f.withTile (f.tile.countSat (countTrue (l.map (·.2.1))) (countTrue (l.map (·.2.2)))) →
      p = SMap.get {} g.tile.packs g.i →
      filled = p.entry.toNat + packLanes (laneBits dst) (l.map (·.1)) * 2 ^ (laneBits dst * laneCount src * p.pos) →
      Fires s 0x14 c t ix f →
      (laneCount dst ≤ laneCount src → exec (.cvt c t ix) s = .next (s.setCl c (g.emitAll 1
        ((List.range (laneCount src / laneCount dst)).map fun e =>
          packLanes (laneBits dst) (((l.map (·.1)).drop (laneCount dst * e)).take (laneCount dst)))))) ∧
      (laneCount src < laneCount dst → p.pos + 1 = laneCount dst / laneCount src → exec (.cvt c t ix) s = .next (s.setCl c
        ((g.withTile { g.tile with packs := SMap.set {} g.tile.packs g.i {} }).emit filled))) ∧
      (laneCount src < laneCount dst → p.pos + 1 ≠ laneCount dst / laneCount src → exec (.cvt c t ix) s = .next (s.setCl c
        (g.withTile { g.tile with packs := SMap.set {} g.tile.packs g.i { pos := p.pos + 1, entry := BitVec.ofNat 128 filled } }).x))) ∧
    (Fires s 0x2F c t ix f → exec (.rng c t ix) s = .next (s.setCl c
      ((f.withTile { f.tile with draws := SMap.set 0 f.tile.draws (opSel f.o) (SMap.get 0 f.tile.draws (opSel f.o) + 1) }).emit
        (rngDraw f.x.regs.seed (rngCounter f.x.regs f.t 0 (opSel f.o) (SMap.get 0 f.tile.draws (opSel f.o)))).toNat)))

/-- A sizing operation that issues with its inputs taken as the firing f and its scale vector held answers a next state. QUANT quantises the elements of its firing in rising order under the records of their channels, adds the codes to its pack, and sends and empties the pack at its last position; the guards it raises are posted. DEQUANT of channels whose records are all valid sends the first entry of the values of its codes and keeps the rest. STATS adds each element to its channel's statistics, sends them, derives and sends a record for each channel from them, or returns them to their initial values; only cluster c changes then. -/
def Obligations.SizingResults : Prop :=
  ∀ (s : State) (c : ClusterId) (t : TileId) (ix : OpIx) (f : Fire) (fmt n code : Nat),
    fmt = opFmt f.o → n = sizChannels f.o → code = sizCode f.o →
    (∀ (g : Fire) (p : Pack) (l : List Nat) (h : Fire) (posts : List Guard) (filled : Nat),
      f.loadHeld = .ok g → opFmt g.o = fmt → sizCode g.o = code → p = SMap.get {} g.tile.packs g.i →
      g.quantElements ((g.tile.book (sizSlot g.o)).candidates code) []
        ((List.range (laneCount fmt)).map fun k => ((p.pos * laneCount fmt + k) % sizChannels g.o, laneF fmt g.a k)) = (l, h, posts) →
      filled = p.entry.toNat + packLanes (laneBits code) l * 2 ^ (laneBits code * laneCount fmt * p.pos) →
      Fires s 0x1C c t ix f →
      (p.pos + 1 = laneCount code / laneCount fmt → exec (.quant c t ix) s = .next ((s.setCl c
        ((h.withTile { h.tile with packs := SMap.set {} h.tile.packs h.i {} }).emit filled)).postGuards c posts)) ∧
      (p.pos + 1 ≠ laneCount code / laneCount fmt → exec (.quant c t ix) s = .next ((s.setCl c
        (h.withTile { h.tile with packs := SMap.set {} h.tile.packs h.i { pos := p.pos + 1, entry := BitVec.ofNat 128 filled } }).x).postGuards c posts))) ∧
    (∀ (g : Fire) (b : Codebook) (recs : List ChanRec) (l : List (Nat × Bool)),
      f.loadHeld = .ok g → opFmt g.o = fmt → sizCode g.o = code → sizChannels g.o = n → b = g.tile.book (sizSlot g.o) →
      recs = (g.tile.held g.i).recs.map ChanRec.ofEntry → (∀ k < min (laneCount code) n, (recs.getD k {}).valid = true) →
      l = (List.range (laneCount code)).map (fun e =>
        dequantElement b (b.candidates code) fmt (recs.getD (e % n) {}) (lane code g.a e)) →
      Fires s 0x1D c t ix f → exec (.dequant c t ix) s = .next (s.setCl c
        ((g.withTile (g.tile.countSat 0 (countTrue (l.map (·.2))))).emitAll 2 ((List.range (laneCount code / laneCount fmt)).map fun e =>
          packLanes (laneBits fmt) (((l.map (·.1)).drop (laneCount fmt * e)).take (laneCount fmt)))))) ∧
    (∀ (p q : Pack) (y : Tile), p = SMap.get {} f.tile.packs f.i →
      q = { pos := if p.pos + 1 = laneCount code / laneCount fmt then 0 else p.pos + 1, entry := 0 } →
      y = (List.range (laneCount fmt)).foldl (fun (y : Tile) k =>
        let r := (y.stat ((p.pos * laneCount fmt + k) % n)).add (laneF fmt f.a k)
        let z : Tile := { y with siz := { y.siz with stats := SMap.set {} y.siz.stats ((p.pos * laneCount fmt + k) % n) r.1 } }
        z.countSat 0 r.2) f.tile →
      statsMode (((s.cl c).tile t).op ix) = 0 → Fires s 0x1E c t ix f →
      exec (.statsAccumulate c t ix) s = .next (s.setCl c (f.withTile { y with packs := SMap.set {} y.packs f.i q }).x)) ∧
    (statsMode (((s.cl c).tile t).op ix) = 1 → Fires s 0x1E c t ix f →
      exec (.statsEmit c t ix) s = .next (s.setCl c (f.emitAll 2 ((List.range n).flatMap f.tile.statEntries)))) ∧
    (∀ l : List (ChanRec × Nat), l = (List.range n).map (fun k => (f.tile.stat k).derive
        ((f.tile.book (sizSlot f.o)).low ((f.tile.book (sizSlot f.o)).candidates code))
        ((f.tile.book (sizSlot f.o)).high ((f.tile.book (sizSlot f.o)).candidates code))) →
      statsMode (((s.cl c).tile t).op ix) = 2 → Fires s 0x1E c t ix f →
      exec (.statsDerive c t ix) s = .next (s.setCl c
        ((f.withTile (f.tile.countSat 0 ((l.map (·.2)).sum))).emitAll 2 (l.map fun r => r.1.toNat)))) ∧
    (statsMode (((s.cl c).tile t).op ix) = 3 → Fires s 0x1E c t ix f →
      exec (.statsClear c t ix) s = .next (s.setCl c (f.withTile { f.tile with siz := { f.tile.siz with stats := [] } }).x))

/-- A memory or far operation that issues with its inputs taken as the firing f, every access below the chest, answers a next state in which only cluster c is changed. LD sends the entry of its stream. ST writes A to the 16 B at the pointer in register DST, marks its lines and advances the pointer by 16. LDI sets register DST to IMM sign-extended. TBL_LD replaces the product table or the codebook slot of its target and advances the stream pointer past the image. FAR_RD and FAR_WR of at least one line give the far unit a job. -/
def Obligations.TileMemoryAndFarJobs : Prop :=
  ∀ (s : State) (c : ClusterId) (t : TileId) (ix : OpIx) (f : Fire) (p target n : Nat), target = bitsOf (opSel f.o) 0 4 →
    (Fires s 0x1F c t ix f → exec (.ld c t ix) s = .next (s.setCl c (f.emit f.a))) ∧
    (p = (f.tile.reg (opDst f.o)).toNat → f.tile.sramOk p 16 = true → Fires s 0x20 c t ix f → exec (.st c t ix) s =
      .next (s.setCl c (f.withTile ((f.tile.sramWrite p (natLe 16 f.a)).setReg (opDst f.o) (BitVec.ofNat 32 (p + 16)))).x)) ∧
    (Fires s 0x22 c t ix f → exec (.ldi c t ix) s =
      .next (s.setCl c (f.withTile (f.tile.setReg (opDst f.o) (BitVec.ofInt 32 (signedOf 24 (opImm f.o))))).x)) ∧
    (p = (f.tile.reg (opSrc f.o)).toNat → n = (if target < 4 then 512 else 16 * bookEntries (f.tile.sram.readLe p 16)) →
      f.tile.sramOk p 16 = true → f.tile.sramOk p n = true → Fires s 0x23 c t ix f → exec (.tblLd c t ix) s =
        .next (s.setCl c (f.withTile ((if target < 4 then f.tile.loadTable target p else f.tile.loadBook (target - 4) p).setReg
          (opSrc f.o) (BitVec.ofNat 32 (p + n)))).x)) ∧
    (∀ w : Bool, p = 16 * bitsOf (opImm f.o) 0 10 → n = bitsOf (opImm f.o) 16 8 → 0 < n → f.tile.sramOk p (64 * n) = true →
      Fires s (if w then 0x25 else 0x24) c t ix f → exec (if w then Instr.farWr c t ix else Instr.farRd c t ix) s =
        .next (s.setCl c (f.withTile { f.tile with farJobs := f.tile.farJobs ++
          [{ write := w, line := (f.tile.reg (opSrc f.o)).toNat, left := n, sram := p
             flagMode := bitsOf (opSel f.o) 6 2, flag := bitsOf (opSel f.o) 0 6 }] }).x))

/-- A ST, TBL_LD, FAR_RD or FAR_WR that issues with its inputs taken as the firing f, and whose access does not lie below the chest, raises the cluster event SRAM_RANGE with the tile and the address; nothing is written, loaded or requested. -/
def Obligations.AccessPastTheChestIsSramRange : Prop :=
  ∀ (s : State) (c : ClusterId) (t : TileId) (ix : OpIx) (f : Fire) (p : Nat),
    (p = (f.tile.reg (opDst f.o)).toNat → f.tile.sramOk p 16 = false → Fires s 0x20 c t ix f →
      exec (.st c t ix) s = .next (s.clusterEvent c { code := .sramRange, detail := p % 2 ^ 14 + f.t * 2 ^ 32 })) ∧
    (p = (f.tile.reg (opSrc f.o)).toNat → f.tile.sramOk p 16 = false → Fires s 0x23 c t ix f →
      exec (.tblLd c t ix) s = .next (s.clusterEvent c { code := .sramRange, detail := p % 2 ^ 14 + f.t * 2 ^ 32 })) ∧
    (p = 16 * bitsOf (opImm f.o) 0 10 → f.tile.sramOk p (64 * bitsOf (opImm f.o) 16 8) = false →
      (Fires s 0x24 c t ix f →
        exec (.farRd c t ix) s = .next (s.clusterEvent c { code := .sramRange, detail := p % 2 ^ 14 + f.t * 2 ^ 32 })) ∧
      (Fires s 0x25 c t ix f →
        exec (.farWr c t ix) s = .next (s.clusterEvent c { code := .sramRange, detail := p % 2 ^ 14 + f.t * 2 ^ 32 })))

/-- A synchronising operation that issues with its inputs taken as the firing f answers a next state in which only cluster c is changed. FLAG_INC adds IMM[15:0] to its flag where the sum is at most 65,535, and raises FLAG_OVERFLOW where it is not. WAIT_FLAG subtracts IMM[15:0] and sends the prior value as a scalar; the turn among the tiles that wait on the flag passes on. CNT_SET sets VALUE and LIMIT of its counter to IMM or to A's bits [23:0]. CNT_STEP wraps VALUE 0 or 1 to LIMIT and else counts down, and sends the token of IMM, none on a step where IMM[13] is set. TOKEN sends a generated, a relayed or a test token. -/
def Obligations.FlagsCountersAndTokens : Prop :=
  ∀ (s : State) (c : ClusterId) (t : TileId) (ix : OpIx) (f : Fire) (n k : Nat) (o : BitVec 64),
    n = bitsOf (opSel f.o) 0 6 → k = bitsOf (opSel f.o) 0 4 → o = ((s.cl c).tile t).op ix →
    (Fires s 0x26 c t ix f → exec (.flagInc c t ix) s = .next (
      if (f.x.flag n).toNat + bitsOf (opImm f.o) 0 16 ≤ 65535 then
        s.setCl c { f.x with flags := SMap.set 0 f.x.flags n (BitVec.ofNat 16 ((f.x.flag n).toNat + bitsOf (opImm f.o) 0 16)) }
      else s.clusterEvent c { code := .flagOverflow, detail := n + f.t * 2 ^ 32 })) ∧
    (Fires s 0x27 c t ix f → exec (.waitFlag c t ix) s = .next (s.setCl c
      ({ f with x := { f.x with flags := SMap.set 0 f.x.flags n (f.x.flag n - BitVec.ofNat 16 (bitsOf (opImm f.o) 0 16)), waitTurn := SMap.set none f.x.waitTurn n (some f.t) } }.emitScalar
        (f.x.flag n).toNat))) ∧
    (∀ v : BitVec 24, v = BitVec.ofNat 24 (if opSelA f.o = 0 then opImm f.o else f.a) → Fires s 0x28 c t ix f →
      exec (.cntSet c t ix) s = .next (s.setCl c
        { f.x with cntVal := SMap.set 0 f.x.cntVal k v, cntLim := SMap.set 0 f.x.cntLim k v })) ∧
    (∀ v : BitVec 24, v = f.x.cntV k → v.toNat ≤ 1 → Fires s 0x29 c t ix f → exec (.cntStep c t ix) s = .next (s.setCl c
      ({ f with x := { f.x with cntVal := SMap.set 0 f.x.cntVal k (f.x.cntL k) } }.emitToken
        (mkToken (bitsOf (opImm f.o) 14 5) (bitsOf (opImm f.o) 0 13))))) ∧
    (∀ v : BitVec 24, v = f.x.cntV k → 1 < v.toNat → Fires s 0x29 c t ix f → exec (.cntStep c t ix) s = .next (s.setCl c
      (if bitAt (opImm f.o) 13 then { f.x with cntVal := SMap.set 0 f.x.cntVal k (v - 1) }
      else { f with x := { f.x with cntVal := SMap.set 0 f.x.cntVal k (v - 1) } }.emitToken
        (mkToken (bitsOf (opImm f.o) 19 5) (bitsOf (opImm f.o) 0 13))))) ∧
    (tokenForm o = 0 → Fires s 0x2E c t ix f → exec (.tokenGenerate c t ix) s = .next (s.setCl c
      (f.emitToken (mkToken (bitsOf (opSel f.o) 3 5) (bitsOf (f.tile.reg (opSrc f.o)).toNat 0 24))))) ∧
    (tokenForm o = 1 → Fires s 0x2E c t ix f → exec (.tokenRelay c t ix) s = .next (s.setCl c
      (f.emitToken (mkToken (bitsOf f.a 27 5) (bitsOf f.a 0 24))))) ∧
    (tokenForm o = 2 → Fires s 0x2E c t ix f → exec (.tokenTest c t ix) s = .next (s.setCl c
      (f.emitToken (mkToken (if bitsOf f.a 0 32 ≠ 0 then bitsOf (opSel f.o) 3 5 else bitsOf (opImm f.o) 19 5)
        (bitsOf (opImm f.o) 0 16)))))

/-- A steering operation that issues under the step st of its head token, with no routing error, answers a next state in which only cluster c is changed: the head token gives up one count, the data queue loses its head where the step takes it, and where the step emits, that head goes to the directions of the step and, where the step says so, to the local queue of DST. -/
def Obligations.SteeringFollowsTheHeadToken : Prop :=
  ∀ (s : State) (c : ClusterId) (t : TileId) (ix : OpIx) (x : Cluster) (y z : Tile) (st : SteerStep),
    x = s.cl c → y = x.tile t → s.mayFire c t ix = true →
    steerStep (y.op ix) (y.tokenQ.headD 0) = some st → st.error = false →
    z = (if st.popData then (y.countFire ix).takeCount.pop st.queue else (y.countFire ix).takeCount) →
    exec (match opOpc (y.op ix) with
      | 0x2A => Instr.switchOp c t ix | 0x2B => Instr.mergeOp c t ix | 0x2C => Instr.repeatOp c t ix | _ => Instr.dropOp c t ix) s
    = .next (s.setCl c (if st.emit then
        (x.setTile t z).send t st.mask (if st.toDst then dstQueue (y.op ix) else none) ((y.queue st.queue).headD 0)
      else x.setTile t z))

/-- WATCHDOG_EXPIRY raises STALL_DEADLOCK in a working cluster that is not idle, can make no progress of itself and is not held by heat, with cause 0 for an exhausted chest, else 1 for a waited flag, else 3 in DRAIN, else 4; in any other cluster it changes nothing. SHEET_END of an active sheet whose clusters are all allocated, run with no configuration under way, hold no data and have no firings left, with no entry on its routes, requests the drain of its image. PARTIAL_PACK_EMIT of a quiescent image, or for handle 0 of the dandy, sends the partly filled packs of its clusters. TOKEN_OVERRUN of a draining cluster without packs or data, but for the dandy's decision entries, records and raises the overrun of its first token of COUNT above 0. CLUSTER_DRAINED takes an empty draining cluster to DRAINED and ends what waits for it; a cluster that is not empty or not draining stays. With no device halt, CLC_DRAIN drains the image of the cluster; without an image a cluster in RUN goes to DRAIN, one in CONFIG holds the request and any other stays. CLC_ABORT aborts the sheet and the cluster, and without an image the cluster. -/
def Obligations.SheetEndsAndDrains : Prop :=
  ∀ (s : State) (c : ClusterId) (h : BitVec 16) (x : Cluster) (im : Image), x = s.cl c → im = s.image h.toNat →
    (x.working = true → x.idle = false → s.canProgress c = false → s.watchHeld c = false →
      exec (.watchdogExpiry c) s = .next (s.stall c
        (if s.chestExhausted c then 0 else if x.waitedFlags ≠ [] then 1 else if x.st = .drain then 3 else 4))) ∧
    (x.working = false ∨ x.idle = true ∨ s.canProgress c = true ∨ s.watchHeld c = true → exec (.watchdogExpiry c) s = .next s) ∧
    (im.kind ≠ 1 → im.sheet.active = true → im.map.all Option.isSome = true → s.routesFree im = true →
      (∀ d ∈ im.clusters, (s.cl d).st = .run ∧ (s.cl d).cfg.started = false ∧ (s.cl d).dataFree = true ∧ (s.cl d).sourcesDone = true) →
      exec (.sheetEnd h) s = .next (s.requestDrain h.toNat)) ∧
    (s.quiescent h.toNat = true → exec (.partialPackEmit h) s = .next ((if h.toNat = 0 then [880] else im.clusters).foldl (fun s d =>
      s.setCl d ((s.cl d).tiles.foldl (fun z p => z.emitPacks p.1) (s.cl d))) s)) ∧
    (∀ t n : Nat, x.st = .drain → (s.drainView c).dataFree = true → x.tiles.any (fun p => p.2.holdsPack) = false →
      x.tiles.findSome? (fun p => p.2.liveToken.map fun k => (p.1, tokCount k)) = some (t, n) →
      exec (.tokenOverrun c) s = .next ((s.setCl c { x with regs := { x.regs with
          overrun := BitVec.ofNat 32 (2 ^ 31 + t % 8 * 2 ^ 28 + t / 8 * 2 ^ 25 + n % 2 ^ 24) } }).clusterEvent c
        { code := .tokenOverrun, detail := n + t * 2 ^ 32 })) ∧
    (((x.st = .drain ∨ x.st = .drained) ∧ x.empty = true →
      exec (.clusterDrained c) s = .next ((s.setCl c { x with st := .drained }).drainedCheck x.regs.handle.toNat)) ∧
    (¬ ((x.st = .drain ∨ x.st = .drained) ∧ x.empty = true) → exec (.clusterDrained c) s = .next s)) ∧
    (s.flt.halted = false → s.loaded x.regs.handle.toNat = true →
      exec (.clcDrain c) s = .next (s.requestDrain x.regs.handle.toNat) ∧
      exec (.clcAbort c) s = .next ((s.abortSheet x.regs.handle.toNat outAborted 0xA2 0).abortCluster c)) ∧
    (s.flt.halted = false → s.loaded x.regs.handle.toNat = false →
      (x.st = .run → exec (.clcDrain c) s = .next (s.setCl c { x with st := .drain })) ∧
      (x.st = .config → exec (.clcDrain c) s = .next (s.setCl c { x with drainHeld := true })) ∧
      (x.st ≠ .run → x.st ≠ .config → exec (.clcDrain c) s = .next s) ∧
      exec (.clcAbort c) s = .next (s.abortCluster c))

/-- CONFIG_FETCH with entries left, room in the queue of 64 and a correctable line puts the line's entries, at most four, behind the configuration queue; the line is read in class FAR, except that of the dandy's program store. CONFIG_ENTRY_DELIVERY of the deliverable entry at the head of the queue: the first of a stream first copies the cluster to the replay store and takes it to CONFIG, where it holds a drain that its image has been asked for; inside a tile group the entry joins the payload, and the entry that completes it lets the tile take its group; else KIND 2 sets the initial value of a flag, KIND 3 the values of a loop counter, KIND 4 begins a tile group, or applies one without payload, KIND 5 ends the stream, and the header kinds change nothing more; then the pipelines that start are checked. SHEET_RESTORE of an IDLE or DRAINED cluster with every line correctable copies the cluster to the replay store, restores flags, counters, registers and tokens, and the cluster runs, or drains where its image's drain has been asked for. -/
def Obligations.ConfigurationDelivery : Prop :=
  ∀ (s : State) (c : ClusterId) (x : Cluster), x = s.cl c →
    (∀ n : Nat, n = min 4 x.cfg.entriesLeft → x.cfg.fetching = true → 0 < x.cfg.entriesLeft → x.cfg.queue.length + n ≤ 64 →
      s.flt.halted = false → s.configBad c x.cfg.line = false →
      exec (.configFetch c) s = .next ((if c.val = 880 then s else s.asks classFar false (64 * x.cfg.line) 64).setCl c { x with cfg := { x.cfg with
        queue := x.cfg.queue ++ (List.range n).map fun k =>
          BitVec.ofNat 128 (leNat (((s.configBytes c x.cfg.line 64).drop (16 * k)).take 16))
        line := x.cfg.line + 1, linesLeft := x.cfg.linesLeft - 1, entriesLeft := x.cfg.entriesLeft - n } })) ∧
    (∀ (e : Entry) (rest : List Entry) (u : State) (x1 : Cluster), x.cfg.queue = e :: rest → x.canDeliver = true → s.clocked c = true →
      u = (if x.cfg.started then s else s.snapshot c) →
      x1 = { u.cl c with st := if (u.cl c).cfg.started then (u.cl c).st else .config
                         drainHeld := (u.cl c).drainHeld || (!(u.cl c).cfg.started && s.drainAsked c)
                         cfg := { (u.cl c).cfg with queue := rest, started := true } } →
      exec (.configEntryDelivery c) s = .next ((u.setCl c
        (if x1.cfg.asm.active then
          if x1.cfg.asm.payload.length + 1 = headPayload x1.cfg.asm.head then x1.applyGroup x1.cfg.asm.head (x1.cfg.asm.payload ++ [e])
          else { x1 with cfg := { x1.cfg with asm := { x1.cfg.asm with payload := x1.cfg.asm.payload ++ [e] } } }
        else if entryKind e = 2 then
          { x1 with cfg := { x1.cfg with flags := SMap.set 0 x1.cfg.flags (bitsOf e.toNat 118 6) (BitVec.ofNat 16 (bitsOf e.toNat 0 16)) } }
        else if entryKind e = 3 then
          { x1 with cfg := { x1.cfg with cnts := SMap.set 0 x1.cfg.cnts (bitsOf e.toNat 120 4) (BitVec.ofNat 48 (bitsOf e.toNat 0 48)) } }
        else if entryKind e = 4 then
          if headPayload e = 0 then x1.applyGroup e [] else { x1 with cfg := { x1.cfg with asm := { active := true, head := e } } }
        else if entryKind e = 5 then x1.endStream else x1)).checkWarm (u.cl c).regs.handle.toNat)) ∧
    (∀ (es : List Entry) (u : State) (z : Cluster), x.cfg.restore = true → (x.st = .idle ∨ x.st = .drained) → s.clocked c = true →
      (∀ k < ceilDiv x.cfg.entriesLeft 4, s.configBad c (x.cfg.line + k) = false) →
      es = (List.range x.cfg.entriesLeft).map (fun k => BitVec.ofNat 128
        (leNat (((s.configBytes c x.cfg.line (16 * x.cfg.entriesLeft)).drop (16 * k)).take 16))) →
      u = (if c.val = 880 then s.snapshot c else (s.snapshot c).asks classFar false (64 * x.cfg.line) (16 * x.cfg.entriesLeft)) →
      z = (({ (s.snapshot c).cl c with cfg := { x.cfg with flags := [], cnts := [] } } : Cluster).restoreFrom x.cfg.entriesLeft es).initials →
      exec (.sheetRestore c) s = .next ((u.setCl c { z with
        st := if s.drainAsked c then .drain else .run, drainHeld := false, cfg := { gen := x.regs.gen } }).checkWarm x.regs.handle.toNat))

/-- A wire to replace, y being its direction once the waiting replacements have taken effect: one of a group that y has retired, or one that y's group has replaced, asks for nothing; the first of its group waits for the next frame boundary to be replaced by the group's spare wire, or, being the spare wire itself (log entry 98), only takes the spare out; a later one, while y has fewer than two retired groups, waits for its group to be retired there, its role moving to a reserve group; a bucket crossing is recorded with class 0, of KIND 2 or 3, a sudden failure is not; beyond two a sudden failure is fatal and a bucket crossing reports that spares are low. BRIDGE_WIRE_FAILURE replaces its wire as a sudden failure. FLIT_RETRANSMIT counts one more retransmit; a located wire's bucket takes one error and a crossing replaces the wire. BRIDGE_SUBSTITUTION at a frame boundary makes the waiting replacements in order, none before it, and notes each repair; elsewhere it changes nothing. PLL_LOCK_LOSS of a die whose spare PLL is in use, or is being switched to, fences every cluster of the die with cause 6; else the die stops and the pipelines that its trigger clusters serve halt with cause 1; a die without a PLL loses nothing more. PLL_SWITCH_COMPLETE of such a stopped die puts its spare PLL into use, and the active sheets with a cluster on it are interrupted and recovered. MC_PLL_LOSS withdraws the quarter of its edge die, unless it is withdrawn, and takes the die's lane groups from ACTIVE to DETECT. -/
def Obligations.BridgesAndPlls : Prop :=
  ∀ s : State,
    (∀ (b : Fin 40) (d : Fin 2) (g : Fin 96) (w : Fin 17) (k : Nat) (x : BridgeDir) (sudden : Bool) (y : BridgeDir), k = 2 * b + d → x = s.bridge k →
      y = x.planned k →
      (y.retired.contains g.val = true ∨ SMap.get none y.wires g = some w.val → s.replaceWire b d g w sudden = s) ∧
      (y.retired.contains g.val = false → SMap.get none y.wires g = none → s.replaceWire b d g w sudden =
        if w.val = 16 then s.setBridge k { x with wires := SMap.set none x.wires g (some 16) }
        else if sudden then s.setBridge k { x with waiting := x.waiting ++ [(2, g.val, w.val)] }
        else (s.setBridge k { x with waiting := x.waiting ++ [(2, g.val, w.val)] }).faultRecord
          { kind := 2, cls := 0, action := 2, loc := wireLoc b d g w, spare := wireLoc b d g 16 }) ∧
      (∀ v : Nat, y.retired.contains g.val = false → SMap.get none y.wires g = some v → v ≠ w.val →
        (y.retired.length < 2 → s.replaceWire b d g w sudden =
          if sudden then s.setBridge k { x with waiting := x.waiting ++ [(3, g.val, 0)] }
          else (s.setBridge k { x with waiting := x.waiting ++ [(3, g.val, 0)] }).faultRecord
            { kind := 3, cls := 0, action := 2, loc := wireLoc b d g 0
              spare := match (y.retire k g).2 with
                | some j => wireLoc b d j 0
                | none => 0xFFFFFFFF }) ∧
        (2 ≤ y.retired.length → s.replaceWire b d g w sudden =
          if sudden then s.deviceFatal 1 3 (wireLoc b d g 0) else s.spareLow 1 ((k * 96 + g) * 17 + w) 0 (wireLoc b d g w))) ∧
      exec (.bridgeWireFailure b d g w) s = .next (s.replaceWire b d g w true) ∧
      (∀ u : State, u = s.setBridge k { x with retransmits := x.retransmits + 1 } →
        exec (.flitRetransmit b d g none) s = .next u ∧
        exec (.flitRetransmit b d g (some w)) s = .next
          (if (u.addBucket 1 ((k * 96 + g) * 17 + w) 1).2 then (u.addBucket 1 ((k * 96 + g) * 17 + w) 1).1.replaceWire b d g w false
          else (u.addBucket 1 ((k * 96 + g) * 17 + w) 1).1)) ∧
      (s.frameBoundary = true → exec (.bridgeSubstitution b d) s = .next (x.waiting.foldl
        (fun s r => s.noteRepair r.1 (wireLoc b d r.2.1 r.2.2)) (s.setBridge k { x.waiting.foldl (fun z r => z.replace k r) x with waiting := [] }))) ∧
      (s.frameBoundary = false → exec (.bridgeSubstitution b d) s = .next s)) ∧
    (∀ k : Fin 20,
      ((s.die k).pllLost = true → (s.die k).spareInUse = true → exec (.pllLockLoss k) s = .next s) ∧
      ((s.die k).pllLost ≠ (s.die k).spareInUse → exec (.pllLockLoss k) s = .next
        ((((s.setDie k { pllLost := true, spareInUse := true }).faultRecord
          { kind := 7, cls := 1, action := 1, loc := pllLoc k true }).noteRepair 7 (pllLoc k true)).fenceAll (dieClusters k) 6 0)) ∧
      (∀ (u : State) (ps : List Nat), (s.die k).pllLost = false → (s.die k).spareInUse = false →
        u = ((s.setDie k { pllLost := true }).faultRecord
          { kind := 7, cls := 1, action := 2, loc := pllLoc k false, spare := pllLoc k true }).noteRepair 7 (pllLoc k false) →
        ps = ((u.imagesOn k).filter fun h => (u.image h).kind == 1).flatMap (fun h =>
          ((u.image h).clusters.filter fun c => c / 44 == k.val).flatMap (u.pipesServed h)) →
        exec (.pllLockLoss k) s = .next (ps.eraseDups.foldl (fun s p => s.haltPipe p 1) u)) ∧
      (∀ (u : State) (hs : List Nat), (s.die k).pllLost = true → (s.die k).spareInUse = false →
        u = s.setDie k { pllLost := false, spareInUse := true } →
        hs = (u.imagesOn k).filter (fun h => (u.image h).kind != 1 && (u.image h).sheet.active) →
        exec (.pllSwitchComplete k) s = .next (hs.foldl State.recover (hs.foldl State.interruptSheet u)))) ∧
    (∀ e : Fin 4, exec (.mcPllLoss e) s = .next
      ((if (s.quarter e).withdrawn then [4 * e.val, 4 * e + 1, 4 * e + 2, 4 * e + 3, 16 + 2 * e, 17 + 2 * e].foldl (fun s g =>
          if (s.group g).st = .active then s.moveGroup g 3 { s.group g with st := .detect } else s) s
        else [4 * e.val, 4 * e + 1, 4 * e + 2, 4 * e + 3, 16 + 2 * e, 17 + 2 * e].foldl (fun s g =>
          if (s.group g).st = .active then s.moveGroup g 3 { s.group g with st := .detect } else s)
            ((s.withdraw e 8 (BitVec.ofNat 32 e)).noteRepair 8 (BitVec.ofNat 32 e)))))

/-- Of any class and line: GDDR6_BURST first lets far requests of its channel into their crossing; for a ready request in a slot of the class that reaches the line, its half due and, in a write slot, the class ready to write the group, the low half passes and is noted, and the high half ends the line: a read corrects one erroneous byte or marks the line uncorrectable, the request is served, and the work that read the line is told of an uncorrectable one; a write leaves the other classes without the group's ECC line, the request is served, and the ECC line waits to be written, which a later write burst of the class does. Otherwise the slot stays unused. ECC_LINE_FETCH in a read slot of a class that waits for the ECC line: the low half is noted, the high half checks the line, which becomes the newest of the class's 16 ECC lines where it is not uncorrectable; otherwise nothing changes. EDC_RETRY of a due burst of a request, of an ECC line's read or write, or of the patrol or a copy, with fewer than four failed repeats, counts one more for the burst and an error for its channel and device; after four the line is taken as uncorrectable: a request is served so and its work told, an ECC line is marked so, the patrol goes on with the next line. GDDR6_REFRESH in a refresh slot of running devices refreshes one quad of the channel. PATROL_READ in a COPY slot with no copy running reads the channel's next 32 bytes and advances; the second burst of a line completes its codeword, ECC lines included. -/
def Obligations.Gddr6BurstsAndLines : Prop :=
  ∀ (s : State) (slot : Fin 1024),
    (∀ (cls : Fin 16) (line : Nat) (high : Bool) (errs : Fin 4) (w : Bool) (u : State), w = s.slotWrites slot →
      u = (if cls.val = classFar then s.sendFar (lineQuarter line) (lineChannel line) (crossDepth classFar) else s) →
      (u.ready cls w line = none ∨ u.slotServes slot cls line = false → exec (.gddr6Burst slot cls ⟨line, high⟩ errs) s = .next u) ∧
      (∀ (t : Target) (b : Beat) (v : State), u.ready cls w line = some t → u.slotServes slot cls line = true →
        b = (if t = .ecc then burstOf (16 + cls) w (groupStart line) high else burstOf cls w line high) → v = (u.clearRepeats b).noteHalf b →
        (u.halfDue b = false ∨ (w = true ∧ t ≠ .ecc ∧ u.eccReady cls line = false) →
          exec (.gddr6Burst slot cls ⟨line, high⟩ errs) s = .next u) ∧
        (u.halfDue b = true → (w = true → t = .ecc ∨ u.eccReady cls line = true) →
          exec (.gddr6Burst slot cls ⟨line, high⟩ errs) s = .next (
            if high = false then v
            else if t = .ecc then v.oweEcc cls line false
            else if w = false then ((v.lineRead line errs).serve t cls false line).tellRead t cls line (v.lineBad line || decide (errs.val < 2))
            else (((v.eccWrite cls line).serve t cls true line).noteWhole cls line (v.inWhole cls line || v.wholeGroup cls line)).oweEcc
              cls line true)))) ∧
    (∀ (cls : Fin 16) (line : Nat) (high : Bool) (errs : Fin 4) (b : Beat), b = burstOf (16 + cls) false (groupStart line) high →
      (s.slotServes slot cls line = true → s.slotWrites slot = false → s.eccWanted cls line = true → s.halfDue b = true →
        ∀ (u v : State) (q : Quarter) (l : List Nat), u = (s.clearRepeats b).noteHalf b →
          v = u.codeword (lineQuarter line) (lineChannel line) errs → q = v.quarter (lineQuarter line) →
          l = (SMap.get [] q.eccBuf (eccKey (lineChannel line) cls)).filter (· != lineH line) ++ [lineH line] →
          exec (.eccLineFetch slot cls ⟨line, high, errs⟩) s = .next (if high = false then u else if 2 ≤ errs.val then v
            else v.setQuarter (lineQuarter line) { q with
              eccBuf := SMap.set [] q.eccBuf (eccKey (lineChannel line) cls) (l.drop (l.length - 16)) })) ∧
      (s.slotServes slot cls line = false ∨ s.slotWrites slot = true ∨ s.eccWanted cls line = false ∨ s.halfDue b = false →
        exec (.eccLineFetch slot cls ⟨line, high, errs⟩) s = .next s)) ∧
    (∀ (cls : Fin 16) (line : Nat) (high w : Bool) (b : Beat) (t : Option Target) (q : Quarter), w = s.slotWrites slot →
      s.burstAt cls w line high = some (b, t) → s.slotServes slot cls line = true → (cls.val = 9 ∨ s.halfDue b = true) →
      q = s.quarter (lineQuarter line) →
      (q.repeats.count b < 4 → ∀ p : Nat, q.physical (lineChannel line) = some p →
        exec (.edcRetry slot cls ⟨line, high⟩) s = .next
          (((s.setQuarter (lineQuarter line) { q with repeats := q.repeats ++ [b] }).chanErr (lineQuarter line) p
            fun x => { x with retry := satBump x.retry 1 }).deviceError (lineQuarter line) (p / 2) 1)) ∧
      (4 ≤ q.repeats.count b → ∀ u : State, u = (if b.high then (s.clearRepeats b).noteHalf b else s.clearRepeats b) →
        (∀ r : Target, t = some r → r ≠ .ecc → exec (.edcRetry slot cls ⟨line, high⟩) s = .next
          (((u.lineRead line 2).serveBad r cls line).tellRead r cls line (w || s.lineBad line))) ∧
        (t = some .ecc → exec (.edcRetry slot cls ⟨line, high⟩) s = .next
          ((u.codeword (lineQuarter line) (lineChannel line) 2).oweEcc cls line false)) ∧
        (t = none → cls.val ≠ 9 → exec (.edcRetry slot cls ⟨line, high⟩) s = .next (u.codeword (lineQuarter line) (lineChannel line) 2)) ∧
        (∀ a : Nat, a = SMap.get 0 q.patrol (lineChannel line) → t = none → cls.val = 9 → exec (.edcRetry slot cls ⟨line, high⟩) s = .next (
          if q.patrols then ((s.clearRepeats b).checkLine (lineQuarter line) (lineChannel line) a 2).patrolTo (lineQuarter line)
            (lineChannel line) (a - a % 64 + 64)
          else (s.clearRepeats b).lineRead line 2)))) ∧
    (∀ (e : Fin 4) (ch : Fin 24), s.slotClass slot = 2 → s.gddrRuns = true →
      exec (.gddr6Refresh e ch slot) s = .next (s.setQuarter e { s.quarter e with
        refreshed := SMap.modify 0 (s.quarter e).refreshed (4 * ch + slot / 16 % 4) (· + 1) })) ∧
    (∀ (e : Fin 4) (ch : Fin 22) (errs : Fin 4) (a : Nat) (v u : State), a = SMap.get 0 (s.quarter e).patrol ch →
      (s.quarter e).copy.active = false ∨ (s.quarter e).copy.init = true → (s.quarter e).withdrawn = false →
      ((s.quarter e).physical ch).isSome = true → s.copySlot slot (a / 1024) = true →
      v = s.clearRepeats (copyBurst e ch a) →
      u = v.setQuarter e { v.quarter e with
        patrol := SMap.set 0 (v.quarter e).patrol ch (if a + 32 = 1024 * channelGroups then 0 else a + 32) } →
      exec (.patrolRead e ch slot errs) s = .next
        (if a % 64 = 0 then u else if a % 1024 / 64 = 15 then u.codeword e ch errs
        else u.lineRead (lineAt e ch (a / 1024) (a % 1024 / 64)) errs))

/-- At a frame boundary with no copy running, a wanted copy of position m starts to the spare position d: m becomes the copy's source and d its destination; without a spare the spares are low. A group of a copy in a COPY slot that reaches it advances its channel's pointer, its failed repeats are forgotten, and each of its 16 lines is checked with the erroneous bytes it has. A copy of all groups ends at a frame boundary in the switch: the destination serves the source's logical device, the source is retired and the repair noted. A lost position that was not LOST before is LOST, any copy ending with its source in service, and the repair is noted: at a SPARE or RETIRED position, or in a withdrawn quarter, a fault with no range lost is recorded; the destination of an initialisation withdraws the quarter; a position that serves loses its logical device: the spare is initialised for it, its lines zero, and its ranges are lost, or the quarter is withdrawn. A completed initialisation of a quarter not withdrawn gives, at a frame boundary, the lost logical device to the spare and renews the quarter's contexts. -/
def Obligations.Gddr6DevicesCopyAndFail : Prop :=
  ∀ (s : State) (e : Fin 4) (q : Quarter), q = s.quarter e →
    (∀ (m : Fin 12) (q1 : Quarter), q.wanted.contains m.val = true → q.copy.active = false → s.frameBoundary = true →
      q1 = { q with wanted := q.wanted.filter (· != m.val) } →
      (∀ d : Nat, q.spare = some d → exec (.deviceCopyStart e m) s = .next (s.setQuarter e
        { (q1.setDev m { q1.dev m with st := .copySrc }).setDev d { st := .copyDst } with
          copy := { active := true, src := BitVec.ofNat 4 m, dst := BitVec.ofNat 4 d } })) ∧
      (q.spare = none → exec (.deviceCopyStart e m) s = .next ((s.setQuarter e q1).spareLow 3 (12 * e + m) 0 (deviceLoc e m)))) ∧
    (∀ (b : Fin 2) (group : GroupRead) (p ch : Nat) (u : State), p = (if b.val = 0 then q.copy.ptrA else q.copy.ptrB) →
      ch = 2 * (q.dev q.copy.src.toNat).logical + b → q.copy.active = true →
      q.copy.init = false → p < channelGroups → s.copySlot group.slot p = true →
      u = s.setQuarter e { q with
        copy := if b.val = 0 then { q.copy with ptrA := p + 1 } else { q.copy with ptrB := p + 1 }
        repeats := q.repeats.filter fun r => !((r.cls == 9 || r.cls == 25) && r.line / 15 == lineAt e ch p 0 / 15) } →
      exec (.deviceCopyGroup e b group) s = .next ((List.range 16).foldl (fun v i =>
        v.checkLine e ch (1024 * p + 64 * i) (match group.errs.find? (fun x => x.1.val == i) with
          | some x => x.2.val
          | none => 0)) u)) ∧
    (q.copy.active = true → q.copy.init = false → q.copy.ptrA = channelGroups → q.copy.ptrB = channelGroups → s.frameBoundary = true →
      exec (.deviceSwitch e) s = .next ((s.setQuarter e
        { (q.setDev q.copy.dst.toNat { st := .inService, logical := (q.dev q.copy.src.toNat).logical }).setDev q.copy.src.toNat
            { st := .retired } with copy := { q.copy with active := false } }).noteRepair 5 (deviceLoc e q.copy.src.toNat))) ∧
    (∀ (m : Fin 12) (q1 : Quarter) (d : DevPos) (u : State), q1 = q.endCopy → d = q1.dev m →
      u = (s.setQuarter e { q1.setDev m { st := .lost } with wanted := q1.wanted.filter (· != m.val) }).noteRepair 5 (deviceLoc e m) →
      (d.st = .lost → exec (.deviceLost e m) s = .next s) ∧
      (d.st = .spare ∨ d.st = .retired ∨ (d.st ≠ .lost ∧ q1.withdrawn = true) → exec (.deviceLost e m) s =
        .next (u.faultRecord { kind := 5, cls := 1, action := 0, loc := deviceLoc e m })) ∧
      (q1.withdrawn = false → d.st = .copyDst → exec (.deviceLost e m) s = .next (u.withdraw e 5 (deviceLoc e m))) ∧
      (q1.withdrawn = false → (d.st = .inService ∨ d.st = .copySrc) →
        ((u.quarter e).spare = none → exec (.deviceLost e m) s = .next (u.withdraw e 5 (deviceLoc e m))) ∧
        (∀ r : Nat, (u.quarter e).spare = some r → exec (.deviceLost e m) s =
          .next ((((u.setQuarter e { (u.quarter e).setDev r { st := .copyDst } with
            copy := { active := true, init := true, src := BitVec.ofNat 4 m, dst := BitVec.ofNat 4 r, logical := d.logical } }).blankDevice e
              d.logical).faultRecord { kind := 5, cls := 1, action := 2, loc := deviceLoc e m, spare := deviceLoc e r }).loseRanges 5
                (deviceLoc e m).toNat (onDevice e d.logical))))) ∧
    (q.copy.active = true → q.copy.init = true → q.withdrawn = false → s.frameBoundary = true →
      exec (.spareInitComplete e) s = .next ((s.setQuarter e
        { q.setDev q.copy.dst.toNat { st := .inService, logical := q.copy.logical } with copy := { q.copy with active := false } }).renewContexts e))

/-- BUCKET_LEAK lowers by 1 every level of its bucket kind and drops what reaches 0. CLUSTER_FENCE with a cause other than 0 fences the cluster; cause 0 changes nothing. SPARE_BIST_COMPLETE of a spare in BIST: one that passes enters service, IDLE, or OFF in Trim, with a fault record that names the cluster it replaces, that cluster's image and its FAULT.CAUSE; one that fails is taken out, its repair noted and the next spare called; then the image that a fenced cluster left recovers. FUSE_BURN burns the oldest unburned repair into one of 512 entries, and with none free drops it and marks the fuses full. CLUSTER_MOVE of a requested move whose spare is not in BIST: a cluster that no image owns any more is fenced, else at an idle point the virtual cluster moves, and before it nothing changes. CORRECTED_SRAM_ERROR adds one to the cluster's bucket, and a crossing requests its move. CHECKPOINT of a role whose core is active counts. CORE_WATCHDOG of an active core hands over its roles with cause 2; SERVICE_CORE_ERROR that is corrected adds one to the core's bucket, whose crossing on an active core hands over its roles with cause 3, or without a spare core reports that spares are low; one that is not hands over with cause 1, and fences a spare core. -/
def Obligations.FaultsSparesAndCores : Prop :=
  ∀ s : State,
    (∀ (k : Fin 5) (fall : Nat × BitVec 16 → Option (Nat × BitVec 16)),
      fall = (fun p => if p.1 / 2 ^ 18 ≠ k.val then some p else if p.2.toNat ≤ 1 then none else some (p.1, p.2 - 1)) →
      exec (.bucketLeak k) s = .next { s with flt := { s.flt with buckets := s.flt.buckets.filterMap fall } }) ∧
    (∀ (c : ClusterId) (cause : Fin 9) (t : TileId), exec (.clusterFence c cause t) s = .next (if cause.val = 0 then s else s.fence c cause t)) ∧
    (∀ (c : ClusterId) (b : Bist) (h : BitVec 16) (tile : Nat) (heal : State → State), s.svc.bist.find? (fun b => b.spare == c.val) = some b →
      heal = (fun u => match b.owner with
        | none => u
        | some o => if b.move then u else u.recover o.1.toNat) →
      h = (match b.owner with
        | none => 0
        | some o => o.1) →
      tile = (match (s.image h.toNat).lost.find? (fun p => p.1 == b.failed) with
        | none => 0
        | some p => p.2) →
      (∀ u : State, u = { s with svc := { s.svc with bist := s.svc.bist.filter fun x => x.spare != c.val } } →
        exec (.spareBistComplete c true) s = .next (heal (((u.setService c .inService).setCl c
          { u.cl c with st := if s.pwr.st = .trim then .off else .idle }).faultRecord
            { kind := 1, cls := if b.move then 0 else 1, action := 2, handle := h, loc := clusterLoc b.failed
              spare := clusterLoc c, detail := BitVec.ofNat 32 ((s.cl b.failed).regs.faultCause.toNat + 2 ^ 4 * tile)
              ring := BitVec.ofNat 16 (s.imageRing h.toNat) }))) ∧
      exec (.spareBistComplete c false) s = .next (heal ((((s.takeOut c 7).faultRecord
        { kind := 1, cls := 1, action := 1, loc := clusterLoc c, detail := 7 }).noteRepair 1 (clusterLoc c)).dropBist c))) ∧
    (∀ (r : BitVec 8 × BitVec 32) (rest : List (BitVec 8 × BitVec 32)), s.flt.unburned = r :: rest →
      (s.flt.fuses < 512 → exec .fuseBurn s = .next { s with flt := { s.flt with
        unburned := rest, repairs := s.flt.repairs ++ [r], fuses := s.flt.fuses + 1
        fuseFull := s.flt.fuseFull || decide (512 ≤ s.flt.fuses + 1) } }) ∧
      (512 ≤ s.flt.fuses → exec .fuseBurn s = .next { s with flt := { s.flt with unburned := rest, fuseFull := true } })) ∧
    (∀ c : ClusterId, s.svc.moves.contains c.val = true → s.svc.bist.any (fun b => b.failed == c.val) = false →
      (s.loaded (s.cl c).regs.handle.toNat = false → exec (.clusterMove c) s =
        .next (({ s with svc := { s.svc with moves := s.svc.moves.filter (· != c.val) } } : State).fenceUnowned c 0xFFFFFFFF)) ∧
      (s.loaded (s.cl c).regs.handle.toNat = true → exec (.clusterMove c) s = .next
        (if s.moveReady (s.cl c).regs.handle.toNat c then s.moveCluster (s.cl c).regs.handle.toNat c else s))) ∧
    (∀ c : ClusterId, exec (.correctedSramError c) s = .next
      (if (s.addBucket 0 c 1).2 then (s.addBucket 0 c 1).1.requestMove c else (s.addBucket 0 c 1).1)) ∧
    (∀ r : Fin 2, s.core (s.roleCore r) = .active →
      exec (.checkpoint r) s = .next { s with svc := { s.svc with checkpoints := SMap.modify 0 s.svc.checkpoints r (· + 1) } }) ∧
    (∀ k : Fin 3,
      (s.core k = .active → exec (.coreWatchdog k) s = .next (s.takeOver k 2) ∧ exec (.serviceCoreError k false) s = .next (s.takeOver k 1)) ∧
      (s.core k = .spare → exec (.serviceCoreError k false) s = .next
        (((s.setCore k .fenced).faultRecord { kind := 9, cls := 1, action := 1, loc := coreLoc k }).noteRepair 9 (coreLoc k))) ∧
      (∀ u : State, u = (s.addBucket 4 k 1).1 → exec (.serviceCoreError k true) s = .next
        (if (s.addBucket 4 k 1).2 = true ∧ u.core k = .active then
          if u.spareCore then u.takeOver k 3 else u.spareLow 4 k 0 (coreLoc k)
        else u)))

/-- With no device halt, LNP_ENABLE of a Xomos port changes nothing while the Xomos fabric is not enabled; else of a group in OFF it clears its attempts and its lanes' counters and starts its training at DETECT, and in another state sets ENABLE; LNP_DISABLE takes a group to OFF with its spare free, a stock group's partner gone; LNP_RETRAIN takes FAIL or ACTIVE to DETECT; LNP_EIDLE_EXIT ends the request, and an idle transmitter sends 128 slots of BURST and begins a new frame; LNP_EIDLE_ENTER notes the request, and in ACTIVE or EIDLE of a group with a spare idles the transmitter, or holds that behind an outstanding SPARE request. LOS_ASSERT of a lane with a signal records and counts it, and takes an ACTIVE group down to DETECT for a lane in use or the clock lane, an idle one for the clock lane. LOS_DEASSERT clears it, and DETECT may end. CHARACTER_LOCK of a lane at base rate with a signal locks it, and BASE_ACQ ends with the last lane in use. CHARACTER_LOCK_LOSS counts the errors, in the lane's bucket too, and the messages heard in a row of a join begin again; 8 or more lose a lock, which takes ACTIVE to DETECT for a lane in use. BASE_ACQ_TIMEOUT ends BASE_ACQ with the spare in place of the one lane without lock, or raises ATTEMPTS and returns to DETECT. -/
def Obligations.LanesAtBaseRate : Prop :=
  ∀ (s : State) (g : Fin 26) (x : LnpGroup), x = s.group g →
    (s.flt.halted = false →
      (16 ≤ g.val → g.val < 24 → s.xms.regs.enable = false → exec (.lnpEnable g) s = .next s) ∧
      (¬ (16 ≤ g.val ∧ g.val < 24 ∧ s.xms.regs.enable = false) → x.st = .off → exec (.lnpEnable g) s = .next (s.toDetect g { x with
        enable := true, attempts := 0
        lanes := x.lanes.map fun p => (p.1, { p.2 with hdrErr := 0, codeErr := 0, losEvt := 0, lolEvt := 0, stuffLate := 0, stuffErr := 0 }) })) ∧
      (¬ (16 ≤ g.val ∧ g.val < 24 ∧ s.xms.regs.enable = false) → x.st ≠ .off → exec (.lnpEnable g) s = .next (s.setGroup g { x with enable := true })) ∧
      (∀ u : State,
        u = s.moveGroup g 3 { x.unlock .off with enable := false, spareUsed := false, spareFor := 0, failed := 0, joined := false } →
        exec (.lnpDisable g) s = .next (if g.val < 16 then u.setPartner g { u.partner g with present := false } else u)) ∧
      ((x.st = .fail ∨ x.st = .active) → exec (.lnpRetrain g) s = .next (s.toDetect g x)) ∧
      (g.val < 24 → (x.st = .active ∨ x.st = .eidle) → exec (.lnpEidleEnter g) s = .next (s.setGroup g
        (if x.spareOutstanding then { x with eidleReq := true, idleHeld := true } else { x with eidleReq := true, txIdle := true }))) ∧
      (24 ≤ g.val ∨ (x.st ≠ .active ∧ x.st ≠ .eidle) → exec (.lnpEidleEnter g) s = .next (s.setGroup g { x with eidleReq := true })) ∧
      exec (.lnpEidleExit g) s = .next (s.setGroup g (if x.txIdle then
        { x with eidleReq := false, idleHeld := false, txIdle := false, txBits := 0, txBurst := 128 }
        else { x with eidleReq := false, idleHeld := false }))) ∧
    (∀ (l : Fin 18) (y : Lane), y = x.lane l → l.val < groupLanes g →
      (∀ x1 : LnpGroup, y.los = false → x1 = x.setLane l { y with los := true, losEvt := satBump y.losEvt 1 } →
        exec (.losAssert g l) s = .next
          (if x.st = .active ∧ (l.val ∈ x.inUse g ∨ (g.val < 24 ∧ l.val = clockOf g)) ∨ x.st = .eidle ∧ g.val < 24 ∧ l.val = clockOf g then
            (s.setGroup g x1).toDetect g x1
          else s.setGroup g x1)) ∧
      exec (.losDeassert g l) s = .next (if x.st = .detect then s.trainTo g ((x.setLane l { y with los := false }).detect g)
        else s.setGroup g (x.setLane l { y with los := false })) ∧
      (∀ x1 : LnpGroup, y.los = false → x.st ≠ .off → x.rate = 0 → (24 ≤ g.val ∨ l.val ≠ clockOf g) → x1 = x.setLane l { y with lock := true } →
        exec (.characterLock g l) s = .next
          (if x.st = .baseAcq ∧ (∀ k ∈ x1.inUse g, (x1.lane k).lock = true) then
            s.trainTo g { x1 with st := if g.val < 24 then .baseLink else .active, peer := {} }
          else s.setGroup g x1)) ∧
      (∀ (errs : Fin 65) (y1 : Lane), x.st ≠ .off → x.rate = 0 → y1 = { y with codeErr := satBump y.codeErr errs } →
        (y.lock = true → 8 ≤ errs.val → ∀ u : State,
          u = ((s.unheard g).setGroup g (x.setLane l { y1 with lock := false, lolEvt := satBump y.lolEvt 1 })).laneErrors g l errs →
          exec (.characterLockLoss g l errs) s = .next (if x.st = .active ∧ l.val ∈ x.inUse g then u.toDetect g (u.group g) else u)) ∧
        (y.lock = false ∨ errs.val < 8 → exec (.characterLockLoss g l errs) s =
          .next (((s.unheard g).setGroup g (x.setLane l y1)).laneErrors g l errs)))) ∧
    (x.st = .baseAcq →
      (∀ y : LnpGroup, x.repair g (·.lock) = some y → exec (.baseAcqTimeout g) s = .next
        (s.trainTo g { y with st := if g.val < 24 then .baseLink else .active, peer := {} })) ∧
      (x.repair g (·.lock) = none → exec (.baseAcqTimeout g) s = .next (s.trainTo g
        (LnpGroup.detect { x.unlock .detect with attempts := satBump x.attempts 1 } g))))

/-- In BASE_LINK of a group with CAPS they record what the peer says and the lane it copies; a group that has joined, or needs no join, then offers the highest rate left to both or, without one, goes to FAIL. In NEGOTIATE an OFFER of a rate not above the own one is taken and leads to STEP; another is not. In STEP the STEP copy of countdown 0 at the offered rate, or the rate switch timeout, takes the receiver to BLOCK_HUNT at the offered rate; other copies do not. An OFFER or a STEP that is not taken, a lock loss, and an ALIGN that is discarded only make the messages heard in a row of a join begin again. A training timeout in STEP, BLOCK_HUNT or EQ falls back to base rate with the rate failed. A lane that hunts locks after the first 64 valid headers in a row, its next block to be discarded, and has failed after 98 invalid ones without lock. A locked lane counts its headers and loses lock where 16 of 64 are invalid, which takes ACTIVE to DETECT for a lane in use; the invalid ones count for its bucket. ALIGN of a locked lane is discarded as the first block after lock; else it records the frame and in BLOCK_HUNT the deskew, which fails above 64 UI. In EQ a sweep sets the peaking of a lane, or marks it failed, and READY records that the peer is ready; EQ ends when both sides are done. -/
def Obligations.LanesNegotiateAndTrain : Prop :=
  ∀ (s : State) (g : Fin 26) (x : LnpGroup), x = s.group g →
    (∀ (m : CapsMsg) (y : LnpGroup), x.st = .baseLink → g.val < 24 → y = { x with
        peer := { seen := true, role := m.role, rates := m.rates.setWidth 4, lanes := m.lanes, spare := m.spare, failed := m.failed.setWidth 4 }
        txSpare := if bitAt m.spare.toNat 7 then some (bitsOf m.spare.toNat 0 5) else none } →
      (g.val < 16 → x.joined = false → exec (.caps g m) s = .next (s.trainTo g y)) ∧
      (16 ≤ g.val ∨ x.joined = true → exec (.caps g m) s = .next (s.trainTo g (match y.rates with
        | [] => { y with st := .fail }
        | k :: _ => { y with st := .negotiate, offer := BitVec.ofNat 3 k })))) ∧
    (∀ rate : Fin 8, x.st = .negotiate →
      (0 < rate.val → rate.val ≤ 4 → rate.val ≤ x.offer.toNat →
        exec (.offer g rate) s = .next (s.trainTo g { x with offer := BitVec.ofNat 3 rate, st := .step })) ∧
      (rate.val = 0 ∨ 4 < rate.val ∨ x.offer.toNat < rate.val → exec (.offer g rate) s = .next (s.unheard g))) ∧
    (x.st = .step → (∀ (rate : Fin 8) (n : Fin 64), exec (.step g rate n) s =
        .next (if n.val = 0 ∧ rate.val = x.offer.toNat then s.trainTo g x.switchRate else s.unheard g)) ∧
      exec (.rateSwitchTimeout g) s = .next (s.trainTo g x.switchRate)) ∧
    ((x.st = .step ∨ x.st = .blockHunt ∨ x.st = .eq) → exec (.trainingTimeout g) s = .next (s.trainTo g x.fallBack)) ∧
    (∀ (l : Fin 18) (y : Lane), y = x.lane l → l.val < groupLanes g → x.rate ≠ 0 →
      (∀ hs : List (BitVec 2 × Fin 5), y.lock = false → l.val ≠ clockOf g →
        (∀ rest : List (BitVec 2 × Fin 5), lockRest hs = some rest → exec (.blockLock g l hs) s = .next (s.trainTo g
          ((x.setLane l { y.countHeads hs with lock := true, fresh := rest.isEmpty, bad := false }).hunted g))) ∧
        (lockRest hs = none → exec (.blockLock g l hs) s = .next (s.trainTo g
          ((x.setLane l { y.countHeads hs with bad := y.bad || decide (98 ≤ hs.countP headBad) }).hunted g)))) ∧
      (∀ (hs : List (BitVec 2 × Fin 5)) (y1 : Lane), y.lock = true → y1 = { y.countHeads hs with fresh := y.fresh && hs.isEmpty } →
        ((∀ k ≤ hs.length, ((hs.drop k).take 64).countP headBad < 16) →
          exec (.blockLockLoss g l hs) s = .next ((s.setGroup g (x.setLane l y1)).laneErrors g l (hs.countP headBad))) ∧
        (∀ (k : Nat) (u : State), k ≤ hs.length → 16 ≤ ((hs.drop k).take 64).countP headBad →
          u = ((s.unheard g).setGroup g (x.setLane l { y1 with lock := false, fresh := false, lolEvt := satBump y.lolEvt 1 })).laneErrors g l
            (hs.countP headBad) →
          exec (.blockLockLoss g l hs) s = .next (if x.st = .active ∧ l.val ∈ x.inUse g then u.toDetect g (u.group g) else u))) ∧
      (∀ (frame : BitVec 16) (skew : Fin 128), y.lock = true →
        (y.fresh = true → exec (.align g l frame skew) s = .next ((s.unheard g).setGroup g (x.setLane l { y with fresh := false }))) ∧
        (y.fresh = false → exec (.align g l frame skew) s = .next (s.trainTo g ((LnpGroup.setLane { x with frame } l
          (if x.st ≠ .blockHunt then y else if skew.val ≤ 64 then { y with desk := true, bad := false, skew := BitVec.ofNat 10 skew }
            else { y with desk := false, bad := true })).hunted g))))) ∧
    (x.st = .eq →
      (∀ (l : Fin 18) (good : BitVec 15), l.val ≤ dataLanes g → exec (.eqSweepComplete g l good) s = .next ((s.sweepPeak good).2.trainOn g
        ((x.setLane l ((x.lane l).afterSweep good (s.sweepPeak good).1)).equalised g))) ∧
      (∀ (spare : Bool) (lane : Fin 128), exec (.ready g spare lane) s = .next (s.trainOn g
        (LnpGroup.equalised { x with readySeen := true, txSpare := if spare then some lane.val else x.txSpare } g))))

/-- In ACTIVE of a group with a spare: the own SPARE_REQUEST for a lane in use whose bucket crossed, with no substitution under way and the spare free, names the frame 128 ahead and is sent; the peer's is acknowledged and copied until its frame. SPARE_ACKNOWLEDGE of the requested lane before that frame keeps the sweep of the spare. At the named frame SPARE_SWITCH after a sweep that succeeded puts the spare in the lane's place and notes the repair; otherwise, once the frame of the peer's request has passed, it ends that request, and a held electrical idle begins. EIDLE as the first block after lock is discarded; else it takes the receiver to EIDLE. SPARE_ABANDON of the peer for the lane copied ends the copying and its request, before or after its frame; the own, after a sweep without an error-free setting or with none by the frame, ends the substitution and is sent. BURST in EIDLE is discarded on each locked lane of which it is the first block after lock; at countdown 0, where not every lane in use discards it, it returns to ACTIVE with every lane in use locked and deskewed; else each that is not counts a loss of lock, and the group goes to DETECT. INVALID_HEADER of a group not OFF: a code error at base rate counts, for the lane's bucket too; an ordered set of a TYPE the group does not take, on a locked lane at base rate, counts in CODE_ERR; a block of a locked lane is counted by its header and stuff bits, the invalid ones for the bucket, and one of a TYPE the group does not take in CODE_ERR. -/
def Obligations.LanesInActive : Prop :=
  ∀ (s : State) (g : Fin 26) (l : Fin 18) (x : LnpGroup), x = s.group g →
    (x.st = .active → g.val < 24 →
      (∀ f : BitVec 16, exec (.spareRequest g l (some f)) s =
        .next (((s.unheard g).setGroup g { x with txSpare := some l.val, txPending := some f }).emit (.spare g 1 l f.toNat))) ∧
      ((x.lane l).bad = true → l.val ∈ x.inUse g → x.spareUsed = false → x.phase = .none → exec (.spareRequest g l none) s =
        .next ((s.setGroup g { x.setLane l { x.lane l with bad := false } with
          phase := .requested, spareLane := BitVec.ofNat 5 l, spareFrame := x.frame + 128 }).emit (.spare g 0 l (x.frame + 128).toNat))) ∧
      (∀ good : BitVec 15, x.phase = .requested → x.spareLane.toNat = l.val → x.reachedF = false → exec (.spareAcknowledge g l good) s =
        .next (((s.sweepPeak good).2.unheard g).setGroup g
          { x.setLane (spareOf g) ((x.lane (spareOf g)).afterSweep good (s.sweepPeak good).1) with phase := .acknowledged })) ∧
      (x.phase = .acknowledged → (x.lane (spareOf g)).bad = false → x.frame = x.spareFrame → exec (.spareSwitch g) s =
        .next ((s.setGroup g { x with phase := .none, spareUsed := true, spareFor := x.spareLane }).laneReplaced g x.spareLane.toNat 0)) ∧
      (∀ copy : Fin 4, l.val < groupLanes g → exec (.eidle g l copy) s = .next
        (if (x.lane l).fresh then (s.unheard g).setGroup g (x.setLane l { x.lane l with fresh := false }) else s.trainTo g { x with st := .eidle }))) ∧
    (¬ (x.st = .active ∧ x.phase = .acknowledged ∧ (x.lane (spareOf g)).bad = false ∧ x.frame = x.spareFrame) → x.txPending.isSome = true →
      x.spareOutstanding = false → exec (.spareSwitch g) s = .next (s.setGroup g
        { x with txPending := none, txIdle := x.txIdle || x.idleHeld, idleHeld := false })) ∧
    (x.txSpare = some l.val → exec (.spareAbandon g l true) s =
      .next ((s.unheard g).setGroup g { x with txSpare := none, txPending := none, txIdle := x.txIdle || x.idleHeld, idleHeld := false })) ∧
    (x.spareLane.toNat = l.val → (x.phase = .acknowledged ∧ (x.lane (spareOf g)).bad = true ∨ x.phase = .requested ∧ x.reachedF = true) →
      exec (.spareAbandon g l false) s = .next ((s.setGroup g { x with phase := .none }).emit (.spare g 2 l x.spareFrame.toNat))) ∧
    (x.st = .eidle →
      ∀ (news : List Nat) (y : LnpGroup), news = (x.inUse g).filter (fun k => (x.lane k).lock && (x.lane k).fresh) →
        y = news.foldl (fun z k => z.setLane k { z.lane k with fresh := false }) x →
        (∀ n : Fin 128, n.val ≠ 0 ∨ news = x.inUse g → exec (.burst g n) s =
          .next ((s.unheard g).setGroup g y)) ∧
        (news ≠ x.inUse g →
          ((∀ k ∈ x.inUse g, (y.lane k).lock = true ∧ (y.lane k).desk = true) → exec (.burst g 0) s = .next (s.trainOn g { y with st := .active })) ∧
          (∀ (lacks : List Nat) (x1 : LnpGroup), lacks = (y.inUse g).filter (fun k => !((y.lane k).lock && (y.lane k).desk)) → lacks ≠ [] →
            x1 = lacks.foldl (fun x k => x.setLane k { x.lane k with lock := false, lolEvt := satBump (x.lane k).lolEvt 1 }) y →
            exec (.burst g 0) s = .next ((s.setGroup g x1).toDetect g x1)))) ∧
    (x.st ≠ .off → l.val < groupLanes g → ∀ y : Lane, y = x.lane l →
      (x.rate = 0 → exec (.invalidHeader g l .codeError) s =
        .next (((s.unheard g).setGroup g (x.setLane l { y with codeErr := satBump y.codeErr 1 })).laneErrors g l 1)) ∧
      (∀ type : Byte, x.rate = 0 → y.lock = true → g.val < 24 → exec (.invalidHeader g l (.orderedSet type)) s = .next
        (if takesSet g type.toNat then s.unheard g else (s.unheard g).setGroup g (x.setLane l { y with codeErr := satBump y.codeErr 1 }))) ∧
      (∀ (head : BitVec 2) (payload : BitVec 96) (wrong : Fin 5) (y1 : Lane), x.rate ≠ 0 → y.lock = true →
        y1 = { y.countHeads [(head, wrong)] with fresh := false } →
        exec (.invalidHeader g l (.block head payload wrong)) s = .next (((if head = 2 ∧ payload.toNat / 2 ^ 88 = 0 then s else s.unheard g).setGroup g (x.setLane l
          (if y.fresh = false ∧ headBad (head, wrong) = false ∧ head = 2 ∧ takesBlock g (payload.toNat / 2 ^ 88) = false then
            { y1 with codeErr := satBump y1.codeErr 1 } else y1))).laneErrors g l (if headBad (head, wrong) then 1 else 0))))

/-- With power at the time base: SERVO_MEASUREMENT takes the oldest completed measurement of its source, which is tracked and counted and steers the servo; where it takes the time base out of INVALID, the timed starts passed are marked, the PPS pins settle and the streams' step gaps open; a tracker's measurement makes its port SLAVE from UNCALIBRATED. Of no completed measurement, or another than the oldest, nothing changes. The announce timeout of an enabled tracker takes its parent away, makes it LISTENING as slave only and else MASTER, and costs its qualification. The PPS_IN timeout costs source 2 its qualification. An active PPS_IN edge is tracked as its distance from the nearer second boundary, in steps of 1/64 ns, and completes a measurement; halfway between two seconds a free value says which is nearer. An edge of the other direction changes nothing. With no device halt, TBS_CTRL_WRITE replaces the sources, primary, revert and edge unless locked, and can set the lock; sources that lose their enable bit lose qualification together. (The port states are the model's choice, log entry 38.) -/
def Obligations.ServoAndSources : Prop :=
  ∀ s : State, s.timeOff = false →
    (∀ (src : Fin 4) (e : Int) (u : State) (t w : TimeBase), s.tb.due.find? (fun m => m.1 == src.val) = some (src.val, e) →
      u = { s with tb := { s.tb with due := s.tb.due.eraseIdx (s.tb.due.findIdx fun m => m.1 == src.val) } } →
      t = u.tb.measure src e →
      w = (if s.tb.st = .invalid ∧ t.st = .locked then { t.markPassed s.now (t.value / 65536) with
          pps := (List.range 4).foldl (fun p n => SMap.modify {} p n fun p => p.settle (t.value / 65536)) t.pps } else t) →
      exec (.servoMeasurement src e) s = .next { (if s.tb.st = .invalid ∧ t.st = .locked then u.stepGaps else u) with
        tb := if src.val < 2 then { w with domains := SMap.modify {} w.domains src fun d => if d.pstate = 2 then { d with pstate := 3 } else d }
          else w }) ∧
    (∀ (src : Fin 4) (e : Int), s.tb.due.find? (fun m => m.1 == src.val) ≠ some (src.val, e) → exec (.servoMeasurement src e) s = .next s) ∧
    (∀ (d : Fin 2) (x : Domain), x = SMap.get {} s.tb.domains d → x.en = true → exec (.announceTimeout d) s =
      .next { s with tb := TimeBase.lose { s.tb with
        domains := SMap.set {} s.tb.domains d { x with parent := none, syncRx := none, pstate := if x.slaveOnly then 1 else 4 } } d }) ∧
    (exec .ppsInTimeout s = .next { s with tb := s.tb.lose 2 }) ∧
    (∀ (falling : Bool) (phase : Fin 64) (t : TimeVal) (put : State → Int → State), t = s.markTime { phase } →
      put = (fun u e => { u with tb := { u.tb.track 2 e with due := (u.tb.track 2 e).due ++ [(2, e)] } }) →
      (falling ≠ s.tb.ctrl.falling → exec (.ppsInEdge falling phase) s = .next s) ∧
      (falling = s.tb.ctrl.falling →
        (2 * (t % second) < second → exec (.ppsInEdge falling phase) s = .next (put s (t % second : Nat))) ∧
        (second < 2 * (t % second) → exec (.ppsInEdge falling phase) s = .next (put s ((t % second : Nat) - (second : Int)))) ∧
        (2 * (t % second) = second → exec (.ppsInEdge falling phase) s = .next (put s.takeFree.2
          (if s.takeFree.1 % 2 = 1 then (t % second : Nat) - (second : Int) else (t % second : Nat)))))) ∧
    (s.flt.halted = false → ∀ v : Word,
      (s.tb.ctrl.lock = true → exec (.tbsCtrlWrite v) s = .next { s with tb := s.tb.setCtrl s.tb.ctrl }) ∧
      (s.tb.ctrl.lock = false → exec (.tbsCtrlWrite v) s = .next { s with tb := s.tb.setCtrl { s.tb.ctrl with
        srcEn := BitVec.ofNat 4 (bitsOf v.toNat 24 4), primary := BitVec.ofNat 2 (bitsOf v.toNat 22 2)
        revert := bitAt v.toNat 21, falling := bitAt v.toNat 20, lock := bitAt v.toNat 31 } }))

/-- With power at the time base: a received frame that is no PTP frame, fails its FCS, has more than one tag or no tracker of its domain is discarded and counted. Another's event message is counted and its timestamp kept, the mark's time plus 64 ns less RX_LAT, and a message of a supported interval goes to each tracker that follows it, by the formulas of the tracker's messages. A message that a tracker sends, untagged and one-step, with a supported interval, leaves; an event message is counted and stamped with the mark's time plus 64 ns plus TX_LAT: a Sync has the whole nanoseconds as its origin time and adds the rest to its correction, a Pdelay_Resp adds the turnaround; over UDP its checksum is 0 and the FCS is computed again. One that no tracker sends changes nothing. With no device halt, a pulse of a pin not in MODE 0, asked for by a firing or by the last second boundary not yet dealt with, is dropped in INVALID, skipped and counted if the pin's last pulse ended less than its width before, and else leaves at its time, to 1/64 ns, with its width and polarity. TBS_LATCH puts the seconds, the fraction and the nanoseconds of the time value into LT0 to LT2. TBS_LOCK sets the lock. (What trackers send and take from messages follows log entry 38.) -/
def Obligations.PtpPpsAndLatch : Prop :=
  ∀ s : State, s.timeOff = false →
    (∀ (p : Fin 2) (f : PtpFrame) (q : TimePort) (put : TimePort → State) (t : Int), q = SMap.get {} s.tb.ports p →
      put = (fun q => { s with tb := { s.tb with ports := SMap.set {} s.tb.ports p q } }) →
      ((f.isPtp = false ∨ f.fcsOk = false ∨ 1 < f.tags ∨ ∀ k < 2, (SMap.get ({} : Domain) s.tb.domains k).follows p f = false) →
        exec (.ptpFrameRx p f) s = .next (put { q with discard := satBump q.discard 1 })) ∧
      (∀ ds : List Nat, t = (s.markTime f.mark : Int) + 64 * 65536 - q.rxLat.toNat * 8192 → f.isPtp = true → f.fcsOk = true → f.tags ≤ 1 →
        ds = (List.range 2).filter (fun k => (SMap.get ({} : Domain) s.tb.domains k).follows p f) → ds ≠ [] →
        ∀ u : State, u = put (if ptpEvent f.kind then { q with
            events := q.events + 1, stamps := q.stamps ++ [{ sent := false, kind := ptpCode f.kind, seqNo := f.seq.toNat, time := t }] } else q) →
          (ptpInterval false f = true → exec (.ptpFrameRx p f) s = .next (ds.foldl (fun s k => s.trackerHears k t q.delayAsym f) u)) ∧
          (ptpInterval false f = false → exec (.ptpFrameRx p f) s = .next u)) ∧
      (∀ (ds : List Nat) (rx : Option Int) (q1 : TimePort), t = (s.markTime f.mark : Int) + 64 * 65536 + q.txLat.toNat * 8192 →
        ds = (List.range 2).filter (fun k => (SMap.get ({} : Domain) s.tb.domains k).follows p f &&
          (SMap.get ({} : Domain) s.tb.domains k).sends f.kind) →
        rx = (ds.findSome? fun k => (SMap.get ({} : Domain) s.tb.domains k).reqRx.filter fun r => r.1 == f.seq.toNat).map (·.2) →
        q1 = (if ptpEvent f.kind then { q with
          events := q.events + 1, stamps := q.stamps ++ [{ sent := true, kind := ptpCode f.kind, seqNo := f.seq.toNat, time := t }] } else q) →
        (ds = [] → exec (.ptpFrameTx p f) s = .next s) ∧
        (ds ≠ [] → f.twoStep = false → f.tags = 0 → ptpInterval true f = true → exec (.ptpFrameTx p f) s = .next (State.emit
          { s with tb := { s.tb with
            ports := SMap.set {} s.tb.ports p q1
            domains := ds.foldl (fun m k => SMap.modify {} m k fun d =>
              if f.kind = .delayReq ∨ f.kind = .pdelayReq then { d with reqTx := some (f.seq.toNat, t) } else d) s.tb.domains } }
          (.ptp p (ptpCode f.kind)
            (if f.kind = .sync then t.toNat / 65536 * 65536 else f.origin)
            (if f.kind = .sync then f.correction + (t.toNat % 65536 : Nat)
              else if f.kind = .pdelayResp then f.correction + (t - rx.getD t)
              else if f.kind = .delayReq ∨ f.kind = .pdelayReq then f.correction - q.delayAsym else f.correction)
            (if f.udp then some 0 else none) true))))) ∧
    (∀ (n : Fin 4) (p p1 : PpsPin) (t : TimeVal), p = SMap.get {} s.tb.pps n → p.mode ≠ 0 → s.flt.halted = false →
      ((∃ rest : List TimeVal, p.want = t :: rest ∧ p1 = { p with want := rest }) ∨
        p.want = [] ∧ p.lastEdge s.now = some t ∧ p.edge ≠ some t ∧ p1 = { p with edge := some t }) →
      (s.tb.st = .invalid → exec (.ppsOutPulse n) s = .next { s with tb := { s.tb with pps := SMap.set {} s.tb.pps n p1 } }) ∧
      (s.tb.st ≠ .invalid → p.lastEnd ≠ 0 → t / 1024 * 1024 < p.lastEnd + p.width * 65536 → exec (.ppsOutPulse n) s =
        .next { s with tb := { s.tb with pps := SMap.set {} s.tb.pps n { p1 with skipped := satBump p.skipped 1 } } }) ∧
      (s.tb.st ≠ .invalid → (p.lastEnd = 0 ∨ p.lastEnd + p.width * 65536 ≤ t / 1024 * 1024) → exec (.ppsOutPulse n) s = .next (State.emit
        { s with tb := { s.tb with pps := SMap.set {} s.tb.pps n { p1 with lastEnd := t / 1024 * 1024 + p.width * 65536 } } }
        (.pps n (t / 1024 * 1024) p.width p.pol)))) ∧
    (s.flt.halted = false → exec .tbsLatch s = .next { s with tb := { s.tb with
      lt0 := BitVec.ofNat 32 (bitsOf (timeWord s.now) 64 32)
      lt1 := BitVec.ofNat 32 (bitsOf (timeWord s.now) 48 16 * 2 ^ 16 + bitsOf (timeWord s.now) 0 16)
      lt2 := BitVec.ofNat 32 (bitsOf (timeWord s.now) 16 30) } }) ∧
    (s.flt.halted = false → exec .tbsLock s = .next { s with tb := { s.tb with ctrl := { s.tb.ctrl with lock := true } } })

/-- With the headboxes running: a join message in the wrong mode counts an error and ends the row of copies heard; in its mode a copy short of the third identical one in a row is only counted; on the third: a HELLO in range in BASE_LINK makes the partner present, streams suspended under another PID leaving, is answered with WELCOME and counts as the group's join handshake; a SJOIN is refused for parameters out of range, for others than those its LSN holds, for want of a free SID or for the load, takes a suspended stream back, is accepted again, or makes the lowest free SID JOINED with a credit of four frames; a SLEAVE of a SID that the LSN does not hold is an error, else the stream leaves, unless suspended, and is answered with LEFT; a BYE of the present partner makes its JOINED and ADMITTED streams leave. A suspended stream leaves at its timeout. STOCK_FRAME of an ACTIVE group ends the row of join copies heard; one that fails the check of its identity, of its structure or of its CRC, or lacks credit, is counted and discarded; else it takes one frame's credit and, of an ADMITTED stream and no earlier than its admission, has its SEQ checked: an old one is counted; one ahead is counted and opens a gap; one out of its transit time is counted; any other is written, a jump of its time counted, and its triggers stand. -/
def Obligations.StocksJoinAndLeave : Prop :=
  ∀ (s : State) (g : Fin 16) (x : LnpGroup), x = s.group g → s.headboxOff = false →
    (∀ (pid : BitVec 32) (src ver : BitVec 8) (u : State), u = (s.hearJoin g 0x60 (pidBytes pid src ver)).2 →
      (x.inBlocks = true → exec (.hello g pid src ver) s = .next ((s.joinError g).unheard g)) ∧
      (x.st = .baseLink → src ≠ 0 → src.toNat ≤ 64 → ver = 1 →
        ((s.hearJoin g 0x60 (pidBytes pid src ver)).1 = false → exec (.hello g pid src ver) s = .next u) ∧
        (∀ w : State, (s.hearJoin g 0x60 (pidBytes pid src ver)).1 = true → w = (if (u.partner g).pid = pid then u else
            (groupSids g).foldl (fun s i => if (s.stream i).st = .suspended then s.leave i else s) u) →
          exec (.hello g pid src ver) s = .next (((w.setPartner g { u.partner g with present := true, pid, sources := src.toNat }).answerJoin g 1
            (joinBytes (BitVec.ofNat 8 g) [BitVec.ofNat 8 (w.freeSids g).length])).trainTo g (LnpGroup.negotiate { x with joined := true } g))))) ∧
    (∀ (lsn : BitVec 8) (fmt fcode : BitVec 4) (rate : BitVec 32) (hear : Bool × State),
      hear = s.hearJoin g 0x62 (joinBytes lsn (BitVec.ofNat 8 (16 * fmt.toNat + fcode.toNat) :: (natLe 4 rate.toNat).reverse)) →
      (x.atBase = true → exec (.sjoin g lsn fmt fcode rate) s = .next ((s.joinError g).unheard g)) ∧
      (x.st = .active → (hear.1 = false → exec (.sjoin g lsn fmt fcode rate) s = .next hear.2) ∧
        (hear.1 = true → ∀ u : State, u = hear.2 →
          ((5 < fmt.toNat ∨ 8 < fcode.toNat ∨ rate = 0 ∨ 200000000 < rate.toNat) →
            exec (.sjoin g lsn fmt fcode rate) s = .next (u.refuseJoin g lsn 1)) ∧
          (fmt.toNat ≤ 5 → fcode.toNat ≤ 8 → rate ≠ 0 → rate.toNat ≤ 200000000 →
            (∀ i : Nat, u.heldSid g lsn = some i → exec (.sjoin g lsn fmt fcode rate) s = .next
              (if (u.stream i).sameJoin fmt fcode rate = false then u.refuseJoin g lsn 2
              else if (u.stream i).st = .suspended then u.rejoin g lsn i else u.acceptJoin g lsn i)) ∧
            (u.heldSid g lsn = none → u.freeSids g = [] → exec (.sjoin g lsn fmt fcode rate) s = .next (u.refuseJoin g lsn 3)) ∧
            (∀ (i : Nat) (rest : List Nat) (y : Stream), u.heldSid g lsn = none → u.freeSids g = i :: rest →
              y = { st := .joined, lsn, fmt, fcode, rate, credit := frameCredit fcode.toNat 4, creditT := u.runNow } →
              exec (.sjoin g lsn fmt fcode rate) s = .next
                (if loadExceeds (u.groupLoad g + y.load) (u.group g).rate.toNat then u.refuseJoin g lsn 4
                else ((u.setStream i y).streamEvent 0x0005 i .free).acceptJoin g lsn i)))))) ∧
    (∀ (lsn : BitVec 8) (sid : BitVec 10) (hear : Bool × State), hear = s.hearJoin g 0x65 (sidBytes lsn sid.toNat) →
      (x.atBase = true → exec (.sleave g lsn sid) s = .next ((s.joinError g).unheard g)) ∧
      (x.st = .active → (hear.1 = false → exec (.sleave g lsn sid) s = .next hear.2) ∧
        (hear.1 = true → hear.2.heldSid g lsn ≠ some sid.toNat → exec (.sleave g lsn sid) s = .next (hear.2.joinError g)) ∧
        (hear.1 = true → hear.2.heldSid g lsn = some sid.toNat → exec (.sleave g lsn sid) s = .next
          ((if (hear.2.stream sid.toNat).st = .joined ∨ (hear.2.stream sid.toNat).st = .admitted then hear.2.leave sid.toNat
            else hear.2).answerJoin g 6 (sidBytes lsn sid.toNat))))) ∧
    (∀ hear : Bool × State, hear = s.hearJoin g 0x67 (pidBytes (s.partner g).pid 0 0) → (s.partner g).present = true →
      (hear.1 = false → exec (.bye g (s.partner g).pid) s = .next hear.2) ∧
      (∀ u : State, hear.1 = true →
        u = (groupSids g).foldl (fun s i => if (s.stream i).st = .joined ∨ (s.stream i).st = .admitted then s.leave i else s) hear.2 →
        exec (.bye g (s.partner g).pid) s = .next (u.setPartner g { u.partner g with present := false }))) ∧
    (∀ sid : Fin 1024, (s.stream sid).st = .suspended → exec (.suspendTimeout sid) s = .next (s.leave sid)) ∧
    (∀ (f : StockFrame) (i sof : Nat) (y : Stream) (r u : State), r = s.unheard g → i = f.sid.toNat → sof = r.markRun f.mark → y = r.stream i → x.st = .active →
      (y.identity g f = false → u = r.setStream i { y with err := { y.err with frameErr := satBump y.err.frameErr 1 } } →
        exec (.stockFrame g f) s = .next (if i / 64 = g then (u.inputFrame i sof).discardGap i else u)) ∧
      (y.identity g f = true → frameStructured f y = false → exec (.stockFrame g f) s = .next
        (r.badFrame i f fun e => { e with frameErr := satBump e.frameErr 1 })) ∧
      (y.identity g f = true → frameStructured f y = true → frameCrc f ≠ f.crc → exec (.stockFrame g f) s = .next
        (r.badFrame i f fun e => { e with crcErr := satBump e.crcErr 1 })) ∧
      (y.identity g f = true → frameStructured f y = true → frameCrc f = f.crc →
        u = r.setStream i { y with credit := y.creditAt sof - frameCredit y.fcode.toNat 1, creditT := max y.creditT sof } →
        (y.creditAt sof < frameCredit y.fcode.toNat 1 → exec (.stockFrame g f) s = .next
          (u.badFrame i f fun e => { e with rateExcess := satBump e.rateExcess 1 })) ∧
        (frameCredit y.fcode.toNat 1 ≤ y.creditAt sof →
          (y.st ≠ .admitted ∨ sof < y.admitT → exec (.stockFrame g f) s = .next u) ∧
          (∀ z : Stream, y.st = .admitted → y.admitT ≤ sof → z = u.stream i →
            (32768 ≤ z.ahead f → exec (.stockFrame g f) s = .next
              ((u.setStream i { z with err := { z.err with seqOld := satBump z.err.seqOld 1 } }).inputFrame i sof)) ∧
            (∀ (v : State) (z1 : Stream), z.ahead f < 32768 →
              v = (if z.ahead f = 0 then u.setStream i { z with
                  seq := if z.seqSet then f.seq + 1 else z.seq, err := { z.err with seqGap := satBump z.err.seqGap (z.ahead f) } }
                else ((u.setStream i { z with
                  seq := if z.seqSet then f.seq + 1 else z.seq
                  err := { z.err with seqGap := satBump z.err.seqGap (z.ahead f) } }).inputFrame i sof).streamGap i 1) →
              z1 = v.stream i → ∀ jump : Bool, jump = (u.tb.st != .invalid && z1.seqSet && z.ahead f == 0 && z1.jumps f) →
              exec (.stockFrame g f) s = .next
                (if u.tb.st ≠ .invalid ∧ z1.inTransit (r.markTime f.mark) f = false then
                  ((v.setStream i { z1 with err := { z1.err with tsRange := satBump z1.err.tsRange 1 } }).inputFrame i sof).discardGap i
                else ((if jump then v.setStream i { z1 with err := { z1.err with tsJump := satBump z1.err.tsJump 1 } }
                  else v).writeFrame i f jump).frameEnds i f.seq false))))))

/-- The oldest LOAD_IMAGE whose host fields can be reached and that has claimed nothing yet finishes with its resolve error where the report's address does not resolve, with the image's where the image cannot be fetched, or with the check that failed and its report; or it claims what it needs and goes on. Having claimed, it places its data and pipelines, writes its report and finishes DONE with the handle as INFO, unless a fault has met it: then its claims are released, its report is of the fault's class, CONTAINED or FATAL, and so is its outcome. A report that covers part of an uncorrectable line ends FATAL. One out of reach waits. The oldest ADMIT finishes with the check that fails and the SID as INFO, or admits the stream and finishes DONE with the SID and region entry. A timed-start unit that is due fires: on time its action and its pulses run at START; late it counts and they run at the present time. PIPELINE_RESTART of a halted pipeline whose cause has ended, its sheet not draining: with all clusters mapped and routed and its latency within the deckle it starts again with the new pad and configuration index 0, with the GEN of its clusters that run, else the GEN other than its clusters have; otherwise it is STOPPED. BUFFER_REALLOCATE of a lost buffer gives it zeroed lines of the same depth where an admission would place it, its write count and anchors cleared; without a place it waits. (Waiting for host memory is log entry 57's choice, the order of checks log entry 51's, the two steps of a load log entry 88's.) -/
def Obligations.LoadAdmitAndRestart : Prop :=
  ∀ s : State,
    (∀ (w : Work) (s1 : State) (n : Nat) (close : State → Loc → List Byte → BitVec 8 × BitVec 8 × Nat → State),
      s.fwHead 1 = some (w, s1) → n = fieldAt w.bytes 0x20 4 →
      close = (fun v rep bs o => if v.writeFails rep bs.length then
          ((v.devWrite rep bs).asksAt classDma true rep bs.length).finish w.ring.toNat w.seqNo outFatal (Config.loadCheck outFatal.toNat) 0
        else ((v.devWrite rep bs).asksAt classDma true rep bs.length).finish w.ring.toNat w.seqNo o.1 o.2.1 o.2.2) →
      (s1.fieldUp w.bytes 0x18 = false ∨ (s.hif.load = none ∧ s1.fieldUp w.bytes 8 = false) → exec .loadImage s = .next s) ∧
      (s.hif.load = none → s1.fieldUp w.bytes 8 = true → s1.fieldUp w.bytes 0x18 = true →
        (∀ e : Refuse, s1.resolve w.ring.toNat (fieldAt w.bytes 0x18 8) n = .error e →
          exec .loadImage s = .next (s1.finish w.ring.toNat w.seqNo e.1 e.2 0)) ∧
        (∀ rep : Loc, s1.resolve w.ring.toNat (fieldAt w.bytes 0x18 8) n = .ok rep →
          (∀ e : Refuse, s1.fetchImage w.ring.toNat (fieldAt w.bytes 8 8) (fieldAt w.bytes 0x10 8) = .error (e, false) →
            exec .loadImage s = .next (s1.finish w.ring.toNat w.seqNo e.1 e.2 0)) ∧
          (∀ e : Refuse, s1.fetchImage w.ring.toNat (fieldAt w.bytes 8 8) (fieldAt w.bytes 0x10 8) = .error (e, true) →
            exec .loadImage s = .next (close s1 rep ((reportHead { outcome := e.1, check := e.2 } 0 0 0 0).take n) (e.1, e.2, 0))) ∧
          (∀ b : List Byte, s1.fetchImage w.ring.toNat (fieldAt w.bytes 8 8) (fieldAt w.bytes 0x10 8) = .ok b →
            (∀ e : LoadErr, s.load w.ring.toNat b = .error e →
              exec .loadImage s = .next (close s1 rep ((reportHead e 0 0 0 0).take n) (e.outcome, e.check, 0))) ∧
            (∀ (j : LoadJob) (s2 : State), s.load w.ring.toNat b = .ok (j, s2) →
              exec .loadImage s = .next ((s2.askImage w.ring.toNat (fieldAt w.bytes 8 8) b.length).startLoad j))))) ∧
      (∀ (j : LoadJob) (u : State), s.hif.load = some j → s1.fieldUp w.bytes 0x18 = true → u = { s1 with hif := { s1.hif with load := none } } →
        (∀ e : Refuse, u.resolve w.ring.toNat (fieldAt w.bytes 0x18 8) n = .error e →
          exec .loadImage s = .next ((u.dropLoad j).finish w.ring.toNat w.seqNo e.1 e.2 0)) ∧
        (∀ (rep : Loc) (l : Loaded) (v : State) (bs : List Byte), u.resolve w.ring.toNat (fieldAt w.bytes 0x18 8) n = .ok rep →
          l = j.loaded (u.image j.handle).granted.toNat → v = u.loadPlace j l → bs = (v.loadReport j.handle).take n →
          (u.loadFault j l rep bs.length = none → exec .loadImage s = .next (close v rep bs (outDone, 0, j.handle))) ∧
          (∀ (f c : BitVec 8), u.loadFault j l rep bs.length = some f → c = Config.loadCheck f.toNat → exec .loadImage s = .next
            (close (u.dropLoad j) rep ((reportHead { outcome := f, check := c } 0 0 0 0).take n) (f, c, 0)))))) ∧
    (∀ (w : Work) (s1 : State) (sid depth h port : Nat), s.fwHead 5 = some (w, s1) →
      sid = bitsOf (fieldAt w.bytes 4 4) 0 10 → depth = fieldAt w.bytes 8 4 → h = fieldAt w.bytes 0x0C 2 → port = fieldAt w.bytes 0x0E 2 →
      (∀ e : Refuse, s1.admission w.ring.toNat sid depth h port w.prog = .error e →
        exec .admitPipe s = .next (s1.finish w.ring.toNat w.seqNo e.1 e.2 (refuseInfo w.bytes))) ∧
      (∀ a : Admission, s1.admission w.ring.toNat sid depth h port w.prog = .ok a →
        exec .admitPipe s = .next ((s1.admitStream w.ring.toNat sid (fieldAt w.bytes 2 2) (bitsOf (fieldAt w.bytes 4 4) 16 13) depth h port a).finish
          w.ring.toNat w.seqNo outDone 0 (sid + 2 ^ 16 * a.entry)))) ∧
    (∀ (u : Fin 32) (x : Tsu), x = s.tsu u → s.tsuDue u = true →
      (x.passed = none → exec (.timedStartFire u) s = .next ((((s.setTsu u x.fire).fireTarget u x x.start false)).pulsePins u x x.start)) ∧
      (x.passed.isSome = true → exec (.timedStartFire u) s = .next
        ((({ s.setTsu u x.fire with flt := { (s.setTsu u x.fire).flt with tsuLate := satBump (s.setTsu u x.fire).flt.tsuLate 1 } } : State).fireTarget
          u x s.now true).pulsePins u x s.now))) ∧
    (∀ (p : Fin 64) (q : Pipe) (im : Image) (lat : Nat × Bool × Nat), q = s.pipe p → im = s.image q.handle.toNat →
      q.st = .halted → q.starting = false → s.causeOver p = true → s.flt.halted = false → im.sheet.draining = false →
      lat = pipeTiming s.stepA1 im.routes im.segs q.index.toNat →
      (im.whole = false ∨ lat.2.1 = true ∨ q.deckle.toNat < lat.1 → exec (.pipelineRestart p) s = .next (s.setPipe p { q with st := .stopped })) ∧
      (∀ (s1 s2 : State) (cs : List Nat) (gen : Bool), im.whole = true → lat.2.1 = false → lat.1 ≤ q.deckle.toNat →
        s1 = s.setPipe p { q with pad := BitVec.ofNat 13 (q.deckle.toNat - lat.1), starting := true } → cs = s1.pipeClusters p →
        s2 = cs.foldl (fun s c => if (s.cl c).st = .aborted then s.setCl c { s.cl c with st := .idle } else s) s1 →
        gen = (match cs.find? fun c => (s2.cl c).st != .idle with
          | some c => (s2.cl c).cfg.gen
          | none => !(match cs with
            | [] => im.gen
            | c :: _ => (s2.cl c).cfg.gen)) →
        exec (.pipelineRestart p) s = .next (((im.map.mapIdx fun v c => (v, c)).foldl (fun s x => match x.2 with
          | none => s
          | some c => if cs.contains c ∧ (s.cl c).st = .idle then s.beginConfig q.handle.toNat x.1 c 0 gen false
            else s) (s2.setImage q.handle.toNat { im with gen })).checkWarm q.handle.toNat))) ∧
    (∀ (sid : Fin 1024) (x : Stream) (n : Nat) (u : State), x = s.stream sid → x.buf.lost = true → x.st = .admitted ∨ x.st = .suspended →
      n = ceilDiv (bufferLines x.fmt.toNat x.buf.depth) 15 * 15 →
      u = s.setStream sid { x with mesh := [], buf := { x.buf with quarter := 4 } } →
      ((∀ (q : Nat) (mesh : List (Nat × Nat)) (b : Nat), u.placeBuffer sid x.buf.depth ≠ .ok (q, mesh, some b)) →
        exec (.bufferReallocate sid) s = .next s) ∧
      (∀ (q : Nat) (mesh : List (Nat × Nat)) (b : Nat) (old : Rgt), u.placeBuffer sid x.buf.depth = .ok (q, mesh, some b) →
        old = s.region x.buf.rgt →
        exec (.bufferReallocate sid) s = .next ((((s.gddrZero old.base.toNat old.lines.toNat).gddrZero b n).setRegion x.buf.rgt
          { old with base := BitVec.ofNat 32 b, lines := BitVec.ofNat 32 n, lost := false }).setStream sid { x with
            mesh
            buf := { x.buf with base := b, w := 0, anchors := [], nAnchors := 0, lost := false, quarter := q, gen := x.buf.gen + 1 } })))

/-- With no device halt and power on. TRIGGER_BLOCK_DELIVERY of an admitted stream's frame whose SOF is no earlier than the admission: a frame that fails check 1, 5 or 6 halts the pipelines that the stream feeds; an entry of another goes to every pipeline bound to the stream that entered WARM or LIVE before the SOF, and one past the frame's samples to none. INGRESS_PLACEMENT takes the oldest entry of a started port of a WARM or LIVE pipeline: to a tile with room in its L1, no later than T_in after its pin cycle on the deckle clock of that tile's die, it is pushed and counted in its entry set; too late, without room or without a cluster it halts the pipeline with cause 4. DECISION_JUDGE first takes the decision entry at the head of L1 of the decision tile into the release unit, if an entry set is there for it and the deckle clock has come to its arrival; in a drain it drops it. Then the oldest entry there is judged with its whole entry set once its release cycle has come, and its slack noted: one that arrived late opens a gap of cause 5, counts LATE and leaves the detector without a previous score; one on time counts a WARM pipeline down, to LIVE at 0; in LIVE an entry from before the last step of the time base leaves the detector without a previous score, and any other is judged. Until then it waits. -/
def Obligations.EntriesAreDeliveredPlacedAndJudged : Prop :=
  ∀ s : State, s.headboxOff = false →
    (∀ (f : StockFrame) (e n sof i : Nat) (pin : Mark) (x : Stream) (a : Arrival), i = f.sid.toNat → x = s.stream i → sof = s.markRun f.mark →
      x.st = .admitted → x.admitT ≤ sof → (s.group (sidGroup i)).st = .active →
      ((x.identity (sidGroup i) f = false ∨ x.ahead f ≠ 0 ∨ (s.tb.st ≠ .invalid ∧ x.inTransit (s.markTime f.mark) f = false)) →
        exec (.triggerBlockDelivery f e pin) s = .next (s.inputFrame i sof)) ∧
      (x.identity (sidGroup i) f = true → x.ahead f = 0 → (s.tb.st = .invalid ∨ x.inTransit (s.markTime f.mark) f = true) →
        n = entryLanes x.fmt.toNat →
        (frameSamples x.fcode.toNat ≤ n * e → exec (.triggerBlockDelivery f e pin) s = .next s) ∧
        (n * e < frameSamples x.fcode.toNat →
          a = { entry := frameEntry f x.fmt.toNat e, pin := s.markTime pin, at_ := s.markRun pin, ts := frameTime f, seq := f.seq, first := n * e
                untimed := s.tb.st == .invalid } →
          exec (.triggerBlockDelivery f e pin) s = .next ((s.boundPipes i).foldl (fun s p =>
            if ((s.pipe p).st = .warm ∨ (s.pipe p).st = .live) ∧ (s.pipe p).warmAt < sof then
              s.setPipe p ((s.pipe p).deliver i x.rate.toNat a) else s) s)))) ∧
    (∀ (p : Fin 64) (port : BitVec 16) (now : Nat) (q : Pipe) (r : Port) (a : Arrival), q = s.pipe p →
      (q.ports.find? fun t => t.num == port && t.started) = some r → (q.inq.find? fun b => b.port == port) = some a →
      q.st = .warm ∨ q.st = .live →
      ((s.image q.handle.toNat).clusterOf r.vx r.vy = none → exec (.ingressPlacement p port now) s = .next (s.haltPipe p 4)) ∧
      (∀ c : Nat, (s.image q.handle.toNat).clusterOf r.vx r.vy = some c →
        (now ≤ s.pinCycleOf (c / 44) a.pin + tIn s.stepA1 → ((s.cl c).tile r.tile).room 5 = true →
          exec (.ingressPlacement p port now) s = .next ((s.setCl c ((s.cl c).push r.tile 5 a.entry)).setPipe p
            (({ q with inq := q.inq.eraseIdx (q.inq.findIdx fun b => b.port == port) } : Pipe).placed r a (c / 44) (s.pinCycleOf (c / 44) a.pin)))) ∧
        (s.pinCycleOf (c / 44) a.pin + tIn s.stepA1 < now ∨ ((s.cl c).tile r.tile).room 5 = false →
          exec (.ingressPlacement p port now) s = .next (s.haltPipe p 4)))) ∧
    (∀ (p : Fin 64) (arrival : Nat) (v : State), v = s.takeDecision p arrival →
      (∀ (c : Nat) (q : Pipe) (e : Entry) (l : List Entry) (z : EntrySet), q = s.pipe p →
        (s.image q.handle.toNat).clusterOf q.decVx q.decVy = some c → ((s.cl c).tile q.decTile).queue 5 = e :: l →
        (q.st = .warm ∨ q.st = .live → q.sets[q.unit.length]? = some z → arrival ≤ (s.deckle z.die).cycle →
          v = (s.setCl c ((s.cl c).setTile q.decTile (((s.cl c).tile q.decTile).pop 5))).setPipe p { q with unit := q.unit ++ [(e, arrival)] }) ∧
        (q.st = .idle → (s.cl c).st = .drain ∨ (s.cl c).st = .drained →
          v = s.setCl c ((s.cl c).setTile q.decTile (((s.cl c).tile q.decTile).pop 5)))) ∧
      (∀ q : Pipe, q = v.pipe p →
        (q.sets = [] ∨ q.unit = [] ∨ (q.st ≠ .warm ∧ q.st ≠ .live) → exec (.decisionJudge p arrival) s = .next v) ∧
        (∀ (z : EntrySet) (rest : List EntrySet) (e : Entry) (came rel : Nat) (l : List (Entry × Nat)) (s2 u : State), q.sets = z :: rest →
          q.unit = (e, came) :: l → q.st = .warm ∨ q.st = .live → rel = z.pinCycle + q.deckle.toNat →
          (z.got < q.ports.length ∨ (s.deckle z.die).cycle < rel → exec (.decisionJudge p arrival) s = .next v) ∧
          (q.ports.length ≤ z.got → rel ≤ (s.deckle z.die).cycle →
            s2 = (v.setPipe p { q with sets := rest, unit := l, judged := q.judged + 1 }).noteSlack p rel came →
            (came ≤ rel → q.st = .warm → exec (.decisionJudge p arrival) s = .next (s2.setPipe p { s2.pipe p with
              st := if (s2.pipe p).det.warmLeft - 1 = 0 then .live else .warm
              last := (s2.pipe p).last.orElse fun _ => some (z.ts, z.first)
              det := { (s2.pipe p).det with warmLeft := (s2.pipe p).det.warmLeft - 1 } })) ∧
            (came ≤ rel → q.st = .live → exec (.decisionJudge p arrival) s = .next
              (if z.at_ < v.tb.stepAt then s2.setPipe p { s2.pipe p with det := { (s2.pipe p).det with prev := none } } else s2.judge p z e)) ∧
            (rel < came →
              u = s2.openGap p 5 (timeAfter z.ts z.first (v.stream (q.refSid.getD 0)).rate.toNat) →
              exec (.decisionJudge p arrival) s = .next
                (u.setPipe p { u.pipe p with late := satBump (u.pipe p).late 1, det := { (u.pipe p).det with prev := none } }))))))

/-- With no device halt: the oldest message of a pipeline whose DUE has come leaves the pipeline for the four headboxes, the lines whose mask names its pipeline, the Xomos where the pipeline exports, and the event ring. TRIG_OUT_PULSE takes the oldest scheduled message of a line: in MODE 1 it pulses at DUE plus 120 ns less its delay, to 1/64 ns, unless that falls within the width after the last pulse: then it is merged; in another mode the message is dropped. TRIG_IN_EDGE of a MODE 2 line's polarity counts and makes a SOURCE 1 message, timed by its mark, for each pipeline of the mask with a bound port; any other edge changes nothing. TRP.DETA and TRP.DETB are written while a pipeline is neither WARM nor LIVE, else the write is ignored and counted. A line's registers are written while it is claimed, a delay taken at most at 500 and a width at least at 8, else the write is counted. A headbox that is on hands its oldest message to the streams of its edge die: a retraction marks, another opens a record where a programme accepts it. Without a message or a schedule the commands change nothing. (Delays are rounded as log entry 48 says.) -/
def Obligations.TriggersAndLines : Prop :=
  ∀ s : State, s.flt.halted = false →
    (∀ (p : Fin 64) (m : TrigMsg) (mine : TrigMsg → Bool) (s2 : State), mine = (fun m => m.pipe.toNat == p.val && decide (m.due ≤ s.now)) →
      s.trp.msgs.find? mine = some m →
      s2 = (({ s with trp := { s.trp with msgs := s.trp.msgs.eraseIdx (s.trp.msgs.findIdx mine) } } : State).toHeadboxes m).toLines m →
      exec (.triggerMessageSend p) s = .next ((if (s.pipe p).ctl.xout then s2.floodPacket none (m.packet s.xms.regs.rank s.xms.regs.radius.toNat)
        else s2).postEvent 0x0003 noRing (s.pipe p).handle.toNat m.pack)) ∧
    (∀ (n : Fin 8) (l : TrigLine) (m : TrigMsg) (rest : List TrigMsg) (t : Nat), l = s.line n → l.mode = 1 → l.sched = m :: rest →
      t = (m.due + 120 * 65536 - lineDelay l.dly.toNat) / 1024 * 1024 →
      (l.lastEnd = 0 ∨ l.lastEnd + l.width.toNat * 65536 ≤ t → exec (.trigOutPulse n) s = .next ((s.setLine n { l with
        sched := rest, lastEnd := t + l.width.toNat * 65536, edges := l.edges + 1 }).emit (.trig n t l.width.toNat l.pol))) ∧
      (l.lastEnd ≠ 0 → t < l.lastEnd + l.width.toNat * 65536 →
        exec (.trigOutPulse n) s = .next (s.setLine n { l with sched := rest, merged := satBump l.merged 1 }))) ∧
    (∀ (n : Fin 8) (l : TrigLine) (m : TrigMsg) (rest : List TrigMsg), l = s.line n → l.mode ≠ 1 → l.sched = m :: rest →
      exec (.trigOutPulse n) s = .next (s.setLine n { l with sched := rest })) ∧
    (∀ (n : Fin 8) (falling : Bool) (mark : Mark), (s.line n).mode ≠ 2 ∨ falling ≠ (s.line n).pol → exec (.trigInEdge n falling mark) s = .next s) ∧
    (∀ (p : Fin 64) (n : Fin 8) (e : Fin 4),
      ((∀ m ∈ s.trp.msgs, m.pipe.toNat = p.val → ¬ m.due ≤ s.now) → exec (.triggerMessageSend p) s = .next s) ∧
      ((s.line n).sched = [] → exec (.trigOutPulse n) s = .next s) ∧
      (SMap.get [] s.trp.inbox e = [] → exec (.headboxTriggerMessage e) s = .next s)) ∧
    (∀ (n : Fin 8) (l : TrigLine) (mark : Mark) (time : TimeVal), l = s.line n → l.mode = 2 → time = s.markTime mark →
      ∃ t, exec (.trigInEdge n l.pol mark) s = .next t ∧
      t = (List.range 64).foldl (fun s p =>
        if bitAt l.mask.toNat p = true ∧ (s.pipe p).ports.any (·.sid.isSome) = true then
          { s.setPipe p { s.pipe p with triggers := (s.pipe p).triggers + 1 } with
            trp := { (s.setPipe p { s.pipe p with triggers := (s.pipe p).triggers + 1 }).trp with
              msgs := (s.setPipe p { s.pipe p with triggers := (s.pipe p).triggers + 1 }).trp.msgs ++ [
                { tpoint := time - lineDelay l.dly.toNat - if l.subOfs then 120 * 65536 else 0
                  due := time, tseq := (s.pipe p).triggers + 1, rank := s.xms.regs.rank
                  sid := BitVec.ofNat 10 ((s.pipe p).refSid.getD 0), pipe := BitVec.ofNat 6 p, group := (s.pipe p).ctl.groupOut
                  source := 1, line := BitVec.ofNat 3 n, untimed := s.tb.st == .invalid }] } }
        else s) (s.setLine n { l with edges := l.edges + 1 })) ∧
    (∀ (p : Fin 64) (v : Word) (q : Pipe), q = s.pipe p →
      (q.st ≠ .warm → q.st ≠ .live →
        exec (.trpDetWrite p false v) s = .next (s.setPipe p { q with ctl := { q.ctl with
          thr := BitVec.ofNat 16 (bitsOf v.toNat 16 16), hys := BitVec.ofNat 16 (bitsOf v.toNat 0 16) } }) ∧
        exec (.trpDetWrite p true v) s = .next (s.setPipe p { q with ctl := { q.ctl with
          dir := BitVec.ofNat 2 (bitsOf v.toNat 30 2), single := bitAt v.toNat 29, epochReq := bitAt v.toNat 28
          warm := BitVec.ofNat 12 (bitsOf v.toNat 12 12), holdoff := BitVec.ofNat 12 (bitsOf v.toNat 0 12) } })) ∧
      (∀ b, q.st = .warm ∨ q.st = .live → exec (.trpDetWrite p b v) s = .next (
        ({ s with flt := { s.flt with wrIgn := satBump s.flt.wrIgn 1 } } : State).setPipe p { q with wrIgn := true }))) ∧
    (∀ (n : Fin 8) (v : Word) (l : TrigLine), l = s.line n →
      ((s.holder 3 n).isSome = true →
        exec (.trigLineWrite n 0 v) s = .next (s.setLine n { l with
          mode := BitVec.ofNat 2 (bitsOf v.toNat 30 2), pol := bitAt v.toNat 29, subOfs := bitAt v.toNat 28
          dly := BitVec.ofNat 9 (min 500 (bitsOf v.toNat 19 9)), width := BitVec.ofNat 10 (max 8 (bitsOf v.toNat 9 10)) }) ∧
        exec (.trigLineWrite n 1 v) s = .next (s.setLine n { l with mask := BitVec.ofNat 64 (l.mask.toNat / 2 ^ 32 * 2 ^ 32 + v.toNat) }) ∧
        exec (.trigLineWrite n 2 v) s = .next (s.setLine n { l with mask := BitVec.ofNat 64 (v.toNat * 2 ^ 32 + l.mask.toNat % 2 ^ 32) })) ∧
      (∀ r, (s.holder 3 n).isNone = true → exec (.trigLineWrite n r v) s = .next (
        ({ s with flt := { s.flt with unclWr := satBump s.flt.unclWr 1 } } : State).setLine n { l with unclaimedWr := true }))) ∧
    (∀ (e : Fin 4) (m : TrigMsg) (rest : List TrigMsg), s.headboxOff = false → SMap.get [] s.trp.inbox e = m :: rest →
      exec (.headboxTriggerMessage e) s = .next (((s.hbx.streams.map (·.1)).filter fun i => sidGroup i / 4 == e.val).foldl (fun s i =>
        if m.bad then s.setStream i ((s.stream i).retract m)
        else if (s.stream i).accepts m then s.openRecord i m.record else s)
        { s with trp := { s.trp with inbox := SMap.set [] s.trp.inbox e rest } }))

/-- RECORD_COMPLETE, the headboxes working: the complete open records of a stream wait behind its others, in the order of their completion, and those of one moment as log entry 41 says. RECORD_HANDOFF: the oldest waiting record, if its slot is free, its samples held and readable and its destination reachable, is written to the slot (its bytes after the header first; a slot in GDDR6 in DMA slots), the slot is busy, DONE counts, TRUNC and MASKF count as its flags say, a failed mask test stops the programme where it asks so, and a completion with opcode 0x85 names the stream, slot, kind and length; else it waits on. RECORD_LOST: a waiting record whose samples are overwritten, unreadable or whose area is gone leaves the queue, counts LOST and posts event 0x0009; an unreadable line is also a fault record. Without such a record each command changes nothing. -/
def Obligations.RecordsCompleteGoOutOrAreLost : Prop :=
  ∀ (s : State) (sid : Fin 1024) (x : Stream), x = s.stream sid →
    (x.recs.openRecs.filter x.complete ≠ [] → s.headboxOff = false → exec (.recordComplete sid) s = .next (s.setStream sid { x with recs := { x.recs with
      openRecs := x.recs.openRecs.filter fun r => !x.complete r
      waiting := x.recs.waiting ++ sortBy ((x.recs.openRecs.filter x.complete).map x.finished) doneOrder } })) ∧
    (x.recs.openRecs.filter x.complete = [] ∨ s.headboxOff = true → exec (.recordComplete sid) s = .next s) ∧
    (∀ (r : Rec) (rest : List Rec) (b : List Byte × Nat × State) (a : Nat) (s1 : State), x.recs.waiting = r :: rest →
      x.recs.busy.contains x.recs.nextSlot = false → x.overrun r = false → s.badLine x r = none → s.areaGone x = false →
      x.prog.destHost = false ∨ (s.hostUp = true ∧ (s.ring x.ring.toNat).st = .active) → s.flt.halted = false →
      b = s.buildRecord sid r → a = x.prog.dest + x.recs.nextSlot * x.prog.slot →
      s1 = (if x.prog.destHost then (b.2.2.hostWrite (a + 128) (b.1.drop 128)).hostWrite a (b.1.take 128)
        else ((b.2.2.gddrWrite (a + 128) (b.1.drop 128)).gddrWrite a (b.1.take 128)).asks classDma true a b.1.length) →
      exec (.recordHandoff sid) s = .next ((s1.setStream sid { x with recs := { x.recs with
        waiting := rest, nextSlot := (x.recs.nextSlot + 1) % max x.prog.nslot 1, busy := x.recs.busy ++ [x.recs.nextSlot]
        done := x.recs.done + 1, written := if r.kind = 1 then x.recs.written ++ [r] else x.recs.written
        trunc := satBump x.recs.trunc (if b.2.1 % 4 = 0 then 0 else 1), maskf := satBump x.recs.maskf (if bitAt b.2.1 5 then 1 else 0)
        pstate := if bitAt b.2.1 5 && x.prog.maskStop then 2 else x.recs.pstate } }).pushCompletion x.ring.toNat
          { opcode := 0x85, tag := x.tag, record := some (sid.val, x.recs.nextSlot)
            info := BitVec.ofNat 64 (sid.val + 2 ^ 16 * x.recs.nextSlot + 2 ^ 28 * r.kind + 2 ^ 32 * b.1.length) })) ∧
    (x.recs.waiting = [] → exec (.recordHandoff sid) s = .next s) ∧
    (∀ (r : Rec) (rest : List Rec), x.recs.waiting = r :: rest →
      x.recs.busy.contains x.recs.nextSlot = true ∨ x.overrun r = true ∨ (s.badLine x r).isSome = true ∨ s.areaGone x = true ∨
        (x.prog.destHost = true ∧ (s.hostUp = false ∨ (s.ring x.ring.toNat).st ≠ .active)) ∨ s.flt.halted = true →
      exec (.recordHandoff sid) s = .next s) ∧
    (∀ gone : Rec → Bool, gone = (fun r => x.overrun r || (s.badLine x r).isSome || s.areaGone x) →
      (x.recs.waiting.find? gone = none → exec (.recordLost sid) s = .next s) ∧
      (∀ (r : Rec) (s1 : State), x.recs.waiting.find? gone = some r →
        s1 = (match (if x.overrun r then none else s.badLine x r) with
          | none => s
          | some l => s.faultRecord { kind := 6, cls := 3, action := 8, loc := BitVec.ofNat 32 l, ring := x.ring.setWidth 16 }) →
        exec (.recordLost sid) s = .next ((s1.setStream sid { x with recs := { x.recs with
          waiting := x.recs.waiting.eraseIdx (x.recs.waiting.findIdx gone), lost := satBump x.recs.lost 1 } }).postEvent 0x0009
            x.ring.toNat 0 (sid.val + 2 ^ 16 * (r.pipe % 64) + 2 ^ 32 * r.tseq.toNat + 2 ^ 48 * r.rank.toNat))))

/-- With no device halt: the oldest VAT_SWEEP taken, if its OP is that of the command, goes to the end of the pending queue. VAT_ARM takes one with ARM set: it is stored as its template and finished DONE with SEQ as INFO, or, where a check of R445 refuses it, finished with that check. SWEEP_START, with the vat idle, enters every VAT_SWEEP taken and takes the head of the queue: it starts with BUSY, the OP, SEQ counting a RUN, the run's time and models; a refused one ends with its report and its check, waiting while that report is to go to a host that cannot be reached, and one that needs a host address while the function does not master the bus ends as aborted (log entries 55 and 56). Commands without such a descriptor, and a start while the vat is busy, change nothing; a start with no sweep pending only enters what is taken. -/
def Obligations.SweepsEnterStartAndArm : Prop :=
  ∀ s : State, s.flt.halted = false →
    (∀ (w : Work) (rest : List Work), s.hif.vatIn = w :: rest → w.arms = false →
      (fieldAt w.bytes 6 1 % 4 = 0 → exec .vatRun s = .next { s with
        hif := { s.hif with vatIn := rest }, vat := { s.vat with queue := s.vat.queue ++ [w.sweep] } }) ∧
      (fieldAt w.bytes 6 1 % 4 = 1 → exec .vatLoad s = .next { s with
        hif := { s.hif with vatIn := rest }, vat := { s.vat with queue := s.vat.queue ++ [w.sweep] } }) ∧
      (fieldAt w.bytes 6 1 % 4 = 2 → exec .vatStore s = .next { s with
        hif := { s.hif with vatIn := rest }, vat := { s.vat with queue := s.vat.queue ++ [w.sweep] } }) ∧
      (fieldAt w.bytes 6 1 % 4 = 3 → exec .vatClear s = .next { s with
        hif := { s.hif with vatIn := rest }, vat := { s.vat with queue := s.vat.queue ++ [w.sweep] } })) ∧
    (∀ (w : Work) (rest : List Work) (s1 : State) (t : Nat) (z : Sweep), s.hif.vatIn = w :: rest → w.arms = true →
      s1 = { s with hif := { s.hif with vatIn := rest } } → t = fieldAt w.bytes 7 1 % 16 → z = { w.sweep with tpl := some t } →
      (s1.sweepRefused z = none → exec .vatArm s = .next (
        ({ s1 with vat := { s1.vat with templates := SMap.set {} s1.vat.templates t z } } : State).finish w.ring.toNat w.seqNo outDone 0
          s1.vat.seq.toNat)) ∧
      (∀ e, s1.sweepRefused z = some e → exec .vatArm s = .next (s1.finish w.ring.toNat w.seqNo e.1 e.2 s1.vat.seq.toNat))) ∧
    ((∀ w ∈ s.hif.vatIn.head?, ∀ k : Nat, (w.arms = true ∨ fieldAt w.bytes 6 1 % 4 ≠ k) →
        (k = 0 → exec .vatRun s = .next s) ∧ (k = 1 → exec .vatLoad s = .next s) ∧ (k = 2 → exec .vatStore s = .next s) ∧
          (k = 3 → exec .vatClear s = .next s)) ∧
      ((∀ w ∈ s.hif.vatIn.head?, w.arms = false) → exec .vatArm s = .next s) ∧
      (s.hif.vatIn = [] → exec .vatRun s = .next s ∧ exec .vatLoad s = .next s ∧ exec .vatStore s = .next s ∧ exec .vatClear s = .next s) ∧
      (s.enterTaken.vat.queue = [] → exec .sweepStart s = .next s.enterTaken) ∧
      (s.enterTaken.vat.queue ≠ [] → s.vat.busy = true → exec .sweepStart s = .next s)) ∧
    (∀ (s0 s1 : State) (z : Sweep) (rest : List Sweep), s0 = s.enterTaken → s0.vat.queue = z :: rest → s.vat.busy = false →
      s1 = { s0 with vat := { s0.vat with queue := rest } } →
      (s.pcx.cfg.busMaster = false → (s1.sweepRanges z).any (fun p => onHost p.1) = true →
        exec .sweepStart s = .next (s1.endPending z 0x0E 0xA0)) ∧
      (s.pcx.cfg.busMaster = true ∨ (s1.sweepRanges z).any (fun p => onHost p.1) = false →
      (s1.sweepRefused z = none → exec .sweepStart s = .next { s1 with vat := { s1.vat with
        busy := true, op := z.op, seq := if z.op = 0 then s1.vat.seq + 1 else s1.vat.seq
        run := { sweep := z, models := s1.sweepModels z, tstart := s1.now, tend := s1.now, full := s1.selectsAll z } } }) ∧
      (∀ e, s1.sweepRefused z = some e →
        (vatAddr z.report = false ∨ s.vatReach z.report = true → exec .sweepStart s = .next (s1.endPending z e.1 e.2)) ∧
        (vatAddr z.report = true → s.vatReach z.report = false → exec .sweepStart s = .next s0))))

/-- With no device halt: CONTEXT_FETCH of a sweep that walks, GDDR6 running and its host addresses in reach, asks for the list's line where the selection is a list, gives a quarter's next context in selection order its status (an entry of its cache found uncorrectable being the command's operand) and the quarter moves on, waiting while the cache has no room; with nothing left to walk the quarter's open batches close. BATCH_DELIVERY of a busy vat reads the models again where they must be, a sweep without its model table faulting; then it continues the batch a quarter sends, or starts its oldest closed one, one entry a command. CONTEXT_COMMIT takes what the egress tile of the port holds for its oldest delivered batch and, once everything is in and the output can be reached, commits it. CACHE_WRITEBACK writes back a quarter's oldest dirty cache entry, which is clean then, or gives up one found uncorrectable, and sets the sweep's end time. SWEEP_COMPLETE of a sweep with nothing left but its report, that report in reach, completes it, and an image under RELEASE that it held drains. Otherwise each changes nothing. -/
def Obligations.SweepsFetchDeliverAndCommit : Prop :=
  ∀ s : State, s.flt.halted = false →
    (∀ (q : CacheUse) (s0 : State), s.vat.busy = true → s.vat.run.fault = false → s.vat.run.cut = false → s.gddrRuns = true →
      s.fetchReach = true →
      (s.nextPlace q.quarter = none → exec (.contextFetch q) s = .next (s.modRun fun r => r.closeAll q.quarter)) ∧
      (∀ (i : Nat) (sel : Option Nat), s.nextPlace q.quarter = some (i, sel) →
        s0 = (if s.vat.run.sweep.list then s.asksAt classVat false (vatLoc (s.vat.run.sweep.listA + 4 * i)) 4 else s) →
        (s0.fetchContext i (q.lost.map Fin.val) sel = none → exec (.contextFetch q) s = .next s) ∧
        (∀ (n : Nat) (s1 s2 : State), s0.fetchContext i (q.lost.map Fin.val) sel = some (n, s1) →
          s2 = s1.modRun (fun r => { r with status := SMap.set 7 r.status i n, next := SMap.set 0 r.next q.quarter (i + 1) }) →
          exec (.contextFetch q) s = .next (if (s2.nextPlace q.quarter).isNone then s2.modRun fun r => r.closeAll q.quarter else s2)))) ∧
    (∀ q : CacheUse, s.vat.busy = false ∨ s.vat.run.fault = true ∨ s.vat.run.cut = true ∨ s.gddrRuns = false ∨ s.fetchReach = false →
      exec (.contextFetch q) s = .next s) ∧
    (∀ (q : Fin 4) (u : State), s.vat.busy = true →
      u = (if s.vat.run.reread = false then s else s.modRun fun r => match s.modelTable s.vat.run.sweep.handle.toNat with
        | none => { r with reread := false, fault := true }
        | some d => { r with reread := false, models := readModels d }) →
      exec (.batchDelivery q) s = .next (if u.vat.run.fault then u
        else if (SMap.get (0, []) u.vat.run.sending q).2 = [] then (u.startBatch q).sendEntry q else u.sendEntry q)) ∧
    (∀ (m port : Fin 16) (key per need c t : Nat) (model : VatModel) (b : Batch) (y : Tile × List Entry) (s1 : State),
      s.vat.busy = true → s.vat.run.fault = false → s.vat.run.reread = false → key = 16 * m.val + port.val →
      model = s.vat.run.models.getD m {} → per = ctxBytes s.vat.wide / 16 - 2 + model.outB →
      (s.vat.run.delivered.find? fun p => p.1 == key) = some (key, b) → xyCluster (model.ports.getD port {}).outXy = some c →
      need = per * b.ctxs.length - (SMap.get [] s.vat.run.ret key).length → t = (model.ports.getD port {}).outTile.toNat →
      y = popUpTo ((s.cl c).tile t) 5 need →
      s1 = (s.setCl c ((s.cl c).setTile t y.1)).modRun (fun r => { r with ret := SMap.set [] r.ret key (SMap.get [] s.vat.run.ret key ++ y.2) }) →
      (y.2.length = need → model.outB = 0 ∨ s.vat.run.cut = true ∨ s.vatReach s.vat.run.sweep.out = true →
        exec (.contextCommit m port) s = .next (s1.commitBatch key per b)) ∧
      (y.2.length ≠ need ∨ (model.outB ≠ 0 ∧ s.vat.run.cut = false ∧ s.vatReach s.vat.run.sweep.out = false) →
        exec (.contextCommit m port) s = .next s1)) ∧
    (∀ (q : CacheUse) (l : List (Nat × Bool)) (k c : Nat) (d : Bool), s.gddrRuns = true → l = SMap.get [] s.vat.cache q.quarter →
      k = l.findIdx (fun p => p.2) → l[k]? = some (c, d) →
      (q.lost = none → exec (.cacheWriteback q) s = .next (((s.writeBack c).setCache q.quarter (l.set k (c, false))).modRun
        fun r => { r with tend := s.now })) ∧
      (∀ e : Nat, q.lost.map Fin.val = some e → exec (.cacheWriteback q) s = .next (((s.loseDirty c e).setCache q.quarter (l.eraseIdx k)).modRun
        fun r => { r with tend := s.now }))) ∧
    (∀ q : CacheUse, (∀ p ∈ SMap.get [] s.vat.cache q.quarter, p.2 = false) ∨ s.gddrRuns = false → exec (.cacheWriteback q) s = .next s) ∧
    (s.sweepDone = false → exec .sweepComplete s = .next s) ∧
    (∀ z : Sweep, z = s.vat.run.sweep → s.sweepDone = true → s.vat.run.cut = true ∨ (s.vatReach z.report = true ∧ (z.stat = 0 ∨ s.vatReach z.stat = true)) →
      exec .sweepComplete s = .next (if z.op = 0 ∧ (s.completeSweep.image z.handle.toNat).releasing.isSome then
        s.completeSweep.drainRelease z.handle.toNat else s.completeSweep))

/-- A powered, released controller takes the link up with its width, rate, mode and reversal in PCX.LINK; a change of width or rate counts, and less than 16 lanes or 64.0 GT/s is DEGRADED and posts event 0x000A; otherwise, or at 64.0 GT/s without Flit mode, nothing changes. PERST_N asserted on a powered controller is a function reset that takes the link down and counts PERST; its level is held, deasserted it only lets the link train, and a level it already has changes nothing. With the link up, a Hot Reset or DL_Down is a function reset that takes the link down and counts HOT; where configuration requests are performed, a Function Level Reset leaves the link up and counts FLR, and D3hot is entered and left by the power state, leaving it sending the messages held; otherwise these change nothing. A function reset leaves every register of a ring pair at reset but its sequence numbers and the completions it still has to write, which are only those of records and template sweeps, the MSI-X table masked, the doorbells dropped and configuration space at its defaults but for what is sticky. -/
def Obligations.LinkAndFunctionResets : Prop :=
  ∀ s : State,
    (∀ (width : Fin 5) (rate : Fin 6) (flit reversed : Bool) (s1 : State), s.pcieOn = true → s.pcx.perstLow = false → rate.val ≠ 5 ∨ flit = true →
      s1 = s.modPcx (fun r => { r with
        width := BitVec.ofNat 5 (2 ^ width.val), rate := BitVec.ofNat 3 (rate.val + 1), flit, reversed
        degraded := decide (width.val < 4) || decide (rate.val < 5)
        changes := satBump r.changes (bitN (r.width != BitVec.ofNat 5 (2 ^ width.val) || r.rate != BitVec.ofNat 3 (rate.val + 1))) }) →
      exec (.pcieLinkUp width rate flit reversed) s = .next (if width.val < 4 ∨ rate.val < 5 then s1.postEvent 0x000A noRing 0 (s1.pcxReg 0) else s1)) ∧
    (∀ (width : Fin 5) (rate : Fin 6) (flit reversed : Bool), s.pcieOn = false ∨ s.pcx.perstLow = true ∨ (rate.val = 5 ∧ flit = false) →
      exec (.pcieLinkUp width rate flit reversed) s = .next s) ∧
    (s.pcx.perstLow = true → exec (.perst false) s = .next { s with pcx := { s.pcx with perstLow := false } }) ∧
    exec (.perst s.pcx.perstLow) s = .next s ∧
    (s.pcx.perstLow = false → s.pcieOn = false → exec (.perst true) s = .next { s with pcx := { s.pcx with perstLow := true } }) ∧
    (∀ u : State, s.pcx.perstLow = false → s.pcieOn = true → u = s.functionReset.modPcx (fun r => { r.down with perst := satBump r.perst 1 }) →
      exec (.perst true) s = .next { u with pcx := { u.pcx with perstLow := true } }) ∧
    (∀ down, s.linkUp = true → exec (.hotReset down) s = .next (s.functionReset.modPcx fun r => { r.down with hot := satBump r.hot 1 })) ∧
    (∀ down, s.linkUp = false → exec (.hotReset down) s = .next s) ∧
    (s.configUp = false → exec .functionLevelReset s = .next s ∧ exec .d3hotEntry s = .next s ∧ exec .d0Entry s = .next s) ∧
    (s.pcx.cfg.d3hot = false → exec .d0Entry s = .next s) ∧
    (s.configUp = true → exec .functionLevelReset s = .next (s.functionReset.modPcx fun r => { r with flr := satBump r.flr 1 })) ∧
    (s.configUp = true → exec .d3hotEntry s = .next { s with pcx := { s.pcx with cfg := { s.pcx.cfg with d3hot := true } } }) ∧
    (s.configUp = true → s.pcx.cfg.d3hot = true → exec .d0Entry s = .next ((s.pcx.msix.map (·.1)).foldl State.sendPending
      { s with pcx := { s.pcx with cfg := { s.pcx.cfg with d3hot := false } } })) ∧
    (s.functionReset.pcx.msix = [] ∧ s.functionReset.hif.bells = [] ∧ (∀ r, ∃ (k : _) (w : List Compl),
      s.functionReset.ring r = { nextSeq := k, waiting := w } ∧ ∀ c ∈ w, c.opcode = 0x84 ∨ c.opcode = 0x85) ∧
      ∃ a c f l o, s.functionReset.pcx.cfg = { aer := a, aerCor := c, aerFirst := f, aerLog := l, other := o })

/-- While the function is reached and no device halt holds: an aligned DW write of BAR0 has its register's effect, one not aligned counts BAR0_BAD and is logged as unsupported (in a halt only BRU.SWRST acts). RNG.SQB_LO takes bits [31:6]. From READY on, SQ_TAIL and CQ_HEAD of a ring pair not ACTIVE count DB_IGN; SQ_TAIL sets the submission tail, CQ_HEAD consumes completions and frees their record slots, an index beyond the ring or what is written puts the pair in ERROR; EVT_HEAD and REAM_HEAD consume entries. Before READY every doorbell is held. A BAR2 write of another form counts BAR2_BAD, a BAR0 read of another form counts BAR0_BAD and fails. WCNT_LO returns the low word of W and keeps the high one. A BAR4 read of 1 to 4,096 bytes returns them, in DMA slots; at an uncorrectable line it returns the bytes before it and counts BAR4_CA. A BAR4 write of 1 to 512 bytes stores them, asking also to read the lines it covers in part, each line it cannot merge counting BAR4_CA; one that is poisoned is logged; lines outside every BAR4 region are refused and counted. Clearing a mask bit lets the pending message go. A completion that does not come, or comes poisoned, is logged as such and ends the channel's copy with 0x0E and 0xA0. A function that is not reached drops writes and answers reads of a link that is up as unsupported; without the link, memory or such a copy each changes nothing. -/
def Obligations.HostReadsAndWrites : Prop :=
  ∀ s : State,
    (∀ (off : BitVec 28) (v : Word) (meets : Bool), s.barsUp = true →
      (off.toNat % 4 = 0 → s.flt.halted = false ∨ off.toNat = 0xD0000C →
        exec (.registerWrite off v meets) s = .next (s.writeBar0 off.toNat v meets)) ∧
      (off.toNat % 4 = 0 → s.flt.halted = true → off.toNat ≠ 0xD0000C → exec (.registerWrite off v meets) s = .next s) ∧
      (off.toNat % 4 ≠ 0 → exec (.registerWrite off v meets) s = .next ((s.modPcx fun r => { r with bar0Bad := satBump r.bar0Bad 1 }).aerError 20))) ∧
    (s.barsUp = true → s.flt.halted = false → ∀ (v : Word) (meets : Bool), exec (.registerWrite 0x700000 v meets) s =
      .next (s.setRing 0 { s.ring 0 with sqb := BitVec.ofNat 64 ((s.ring 0).sqb.toNat / 2 ^ 32 * 2 ^ 32 + v.toNat / 64 * 64) })) ∧
    (s.barsUp = true → s.flt.halted = false → s.bru.stage = .ready → ∀ (r : Fin 4096) (v : BitVec 64) (g : Ring) (n k : Nat), g = s.ring r →
      n = ringSize g.cqLog.toNat → k = (bellIndex v + n - g.cqHead.toNat) % n →
      (g.st = .active → bellIndex v < ringSize g.sqLog.toNat →
        exec (.doorbellSqTail r v) s = .next (s.setRing r { g with sqTail := BitVec.ofNat 15 (bellIndex v) })) ∧
      (g.st = .active → ringSize g.sqLog.toNat ≤ bellIndex v → exec (.doorbellSqTail r v) s = .next (s.ringError r 1)) ∧
      (g.st = .active → bellIndex v < n → k ≤ g.written.length → exec (.doorbellCqHead r v) s = .next (
        (s.setRing r { g with cqHead := BitVec.ofNat 15 (bellIndex v), written := g.written.drop k }).freeSlots (g.written.take k))) ∧
      (g.st = .active → n ≤ bellIndex v ∨ g.written.length < k → exec (.doorbellCqHead r v) s = .next (s.ringError r 2)) ∧
      (g.st ≠ .active → ∀ u, u = s.setRing r { g with dbIgn := satBump g.dbIgn 1 } →
        exec (.doorbellSqTail r v) s = .next u ∧ exec (.doorbellCqHead r v) s = .next u) ∧
      exec (.doorbellEvtHead v) s = .next { s with hif := { s.hif with rgc := { s.hif.rgc with evt := s.hif.rgc.evt.consume v } } } ∧
      exec (.doorbellReamHead v) s = .next { s with hif := { s.hif with rgc := { s.hif.rgc with ream := s.hif.rgc.ream.consume v } } }) ∧
    (s.barsUp = true → s.flt.halted = false → s.bru.stage ≠ .ready → ∀ (r : Fin 4096) (v : BitVec 64) (hold : Nat → Nat → State),
      hold = (fun r off => { s with hif := { s.hif with bells := s.hif.bells ++ [(r, off, v)] } }) →
      exec (.doorbellSqTail r v) s = .next (hold r 0) ∧ exec (.doorbellCqHead r v) s = .next (hold r 8) ∧
        exec (.doorbellEvtHead v) s = .next (hold 0 0x10) ∧ exec (.doorbellReamHead v) s = .next (hold 0 0x18)) ∧
    (s.barsUp = true → exec .bar2BadWrite s = .next ((s.modPcx fun r => { r with bar2Bad := satBump r.bar2Bad 1 }).aerError 20)) ∧
    (s.linkUp = true → s.barsUp = true →
      exec .bar0BadRead s = .next (((s.modPcx fun r => { r with bar0Bad := satBump r.bar0Bad 1 }).aerError 20).emit (.read false [])) ∧
      ∀ sid : Fin 1024, exec (.wcntLoRead sid) s = .next (({ s with
        wcap := SMap.set none s.wcap sid (some (BitVec.ofNat 32 ((s.stream sid).buf.w / 2 ^ 32))) } : State).emit
          (.read true (natLe 4 (s.stream sid).buf.w)))) ∧
    (∀ (addr : BitVec 37) (len : Nat) (t : State), 1 ≤ len → len ≤ 4096 → s.linkUp = true → s.barsUp = true → t = s.asks classDma false addr.toNat len →
      ((linesOf addr.toNat len).all s.bar4Line = true → s.gddrRuns = true → (linesOf addr.toNat len).find? s.lineBad = none →
        exec (.bar4Read addr len) s = .next (t.emit (.read true (s.gddrRead addr.toNat len)))) ∧
      (∀ l, (linesOf addr.toNat len).all s.bar4Line = true → s.gddrRuns = true → (linesOf addr.toNat len).find? s.lineBad = some l →
        exec (.bar4Read addr len) s = .next (((t.modPcx fun r => { r with bar4Ca := satBump r.bar4Ca 1 }).aerError 15).emit
          (.read false (s.gddrRead addr.toNat (64 * l - addr.toNat))))) ∧
      ((linesOf addr.toNat len).all s.bar4Line = true → s.gddrRuns = false → exec (.bar4Read addr len) s = .next s) ∧
      ((linesOf addr.toNat len).all s.bar4Line = false →
        exec (.bar4Read addr len) s = .next (s.bar4Unsupported.emit (.read false [])))) ∧
    (∀ (addr : BitVec 37) (data : List Byte) (part : List Nat) (bad : Nat) (t : State), 1 ≤ data.length → data.length ≤ 512 → s.barsUp = true →
      part = (linesOf addr.toNat data.length).filter (fun l =>
          decide (64 * l < addr.toNat) || decide (addr.toNat + data.length < 64 * l + 64)) →
      bad = part.countP s.lineBad →
      t = part.foldl (fun s l => s.asks classDma false (64 * l) 64) ((s.gddrWrite addr.toNat data).asks classDma true addr.toNat data.length) →
      ((linesOf addr.toNat data.length).all s.bar4Line = true → s.gddrRuns = true → exec (.bar4Write addr data false) s = .next (
        if bad = 0 then t else (t.modPcx fun r => { r with bar4Ca := satBump r.bar4Ca bad }).aerError 15)) ∧
      ((linesOf addr.toNat data.length).all s.bar4Line = true → s.gddrRuns = false → exec (.bar4Write addr data false) s = .next s) ∧
      ((linesOf addr.toNat data.length).all s.bar4Line = false → exec (.bar4Write addr data false) s = .next s.bar4Unsupported) ∧
      exec (.bar4Write addr data true) s = .next (s.aerError 12)) ∧
    (∀ v : Fin 4096,
      (s.barsUp = true → s.flt.halted = false → exec (.msixUnmask v) s = .next (({ s with pcx := { s.pcx with
        msix := SMap.set {} s.pcx.msix v { SMap.get {} s.pcx.msix v with masked := false } } } : State).sendPending v)) ∧
      (s.barsUp = false ∨ s.flt.halted = true → exec (.msixUnmask v) s = .next s)) ∧
    (∀ (e : HostReadEnd) (x : Channel), x = s.chan e.chan →
      (x.st ≠ .idle → x.src.isHost = true → x.outcome = 0 → x.moved < x.total → s.flt.halted = false →
        exec (.completionTimeout e) s = .next ((s.aerError (if e.poisoned then 12 else 14)).copyError e.chan 0x0E 0xA0)) ∧
      (x.st = .idle ∨ x.src.isHost = false ∨ x.outcome ≠ 0 ∨ x.total ≤ x.moved ∨ s.flt.halted = true →
        exec (.completionTimeout e) s = .next s)) ∧
    (s.barsUp = false → ∀ (off : BitVec 28) (v : Word) (meets poisoned : Bool) (addr : BitVec 37) (data : List Byte),
      exec (.registerWrite off v meets) s = .next s ∧ exec .bar2BadWrite s = .next s ∧ exec (.bar4Write addr data poisoned) s = .next s) ∧
    (s.barsUp = false ∨ s.flt.halted = true → ∀ (r : Fin 4096) (v : BitVec 64), exec (.doorbellSqTail r v) s = .next s ∧
      exec (.doorbellCqHead r v) s = .next s ∧ exec (.doorbellEvtHead v) s = .next s ∧ exec (.doorbellReamHead v) s = .next s) ∧
    (s.linkUp = true → s.barsUp = false → ∀ (sid : Fin 1024) (addr : BitVec 37) (len : Nat), 1 ≤ len → len ≤ 4096 →
      exec .bar0BadRead s = .next (s.emit (.read false [])) ∧ exec (.wcntLoRead sid) s = .next (s.emit (.read false [])) ∧
        exec (.bar4Read addr len) s = .next (s.emit (.read false []))) ∧
    (s.linkUp = false → ∀ (sid : Fin 1024) (addr : BitVec 37) (len : Nat),
      exec .bar0BadRead s = .next s ∧ exec (.wcntLoRead sid) s = .next s ∧ exec (.bar4Read addr len) s = .next s) ∧
    (∀ (addr : BitVec 37) (len : Nat) (data : List Byte) (poisoned : Bool),
      (len < 1 ∨ 4096 < len → exec (.bar4Read addr len) s = .next s) ∧
      (data.length < 1 ∨ 512 < data.length → exec (.bar4Write addr data poisoned) s = .next s))

/-- While configuration requests are performed and the responder runs, a well-formed discovery object is answered by its index, an SPDM request that the responder knows is held for it (one over SMBus is served after it), another one answered as unsupported; an object of another type or of a wrong form, one while the mailbox is busy, or without either, changes nothing. An abort empties the mailbox and counts, where configuration requests are performed. GET_VERSION of version 1.0 starts the connection anew; of another version it is answered with VersionMismatch. Every other request of a version other than 1.3 is answered with VersionMismatch, one before its exchange has come so far with UnexpectedRequest, one that is too short with InvalidRequest. Else GET_CAPABILITIES, NEGOTIATE_ALGORITHMS, GET_DIGESTS, GET_CERTIFICATE, CHALLENGE and GET_MEASUREMENTS record the exchange in the connection and send their response; a slot other than 0, an offset past the chain or an unknown measurement is an InvalidRequest; the nonce is free, and signatures are by the Alias key. A request that the responder does not hold changes nothing. The layout of the messages is PRESUMED from the SPDM and DOE standards (log entry 59). -/
def Obligations.SpdmRequestsAreAnswered : Prop :=
  ∀ s : State,
    (∀ (object body : List Byte), s.configUp = true → s.spdmUp = true → s.pcx.doeBusy = none → body = object.drop 8 → object.length ≤ maxDoe →
      fieldAt object 0 2 = 1 → bitsOf (fieldAt object 4 4) 0 18 * 4 = object.length →
      (fieldAt object 2 1 = 0 → fieldAt body 0 1 = 0 → exec (.doeRequest object) s = .next (s.doeAnswer 0 [1, 0, 0, 1])) ∧
      (fieldAt object 2 1 = 0 → fieldAt body 0 1 = 1 → exec (.doeRequest object) s = .next (s.doeAnswer 0 [1, 0, 1, 0])) ∧
      (fieldAt object 2 1 = 0 → 2 ≤ fieldAt body 0 1 → exec (.doeRequest object) s = .next (s.doeAnswer 0 [0xFF, 0xFF, 0xFF, 0])) ∧
      (fieldAt object 2 1 = 1 → spdmCodes.contains (fieldAt body 1 1) = true →
        exec (.doeRequest object) s = .next { s with pcx := { s.pcx with doeBusy := some body } }) ∧
      (fieldAt object 2 1 = 1 → spdmCodes.contains (fieldAt body 1 1) = false →
        exec (.doeRequest object) s = .next (s.doeAnswer 1 (spdmError 0x13 0x07 (fieldAt body 1 1)))) ∧
      (2 ≤ fieldAt object 2 1 → exec (.doeRequest object) s = .next s)) ∧
    (∀ object : List Byte, s.configUp = false ∨ s.spdmUp = false ∨ s.pcx.doeBusy.isSome = true ∨ maxDoe < object.length ∨
        fieldAt object 0 2 ≠ 1 ∨ bitsOf (fieldAt object 4 4) 0 18 * 4 ≠ object.length → exec (.doeRequest object) s = .next s) ∧
    (s.configUp = true → ∀ u, u = s.modPcx (fun r => { r with doeAborts := satBump r.doeAborts 1 }) →
      exec .doeAbort s = .next { u with pcx := { u.pcx with doeBusy := none } }) ∧
    (s.configUp = false → exec .doeAbort s = .next s) ∧
    (∀ (q : SpdmReq) (s0 : State) (c : Spdm) (b : List Byte), s0 = s.spdmBefore q → c = s0.spdm q.smbus → b = q.body →
      (s.spdmHas q 0x84 = false → exec (.getVersion q) s = .next s) ∧
      (s.spdmHas q 0x84 = true → fieldAt b 0 1 ≠ 0x10 → exec (.getVersion q) s = .next (s0.spdmSend q.smbus (spdmError 0x10 0x41))) ∧
      (∀ r, s.spdmHas q 0x84 = true → fieldAt b 0 1 = 0x10 → r = [0x10, 0x04, 0, 0, 0, 1] ++ natLe 2 0x1300 →
        exec (.getVersion q) s = .next ((s0.setSpdm q.smbus { version := true, vca := b ++ r }).spdmSend q.smbus r)) ∧
      (∀ p ∈ ([(.getCapabilities q, 0xE1, c.version && !c.caps, 20), (.negotiateAlgorithms q, 0xE3, c.caps && !c.algs, 32),
          (.getDigests q, 0x81, c.algs, 4), (.getCertificate q, 0x82, c.algs, 8), (.challenge q, 0x83, c.algs, 44),
          (.getMeasurements q, 0xE0, c.algs, if bitAt (fieldAt b 2 1) 0 then 45 else 12)] : List (Instr × Nat × Bool × Nat)),
        (s.spdmHas q p.2.1 = false → exec p.1 s = .next s) ∧
        (s.spdmHas q p.2.1 = true → fieldAt b 0 1 ≠ 0x13 → exec p.1 s = .next (s0.spdmSend q.smbus (spdmError 0x13 0x41))) ∧
        (s.spdmHas q p.2.1 = true → fieldAt b 0 1 = 0x13 → p.2.2.1 = false → exec p.1 s = .next (s0.spdmSend q.smbus (spdmError 0x13 0x04))) ∧
        (s.spdmHas q p.2.1 = true → fieldAt b 0 1 = 0x13 → p.2.2.1 = true → b.length < p.2.2.2 →
          exec p.1 s = .next (s0.spdmSend q.smbus (spdmError 0x13 0x01)))) ∧
      (fieldAt b 0 1 = 0x13 →
        (∀ r, s.spdmHas q 0xE1 = true → c.version = true → c.caps = false → 20 ≤ b.length →
          r = spdmHead 0x61 0 0 ++ [0, Config.spdmTime, 0, 0] ++ natLe 4 0x16 ++ natLe 4 Config.spdmSize.toNat ++ natLe 4 Config.spdmSize.toNat →
          exec (.getCapabilities q) s = .next ((s0.setSpdm q.smbus { c with caps := true, vca := c.vca ++ b ++ r }).spdmSend q.smbus r)) ∧
        (∀ r, s.spdmHas q 0xE3 = true → c.caps = true → c.algs = false → 32 ≤ b.length →
          r = spdmHead 0x63 0 0 ++ natLe 2 36 ++ natLe 1 (fieldAt b 6 1 % 2) ++ [0] ++ natLe 4 8 ++
            natLe 4 (if bitAt (fieldAt b 8 4) 10 then 2 ^ 10 else 0) ++ natLe 4 (if bitAt (fieldAt b 12 4) 2 then 2 ^ 2 else 0) ++
            List.replicate 16 0 →
          exec (.negotiateAlgorithms q) s = .next ((s0.setSpdm q.smbus { c with algs := true, vca := c.vca ++ b ++ r }).spdmSend q.smbus r)) ∧
        (c.algs = true →
          (∀ r, s.spdmHas q 0x81 = true → 4 ≤ b.length → r = spdmHead 0x01 1 1 ++ sha512 s0.spdmChain →
            exec (.getDigests q) s = .next ((s0.setSpdm q.smbus { c with certs := c.certs ++ b ++ r, meas := [] }).spdmSend q.smbus r)) ∧
          (∀ r part rest, s.spdmHas q 0x82 = true → 8 ≤ b.length → rest = s0.spdmChain.drop (fieldAt b 4 2) → part = rest.take (fieldAt b 6 2) →
            r = (if fieldAt b 2 1 % 16 ≠ 0 ∨ rest = [] then spdmError 0x13 0x01
              else spdmHead 0x02 0 0 ++ natLe 2 part.length ++ natLe 2 (rest.length - part.length) ++ part) →
            exec (.getCertificate q) s = .next ((s0.setSpdm q.smbus { c with certs := c.certs ++ b ++ r, meas := [] }).spdmSend q.smbus r)) ∧
          (s.spdmHas q 0x83 = true → 44 ≤ b.length → fieldAt b 2 1 ≠ 0 →
            exec (.challenge q) s = .next (s0.spdmSend q.smbus (spdmError 0x13 0x01))) ∧
          (∀ r n, s.spdmHas q 0x83 = true → 44 ≤ b.length → fieldAt b 2 1 = 0 → n = s0.freeNonce →
            r = spdmHead 0x03 0 1 ++ sha512 s0.spdmChain ++ n.1 ++
              (if fieldAt b 3 1 = 0 then [] else sha512 (measAll.flatMap s0.measBlock)) ++ natLe 2 0 ++ (b.drop 36).take 8 →
            exec (.challenge q) s = .next ((n.2.setSpdm q.smbus { c with certs := [], meas := [] }).spdmSend q.smbus
              (r ++ n.2.aliasSign "responder-challenge_auth signing" (c.vca ++ c.certs ++ b ++ r)))) ∧
          (∀ (ks : List Nat) (sign : Bool), s.spdmHas q 0xE0 = true → sign = bitAt (fieldAt b 2 1) 0 → (if sign then 45 else 12) ≤ b.length →
            ks = (if fieldAt b 3 1 = 0 then [] else if fieldAt b 3 1 = 0xFF then measAll else measAll.filter (· == fieldAt b 3 1)) →
            ((ks = [] ∧ fieldAt b 3 1 ≠ 0) ∨ (sign = true ∧ fieldAt b 36 1 ≠ 0) →
              exec (.getMeasurements q) s = .next (s0.spdmSend q.smbus (spdmError 0x13 0x01))) ∧
            (∀ (r l : List Byte) n, ks ≠ [] ∨ fieldAt b 3 1 = 0 → sign = false ∨ fieldAt b 36 1 = 0 → n = s0.freeNonce →
              l = ks.flatMap s0.measBlock →
              r = spdmHead 0x60 (if fieldAt b 3 1 = 0 then 11 else 0) 0 ++ natLe 1 ks.length ++ natLe 3 l.length ++ l ++ n.1 ++ natLe 2 0 ++
                (b.drop (if sign then 37 else 4)).take 8 →
              exec (.getMeasurements q) s = .next (
                if sign then (n.2.setSpdm q.smbus { c with meas := [] }).spdmSend q.smbus
                  (r ++ n.2.aliasSign "responder-measurements signing" (c.vca ++ (c.meas ++ b ++ r)))
                else (n.2.setSpdm q.smbus { c with meas := c.meas ++ b ++ r }).spdmSend q.smbus r))))))

/-- A write of RNG.CFG, that of RING_ENABLE or RING_DISABLE: it sets the fields of a disabled ring pair, and with ENABLE makes it ACTIVE, its bases latched and its indices 0; of an enabled one it clears ENABLE alone, which makes it DRAINING with the completions of its descriptors dropped; any other write of an enabled one is ignored. A DRAINING pair is OFF once nothing taken is left. A write of a global ring's CFG sets its fields; one that sets ENABLE starts it at tail 0 and phase 1; from READY on, the ream ring gets the retained ream. The descriptor at the head of a ring that may take it is refused with its check and what its opcode has INFO name of the descriptor, or handed to its executor once that takes it. A FENCE at the front of the taken descriptors completes. A SEAL with no earlier load, copy or sweep writes its flag once it can be reached, and completes; an address that is refused ends it with its check, a flag in part of an uncorrectable line with 0x0F and 0xA1. The oldest waiting completion of an ACTIVE or ERROR pair with room is written, while the host can be reached, at the tail with the phase, after the ABORTED clusters it names are cleared, and signals the ring's vector unless it is QUIET. Otherwise each command changes nothing. That setting up a ring turns on bus mastering is log entry 8's. -/
def Obligations.RingsTakeFenceSealAndComplete : Prop :=
  ∀ s : State,
    (∀ (r : Fin 4096) (v : Word) (g x : Ring), s.writable = true → g = s.ring r → x = { g with
        sqLog := BitVec.ofNat 4 (bitsOf v.toNat 27 4), cqLog := BitVec.ofNat 4 (bitsOf v.toNat 23 4)
        vector := BitVec.ofNat 12 (bitsOf v.toNat 11 12), chan := BitVec.ofNat 5 (bitsOf v.toNat 6 5) } →
      (∀ u, g.enable = false → bitAt v.toNat 31 = true → u = s.masterOn.setRing r { x with
          enable := true, st := .active, sqLoc := g.sqb, cqLoc := g.cqb, sqHead := 0, sqTail := 0, cqTail := 0, cqHead := 0
          phase := true, taken := [], written := [] } →
        exec (.ringEnable r v) s = .next u ∧ exec (.ringDisable r v) s = .next u) ∧
      (g.enable = false → bitAt v.toNat 31 = false →
        exec (.ringEnable r v) s = .next (s.setRing r x) ∧ exec (.ringDisable r v) s = .next (s.setRing r x)) ∧
      (∀ u, g.enable = true → x = g → bitAt v.toNat 31 = false →
        u = ((g.waiting.filterMap (·.clear)).foldl (fun s h => s.clearAborted h.toNat) s).setRing r { g with
          enable := false, st := .draining, written := []
          waiting := (g.written.filter fun c => c.opcode == 0x85) ++ g.waiting.filter fun c => c.opcode == 0x84 || c.opcode == 0x85 } →
        exec (.ringEnable r v) s = .next u ∧ exec (.ringDisable r v) s = .next u) ∧
      (g.enable = true → x ≠ g ∨ bitAt v.toNat 31 = true →
        exec (.ringEnable r v) s = .next s ∧ exec (.ringDisable r v) s = .next s)) ∧
    (∀ r : Fin 4096, ((s.ring r).st = .draining → (s.ring r).taken = [] →
        exec (.ringDrained r) s = .next (s.setRing r { s.ring r with st := .off })) ∧
      ((s.ring r).st ≠ .draining ∨ (s.ring r).taken ≠ [] → exec (.ringDrained r) s = .next s)) ∧
    (∀ (v : Word) (on : Bool) (t : State) (y : GlobalRing → GlobalRing), s.writable = true → on = bitAt v.toNat 31 →
      t = (if on then s.masterOn else s) →
      y = (fun g => { g with enable := on, log := BitVec.ofNat 4 (bitsOf v.toNat 27 4), vector := BitVec.ofNat 12 (bitsOf v.toNat 15 12) }) →
      (on = true → s.hif.rgc.evt.enable = false → exec (.eventRingEnable v) s = .next { t with hif := { t.hif with rgc := { t.hif.rgc with
        evt := { y s.hif.rgc.evt with loc := s.hif.rgc.evt.base, tail := 0, head := 0, used := 0, phase := true } } } }) ∧
      (on = false ∨ s.hif.rgc.evt.enable = true → exec (.eventRingEnable v) s = .next { t with hif := { t.hif with rgc := { t.hif.rgc with
        evt := y s.hif.rgc.evt } } }) ∧
      (∀ u : State, on = true → s.hif.rgc.ream.enable = false → u = { t with hif := { t.hif with rgc := { t.hif.rgc with
          ream := { y s.hif.rgc.ream with loc := s.hif.rgc.ream.base, tail := 0, head := 0, used := 0, phase := true }
          bufLoc := s.hif.rgc.buf } } } →
        exec (.reamRingEnable v) s = .next (if s.bru.stage = .ready then u.copyRetained else u)) ∧
      (∀ u : State, on = false ∨ s.hif.rgc.ream.enable = true → u = { t with hif := { t.hif with rgc := { t.hif.rgc with
          ream := y s.hif.rgc.ream } } } →
        exec (.reamRingEnable v) s = .next (if s.bru.stage = .ready then u.copyRetained else u))) ∧
    (s.writable = false → ∀ (r : Fin 4096) (v : Word), exec (.ringEnable r v) s = .next s ∧ exec (.ringDisable r v) s = .next s ∧
      exec (.eventRingEnable v) s = .next s ∧ exec (.reamRingEnable v) s = .next s) ∧
    (∀ r : Fin 4096, s.mayTake r = true →
      (∀ e, descRefused (s.headDesc r) = some e →
        exec (.descriptorTake r) s = .next ((s.setRing r ((s.ring r).take (s.headDesc r))).finish r (s.ring r).nextSeq e.1 e.2 (refuseInfo (s.headDesc r)))) ∧
      (∀ t, descRefused (s.headDesc r) = none → s.accept r (s.headDesc r) = some t → exec (.descriptorTake r) s = .next t) ∧
      (descRefused (s.headDesc r) = none → s.accept r (s.headDesc r) = none → exec (.descriptorTake r) s = .next s)) ∧
    (∀ r : Fin 4096, s.mayTake r = false → exec (.descriptorTake r) s = .next s) ∧
    (∀ r : Fin 4096,
      (∀ (t : Taken) (rest : List Taken), (s.ring r).taken = t :: rest → t.opcode = 8 → s.flt.halted = false →
        exec (.fence r) s = .next (s.finish r t.seqNo outDone 0 0)) ∧
      ((∀ t ∈ (s.ring r).taken.head?, t.opcode ≠ 8) ∨ s.flt.halted = true → exec (.fence r) s = .next s)) ∧
    (∀ (r : Fin 4096) (t : Taken) (k : Nat), k = (s.ring r).taken.findIdx (fun t => t.opcode == 7) → (s.ring r).taken[k]? = some t →
      s.flt.halted = false → (((s.ring r).taken.take k).any fun t => t.opcode == 1 || t.opcode == 3 || t.opcode == 4) = false →
      (fieldAt t.bytes 8 8 = 0 → exec (.seal r) s = .next (s.finish r t.seqNo outDone 0 0)) ∧
      (∀ e, fieldAt t.bytes 8 8 ≠ 0 → s.resolve r (fieldAt t.bytes 8 8) 8 = .error e →
        exec (.seal r) s = .next (s.finish r t.seqNo e.1 e.2 0)) ∧
      (∀ l, fieldAt t.bytes 8 8 ≠ 0 → s.resolve r (fieldAt t.bytes 8 8) 8 = .ok l →
        (s.reaches l = false → exec (.seal r) s = .next s) ∧
        (∀ a, l = .gddr a → s.partBad a 8 = true → s.reaches l = true → exec (.seal r) s = .next (s.finish r t.seqNo 0x0F 0xA1 0)) ∧
        ((∀ a, l = .gddr a → s.partBad a 8 = false) → s.reaches l = true →
          exec (.seal r) s = .next ((s.devWrite l ((t.bytes.drop 0x10).take 8)).finish r t.seqNo outDone 0 0)))) ∧
    (∀ r : Fin 4096, (∀ t ∈ (s.ring r).taken, t.opcode ≠ 7) ∨ s.flt.halted = true ∨
        (((s.ring r).taken.take ((s.ring r).taken.findIdx fun t => t.opcode == 7)).any fun t =>
          t.opcode == 1 || t.opcode == 3 || t.opcode == 4) = true → exec (.seal r) s = .next s) ∧
    (∀ (r : Fin 4096) (g : Ring) (c : Compl) (rest : List Compl) (s1 : State), g = s.ring r → g.waiting = c :: rest →
      g.st = .active ∨ g.st = .error → s.hostUp = true → g.written.length < ringSize g.cqLog.toNat →
      s1 = ((match c.clear with
        | none => s
        | some h => s.clearAborted h.toNat).hostWrite (g.cqLoc.toNat + 16 * g.cqTail.toNat)
          (natLe 16 (c.pack g.phase g.sqHead.toNat))).setRing r g.post →
      exec (.completionWrite r) s = .next (if c.quiet then s1 else s1.signal g.vector.toNat)) ∧
    (∀ (r : Fin 4096) (g : Ring), g = s.ring r → g.waiting = [] ∨ (g.st ≠ .active ∧ g.st ≠ .error) ∨ s.hostUp = false ∨
      ringSize g.cqLog.toNat ≤ g.written.length → exec (.completionWrite r) s = .next s)

/-- The oldest descriptor of the root firmware acts by its opcode and kind, and finishes; what is refused names in INFO what its opcode has INFO name of the descriptor itself. RUN_SHEET starts a sheet of its image, or is refused; an image with a cluster or route missing is given one first, a descriptor waiting while a spare is in BIST and ending with 0xA4 where none is found. With MODE 1 it drains the image it loaded. TIME_ACTION arms a held unit at its START where its target allows, disarms it, or programs a held PPS_OUT pin; a START that is no time is 0x82, a unit, pin or image not held refused. CLAIM of a region zeroes and records the lines found, or ends with why none are; of a free resource makes the ring pair its holder, one claimed by another is refused with 0x90 and that ring pair, by its own with 0x91, units 30 and 31 with 0x92. RELEASE gives back a region that is not busy, a resource, an admission, or an image, whose pending sweeps end and which drains unless a sweep still runs on it; what the ring pair does not hold is refused with 0x95, a busy region with 0x96. A command without such a descriptor at the front of the queue changes nothing. -/
def Obligations.FirmwareActsOnDescriptors : Prop :=
  ∀ s : State,
    (∀ (w : Work) (s1 : State) (b : List Byte) (r h : Nat), b = w.bytes → r = w.ring.toNat → h = fieldAt b 4 2 → s.fwHead 2 = some (w, s1) →
      (∀ seed, bitAt (fieldAt b 0x10 1) 0 = false → seed = (if bitAt (fieldAt b 0x10 1) 1 then some (fieldAt b 8 8) else none) →
        (∀ e, s1.runRefused r h (fieldAt b 6 2) = some e → exec .runSheet s = .next (s1.finish r w.seqNo e.1 e.2 (refuseInfo b))) ∧
        (s1.runRefused r h (fieldAt b 6 2) = none →
          ((s1.image h).whole = true → exec .runSheet s = .next (s1.startSheet w h (fieldAt b 6 2) seed)) ∧
          ((s1.image h).whole = false → s1.bistOf h = true → exec .runSheet s = .next s) ∧
          ((s1.image h).whole = false → s1.bistOf h = false → s1.rehome h = none →
            exec .runSheet s = .next (s1.finish r w.seqNo outFatal 0xA4 (refuseInfo b))) ∧
          (∀ s2, (s1.image h).whole = false → s1.bistOf h = false → s1.rehome h = some s2 →
            exec .runSheet s = .next (s2.startSheet w h (fieldAt b 6 2) seed))) ∧
        exec .drainSheet s = .next s) ∧
      (bitAt (fieldAt b 0x10 1) 0 = true →
        (s1.loaded h = false → exec .drainSheet s = .next (s1.finish r w.seqNo badState.1 badState.2 (refuseInfo b))) ∧
        (s1.loaded h = true → (s1.image h).ring.toNat ≠ r → exec .drainSheet s = .next (s1.finish r w.seqNo notHeld.1 notHeld.2 (refuseInfo b))) ∧
        (s1.loaded h = true → (s1.image h).ring.toNat = r → exec .drainSheet s = .next (s1.drainFor h (w.ring, w.seqNo))) ∧
        exec .runSheet s = .next s)) ∧
    (∀ (w : Work) (s1 : State) (b : List Byte) (r u : Nat), b = w.bytes → r = w.ring.toNat → u = fieldAt b 5 1 →
      (timeOfWord (fieldAt b 8 12) = none → ∀ t, t = s1.finish r w.seqNo outFormat 0x82 (refuseInfo b) →
        (s.timeHead 0 = some (w, s1) → exec .timeActionArm s = .next t) ∧ (s.timeHead 1 = some (w, s1) → exec .timeActionDisarm s = .next t) ∧
        (s.timeHead 2 = some (w, s1) → exec .timeActionPps s = .next t)) ∧
      (∀ start out, timeOfWord (fieldAt b 8 12) = some start → out = s1.finish r w.seqNo notHeld.1 notHeld.2 (refuseInfo b) →
        (s.timeHead 0 = some (w, s1) →
          (s1.ringHolds r 1 u = false → exec .timeActionArm s = .next out) ∧
          (∀ e, s1.ringHolds r 1 u = true → s1.targetRefused r (fieldAt b 6 2) (fieldAt b 0x20 8) = some e →
            exec .timeActionArm s = .next (s1.finish r w.seqNo e.1 e.2 (refuseInfo b))) ∧
          (s1.ringHolds r 1 u = true → s1.targetRefused r (fieldAt b 6 2) (fieldAt b 0x20 8) = none → exec .timeActionArm s = .next
            ((s1.arm u (fieldAt b 6 2) (fieldAt b 0x20 8) start (fieldAt b 0x18 6) (fieldAt b 0x1E 2)).finish r w.seqNo outDone 0 u))) ∧
        (s.timeHead 1 = some (w, s1) →
          (s1.ringHolds r 1 u = false → exec .timeActionDisarm s = .next out) ∧
          (s1.ringHolds r 1 u = true → exec .timeActionDisarm s = .next ((s1.disarm u).finish r w.seqNo outDone 0 u))) ∧
        (s.timeHead 2 = some (w, s1) →
          (s1.ringHolds r 2 u = false ∨ (fieldAt b 0x28 1 % 4 = 2 ∧ s1.ringHolds r 1 (fieldAt b 0x28 1 / 8) = false) →
            exec .timeActionPps s = .next out) ∧
          (s1.ringHolds r 2 u = true → fieldAt b 0x28 1 % 4 ≠ 2 ∨ s1.ringHolds r 1 (fieldAt b 0x28 1 / 8) = true →
            ∀ pps, pps = SMap.modify {} s1.tb.pps u (fun q : PpsPin => q.program (fieldAt b 0x28 1 % 4) (bitAt (fieldAt b 0x28 1) 2)
                (fieldAt b 0x28 1 / 8) (signedOf 32 (fieldAt b 0x2C 4)) (fieldAt b 0x30 4) s1.now) →
              exec .timeActionPps s = .next (({ s1 with tb := { s1.tb with pps } } : State).finish r w.seqNo outDone 0 u))))) ∧
    (∀ (w : Work) (s1 : State) (b : List Byte) (r : Nat), b = w.bytes → r = w.ring.toNat → s.fwHead 9 = some (w, s1) →
      (fieldAt b 4 1 = 0 → exec .claimResource s = .next s ∧
        (∀ e, s1.placeClaim b = .error e → exec .claimRegion s = .next (s1.finish r w.seqNo e.1.1 e.1.2 e.2)) ∧
        (∀ base, s1.placeClaim b = .ok base → s1.freeEntry = none → exec .claimRegion s = .next (s1.finish r w.seqNo outFit 0x22 0)) ∧
        (∀ base n m, s1.placeClaim b = .ok base → s1.freeEntry = some n → m = ceilDiv (fieldAt b 0x10 4) 15 * 15 →
          exec .claimRegion s = .next (((s1.gddrZero base m).setRegion n
            { base := BitVec.ofNat 32 base, lines := BitVec.ofNat 32 m, valid := true, host := true, bar4 := bitAt (fieldAt b 6 2) 0
              ring := w.ring, name := BitVec.ofNat 64 (fieldAt b 8 8) }).finish r w.seqNo outDone 0 (n + 2 ^ 32 * base)))) ∧
      (∀ kind n, kind = fieldAt b 4 1 → n = fieldAt b 5 1 → kind ≠ 0 → exec .claimRegion s = .next s ∧
        (kind = 1 → 30 ≤ n → exec .claimResource s = .next (s1.finish r w.seqNo outConflict 0x92 (refuseInfo b))) ∧
        (kind ≠ 1 ∨ n < 30 →
          (s1.holder kind n = none →
            exec .claimResource s = .next ((s1.setHolder kind n (some w.ring)).finish r w.seqNo outDone 0 n)) ∧
          (s1.holder kind n = some w.ring → exec .claimResource s = .next (s1.finish r w.seqNo outConflict 0x91 (refuseInfo b))) ∧
          (∀ k, s1.holder kind n = some k → k ≠ w.ring →
            exec .claimResource s = .next (s1.finish r w.seqNo outConflict 0x90 k.toNat))))) ∧
    (∀ (w : Work) (s1 : State) (b : List Byte) (r : Nat) (gone : State), b = w.bytes → r = w.ring.toNat → s.fwHead 10 = some (w, s1) →
      gone = s1.finish r w.seqNo outState 0x95 0 →
      (fieldAt b 4 1 = 0 →
        (s1.namedRegion r (BitVec.ofNat 64 (fieldAt b 8 8)) = none → exec .releaseResource s = .next gone) ∧
        (∀ g, s1.namedRegion r (BitVec.ofNat 64 (fieldAt b 8 8)) = some g → exec .releaseResource s = .next (
          if s1.regionBusy g then s1.finish r w.seqNo outState 0x96 0 else (s1.freeRegion g).finish r w.seqNo outDone 0 0))) ∧
      (∀ kind n, kind = fieldAt b 4 1 → n = fieldAt b 5 1 → kind ≠ 0 → kind ≤ 4 →
        (s1.ringHolds r kind n = true →
          exec .releaseResource s = .next (((s1.freeUnit kind n).setHolder kind n none).finish r w.seqNo outDone 0 0)) ∧
        (s1.ringHolds r kind n = false → exec .releaseResource s = .next gone)) ∧
      (∀ (h : Nat) (im : Image), fieldAt b 4 1 = 5 → h = fieldAt b 6 2 → im = s1.image h →
        (s1.loaded h = false ∨ im.ring.toNat ≠ r ∨ im.releasing.isSome = true → exec .releaseImage s = .next gone) ∧
        (∀ s0 s2 : State, s1.loaded h = true → im.ring.toNat = r → im.releasing = none → s0 = s1.enterTaken →
          s2 = ((s0.vat.queue.filter fun z => z.handle.toNat == h && z.op == 0).foldl (fun (s : State) z => s.endPending z outState 0x72)
            { s0 with vat := { s0.vat with queue := s0.vat.queue.filter fun z => !(z.handle.toNat == h && z.op == 0) } }).setImage h
              { im with releasing := some (w.ring, w.seqNo) } →
          exec .releaseImage s = .next (if s2.vatNames h then s2 else s2.drainRelease h))) ∧
      (fieldAt b 4 1 = 6 →
        (s1.holdsAdmission r (fieldAt b 6 2) = true →
          exec .releaseAdmission s = .next ((s1.endAdmission (fieldAt b 6 2)).finish r w.seqNo outDone 0 0)) ∧
        (s1.holdsAdmission r (fieldAt b 6 2) = false → exec .releaseAdmission s = .next gone)) ∧
      (4 < fieldAt b 4 1 → exec .releaseResource s = .next s) ∧ (fieldAt b 4 1 ≠ 5 → exec .releaseImage s = .next s) ∧
      (fieldAt b 4 1 ≠ 6 → exec .releaseAdmission s = .next s)) ∧
    (s.fwHead 2 = none → exec .runSheet s = .next s ∧ exec .drainSheet s = .next s) ∧
    (s.timeHead 0 = none → exec .timeActionArm s = .next s) ∧ (s.timeHead 1 = none → exec .timeActionDisarm s = .next s) ∧
    (s.timeHead 2 = none → exec .timeActionPps s = .next s) ∧
    (s.fwHead 9 = none → exec .claimRegion s = .next s ∧ exec .claimResource s = .next s) ∧
    (s.fwHead 10 = none → exec .releaseResource s = .next s ∧ exec .releaseImage s = .next s ∧ exec .releaseAdmission s = .next s)

/-- With no device halt: an idle channel starts its next copy, plain or paced by the command. A plain copy that has bytes left, without an error and with both ends reachable, moves its next piece; a source that cannot be read is a memory error at once, part of an uncorrectable line to be written is one at the end of the copy, its other lines written (0x0F, 0xA1, the destination left unspecified). A paced copy that is active moves an entry while the level is above its low mark, or returns to idle. An idle one polls its header once a calender frame, in DMA slots, and becomes active at its high mark, or at what is left where that is less; a header that cannot be read is a memory error. A copy whose bytes are all moved, or that has an error, completes with its outcome, DONE or ERRORS counting. Otherwise each command changes nothing. -/
def Obligations.CopiesMoveAndComplete : Prop :=
  ∀ (s : State) (ch : Fin 32) (x : Channel), x = s.chan ch →
    (s.flt.halted = false →
    (∀ (w : Work) (rest : List Work), x.st = .idle → x.queue = w :: rest →
      (bitAt (fieldAt w.bytes 4 1) 0 = false → exec (.dmaCopy ch) s = .next ((s.setChan ch { x with queue := rest }).startCopy ch w) ∧
        exec (.pacedCopy ch) s = .next s) ∧
      (bitAt (fieldAt w.bytes 4 1) 0 = true → exec (.pacedCopy ch) s = .next ((s.setChan ch { x with queue := rest }).startPaced ch w) ∧
        exec (.dmaCopy ch) s = .next s)) ∧
    (x.st = .copy → x.moved < x.total → x.outcome = 0 → s.reaches x.src = true → s.reaches x.dst = true →
      (s.devRead (x.src.plus x.moved) x.piece = none → exec (.dmaCopy ch) s = .next (s.memError ch)) ∧
      (∀ bs r y, s.devRead (x.src.plus x.moved) x.piece = some bs → r = s.copyWrite (x.src.plus x.moved) (x.dst.plus x.moved) bs →
        y = { x with moved := x.moved + x.piece, failed := x.failed || r.2 } →
        (y.failed = false ∨ x.moved + x.piece < x.total → exec (.dmaCopy ch) s = .next (r.1.setChan ch y)) ∧
        (y.failed = true → x.total ≤ x.moved + x.piece → exec (.dmaCopy ch) s = .next ((r.1.setChan ch y).memError ch)))) ∧
    (x.st = .pacedActive → x.moved < x.total → x.outcome = 0 → s.reaches x.src = true → s.reaches x.dst = true →
      (s.devRead (.gddr x.header) 64 = none → exec (.pacedCopy ch) s = .next (s.memError ch)) ∧
      (∀ hdr low s1, s.devRead (.gddr x.header) 64 = some hdr → s1 = s.asks classDma false x.header 64 →
        low = (if x.total - x.moved ≤ fieldAt x.cur.bytes 0x30 4 then 0 else fieldAt x.cur.bytes 0x34 4) →
        exec (.pacedCopy ch) s = .next (if low < x.level hdr then s1.moveEntry ch hdr else s1.setChan ch { x with st := .pacedIdle }))) ∧
    (x.st = .pacedIdle → x.outcome = 0 → x.pollFrame ≠ some s.xms.regs.frame.toNat →
      (s.devRead (.gddr x.header) 64 = none → exec (.pacedPoll ch) s = .next (s.memError ch)) ∧
      (∀ hdr, s.devRead (.gddr x.header) 64 = some hdr → exec (.pacedPoll ch) s = .next ((s.asks classDma false x.header 64).setChan ch { x with
        pollFrame := some s.xms.regs.frame.toNat
        st := if min (fieldAt x.cur.bytes 0x30 4) (x.total - x.moved) ≤ x.level hdr then .pacedActive else .pacedIdle }))) ∧
    (x.st ≠ .idle →
      (x.outcome = 0 → x.total ≤ x.moved → exec (.dmaCopyComplete ch) s = .next ((s.setChan ch { x.rest with done := x.done + 1 }).finish
        x.cur.ring.toNat x.cur.seqNo 0 x.check x.bytesMoved)) ∧
      (x.outcome ≠ 0 → exec (.dmaCopyComplete ch) s = .next ((s.setChan ch { x.rest with errors := satBump x.errors 1 }).finish
        x.cur.ring.toNat x.cur.seqNo x.outcome x.check x.bytesMoved)))) ∧
    (s.flt.halted = true ∨ (x.st ≠ .idle ∧ x.st ≠ .copy) ∨ (x.st = .idle ∧ x.queue = []) ∨ (x.st = .copy ∧ (x.total ≤ x.moved ∨
      x.outcome ≠ 0 ∨ s.reaches x.src = false ∨ s.reaches x.dst = false)) → exec (.dmaCopy ch) s = .next s) ∧
    (s.flt.halted = true ∨ (x.st ≠ .idle ∧ x.st ≠ .pacedActive) ∨ (x.st = .idle ∧ x.queue = []) ∨ (x.st = .pacedActive ∧ (x.total ≤ x.moved ∨
      x.outcome ≠ 0 ∨ s.reaches x.src = false ∨ s.reaches x.dst = false)) → exec (.pacedCopy ch) s = .next s) ∧
    (x.st ≠ .pacedIdle ∨ x.outcome ≠ 0 ∨ x.pollFrame = some s.xms.regs.frame.toNat ∨ s.flt.halted = true →
      exec (.pacedPoll ch) s = .next s) ∧
    (x.st = .idle ∨ (x.outcome = 0 ∧ x.moved < x.total) ∨ s.flt.halted = true → exec (.dmaCopyComplete ch) s = .next s)

/-- On an open port, a packet whose CRC, LEN and repeated SEQ are right and whose SEQ is the one expected is accepted, its class's SEQ counts and an ACK is due; any other gets a NAK. An ACK releases the packets up to its SEQ and lets waiting ones take their room; a NAK sends again from its SEQ; the ACK timer sends the ACK due; a resend timeout sends again from the oldest packet; without ACK progress, with a packet held, the port fails with cause 2. A LINK block of another rank, unknown or with a newer LSV, is taken and forwarded on the other ports. A changed map, once GO has been seen, gives new routes, counts, and posts event 0x0065 with the ranks out of reach. A trigger packet that is new and not stale is delivered, its key kept, and forwarded with one hop less; a repeat, a stale one, and one without room for its key are dropped and counted, each by itself. A closed port, a class without packets, and each command without what it acts on change nothing. -/
def Obligations.XomosLinksRetryAndRoute : Prop :=
  ∀ s : State,
    (∀ p : Fin 8, s.portOpen p = true →
      (∀ (k : XPkt) (x : XPort) (c : PortCls), x = s.xport p → c = x.clsOf k.cls.toNat → packetClass k.cls.toNat = true →
        (packetSound k = true → k.seq = c.rxSeq → exec (.xomosPacketRx p k) s = .next (
          (s.setXport p (x.setCls k.cls.toNat { c with nakAt := none, rxSeq := c.rxSeq + 1, ackDue := true })).takePacket p
            { seqNo := k.seq, cls := k.cls, dst := k.dst, src := k.src, kind := k.kind, tag := k.tag, data := k.data })) ∧
        (k.seq = c.rxSeq → packetSound k = false → exec (.xomosPacketRx p k) s = .next (
          (s.setXport p (x.setCls k.cls.toNat { c with nakAt := none })).sendNak p k.cls.toNat)) ∧
        (k.seq ≠ c.rxSeq → exec (.xomosPacketRx p k) s = .next (s.sendNak p k.cls.toNat))) ∧
      (∀ (cls : BitVec 4) (seq : BitVec 12) (x : XPort) (c : PortCls), packetClass cls.toNat = true → x = s.xport p → c = x.clsOf cls.toNat →
        exec (.xomosAck p cls seq) s = .next ((s.setXport p (x.setCls cls.toNat { c with
          store := c.store.filter fun k => decide (2048 ≤ (seq - k.seqNo).toNat) })).refill p cls.toNat c.queue.length) ∧
        exec (.xomosNak p cls seq) s = .next (s.resend p cls.toNat seq) ∧
        (c.ackDue = true → exec (.ackTimer p cls) s = .next ((s.setXport p (x.setCls cls.toNat { c with ackDue := false })).sendBlock p 0x84
          (ackFields (c.rxSeq - 1).toNat cls.toNat))) ∧
        (c.ackDue = false → exec (.ackTimer p cls) s = .next s) ∧
        (∀ k rest, c.store = k :: rest → exec (.resendTimeout p cls) s = .next (s.resend p cls.toNat k.seqNo) ∧
          exec (.ackProgressTimeout p) s = .next (s.failPort p 2)) ∧
        (c.store = [] → exec (.resendTimeout p cls) s = .next s)) ∧
      ((∀ k ∈ [3, 6, 8], ((s.xport p).clsOf k).store = []) → exec (.ackProgressTimeout p) s = .next s) ∧
      (∀ (rank : BitVec 15) (active lsv : BitVec 8) (known : Bool) (d : Nat), known = (s.xms.map.any fun r => r.1 == rank.toNat) →
        d = (lsv - (SMap.get {} s.xms.map rank.toNat : LinkMap).lsv).toNat →
        (s.xms.st.placed = true → rank ≠ s.xms.regs.rank → known = false ∨ (d ≠ 0 ∧ d < 128) →
          exec (.linkBlock p rank active lsv) s = .next (({ s with xms := s.xms.take rank active lsv } : State).floodBlock (some p.val) 0x98
            (linkFields rank.toNat active.toNat lsv.toNat))) ∧
        (s.xms.st.placed = false ∨ rank = s.xms.regs.rank ∨ (known = true ∧ (d = 0 ∨ 128 ≤ d)) →
          exec (.linkBlock p rank active lsv) s = .next s))) ∧
    (∀ (p : Fin 8) (k : XPkt) (cls : BitVec 4) (seq : BitVec 12) (rank : BitVec 15) (active lsv : BitVec 8),
      (s.portOpen p = false → exec (.ackProgressTimeout p) s = .next s ∧ exec (.linkBlock p rank active lsv) s = .next s) ∧
      (s.portOpen p = false ∨ packetClass k.cls.toNat = false → exec (.xomosPacketRx p k) s = .next s) ∧
      (s.portOpen p = false ∨ packetClass cls.toNat = false → exec (.xomosAck p cls seq) s = .next s ∧ exec (.xomosNak p cls seq) s = .next s ∧
        exec (.ackTimer p cls) s = .next s ∧ exec (.resendTimeout p cls) s = .next s)) ∧
    (∀ (x : Xms) (far : Nat) (s1 : State), x = s.xms → x.dirty = true → x.goSeen = true → s.flt.halted = false → x.st.placed = true →
      far = systemSize x.dims - 1 - s.findRoutes.length →
      s1 = { s with xms := { x with
        routes := s.findRoutes, dirty := false, st := if x.st = .confirmed then .routed else x.st
        cnt := { x.cnt with changes := satBump x.cnt.changes 1, unreach := BitVec.ofNat 15 far } } } →
      exec .routeInstall s = .next (s1.reroute.postEvent 0x0065 noRing 0 (far + 2 ^ 32 * (x.last.1.toNat * 2 ^ 16 + x.last.2.toNat)))) ∧
    (s.xms.dirty = false ∨ s.xms.goSeen = false ∨ s.flt.halted = true ∨ s.xms.st.placed = false → exec .routeInstall s = .next s) ∧
    (∀ (p : Fin 8) (m : BitVec 256) (hops : BitVec 6) (mine : Nat × Packet → Bool), mine = (fun a => a.1 == p.val && a.2.tag.setWidth 6 == hops &&
        (a.2.data == (List.range 3).map fun k => BitVec.ofNat 96 (bitsOf m.toNat (96 * k) 96))) →
      (s.xms.arrived.find? mine = none ∨ s.flt.halted = true → exec (.xomosTriggerPacket p m hops) s = .next s) ∧
      (∀ (a : Nat × Packet) (keys : List TrigKey) (t : TrigMsg) (seen : Bool) (put : XmsCnt → List TrigKey → State),
        s.xms.arrived.find? mine = some a → keys = s.xms.keys.filter (fun k => decide (s.runNow < k.seen + hundredMicros)) →
        t = TrigMsg.remote m.toNat → s.flt.halted = false →
        seen = (keys.any fun k => k.rank == t.rank && k.pipe == t.pipe && k.tseq == t.tseq && k.bad == t.bad) →
        put = (fun c keys => { s with xms := { s.xms with
          arrived := s.xms.arrived.eraseIdx (s.xms.arrived.findIdx mine), keys, cnt := c } }) →
        (seen = true → exec (.xomosTriggerPacket p m hops) s = .next (put { s.xms.cnt with dup := s.xms.cnt.dup + 1 } keys)) ∧
        (seen = false → t.due + hundredMicros < s.now →
          exec (.xomosTriggerPacket p m hops) s = .next (put { s.xms.cnt with stale := satBump s.xms.cnt.stale 1 } keys)) ∧
        (seen = false → s.now ≤ t.due + hundredMicros → 4096 ≤ keys.length →
          exec (.xomosTriggerPacket p m hops) s = .next (put { s.xms.cnt with full := satBump s.xms.cnt.full 1 } keys)) ∧
        (∀ s1 : State, seen = false → s.now ≤ t.due + hundredMicros → keys.length < 4096 →
          s1 = (put s.xms.cnt (keys ++ [{ rank := t.rank, pipe := t.pipe, tseq := t.tseq, bad := t.bad, seen := s.runNow }])).deliverRemote t →
          exec (.xomosTriggerPacket p m hops) s = .next (if hops = 0 then s1
            else s1.floodPacket (some p.val) { a.2 with tag := BitVec.ofNat 32 (hops.toNat - 1), seqNo := 0, resends := 0 }))))

/-- With no device halt: DISC of version 1 on an ACTIVE port records the neighbour and, with a coordinate held, answers COORD, or marks the link MISWIRED. On an open port COORD, unless ALONE or DUPLICATE, is taken as R563, R564, R569 and R571 say: one of the own origin that implies another place marks the link MISWIRED, and a sender at an own place is a duplicate; else the device joins the sender's system where the place implied is free, takes a higher EPOCH, sends the map to its child, or records it. CONFIRM at a FLOODED device and GO at a CONFIRMED one, of the own origin and epoch, are taken, GO forwarded first. A TSYNC request is answered by response, follow-up and CALIGN, the phase of each mark sent being free (log entry 105); a response of the own exchange is kept, and the follow-up completes it. A CALIGN without NA measures the frame offset and aligns a late joiner to its parent; one with NA, the first of which is forwarded, is noted, and the parent's arms the alignment. The request timer opens an exchange on every open port at each 65,536th frame once the calender is aligned. XMS_START writes the fields not under LOCK, its LOCK, and START at an origin; LOCK is set by the system; a started origin takes place (0,0,0), EPOCH 1 and floods; an ALIGNED system that is READY says so with event 0x0064. Otherwise, and in a halt, each changes nothing. -/
def Obligations.SystemsFormAlignAndStart : Prop :=
  ∀ s : State,
    (s.flt.halted = false →
    (∀ (p : Fin 8) (devid : BitVec 32) (port : BitVec 4) (s1 : State), s.portActive p = true →
      s1 = s.setXport p { s.xport p with
        nbValid := true, nbId := devid, nbPort := port.setWidth 3, miswired := port.toNat != oppositePort p } →
      exec (.disc p devid port 1) s = .next (if port.toNat ≠ oppositePort p then s1.tryConfirm else if s.xms.st.placed = false then s1
        else s1.sendBlock p 0x91 (s1.coordFields (s.xms.st != .flooded)))) ∧
    (∀ (p : Fin 8) (devid : BitVec 32) (port version : BitVec 4), s.portActive p = false ∨ version ≠ 1 →
      exec (.disc p devid port version) s = .next s) ∧
    (∀ p : Fin 8, s.portOpen p = true →
      (∀ m : CoordMsg, s.xms.st = .alone ∨ s.xms.st = .duplicate → exec (.coord p m) s = .next s) ∧
      (∀ (m : CoordMsg) (q : Nat × Nat × Nat) (same : Bool) (s1 : State), s.xms.st ≠ .alone → s.xms.st ≠ .duplicate → q = impliedPlace p m →
        same = (s.xms.st.placed && m.origin == s.xms.regs.originId) →
        s1 = s.setXport p { s.xport p with
          coord := some { origin := m.origin, x := m.x, y := m.y, z := m.z, parent := m.parent, hops := m.hops, epoch := m.epoch }
          nbRank := BitVec.ofNat 15 (placeRank (CoordMsg_dims m) (CoordMsg_place m)) } →
        (same = true → q ≠ s.xms.place → exec (.coord p m) s = .next (s.displaced p m q)) ∧
        (s.xms.st.placed = false ∨ m.origin < s.xms.regs.originId →
          exec (.coord p m) s = .next (if s.placeTaken p m.origin q then s.duplicate q else s1.joinSystem p m)) ∧
        (same = true → q = s.xms.place → s.xms.regs.epoch < m.epoch → exec (.coord p m) s = .next (s1.newEpoch p m)) ∧
        (same = true → q = s.xms.place → m.epoch ≤ s.xms.regs.epoch → exec (.coord p m) s = .next (
          if s.xms.st ≠ .flooded ∧ s.xms.goSeen = true ∧ m.parent.toNat = oppositePort p then s1.sendMap p else s1.tryConfirm)) ∧
        (s.xms.st.placed = true → s.xms.regs.originId < m.origin → exec (.coord p m) s = .next s1.tryConfirm)) ∧
      (∀ (origin : BitVec 32) (epoch : BitVec 8) (count : BitVec 15),
        (s.xms.st = .flooded → exec (.confirm p s.xms.regs.originId s.xms.regs.epoch count) s =
          .next ((s.setXport p { s.xport p with confirm := some count }).tryConfirm)) ∧
        (s.xms.st ≠ .flooded ∨ origin ≠ s.xms.regs.originId ∨ epoch ≠ s.xms.regs.epoch → exec (.confirm p origin epoch count) s = .next s) ∧
        (s.xms.st = .confirmed → s.xms.goSeen = false → exec (.go p s.xms.regs.originId s.xms.regs.epoch count) s =
          .next ((s.floodBlock (some p.val) 0x93 (s.confirmFields count.toNat)).confirmedWith count.toNat)) ∧
        (s.xms.st ≠ .confirmed ∨ s.xms.goSeen = true ∨ origin ≠ s.xms.regs.originId ∨ epoch ≠ s.xms.regs.epoch →
          exec (.go p origin epoch count) s = .next s)) ∧
      (∀ m : TsyncMsg,
        (∀ f, m.stage = 0 → f = (s.sendBlock p 0x88 (tsyncFields m.exch.toNat 1 (s.markTime m.mark))).takePhase →
          exec (.tsync p m) s = .next ((f.2.sendBlock p 0x88 (tsyncFields m.exch.toNat 2 (f.2.markTime { phase := f.1 }))).sendCalign p 0)) ∧
        (∀ t1, m.stage = 1 → (s.xport p).tsync = some (m.exch.toNat, t1) →
          exec (.tsync p m) s = .next (s.setXport p { s.xport p with t2 := some m.time, t4 := some (s.markTime m.mark) })) ∧
        (∀ t1 t2 t4, m.stage = 2 → (s.xport p).tsync = some (m.exch.toNat, t1) → (s.xport p).t2 = some t2 → (s.xport p).t4 = some t4 →
          exec (.tsync p m) s = .next (s.syncDone p t1 t2 m.time t4)) ∧
        (m.stage ≠ 0 → m.stage = 3 ∨ (∀ t1, (s.xport p).tsync ≠ some (m.exch.toNat, t1)) ∨
          (m.stage = 2 ∧ ((s.xport p).t2 = none ∨ (s.xport p).t4 = none)) → exec (.tsync p m) s = .next s)) ∧
      (∀ (m : CalignMsg) (up : Prop) (arm : State → Nat → State), up = (s.xms.regs.parent.toNat = p.val) →
        arm = (fun t na => t.armAlign (t.boundaryOf p m) na (BitVec.ofNat 32 na - m.nk).toNat) →
        (m.na = 0 → up → s.xms.late = true → s.xms.st = .routed → s.xms.na = none →
          exec (.calign p m) s = .next (arm (s.frameOffset p m)
            (alignFrame m.nk.toNat ((3 * s.now : Nat) - s.boundaryOf p m : Int).toNat))) ∧
        (m.na = 0 → ¬ up ∨ s.xms.late = false ∨ s.xms.st ≠ .routed ∨ s.xms.na.isSome = true →
          exec (.calign p m) s = .next (s.frameOffset p m)) ∧
        (m.na ≠ 0 → s.xms.goSeen = false ∨ (s.xms.st ≠ .confirmed ∧ s.xms.st ≠ .routed) ∨ s.xms.regs.parent = 0xF ∨ s.xms.late = true →
          exec (.calign p m) s = .next s) ∧
        (∀ t : State, m.na ≠ 0 → s.xms.goSeen = true → s.xms.st = .confirmed ∨ s.xms.st = .routed → s.xms.regs.parent ≠ 0xF → s.xms.late = false →
          t = (if s.xms.na.isNone then s.floodCalign (some p.val) m.na.toNat else s) →
          (up → exec (.calign p m) s = .next (arm t m.na.toNat)) ∧
          (¬ up → exec (.calign p m) s = .next { t with xms := { t.xms with na := some m.na.toNat } })))) ∧
    (s.xms.regs.frame.toNat % 65536 = 0 → s.gddr.aligned = true →
      exec .tsyncRequestTimer s = .next (s.openPorts.foldl (fun u p =>
        (u.takePhase.2.setXport p { u.xport p with
          tsync := some ((s.xms.exch + 1).toNat, u.takePhase.2.markTime { phase := u.takePhase.1 }), t2 := none, t4 := none }).sendBlock p 0x88
            (tsyncFields (s.xms.exch + 1).toNat 0 (u.takePhase.2.markTime { phase := u.takePhase.1 }))) { s with xms := { s.xms with exch := s.xms.exch + 1 } })) ∧
    (∀ (v : Word) (r r1 : XmsRegs), r = s.xms.regs →
      r1 = (if r.lock then r else { r with
        enable := bitAt v.toNat 31, origin := bitAt v.toNat 30, skip := bitAt v.toNat 28, dx := BitVec.ofNat 5 (bitsOf v.toNat 23 5)
        dy := BitVec.ofNat 5 (bitsOf v.toNat 18 5), dz := BitVec.ofNat 5 (bitsOf v.toNat 13 5) }) →
      exec (.xmsStart v) s = .next { s with xms := { s.xms with
        regs := { r1 with lock := r.lock || bitAt v.toNat 12 }, started := s.xms.started || (bitAt v.toNat 29 && r1.origin) } }) ∧
    exec .xmsLock s = .next { s with xms := { s.xms with regs := { s.xms.regs with lock := true } } } ∧
    (∀ s1 : State, s.xms.started = true → s.xms.regs.origin = true → s.xms.st = .ports →
      s1 = { s with xms := { s.xms with
        st := .flooded, hops := 0, late := false, sysSkip := s.xms.regs.skip
        dims := (s.xms.regs.dx.toNat + 1, s.xms.regs.dy.toNat + 1, s.xms.regs.dz.toNat + 1)
        regs := { s.xms.regs with x := 0, y := 0, z := 0, rank := 0, parent := 0xF, epoch := 1, originId := s.devId } } } →
      exec .originFlood s = .next (s1.floodBlock none 0x91 (s1.coordFields false)).tryConfirm) ∧
    (s.xms.st = .aligned → s.bru.stage = .ready →
      exec .systemReady s = .next (({ s with xms := { s.xms with st := .ready } } : State).postEvent 0x0064 noRing 0
        (s.xms.regs.count.toNat + 2 ^ 16 * s.xms.regs.missing.toNat + 2 ^ 32 * s.xms.na.getD 0)))) ∧
    (∀ (p : Fin 8) (m : CoordMsg) (origin : BitVec 32) (epoch : BitVec 8) (count : BitVec 15) (t : TsyncMsg) (c : CalignMsg), s.portOpen p = false →
      exec (.coord p m) s = .next s ∧ exec (.confirm p origin epoch count) s = .next s ∧ exec (.go p origin epoch count) s = .next s ∧
        exec (.tsync p t) s = .next s ∧ exec (.calign p c) s = .next s) ∧
    (s.xms.regs.frame.toNat % 65536 ≠ 0 ∨ s.gddr.aligned = false ∨ s.flt.halted = true → exec .tsyncRequestTimer s = .next s) ∧
    (s.xms.started = false ∨ s.xms.regs.origin = false ∨ s.xms.st ≠ .ports ∨ s.flt.halted = true → exec .originFlood s = .next s) ∧
    (s.xms.st ≠ .aligned ∨ s.bru.stage ≠ .ready ∨ s.flt.halted = true → exec .systemReady s = .next s) ∧
    (s.flt.halted = true → ∀ (p : Fin 8) (devid : BitVec 32) (port version : BitVec 4) (v : Word),
      exec (.disc p devid port version) s = .next s ∧ exec (.xmsStart v) s = .next s ∧ exec .xmsLock s = .next s)

/-- For an image that the engine serves: once it has performed all requests that it knows of, and not yet in this calender frame, the engine reads PROD. A line of its region 15 that it reads and that cannot be read is a fault record and ends the sheet FATAL with 0xA5. With no request known it waits. Of the request at the head of the queue: one of which this rank is no member ends with cause 4, one out of range with cause 5, one with a lost member with cause 6 and the sheet with it. Else its head is sent to the other members, once; while one of them has not presented its own it waits; one whose heads differ ends with cause 2 and the first rank that differs; else its source lines are read and its data sent, once, and when the data of the others are all there its result is written to the destination lines, and it ends with cause 1, or, where part of an uncorrectable line was to be written, with a fault record and the sheet. After the timeout the request at the head ends with cause 3; the rank it names is free (log entry 66). A lost member is noted, and every image served with open requests of its groups loses it, the sheet ending; with no image, only the mark remains. The replay of an active sheet, once routes are installed, counts, is recorded as CONTAINED and recovers the image; the unit in the record is free. Otherwise each changes nothing. -/
def Obligations.CollectivesCompleteTimeOutAndReplay : Prop :=
  ∀ s : State,
    (∀ (h : BitVec 16) (im0 : Image) (peers : List CollPeer) (t : State) (im : Image) (k own : Nat) (q : CollReq) (members others : List Nat),
      im0 = s.image h.toNat → s.collServes h.toNat = true →
      t = (if s.collPollDue im0 then (s.asks classColl false (64 * s.collLine im0 0) 64).setImage h.toNat { im0 with
        collSeen := s.collProd im0, collFrame := some s.xms.regs.frame.toNat } else s) →
      im = t.image h.toNat → k = im.collNext → q = CollReq.ofBytes (t.lineBytes (t.requestLine im k)) → members = t.membersOf im q →
      own = t.xms.regs.rank.toNat → others = members.filter (· != own) →
      (s.collPollDue im0 = true → s.lineBad (s.collLine im0 0) = true →
        exec (.collRequest h peers) s = .next ((s.lineFault (s.collLine im0 0) h.toNat).collFatal h.toNat 0xA5)) ∧
      (s.collPollDue im0 = false ∨ s.lineBad (s.collLine im0 0) = false →
        (im.collSeen ≤ k → exec (.collRequest h peers) s = .next t) ∧
        (k < im.collSeen → t.lineBad (t.requestLine im k) = true →
          exec (.collRequest h peers) s = .next ((t.lineFault (t.requestLine im k) h.toNat).collFatal h.toNat 0xA5)) ∧
        (k < im.collSeen → t.lineBad (t.requestLine im k) = false → t.lineBad (t.collLine im (1 + q.group)) = true →
          exec (.collRequest h peers) s = .next ((t.lineFault (t.collLine im (1 + q.group)) h.toNat).collFatal h.toNat 0xA5)) ∧
        (k < im.collSeen → t.lineBad (t.requestLine im k) = false → t.lineBad (t.collLine im (1 + q.group)) = false →
          (members.contains own = false → exec (.collRequest h peers) s = .next ((t.askRequest h.toNat q).endRequest h.toNat q 4 own)) ∧
          (members.contains own = true →
            (t.collRange im q members.length = true →
              exec (.collRequest h peers) s = .next ((t.askRequest h.toNat q).endRequest h.toNat q 5 own)) ∧
            (∀ r, t.collRange im q members.length = false → members.find? t.rankLost = some r → exec (.collRequest h peers) s = .next (
              ((t.takeFree.2.askRequest h.toNat q).endRequest h.toNat q 6 r).collFatal h.toNat (BitVec.ofNat 8 t.takeFree.1))) ∧
            (∀ (n : Nat) (s1 : State), t.collRange im q members.length = false → members.find? t.rankLost = none → n = t.collCount h.toNat q →
              s1 = t.sendHead h.toNat q others →
              ((others.any fun r => (t.peerHead q n r).isNone) = true → exec (.collRequest h peers) s = .next s1) ∧
              ((others.any fun r => (t.peerHead q n r).isNone) = false →
                (∀ r, (others.find? fun r => t.peerHead q n r != some ((t.lineBytes (t.requestLine im k)).take 8)) = some r →
                  exec (.collRequest h peers) s = .next (s1.endRequest h.toNat q 2 r)) ∧
                (∀ src dst reads, (others.find? fun r => t.peerHead q n r != some ((t.lineBytes (t.requestLine im k)).take 8)) = none →
                  t.imageLines im 0 q.src q.srcBytes = some src → t.imageLines im 1 q.dst (q.dstBytes members.length) = some dst →
                  reads = (if q.reads members own then src else []) →
                  (∀ l, reads.find? t.lineBad = some l → exec (.collRequest h peers) s = .next ((s1.lineFault l h.toNat).collFatal h.toNat 0xA5)) ∧
                  (∀ s2, reads.find? t.lineBad = none → s2 = s1.sendData h.toNat q others reads →
                    (t.collPeers q n members ≠ some peers → exec (.collRequest h peers) s = .next s2) ∧
                    (∀ (m : Nat) (srcs : List (List Byte)) (bs : List Byte) (s3 : State), t.collPeers q n members = some peers →
                      m = members.idxOf s2.xms.regs.rank.toNat → srcs = (peers.map (·.src)).insertIdx m ((src.flatMap s2.lineBytes).take q.srcBytes) →
                      bs = q.result srcs m → s3 = s2.writeLines dst bs →
                      ((if bs.length % 64 = 0 then none else dst.getLast?.filter s2.lineBad) = none →
                        exec (.collRequest h peers) s = .next (s3.endRequest h.toNat q 1 0)) ∧
                      (∀ l, (if bs.length % 64 = 0 then none else dst.getLast?.filter s2.lineBad) = some l →
                        exec (.collRequest h peers) s = .next ((s3.lineFault l h.toNat).collFatal h.toNat 0xA5))))))))))) ∧
    (∀ (h : BitVec 16) (im : Image) (k : Nat) (q : CollReq) (members : List Nat), im = s.image h.toNat → k = im.collNext →
      q = CollReq.ofBytes (s.lineBytes (s.requestLine im k)) → members = s.membersOf im q → s.collServes h.toNat = true →
      (s.collProd im ≤ k → exec (.collTimeout h) s = .next s) ∧
      (k < s.collProd im → members.contains s.xms.regs.rank.toNat = true → exec (.collTimeout h) s =
        .next (s.takeFree.2.endRequest h.toNat q 3 (s.takeFree.1 % 2 ^ 15))) ∧
      (members.contains s.xms.regs.rank.toNat = false → exec (.collTimeout h) s = .next s)) ∧
    (∀ (h : BitVec 16) (peers : List CollPeer), s.collServes h.toNat = false →
      exec (.collRequest h peers) s = .next s ∧ exec (.collTimeout h) s = .next s) ∧
    (∀ (rank : BitVec 15) (s1 : State), rank ≠ s.xms.regs.rank → s.xms.st.placed = true → s.flt.halted = false →
      s1 = { s with xms := { s.xms with gone := SMap.set false s.xms.gone rank.toNat true } } →
      exec (.memberLost rank) s = .next ((s.images.map (·.1)).foldl (fun s h =>
        if !s.collServes h || s.lostRequests h rank.toNat == [] then s
        else
          let f := (s.loseMember h rank.toNat).takeFree
          f.2.collFatal h (BitVec.ofNat 8 f.1)) s1)) ∧
    (∀ rank : BitVec 15, rank = s.xms.regs.rank ∨ s.xms.st.placed = false ∨ s.flt.halted = true → exec (.memberLost rank) s = .next s) ∧
    (∀ (h : BitVec 16) (im : Image) (u s1 : State), im = s.image h.toNat → s.loaded h.toNat = true → bitAt im.granted.toNat 6 = true →
      im.sheet.active = true → s.xms.dirty = false → s.flt.halted = false →
      u = { s.takeFree.2 with xms := { s.takeFree.2.xms with
        replayDue := s.takeFree.2.xms.replayDue.filter (· != h.toNat)
        cnt := { s.takeFree.2.xms.cnt with replays := satBump s.takeFree.2.xms.cnt.replays 1 } } } →
      s1 = u.faultRecord { kind := BitVec.ofNat 8 s.takeFree.1, cls := 1, action := 3, handle := h, ring := BitVec.ofNat 16 (s.imageRing h.toNat) } →
      exec (.collReplay h) s = .next ((if im.sheet.replayWait then s1 else s1.interruptSheet h.toNat).recoverWith h.toNat fun s => s.replay h.toNat)) ∧
    (∀ h : BitVec 16, s.loaded h.toNat = false ∨ bitAt (s.image h.toNat).granted.toNat 6 = false ∨ (s.image h.toNat).sheet.active = false ∨
      s.xms.dirty = true ∨ s.flt.halted = true → exec (.collReplay h) s = .next s)

/-- Where BAR0 writes are performed: TRIM set in Run stops the clusters that no image owns and makes the device Trim; cleared, it gives them back. PWR.CAP takes a value kept between 600 and 1,750. A WATCH request that nothing refuses loads the dandy and puts the device to sleep, how long entry takes being a free value (log entry 94); during an update it waits; a refused one says why and posts event 0x0054. GPIO is written by its holder's claim; without one, or where a pulse is armed that another FUNC would lose, the write is counted. Awake: a throttle step takes the power and the temperature of every die, its level, which falls after ten calm updates, and posts what is due. A die that reports more than 95 °C and has no emergency yet gets a thermal emergency, in Watch too, which halts the pipelines it serves with cause 2, and ends once every die is below 92 °C. At 105 °C a released device goes to Off. An enabled wake source active in Watch is recorded, an edge (6, 7) not in cycles W + 2 to W + 7, and once entry is complete the exit begins. A GPIO line pulses at its oldest firing, unless that merges or the line has another FUNC. A device-fatal cause halts the device and is recorded; the unit is a free value, and in a halt only that value is used up. Otherwise each changes nothing. -/
def Obligations.PowerThermalAndGpio : Prop :=
  ∀ s : State,
    (s.writable = true →
      (s.pwr.st = .run → exec .trimEnter s = .next { s.setUnowned .off with pwr := { s.pwr with st := .trim } }) ∧
      (s.pwr.st ≠ .run → exec .trimEnter s = .next s) ∧
      (s.pwr.st = .trim → exec .trimExit s = .next { s.setUnowned .idle with pwr := { s.pwr with st := .run } }) ∧
      (s.pwr.st ≠ .trim → exec .trimExit s = .next s) ∧
      (∀ v : Word, exec (.pwrCapWrite v) s = .next { s with pwr := { s.pwr with
        cap := BitVec.ofNat 16 (max 600 (min 1750 (v.toNat % 2 ^ 16))) } }) ∧
      (s.watchRefusal = 0 → s.sec.ustate = 1 → exec .watch s = .next { s with pwr := { s.pwr with watchAsked := true } }) ∧
      (∀ l f, s.watchRefusal = 0 → s.sec.ustate ≠ 1 → s.dandyLoaded = some l → f = (s.loadDandy l).asleep.takeFree →
        exec .watch s = .next { f.2 with pwr := { f.2.pwr with entryEnds := f.1 % 600001 } }) ∧
      (s.watchRefusal ≠ 0 → exec .watch s = .next (({ s with pwr := { s.pwr with wref := BitVec.ofNat 4 s.watchRefusal } } : State).postEvent
        0x0054 noRing 0 s.watchRefusal)) ∧
      (∀ (n : Fin 16) (v : Word) (func : BitVec 2), func = BitVec.ofNat 2 (bitsOf v.toNat 30 2) →
        ((s.holder 4 n).isSome = true → (s.gpio n).func ≠ 1 ∨ func = 1 ∨ s.pulseArmed n = false →
          exec (.gpioWrite n v) s = .next (s.setGpio n { s.gpio n with
            func, pol := bitAt v.toNat 29, width := BitVec.ofNat 10 (max 8 (bitsOf v.toNat 19 10)) })) ∧
        ((s.holder 4 n).isSome = true → (s.gpio n).func = 1 → func ≠ 1 → s.pulseArmed n = true →
          exec (.gpioWrite n v) s = .next { s with pwr := { s.pwr with funcIgn := satBump s.pwr.funcIgn 1 } }) ∧
        ((s.holder 4 n).isNone = true → exec (.gpioWrite n v) s = .next { s with pwr := { s.pwr with unclWr := satBump s.pwr.unclWr 1 } }))) ∧
    (s.writable = false → ∀ (n : Fin 16) (v : Word), exec .trimEnter s = .next s ∧ exec .trimExit s = .next s ∧
      exec (.pwrCapWrite v) s = .next s ∧ exec .watch s = .next s ∧ exec (.gpioWrite n v) s = .next s) ∧
    (s.awake = true →
      (∀ (watts : BitVec 12) (below : Bool) (temps : Vector (BitVec 8) 25) (calm : Nat) (t : BitVec 4),
        calm = (if (below && decide (100 * watts.toNat < 98 * s.pwr.cap.toNat)) = true then s.pwr.calm + 1 else 0) →
        t = throttleStep s.pwr.tlevel (decide (s.pwr.cap.toNat < watts.toNat)) (decide (10 ≤ calm)) →
          exec (.throttleUpdate watts below temps) s = .next
        (({ s with pwr := { s.pwr with
          power := watts, tlevel := t, calm, thrDue := s.pwr.thrDue || t != s.pwr.tlevel, thrWait := s.pwr.thrWait - 1, capWait := s.pwr.capWait - 1
          unmet := if s.pwr.cap.toNat < watts.toNat ∧ t = 15 then s.pwr.unmet + 1 else 0 } } : State).reportTemps temps).postThrottle.postCapUnmet)) ∧
    (∀ (die : Fin 25) (tj : BitVec 8) (u : State), s.reports die = true → (SMap.get {} s.pwr.therm die : Therm).emerg = false → 95 < tj.toInt →
      u = { s.readTemps [(die, tj)] with pwr := { (s.readTemps [(die, tj)]).pwr with
        therm := SMap.modify {} (s.readTemps [(die, tj)]).pwr.therm die fun h : Therm => { h with emerg := true } } } →
      exec (.thermalEmergencyStart die tj) s = .next ((if s.flt.halted then u
        else ((List.range 64).filter fun p => (u.pipeClusters p).any u.tooHot).foldl (fun s p => s.haltPipe p 2) u).thermalEvent die true tj)) ∧
    (∀ (temps : List (Fin 25 × BitVec 8)) (u : State), s.bru.held = false → s.emergency = true → s.pwr.st = .watch ∨ s.awake = true →
      u = s.readTemps temps → (u.pwr.therm.any fun p => decide (92 ≤ p.2.tj.toInt)) = false →
      exec (.thermalEmergencyEnd temps) s = .next ((u.pwr.therm.filter fun p => p.2.emerg).foldl (fun s p => s.thermalEvent p.1 false p.2.tj)
        { u with pwr := { u.pwr with therm := u.pwr.therm.map fun p => (p.1, { p.2 with emerg := false }) } })) ∧
    (∀ (watts : BitVec 12) (below : Bool) (all : Vector (BitVec 8) 25) (temps : List (Fin 25 × BitVec 8)) (die : Fin 25) (tj : BitVec 8),
      (s.awake = false → exec (.throttleUpdate watts below all) s = .next s) ∧
      (s.reports die = false ∨ (SMap.get {} s.pwr.therm die : Therm).emerg = true ∨ tj.toInt ≤ 95 →
        exec (.thermalEmergencyStart die tj) s = .next s) ∧
      (s.bru.held = true ∨ s.emergency = false ∨ (s.pwr.st ≠ .watch ∧ s.awake = false) ∨
          ((s.readTemps temps).pwr.therm.any fun p => decide (92 ≤ p.2.tj.toInt)) = true →
        exec (.thermalEmergencyEnd temps) s = .next s)) ∧
    (∀ (die : Fin 25) (tj : BitVec 8), (s.bru.held = false → 105 ≤ tj.toInt → exec (.thermtrip die tj) s = .next (s.off.emit .thermtrip)) ∧
      (s.bru.held = true ∨ tj.toInt < 105 → exec (.thermtrip die tj) s = .next s)) ∧
    (∀ (b : Nat) (u t : State), u = { s with pwr := { s.pwr with wake := s.pwr.wake ||| BitVec.ofNat 8 (2 ^ b) } } →
      t = (if s.pwr.entryEnds ≤ s.pwr.sinceWait then { u with pwr := { u.pwr with waking := true }, enables := s.enables ||| 1 } else u) →
      s.pwr.st = .watch → bitAt s.pwr.wakeEn.toNat b = true → b < 6 ∨ s.pwr.sinceWait < 20 ∨ 80 ≤ s.pwr.sinceWait →
      (∀ bit : Fin 8, bit.val = b → s.wakeSource b = true → exec (.wake bit) s = .next t) ∧
      (b = 7 → s.smbusUp = true → exec .smbusWake s = .next t)) ∧
    (∀ (bit : Fin 8) (dead : Nat → Prop), dead = (fun b => s.pwr.st ≠ .watch ∨ bitAt s.pwr.wakeEn.toNat b = false ∨
        (6 ≤ b ∧ 20 ≤ s.pwr.sinceWait ∧ s.pwr.sinceWait < 80)) →
      (dead bit ∨ s.wakeSource bit = false → exec (.wake bit) s = .next s) ∧
      (dead 7 ∨ s.smbusUp = false → exec .smbusWake s = .next s)) ∧
    (∀ n : Fin 16, ((s.gpio n).want = [] → exec (.gpioPulse n) s = .next s) ∧
      (∀ (g : Gpio) (t0 : TimeVal) (rest : List TimeVal) (t : Nat), g = s.gpio n → g.want = t0 :: rest → t = t0 / 1024 * 1024 →
        (g.func ≠ 1 → exec (.gpioPulse n) s = .next (s.setGpio n { g with want := rest })) ∧
        (g.func = 1 → g.lastEnd = 0 ∨ g.lastEnd + g.width.toNat * 65536 ≤ t → exec (.gpioPulse n) s = .next ((s.setGpio n { g with
          want := rest, lastEnd := t + g.width.toNat * 65536 }).emit (.gpio n t g.width.toNat g.pol))) ∧
        (g.func = 1 → g.lastEnd ≠ 0 → t < g.lastEnd + g.width.toNat * 65536 →
          exec (.gpioPulse n) s = .next (s.setGpio n { g with want := rest, merged := satBump g.merged 1 })))) ∧
    (∀ cause : Fin 6, (cause.val = 0 → exec (.deviceFatal cause) s = .next s) ∧
      (cause.val ≠ 0 → s.flt.halted = true → exec (.deviceFatal cause) s = .next s.takeFree.2) ∧
      (∀ (k : Nat) (u : State), cause.val ≠ 0 → s.flt.halted = false → k = fatalKind cause →
        u = ((s.takeFree.2.haltDevice cause).aerError 22).faultRecord
          { kind := BitVec.ofNat 8 k, cls := 4, action := 9, loc := fatalLoc k s.takeFree.1, detail := BitVec.ofNat 32 cause } →
        exec (.deviceFatal cause) s = .next (u.postEvent 0x0043 noRing 0 cause).writeReam))

/-- Awake, a changed source or image is loaded, or leaves the dandy without an image where R632 refuses it (log entry 63). While the dandy runs, a tick with no window open starts the loaded sheet and opens one. The next frame of the watched stream on the watched group that passes its checks and follows in SEQ puts its entries in the ingress tile of a loaded dandy and counts, the last one ends the window; one that fails them, or does not follow, fails the window. A window with its frames, or one that failed, whose cluster is drained, or neither at work nor still to be configured, is judged by the entries in L1 of the decision tile, which are taken: exactly one, of a window that did not fail, is its score, and CONSEC hits are a DANDY_HIT or the wake source; otherwise the window is abandoned. A frame of another stream, one while no window takes frames, a decision before all that, and a tick during a window change nothing. -/
def Obligations.DandyWatchesAStream : Prop :=
  ∀ s : State,
    (s.awake = true → s.dnd.changed = true → s.flt.halted = false →
      (∀ l, s.dandyLoaded = some l → exec .dandyLoad s = .next (s.loadDandy l)) ∧
      (s.dandyLoaded = none → exec .dandyLoad s = .next { s with dnd := { s.dnd with loaded := false, changed := false, win := {} } })) ∧
    (s.awake = false ∨ s.dnd.changed = false ∨ s.flt.halted = true → exec .dandyLoad s = .next s) ∧
    (∀ u : State, s.dandyRuns = true → s.dnd.win.active = false → u = (if s.dnd.loaded then s.startDandy else s) →
      exec .dandyWindowStart s = .next { u with dnd := { u.dnd with windows := u.dnd.windows + 1, win := { active := true } } }) ∧
    (s.dandyRuns = false ∨ s.dnd.win.active = true → exec .dandyWindowStart s = .next s) ∧
    (s.dandyRuns = true → s.dnd.win.active = true → s.dnd.win.bad = false →
      ∀ (f : StockFrame) (n : Nat), f.sid = s.dnd.sid → (s.group s.dnd.group.toNat).st = .active →
        n = atLeastOne s.dnd.nfr.toNat → s.dnd.win.frames < n →
        (∀ (j : BitVec 4 × BitVec 4) (x : Cluster) (u : State), s.dnd.win.frames = 0 ∨ f.seq = s.dnd.win.seqNo → s.watchedJoin.filter (framePasses f) = some j →
          x = (if s.dnd.loaded then (frameEntries f j).foldl (fun x e => x.push s.dnd.itile.toNat 5 e) (s.cl 880) else s.cl 880) →
          u = { s.setCl 880 x with dnd := { s.dnd with win := { s.dnd.win with frames := s.dnd.win.frames + 1, seqNo := f.seq + 1 } } } →
          exec (.dandyFrame f) s = .next (if s.dnd.win.frames + 1 = n then u.endWindow else u)) ∧
        ((s.dnd.win.frames ≠ 0 ∧ f.seq ≠ s.dnd.win.seqNo) ∨ s.watchedJoin.filter (framePasses f) = none → exec (.dandyFrame f) s = .next
          ({ s with dnd := { s.dnd with win := { s.dnd.win with bad := true } } } : State).endWindow)) ∧
    (∀ f : StockFrame, s.dandyRuns = false ∨ s.dnd.win.active = false ∨ s.dnd.win.bad = true ∨ atLeastOne s.dnd.nfr.toNat ≤ s.dnd.win.frames ∨
      f.sid ≠ s.dnd.sid ∨ (s.group s.dnd.group.toNat).st ≠ .active → exec (.dandyFrame f) s = .next s) ∧
    (∀ (x x1 : Cluster) (y : Tile) (es : List Entry) (ready drained : Prop) (u : State), x = s.cl 880 → y = x.tile s.dnd.otile.toNat →
      x1 = x.setTile s.dnd.otile.toNat y.l1Taken → es = y.queue 5 ++ (y.chest.filter fun p => p.1 == 5).map (·.2) →
      ready = (s.dandyRuns = true ∧ s.dnd.win.active = true ∧ (s.dnd.win.bad = true ∨ atLeastOne s.dnd.nfr.toNat ≤ s.dnd.win.frames)) →
      drained = ((x.working = false ∧ x.awaits = false) ∨ (x.st = .drain ∧ x1.empty = true)) →
      u = s.setCl 880 (if x.working then { x1 with st := .drained } else x1) →
      (∀ e z, ready → drained → es = [e] → s.dnd.win.bad = false → z = s.dnd.judge (e.setWidth 32) →
        exec .dandyDecision s = .next (if z.2 then ({ u with dnd := z.1 } : State).dandyHit else { u with dnd := z.1 })) ∧
      (ready → drained → es.length ≠ 1 ∨ s.dnd.win.bad = true → exec .dandyDecision s = .next { u with dnd := s.dnd.abandon }) ∧
      (¬ ready ∨ ¬ drained → exec .dandyDecision s = .next s))

/-- With the supplies enabled RESET_N rising starts the ROM; VDD_AO is first, outside Watch, VDD_SOC after it, VDD_ARITH ends Watch. RESET_N falling is a device reset with cause 1, in Watch cause 3, that keeps the fault log, the retained ream, fuses and flash; PWRGOOD falling leaves only fuses and flash. The host link's controller leaves reset outside Dead and Watch. The root firmware's report starts the edge stage with its time, the lock, and the calender and Xomos segment tables of the active set's calender part, its fused cores fenced and their roles taken by others, the time ports enabled. Each edge die's report tests its quarter (not after Watch), notes its tables and trains its groups, Xomos ports leaving ALONE where enabled; the last one goes on to COMPUTE. A compute die is done with its PLLs started, its fused clusters and those that failed fenced, the others idle, or is fenced whole after its time. With all done and the calender aligned, the device is READY: its time is kept, fuses blown, the retained ream copied, the doorbells held act. A stage that runs out of time blows the DEAD fuse. BRU.SWRST with its key is a device reset with cause 2, released at once; another value, or a function that is not reached, changes nothing. A report or timeout of a stage that is not due changes nothing. -/
def Obligations.StartupReachesReady : Prop :=
  ∀ s : State,
    (s.bru.held = true → s.enables = 3 → exec .resetRelease s = .next
      ({ s with bru := { s.bru with held := false }, pwr := { s.pwr with st := .run } } : State).romStage) ∧
    (s.bru.held = false ∨ s.enables ≠ 3 → exec .resetRelease s = .next s) ∧
    (s.bru.held = false → s.pwr.st ≠ .watch → exec .resetAssert s = .next (s.afterReset true 1)) ∧
    (s.bru.held = false → s.pwr.st = .watch → exec .resetAssert s = .next (({ s with enables := 1 } : State).afterReset true 3)) ∧
    (s.bru.held = true → exec .resetAssert s = .next s) ∧
    exec .pwrgoodFall s = .next s.off ∧
    (s.bru.held = false → s.bru.stage ≠ .dead → s.pwr.st ≠ .watch →
      exec .pcieOutOfReset s = .next { s with bru := { s.bru with pcieUp := true } }) ∧
    (s.bru.held = true ∨ s.bru.stage = .dead ∨ s.pwr.st = .watch → exec .pcieOutOfReset s = .next s) ∧
    (s.pwr.st ≠ .watch → exec (.supplyWithinLimits 0) s = .next { s with enables := s.enables ||| 1 }) ∧
    (s.enables.getLsbD 0 = true → exec (.supplyWithinLimits 1) s = .next { s with enables := s.enables ||| 2 }) ∧
    (s.enables = 3 → s.pwr.waking = true → exec (.supplyWithinLimits 2) s = .next s.leaveWatch) ∧
    ((s.pwr.st = .watch → exec (.supplyWithinLimits 0) s = .next s) ∧
      (s.enables.getLsbD 0 = false → exec (.supplyWithinLimits 1) s = .next s) ∧
      (s.enables ≠ 3 ∨ s.pwr.waking = false → exec (.supplyWithinLimits 2) s = .next s) ∧ exec (.supplyWithinLimits 3) s = .next s) ∧
    (s.bru.stage = .rootFw →
      (∀ (ms : BitVec 16) (u : State), u = (List.range 3).foldl State.fuseCore s →
        exec (.rootFwReport ms) s = .next ((({ u with
          bru := { u.bru with stage := .edge, tRootFw := ms }, pwr := { u.pwr with lock := true }
          gddr := { u.gddr with gcal := u.calTable gcalField 1024, mcal := u.calTable mcalField 1024 }
          xms := { u.xms with segments := u.calTable xcalField 32 } } : State).enableGroup 24).enableGroup 25)) ∧
      exec .rootFwTimeout s = .next (s.enterDead 2 1 0)) ∧
    (s.bru.stage ≠ .rootFw → ∀ ms : BitVec 16, exec (.rootFwReport ms) s = .next s ∧ exec .rootFwTimeout s = .next s) ∧
    (s.bru.stage = .edge → ∀ e : Fin 4, bitAt s.bru.edgeUp.toNat e = false →
      (∀ (fail : BitVec 12) (up : BitVec 4) (s1 s2 s3 s4 : State), s1 = (if s.bru.fromWatch then s else s.testQuarter e fail) →
        s2 = s1.setQuarter e { s1.quarter e with gTable := BitVec.ofNat 16 (s.partField 5 0), mTable := BitVec.ofNat 16 (s.partField 5 1) } →
        s3 = (s2.edgeGroups e).foldl State.enableGroup s2 → up = s.bru.edgeUp ||| BitVec.ofNat 4 (2 ^ e.val) →
        s4 = { s3 with
          bru := { s3.bru with edgeUp := up }
          xms := if s3.xms.regs.enable && s3.xms.st == .alone then { s3.xms with st := .ports } else s3.xms } →
        (up ≠ 0xF → exec (.edgeReport e fail) s = .next s4) ∧ (up = 0xF → exec (.edgeReport e fail) s = .next s4.edgesUp)) ∧
      exec (.edgeTimeout e) s = .next (s.enterDead 3 2 0)) ∧
    (∀ (e : Fin 4) (fail : BitVec 12), s.bru.stage ≠ .edge ∨ bitAt s.bru.edgeUp.toNat e = true →
      exec (.edgeReport e fail) s = .next s ∧ exec (.edgeTimeout e) s = .next s) ∧
    (∀ k : Fin 20, s.dieWaits k = true →
      (∀ (fail : BitVec 44) (pll : Fin 3) (s1 s2 : State), s1 = (s.startPlls k pll).fenceFused k →
        s2 = (if (s1.die k).pllLost then (dieClusters k).foldl (fun (s : State) c => s.fenceAtStart c 6) s1
          else ((dieClusters k).filter fun c => bitAt fail.toNat (c % 44)).foldl (fun (s : State) c => s.fenceAtStart c 7) s1) →
        exec (.computeBistDone k fail pll) s = .next ((((dieClusters k).filter fun c => s2.service c == .inService).foldl
          (fun (s : State) c => s.setCl c { s.cl c with st := .idle }) s2).dieDone k true)) ∧
      exec (.computeTimeout k) s = .next (((dieClusters k).foldl (fun (s : State) c => s.fenceAtStart c 6) s).dieDone k false)) ∧
    (∀ (k : Fin 20) (fail : BitVec 44) (pll : Fin 3), s.dieWaits k = false →
      exec (.computeBistDone k fail pll) s = .next s ∧ exec (.computeTimeout k) s = .next s) ∧
    (∀ (ms : BitVec 16) (s1 s2 : State), s.readyNow = true →
      s1 = ({ s with bru := { s.bru with stage := .ready, tReady := ms } } : State).blowFuses.copyRetained →
      s2 = s1.hif.bells.foldl (fun (s : State) b => s.bell b.1 b.2.1 b.2.2) s1 →
      exec (.deviceReady ms) s = .next { s2 with hif := { s2.hif with bells := [] } }) ∧
    (∀ ms : BitVec 16, s.readyNow = false → exec (.deviceReady ms) s = .next s) ∧
    (∀ (v : Word) (u : State), s.barsUp = true → v.toNat % 2 ^ 16 = 0x5753 → u = s.afterReset true 2 →
      exec (.softwareReset v) s = .next ({ u with bru := { u.bru with held := false } } : State).romStage) ∧
    (∀ v : Word, s.barsUp = false ∨ v.toNat % 2 ^ 16 ≠ 0x5753 → exec (.softwareReset v) s = .next s)

/-- Where BAR0 writes are performed a GO begins an update of the set that SEC.UADDR and SEC.UBYTES give; during one, another GO is ignored and counted. The update reads the set in DMA slots; one that verifies, with a valid pointer record, is written to the inactive area, the pointer record is marked pending with its SETID, and the update is done; one that fails says its code, without a valid pointer record code 10; a range that cannot be staged says FORMAT. It is done at the end of a step without a command, then a request for Watch that waited is taken up; in FATAL_HALT neither happens (log entry 115). Where SMBus answers, IDENTITY answers the IDs and versions in force, CERT and REAM at most 255 bytes from their offset, and in Dead the report is answered with the nonce, signed by the DeviceID key; outside Dead there is none. Otherwise each changes nothing. The order of IDENTITY's values is log entry 60's. -/
def Obligations.IdentityAndUpdatesAnswer : Prop :=
  ∀ s : State,
    (s.writable = true →
      (s.sec.ustate = 1 → exec .updateGo s = .next { s with sec := { s.sec with ign := satBump s.sec.ign 1 } }) ∧
      (s.sec.ustate ≠ 1 → exec .updateGo s = .next { s with sec := { s.sec with
        ustate := 1, job := some (s.sec.uaddr.toNat, s.sec.ubytes.toNat) } })) ∧
    (∀ (a n : Nat) (z : State), s.sec.job = some (a, n) → s.flt.halted = false → z = s.stage a n →
      (z.pwr.watchAsked = false → s.updateTick = z) ∧
      (z.pwr.watchAsked = true → s.updateTick = ({ z with pwr := { z.pwr with watchAsked := false } } : State).requestWatch) ∧
      (s.stagedSet a n = none → z = { s with sec := { s.sec with ustate := 3, ucode := 1, job := none } }) ∧
      (∀ (b : List Byte) (r : State), s.stagedSet a n = some b → r = s.asks classDma false a b.length →
        (∀ code, r.pointer = none → code = (r.verifySet b b.length).1 →
          z = { r with sec := { r.sec with ustate := 3, ucode := BitVec.ofNat 4 (if code = 0 then 10 else code), job := none } }) ∧
        (∀ (p : Pointer) (copy : Nat), r.pointer = some (p, copy) →
          (∀ code, code = (r.verifySet b b.length).1 → code ≠ 0 →
            z = { r with sec := { r.sec with ustate := 3, ucode := BitVec.ofNat 4 code, job := none } }) ∧
          (∀ u : State, (r.verifySet b b.length).1 = 0 → u = { r with sec := { r.sec with
              flash := flashWrite r.sec.flash (areaBase (1 - p.active)) (b.take (fieldAt b 0x18 4)) } } →
            z = (u.writePointer { p with pending := true, setid := fieldAt b 0x10 8 } copy).updateDone 2 0)))) ∧
    (s.sec.job = none ∨ s.flt.halted = true → s.updateTick = s) ∧
    (s.smbusUp = true →
      exec .identity s = .next (s.emit (.smbus (natLe 4 s.devId.toNat ++ natLe 8 s.sec.serial.toNat ++ [s.stepping] ++ natLe 8 s.sec.setid.toNat ++
        natLe 1 s.sec.svn.toNat ++ natLe 1 s.identityState))) ∧
      (∀ off : BitVec 32, exec (.cert off) s = .next (s.emit (.smbus ((s.certChain.drop off.toNat).take 255))) ∧
        exec (.reamRead off) s = .next (s.emit (.smbus ((s.flt.ream.drop off.toNat).take 255)))) ∧
      (∀ nonce : BitVec 256, s.bru.stage = .dead →
        exec (.deadReport nonce) s = .next (s.emit (.smbus (s.deadBody nonce ++ edSign s.deviceKey (s.deadBody nonce)))))) ∧
    (s.writable = false → exec .updateGo s = .next s) ∧
    (∀ nonce : BitVec 256, s.smbusUp = false ∨ s.bru.stage ≠ .dead → exec (.deadReport nonce) s = .next s) ∧
    (s.smbusUp = false → exec .identity s = .next s ∧ ∀ off : BitVec 32, exec (.cert off) s = .next s ∧ exec (.reamRead off) s = .next s)

/-- G0 of every tile reads as 0; writing it leaves the tile as it is, whatever is written; and an LDI that issues with its inputs taken as the firing f and names G0 answers a next state in which every register of the tile holds what it held when the inputs had been taken. -/
def Obligations.RegisterZeroReadsAsZero : Prop :=
  (∀ (y : Tile) (v : BitVec 32), y.reg 0 = 0 ∧ y.setReg 0 v = y) ∧
  ∀ (s : State) (c : ClusterId) (t : TileId) (ix : OpIx) (f : Fire), opDst f.o = 0 → Fires s 0x22 c t ix f →
    ∃ s', exec (.ldi c t ix) s = .next s' ∧ ∀ n, ((s'.cl c).tile f.t).reg n = f.tile.reg n

/-- In the formats 0 to 3 (C4, C8, W16, F32) an entry has 32, 16, 8 and 4 lanes, and the lanes of a format fill 128 bits. Lane 0 is the lowest bits of the entry. An entry built lane by lane fits 128 bits and reads back, in each lane, the lane given cut to the lane's width; and an entry of 128 bits is the one built from its own lanes, so no bit of it lies outside its lanes. -/
def Obligations.EntriesHoldLanes : Prop :=
  laneCount 0 = 32 ∧ laneCount 1 = 16 ∧ laneCount 2 = 8 ∧ laneCount 3 = 4 ∧
  ∀ (fmt x : Nat) (g : Nat → Nat), fmt < 4 → laneBits fmt * laneCount fmt = 128 ∧ lane fmt x 0 = x % 2 ^ laneBits fmt ∧
    buildLanes fmt g < 2 ^ 128 ∧ (∀ k, k < laneCount fmt → lane fmt (buildLanes fmt g) k = g k % 2 ^ laneBits fmt) ∧
    (x < 2 ^ 128 → buildLanes fmt (lane fmt x) = x)

/-- In every codebook, with every value stored for its ZERO code, that code decodes to 0, and storing a value for the ZERO code changes the value of no code. -/
def Obligations.ZeroCodeDecodesToZero : Prop :=
  ∀ (b : Codebook) (v : BitVec 12) (code : Nat), b.value b.zero.toNat = 0 ∧
    ({ b with vals := SMap.set 0 b.vals b.zero.toNat v } : Codebook).value code = b.value code

/-- An ST that issues with its inputs taken as the firing f, its 16 B at the pointer p in register DST below the chest, answers a next state in which those 16 bytes read as A and DST, where it is not G0, holds p + 16. Every byte of the tile's SRAM outside them reads as before, every register but DST and the stream's pointer holds what it held, every other tile of the cluster and every other cluster is as it was, and nothing outside the cluster changed. -/
def Obligations.StoresWriteSixteenBytes : Prop :=
  ∀ (s : State) (c : ClusterId) (t : TileId) (ix : OpIx) (f : Fire) (p : Nat), p = (f.tile.reg (opDst f.o)).toNat →
    f.tile.sramOk p 16 = true → Fires s 0x20 c t ix f →
    ∃ x : Cluster, exec (.st c t ix) s = .next (s.setCl c x) ∧ (x.tile t).sram.readLe p 16 = f.a % 2 ^ 128 ∧
      (opDst f.o ≠ 0 → (x.tile t).reg (opDst f.o) = BitVec.ofNat 32 (p + 16)) ∧
      (∀ a, a < p ∨ p + 16 ≤ a → (x.tile t).sram.read a = ((s.cl c).tile t).sram.read a) ∧
      (∀ n, n ≠ opDst f.o → (n = opSrc f.o → opStreams f.o = false) → (x.tile t).reg n = ((s.cl c).tile t).reg n) ∧
      (∀ u, u ≠ t.val → x.tile u = (s.cl c).tile u) ∧ (∀ d, d ≠ c.val → (s.setCl c x).cl d = s.cl d) ∧
      { s.setCl c x with fab := s.fab } = s

/-- LD, ADD, SUB, MAX, MIN, SCALE, AND, OR, XOR, SHIFT, CMP, SELECT and MOV, issuing with their inputs taken as the firing f, answer a next state in which only cluster c is changed. In it every other tile is as it was, the tile differs at most in its queues, link output registers, chest, firing counts, saturation counts and registers, every register but the pointer of an SRAM stream holds what it held, and of the cluster's own registers only the spill count and the highest chest use may differ. -/
def Obligations.ResultsKeepMemoryAndRegisters : Prop :=
  ∀ (s : State) (c : ClusterId) (t : TileId) (ix : OpIx) (f : Fire),
    ∀ p ∈ [(0x1F, Instr.ld c t ix), (0x07, Instr.addOp c t ix), (0x08, Instr.subOp c t ix), (0x09, Instr.maxOp c t ix),
        (0x0A, Instr.minOp c t ix), (0x0B, Instr.scale c t ix), (0x0E, Instr.andOp c t ix), (0x0F, Instr.orOp c t ix),
        (0x10, Instr.xorOp c t ix), (0x11, Instr.shift c t ix), (0x12, Instr.cmp c t ix), (0x13, Instr.selectOp c t ix),
        (0x21, Instr.mov c t ix)],
      Fires s p.1 c t ix f → ∃ x : Cluster, exec p.2 s = .next (s.setCl c x) ∧
        (∀ u, u ≠ t.val → x.tile u = (s.cl c).tile u) ∧
        (∀ y, y = (s.cl c).tile t → { x.tile t with
            queues := y.queues, outR := y.outR, chest := y.chest, fired := y.fired, satInt := y.satInt, satFp := y.satFp
            tokenQ := y.tokenQ, regs := y.regs } = y) ∧
        (∀ n, (n = opSrc f.o → opStreams f.o = false) → (x.tile t).reg n = ((s.cl c).tile t).reg n) ∧
        { x with tiles := (s.cl c).tiles
                 regs := { x.regs with spills := (s.cl c).regs.spills, chestMax := (s.cl c).regs.chestMax } } = s.cl c

/-- Take a vector queue of a tile together with its entries in the chest, oldest first, as one line, and a queue as orderly if it is in spill or has no entry in the chest. In an orderly queue an arrival joins the end of the line; taking the head of a queue that holds an entry takes the front of the line; taking up to n entries of a queue gives its first n in order and leaves the rest. CHEST_REFILL leaves the line of the queue as it is. All of these keep the queue orderly. -/
def Obligations.SpilledQueuesKeepOrder : Prop :=
  ∀ (q : Nat) (line : Tile → List Entry) (orderly : Tile → Prop), q < 6 →
    (∀ y, line y = y.queue q ++ (y.chest.filter fun p => p.1 == q).map (·.2)) →
    (∀ y, orderly y = (y.inSpill q = true ∨ y.chest.filter (fun p => p.1 == q) = [])) →
    (∀ (x : Cluster) (t : Nat) (e : Entry), orderly (x.tile t) →
      line ((x.push t q e).tile t) = line (x.tile t) ++ [e] ∧ orderly ((x.push t q e).tile t)) ∧
    (∀ y : Tile, y.queue q ≠ [] → line (y.pop q) = (line y).tail ∧ (orderly y → orderly (y.pop q))) ∧
    (∀ (y : Tile) (n : Nat), (popUpTo y q n).2 = (y.queue q).take n ∧ (popUpTo y q n).1.queue q = (y.queue q).drop n) ∧
    (∀ (s s' : State) (c : ClusterId) (t : TileId) (k : Fin 7), k.val = q → exec (.chestRefill c t k) s = .next s' →
      line ((s'.cl c).tile t) = line ((s.cl c).tile t) ∧ (orderly ((s.cl c).tile t) → orderly ((s'.cl c).tile t)))

/-- Where the function takes memory requests, GDDR6 runs, and every line that a write of 1 to 512 bytes through BAR4 touches lies in a BAR4 region and is correctable, BAR4_WRITE answers a next state t in which BAR4_READ of the same range gives the host the bytes written and otherwise only asks for its DMA slots. Every byte of GDDR6 outside the range reads in t as before, and t differs from the state before only in GDDR6 bytes, uncorrectable marks and requests for slots. -/
def Obligations.BarWritesReadBack : Prop :=
  ∀ (s : State) (addr : BitVec 37) (data : List Byte), 1 ≤ data.length → data.length ≤ 512 → s.barsUp = true → s.gddrRuns = true →
    (∀ l ∈ linesOf addr.toNat data.length, s.bar4Line l = true ∧ s.lineBad l = false) →
    ∃ t, exec (.bar4Write addr data false) s = .next t ∧
      exec (.bar4Read addr data.length) t = .next ((t.asks classDma false addr.toNat data.length).emit (.read true data)) ∧
      (∀ b, b < addr.toNat ∨ addr.toNat + data.length ≤ b → t.gddr.bytes.read b = s.gddr.bytes.read b) ∧
      { t with gddr := { t.gddr with bytes := s.gddr.bytes, bad := s.gddr.bad, reqs := s.gddr.reqs } } = s

/-- The operation by which the loader, admission, the context table and the descriptors zero a range of lines makes every byte of those lines read 0 and clears their uncorrectable marks. Every byte outside them reads as before, every other line keeps its mark, nothing but GDDR6 bytes, marks and requests for slots changes, and memories in canonical form stay so. -/
def Obligations.ZeroedRangesReadZero : Prop :=
  ∀ (s : State) (line n : Nat),
    (∀ a, 64 * line ≤ a → a < 64 * (line + n) → (s.gddrZero line n).gddr.bytes.read a = 0) ∧
    (∀ a, a < 64 * line ∨ 64 * (line + n) ≤ a → (s.gddrZero line n).gddr.bytes.read a = s.gddr.bytes.read a) ∧
    (∀ l, SMap.get false (s.gddrZero line n).gddr.bad l = (SMap.get false s.gddr.bad l && !(decide (line ≤ l) && decide (l < line + n)))) ∧
    { s.gddrZero line n with gddr := { (s.gddrZero line n).gddr with bytes := s.gddr.bytes, bad := s.gddr.bad, reqs := s.gddr.reqs } } = s ∧
    (memoriesWf s = true → memoriesWf (s.gddrZero line n) = true)

/-- For every number n the model's integer square root r has r squared at most n and n below the square of r + 1. RSQRT's value and the standard deviation of a record's statistics are computed from it. -/
def Obligations.SquareRootIsFloor : Prop :=
  ∀ n : Nat, isqrt n * isqrt n ≤ n ∧ n < (isqrt n + 1) * (isqrt n + 1)

/-- In every state of FATAL_HALT, DESCRIPTOR_TAKE of any ring pair, the four doorbells, an aligned write of any BAR0 register but BRU.SWRST, and each of the 52 named tile operations, at any store index, answer the state as it was. -/
def Obligations.HaltedDeviceActsOnNothing : Prop :=
  ∀ s : State, s.flt.halted = true →
    (∀ r, exec (.descriptorTake r) s = .next s) ∧
    (∀ r v, exec (.doorbellSqTail r v) s = .next s ∧ exec (.doorbellCqHead r v) s = .next s) ∧
    (∀ v, exec (.doorbellEvtHead v) s = .next s ∧ exec (.doorbellReamHead v) s = .next s) ∧
    (∀ (off : BitVec 28) (v : Word) (m : Bool), off.toNat % 4 = 0 → off.toNat ≠ 0xD0000C → exec (.registerWrite off v m) s = .next s) ∧
    (∀ (c : ClusterId) (t : TileId) (ix : OpIx), ∀ i ∈ [Instr.mulOp c t ix, .mac c t ix, .macr c t ix, .accRd c t ix, .accClr c t ix,
        .fma c t ix, .addOp c t ix, .subOp c t ix, .maxOp c t ix, .minOp c t ix, .scale c t ix, .reduceAdd c t ix, .reduceMax c t ix,
        .andOp c t ix, .orOp c t ix, .xorOp c t ix, .shift c t ix, .cmp c t ix, .selectOp c t ix, .cvt c t ix, .expOp c t ix,
        .logOp c t ix, .ld c t ix, .st c t ix, .mov c t ix, .ldi c t ix, .tblLd c t ix, .farRd c t ix, .farWr c t ix,
        .rcp c t ix, .rsqrt c t ix, .tanh c t ix, .sigm c t ix, .pwl c t ix, .quant c t ix, .dequant c t ix, .statsAccumulate c t ix,
        .statsEmit c t ix, .statsDerive c t ix, .statsClear c t ix, .flagInc c t ix, .waitFlag c t ix, .cntSet c t ix, .cntStep c t ix,
        .switchOp c t ix, .mergeOp c t ix, .repeatOp c t ix, .dropOp c t ix, .tokenGenerate c t ix, .tokenRelay c t ix, .tokenTest c t ix,
        .rng c t ix],
      exec i s = .next s)

/-- In every state the registers of the unoccupied BAR0 windows 0x0500_0000 to 0x07FF_FFFF and from 0x0D00_0000, and of the part of each compute die window past its last cluster, read 0. An aligned write to any 64 KiB block of BAR0 outside the blocks that hold a register the host may write (TBS, TRP, RNG, RGC, the MSI-X table, XMS, FLT, PWR, DND, SEC, BRU) answers the state as it was. The list of blocks is read from the register map. -/
def Obligations.UnoccupiedOffsetsIgnored : Prop :=
  ∀ s : State,
    (∀ off, (0x5000000 ≤ off ∧ off < 0x8000000) ∨ 0xD000000 ≤ off → s.readBar0 off = 0) ∧
    (∀ k o, k < 20 → 0x2C0000 ≤ o → o < 0x400000 → s.readBar0 (0x8000000 + 0x400000 * k + o) = 0) ∧
    (∀ (off : BitVec 28) (v : Word) (m : Bool), off.toNat % 4 = 0 →
      off.toNat / 0x10000 ∉ [0x40, 0x50, 0x70, 0x71, 0x72, 0x73, 0x78, 0x80, 0x88, 0x90, 0xA0, 0xB0, 0xC0, 0xD0] →
      exec (.registerWrite off v m) s = .next s)

/-- In the state after reset these registers read the reset values of their tables: TBS STATUS, SERVO0 to SERVO3, LIMITS and DOMCFG0 and 1; DETA, DETB and PSLACK of each of the 64 trigger pipelines and LCTRL of the 8 trigger lines; RNG.CFG of ring pairs 0 and 4,095; RGC.EVT_CFG and REAM_CFG; XMS.CFG2; FLT.STATUS; PWR CAP, TLIM, WAKE_EN and GPIO0 to 15; DND WIN, SCHED and THR; LNP.GCTRL and LSTAT0 of every training group of the edge dies; CLC.WDOG and CLC.IMAGE of each cluster. GDDR6 reads 0 and has no uncorrectable line, no region, image, admission or descriptor exists, every codebook slot holds SIZE 16, ZERO 0xFF and values 0, and no command waits. -/
def Obligations.ResetLeavesTheStatedValues : Prop :=
  (∀ p ∈ [(0x400004, 0x38000000), (0x400040, 0x03000140), (0x400044, 0x03000140), (0x400048, 0x03000140), (0x40004C, 0x43331CCD),
      (0x400050, 0x464), (0x400060, 0x08008080), (0x400064, 0x08008080), (0x700010, 0x33000000), (0x73FFD0, 0x33000000),
      (0x780018, 0x30000000), (0x780020, 0x30000000), (0x880018, 0x03E8A800), (0x900000, 0x28000000), (0xA00004, 0x6D6),
      (0xA00010, 0x5A), (0xA00014, 0x1F), (0xB00004, 0x01100000), (0xB00008, 0x3E8), (0xB0000C, 0x3F800000)],
    State.reset.readBar0 p.1 = p.2) ∧
  (∀ p < 64, State.reset.readBar0 (0x500008 + 0x20 * p) = 0x3C000000 ∧ State.reset.readBar0 (0x50000C + 0x20 * p) = 0x40000 ∧
    State.reset.readBar0 (0x500014 + 0x20 * p) = 0xFFFF) ∧
  (∀ n < 8, State.reset.readBar0 (0x500800 + 0x10 * n) = 0xC800) ∧ (∀ n < 16, State.reset.readBar0 (0xA00200 + 4 * n) = 0x3200000) ∧
  (∀ e < 4, ∀ g < 6, State.reset.readBar0 (0x1200000 + 0x1000000 * e + 0x1000 * g) = 0x3C000000 ∧
    State.reset.readBar0 (0x1200100 + 0x1000000 * e + 0x1000 * g) = 0x80000000) ∧
  (∀ k < 20, ∀ o < 44, State.reset.readBar0 (0x800000C + 0x400000 * k + 0x10000 * o) = 0x10000 ∧
    State.reset.readBar0 (0x8000060 + 0x400000 * k + 0x10000 * o) = 0xFFFF) ∧
  (∀ a, State.reset.gddr.bytes.read a = 0 ∧ SMap.get false State.reset.gddr.bad a = false) ∧
  (∀ h, State.reset.image h = {}) ∧ (∀ n, State.reset.region n = {}) ∧ (∀ r, State.reset.ring r = {}) ∧
  (∀ c t k, ((State.reset.cl c).tile t).book k = { wide := false, zero := 0xFF, vals := [] }) ∧ State.reset.pending = []
end

