-- ==== Sys2Proof/Laws/SMap.lean ====
section
/-!
SUPPORT. The laws of sparse maps and byte memories: reading after writing, and that every write keeps the canonical form.
-/
namespace Sys2Proof.Machine

variable {β : Type}

@[simp] theorem SMap.get_nil (d : β) (i : Nat) : SMap.get d [] i = d := rfl

/-- Reading a key just inserted gives its value. -/
@[simp] theorem SMap.get_insert_same (d : β) (m : SMap β) (i : Nat) (v : β) : (m.insert i v).get d i = v := by
  induction m with
  | nil => simp [SMap.insert, SMap.get]
  | cons p m ih =>
    obtain ⟨k, w⟩ := p
    simp only [SMap.insert]
    split
    · simp [SMap.get]
    · split
      · simp [SMap.get]
      · rename_i h; simp only [SMap.get, ih]; simp [Ne.symm h]

/-- An insertion leaves every other key alone. -/
theorem SMap.get_insert_other (d : β) (m : SMap β) {i j : Nat} (v : β) (h : i ≠ j) : (m.insert i v).get d j = m.get d j := by
  induction m with
  | nil => simp [SMap.insert, SMap.get, h]
  | cons p m ih =>
    obtain ⟨k, w⟩ := p
    simp only [SMap.insert]
    split
    · simp [SMap.get, h]
    · split
      · rename_i hk; subst hk; simp [SMap.get, h]
      · simp [SMap.get, ih]

/-- Erasing keeps the entries of the other keys. -/
theorem SMap.erase_eq_filter (m : SMap β) (i : Nat) : m.erase i = m.filter fun p => decide (p.1 ≠ i) := by
  induction m with
  | nil => rfl
  | cons p m ih =>
    obtain ⟨k, w⟩ := p
    by_cases hk : k = i <;> simp [SMap.erase, hk, ih]

/-- Erasing a key leaves every other key alone. -/
theorem SMap.get_erase_other (d : β) (m : SMap β) {i j : Nat} (h : i ≠ j) : (m.erase i).get d j = m.get d j := by
  induction m with
  | nil => rfl
  | cons p m ih =>
    obtain ⟨k, w⟩ := p
    simp only [SMap.erase]
    split
    · rename_i hk; subst hk; simp [SMap.get, h, ih]
    · simp [SMap.get, ih]

/-- The keys of a map rise strictly and no entry equals the default: the canonical form as a proposition. -/
theorem SMap.wf_cons [DecidableEq β] (d : β) (k : Nat) (v : β) (m : SMap β) :
    SMap.wf d ((k, v) :: m) = true ↔ v ≠ d ∧ SMap.wf d m = true ∧ ∀ p ∈ m.head?, k < p.1 := by
  cases m with
  | nil => simp [SMap.wf]
  | cons p m => obtain ⟨k', v'⟩ := p; simp [SMap.wf]; tauto

theorem SMap.wf_nil [DecidableEq β] (d : β) : SMap.wf d ([] : SMap β) = true := rfl

/-- In canonical form every listed key after the first is above it. -/
theorem SMap.wf_lt [DecidableEq β] (d : β) (m : SMap β) (k : Nat) (v : β) (h : SMap.wf d ((k, v) :: m) = true) :
    ∀ p ∈ m, k < p.1 := by
  induction m generalizing k v with
  | nil => simp
  | cons q m ih =>
    obtain ⟨k', v'⟩ := q
    rw [SMap.wf_cons] at h
    obtain ⟨-, h2, h3⟩ := h
    have hk : k < k' := by simpa using h3
    intro p hp
    rcases List.mem_cons.1 hp with rfl | hp
    · exact hk
    · exact lt_trans hk (ih k' v' h2 p hp)

/-- A canonical map with its first entry gone is canonical. -/
theorem SMap.wf_tail [DecidableEq β] (d : β) (p : Nat × β) (m : SMap β) (h : SMap.wf d (p :: m) = true) :
    SMap.wf d m = true := by
  obtain ⟨k, v⟩ := p
  exact ((SMap.wf_cons d k v m).1 h).2.1

/-- A key below every listed key reads as the default. -/
theorem SMap.get_below (d : β) (m : SMap β) (i : Nat) (h : ∀ p ∈ m, i < p.1) : m.get d i = d := by
  induction m with
  | nil => rfl
  | cons p m ih =>
    obtain ⟨k, v⟩ := p
    have hk : i < k := h (k, v) (by simp)
    simp [SMap.get, Nat.ne_of_gt hk, ih fun p hp => h p (List.mem_cons_of_mem _ hp)]

/-- An erased key reads as the default. -/
theorem SMap.get_erase_same (d : β) (m : SMap β) (i : Nat) : (m.erase i).get d i = d := by
  induction m with
  | nil => rfl
  | cons p m ih =>
    obtain ⟨k, v⟩ := p
    simp only [SMap.erase]
    split
    · exact ih
    · rename_i hk; simp [SMap.get, hk, ih]

/-- A read of the key just written. -/
@[simp] theorem SMap.get_set_same [DecidableEq β] (d : β) (m : SMap β) (i : Nat) (v : β) : (m.set d i v).get d i = v := by
  unfold SMap.set
  split
  · rename_i hv; rw [SMap.get_erase_same d m i, hv]
  · simp

/-- A read of the key just written, where what was written is not the default. -/
theorem SMap.get_set_ne [DecidableEq β] (d : β) (m : SMap β) (i : Nat) (v : β) (h : v ≠ d) : (m.set d i v).get d i = v := by
  simp [SMap.set, h]

/-- A write leaves every other key alone. -/
theorem SMap.get_set_other [DecidableEq β] (d : β) (m : SMap β) {i j : Nat} (v : β) (h : i ≠ j) :
    (m.set d i v).get d j = m.get d j := by
  unfold SMap.set
  split
  · exact SMap.get_erase_other d m h
  · exact SMap.get_insert_other d m v h

/-- The first key of a map with a key inserted. -/
theorem SMap.head_insert (m : SMap β) (i : Nat) (v : β) (k : Nat) (h : ∀ p ∈ m.head?, k < p.1) (hi : k < i) :
    ∀ p ∈ (m.insert i v).head?, k < p.1 := by
  cases m with
  | nil => simp [SMap.insert, hi]
  | cons p m =>
    obtain ⟨k', w⟩ := p
    simp only [SMap.insert]
    split
    · simp [hi]
    · split
      · simp [hi]
      · simpa using h

/-- Inserting a value that is not the default keeps the canonical form. -/
theorem SMap.wf_insert [DecidableEq β] (d : β) (m : SMap β) (i : Nat) (v : β) (hv : v ≠ d) (h : SMap.wf d m = true) :
    SMap.wf d (m.insert i v) = true := by
  induction m with
  | nil => simp [SMap.insert, SMap.wf, hv]
  | cons p m ih =>
    obtain ⟨k, w⟩ := p
    simp only [SMap.insert]
    split
    · rename_i hk; rw [SMap.wf_cons]; exact ⟨hv, h, by simpa using hk⟩
    · split
      · rename_i hk; subst hk
        have := (SMap.wf_cons d i w m).1 h
        rw [SMap.wf_cons]; exact ⟨hv, this.2.1, this.2.2⟩
      · rename_i h1 h2
        have h3 := (SMap.wf_cons d k w m).1 h
        rw [SMap.wf_cons]
        exact ⟨h3.1, ih h3.2.1, SMap.head_insert m i v k h3.2.2 (by omega)⟩

/-- The entries left after a filter of a canonical map are canonical. -/
theorem SMap.wf_filter [DecidableEq β] (d : β) (m : SMap β) (f : Nat × β → Bool) (h : SMap.wf d m = true) :
    SMap.wf d (m.filter f) = true := by
  induction m with
  | nil => rfl
  | cons p m ih =>
    obtain ⟨k, w⟩ := p
    have h3 := (SMap.wf_cons d k w m).1 h
    rw [List.filter_cons]
    split
    · rw [SMap.wf_cons]
      refine ⟨h3.1, ih h3.2.1, ?_⟩
      intro q hq
      exact SMap.wf_lt d m k w h q (List.mem_of_mem_filter (List.mem_of_mem_head? hq))
    · exact ih h3.2.1

/-- Erasing keeps the canonical form. -/
theorem SMap.wf_erase [DecidableEq β] (d : β) (m : SMap β) (i : Nat) (h : SMap.wf d m = true) :
    SMap.wf d (m.erase i) = true := by
  rw [SMap.erase_eq_filter]; exact SMap.wf_filter d m _ h

/-- Every write keeps the canonical form. -/
theorem SMap.wf_set [DecidableEq β] (d : β) (m : SMap β) (i : Nat) (v : β) (h : SMap.wf d m = true) :
    SMap.wf d (m.set d i v) = true := by
  unfold SMap.set
  split
  · exact SMap.wf_erase d m i h
  · exact SMap.wf_insert d m i v ‹_› h

/-! ## Byte memories -/

/-- A byte just written reads back. -/
theorem Mem.read_write_same (m : Mem) (a : Nat) (b : Byte) : (m.write a b).read a = b :=
  SMap.get_set_same Mem.zero m a b

/-- A write of one byte leaves every other byte alone. -/
theorem Mem.read_write_other (m : Mem) {a c : Nat} (b : Byte) (h : a ≠ c) : (m.write a b).read c = m.read c :=
  SMap.get_set_other Mem.zero m b h

/-- A write of a byte keeps the canonical form. -/
theorem Mem.wf_write (m : Mem) (a : Nat) (b : Byte) (h : Mem.wf 0 m = true) : Mem.wf 0 (m.write a b) = true :=
  SMap.wf_set Mem.zero m a b h

/-- A write of bytes keeps the canonical form. -/
theorem Mem.wf_writeBytes (m : Mem) (a : Nat) (bs : List Byte) (h : Mem.wf 0 m = true) :
    Mem.wf 0 (m.writeBytes a bs) = true := by
  induction bs generalizing m a with
  | nil => exact h
  | cons b bs ih => exact ih _ _ (Mem.wf_write m a b h)

/-- A write of a number keeps the canonical form. -/
theorem Mem.wf_writeLe (m : Mem) (a n x : Nat) (h : Mem.wf 0 m = true) : Mem.wf 0 (m.writeLe a n x) = true :=
  Mem.wf_writeBytes m a _ h

/-- A write of bytes leaves every byte outside them alone. -/
theorem Mem.read_writeBytes_other (m : Mem) (a c : Nat) (bs : List Byte) (h : c < a ∨ a + bs.length ≤ c) :
    (m.writeBytes a bs).read c = m.read c := by
  induction bs generalizing m a with
  | nil => rfl
  | cons b bs ih =>
    have h' : a ≠ c := by
      intro e
      subst e
      simp at h
    simp only [Mem.writeBytes]
    rw [ih]
    · exact Mem.read_write_other m b h'
    · simp only [List.length_cons] at h
      omega

/-- Bytes just written read back. -/
theorem Mem.readBytes_writeBytes (m : Mem) (a : Nat) (bs : List Byte) : (m.writeBytes a bs).readBytes a bs.length = bs := by
  induction bs generalizing m a with
  | nil => rfl
  | cons b bs ih =>
    simp only [Mem.writeBytes, List.length_cons, Mem.readBytes, ih]
    rw [Mem.read_writeBytes_other _ _ _ _ (Or.inl (Nat.lt_succ_self a)), Mem.read_write_same]

/-- The form of a memory with a range of addresses dropped. -/
theorem Mem.wf_filter (d : Byte) (m : Mem) (f : Nat × Byte → Bool) (h : Mem.wf d m = true) : Mem.wf d (m.filter f) = true :=
  SMap.wf_filter d m f h

end Sys2Proof.Machine
end

