-- ==== Sys2Proof/Laws/Gddr.lean ====
section
/-!
SUPPORT. Laws of the shared GDDR6 operations: what a write of bytes and a zeroing of lines do.
-/
namespace Sys2Proof.Machine

theorem Mem.writeBytes_append (m : Mem) (a : Nat) (xs ys : List Byte) :
    m.writeBytes a (xs ++ ys) = (m.writeBytes a xs).writeBytes (a + xs.length) ys := by
  induction xs generalizing m a with
  | nil => rfl
  | cons b xs ih => simp only [List.cons_append, Mem.writeBytes, ih, List.length_cons]; congr 1; omega

/-- A line that can be read can be read after a write that marks no line. -/
theorem State.lineBad_of_bad {s : State} {m : Mem} {bad : SMap Bool} {l : Nat}
    (h : SMap.get false bad l = true → SMap.get false s.gddr.bad l = true) (hl : s.lineBad l = false) :
    ({ s with gddr := { s.gddr with bytes := m, bad := bad } } : State).lineBad l = false := by
  unfold State.lineBad at hl ⊢
  rw [Bool.or_eq_false_iff, Bool.or_eq_false_iff] at hl ⊢
  refine ⟨⟨?_, hl.1.2⟩, hl.2⟩
  by_contra hn
  rw [h (by simpa using hn)] at hl
  exact absurd hl.1.1 (by decide)

/-- A write that touches no uncorrectable line writes its bytes and marks no line. -/
theorem State.gddrWriteFrom_spec (fuel : Nat) (s : State) (a : Nat) (bs : List Byte) (hf : bs.length + a % 64 ≤ 64 * fuel)
    (hb : ∀ l, a / 64 ≤ l → 64 * l < a + bs.length → s.lineBad l = false) :
    ∃ bad, s.gddrWriteFrom fuel a bs = { s with gddr := { s.gddr with bytes := s.gddr.bytes.writeBytes a bs, bad := bad } } ∧
      ∀ l, SMap.get false bad l = true → SMap.get false s.gddr.bad l = true := by
  induction fuel generalizing s a bs with
  | zero =>
    have : bs = [] := List.length_eq_zero_iff.1 (by omega)
    subst this
    exact ⟨s.gddr.bad, rfl, fun _ h => h⟩
  | succ fuel ih =>
    unfold State.gddrWriteFrom
    by_cases he : bs = []
    · subst he; exact ⟨s.gddr.bad, rfl, fun _ h => h⟩
    rw [if_neg he]
    have hpos : 0 < bs.length := List.length_pos_iff.2 he
    obtain ⟨b1, h1, h1'⟩ : ∃ bad, s.gddrWriteLine a (bs.take (64 - a % 64)) =
        { s with gddr := { s.gddr with bytes := s.gddr.bytes.writeBytes a (bs.take (64 - a % 64)), bad := bad } } ∧
        ∀ l, SMap.get false bad l = true → SMap.get false s.gddr.bad l = true := by
      unfold State.gddrWriteLine
      rw [hb (a / 64) le_rfl (by omega), Bool.false_and, if_neg Bool.false_ne_true]
      refine ⟨_, rfl, ?_⟩
      intro l hl
      split at hl
      · by_cases hla : a / 64 = l
        · subst hla; rw [SMap.get_set_same] at hl; cases hl
        · rwa [SMap.get_set_other _ _ _ hla] at hl
      · exact hl
    rw [h1]
    obtain ⟨b2, h2, h2'⟩ := ih { s with gddr := { s.gddr with bytes := s.gddr.bytes.writeBytes a (bs.take (64 - a % 64)), bad := b1 } }
      (a + (64 - a % 64)) (bs.drop (64 - a % 64))
      (by simp only [List.length_drop]; omega)
      (by
        intro l h3 h4
        simp only [List.length_drop] at h4
        exact State.lineBad_of_bad (fun h => h1' l h) (hb l (by omega) (by omega)))
    rw [h2]
    refine ⟨b2, ?_, fun l hl => h1' l (h2' l hl)⟩
    congr 2
    conv_rhs => rw [← List.take_append_drop (64 - a % 64) bs, Mem.writeBytes_append]
    by_cases hlen : 64 - a % 64 ≤ bs.length
    · rw [List.length_take, Nat.min_eq_left hlen]
    · rw [List.drop_eq_nil_of_le (by omega)]; rfl

/-- A write of bytes to GDDR6 that touches no uncorrectable line. -/
theorem State.gddrWrite_spec (s : State) (a : Nat) (bs : List Byte)
    (hb : ∀ l, a / 64 ≤ l → 64 * l < a + bs.length → s.lineBad l = false) :
    ∃ bad, s.gddrWrite a bs = { s with gddr := { s.gddr with bytes := s.gddr.bytes.writeBytes a bs, bad := bad } } ∧
      ∀ l, SMap.get false bad l = true → SMap.get false s.gddr.bad l = true :=
  s.gddrWriteFrom_spec _ a bs (by omega) hb

/-- What a key reads as after a filter of the keys. -/
theorem SMap.get_filter_key {β : Type} (d : β) (m : SMap β) (f : Nat → Bool) (i : Nat) :
    SMap.get d (m.filter fun p => f p.1) i = if f i then SMap.get d m i else d := by
  induction m with
  | nil => simp
  | cons p m ih =>
    obtain ⟨k, v⟩ := p
    rw [List.filter_cons]
    by_cases hk : k = i
    · subst hk
      by_cases hf : f k <;> simp [hf, SMap.get, ih]
    · split
      · simp [SMap.get, hk, ih]
      · simp [SMap.get, hk, ih]

/-- What a line of cleared GDDR6 reads as, and that the rest is left alone. -/
theorem State.gddrClear_read (s : State) (line n a : Nat) :
    (s.gddrClear line n).gddr.bytes.read a = if 64 * line ≤ a ∧ a < 64 * (line + n) then 0 else s.gddr.bytes.read a := by
  unfold State.gddrClear Mem.read
  simp only
  rw [SMap.get_filter_key Mem.zero s.gddr.bytes fun k => decide (k < 64 * line) || decide (64 * (line + n) ≤ k)]
  by_cases h : 64 * line ≤ a ∧ a < 64 * (line + n)
  · rw [if_pos h, if_neg (by simp; omega)]; rfl
  · rw [if_neg h, if_pos (by simp; omega)]

/-- Asking for slots leaves the bytes alone. -/
@[simp] theorem State.asks_bytes (s : State) (cls : Nat) (write : Bool) (a n : Nat) : (s.asks cls write a n).gddr.bytes = s.gddr.bytes := by
  unfold State.asks
  split <;> rfl

/-- What a line of zeroed GDDR6 reads as, and that the rest is left alone. -/
theorem State.gddrZero_read (s : State) (line n a : Nat) :
    (s.gddrZero line n).gddr.bytes.read a = if 64 * line ≤ a ∧ a < 64 * (line + n) then 0 else s.gddr.bytes.read a := by
  rw [State.gddrZero, State.asks_bytes, State.gddrClear_read]

end Sys2Proof.Machine
end

