-- ==== Sys2Proof/Laws/Memories.lean ====
section
/-!
SUPPORT. The memories of a state keep their canonical form: the lemmas that every proof of it uses.
-/
namespace Sys2Proof.Machine

theorem wf_iff {s : State} :
    memoriesWf s = true ↔ Mem.wf 0 s.host = true ∧ Mem.wf 0 s.gddr.bytes = true ∧ Mem.wf 0xFF s.sec.flash = true := by
  simp [memoriesWf, and_assoc]

theorem wf_host {s : State} (h : memoriesWf s = true) : Mem.wf 0 s.host = true := (wf_iff.1 h).1
theorem wf_bytes {s : State} (h : memoriesWf s = true) : Mem.wf 0 s.gddr.bytes = true := (wf_iff.1 h).2.1
theorem wf_flash {s : State} (h : memoriesWf s = true) : Mem.wf 0xFF s.sec.flash = true := (wf_iff.1 h).2.2

/-- A state written out has canonical memories if its three memories are. -/
theorem wf_mk (pending : List Instr) (free : Nat) (out : List Out) (host : Mem) (fab : Fabric) (gddr : Gddr) (images : SMap Image)
    (lanes : SMap LnpGroup) (tb : TimeBase) (hbx : Headbox) (trp : Trp) (vat : Vat) (pcx : Pcx) (hif : HostIf) (xms : Xms)
    (flt : Flt) (svc : Svc) (pwr : Pwr) (dnd : Dnd) (sec : Sec) (bru : Bru) (wcap : SMap (Option (BitVec 32))) (stepA1 : Bool)
    (enables : BitVec 2) :
    (memoriesWf (State.mk pending free out host fab gddr images lanes tb hbx trp vat pcx hif xms flt svc pwr dnd sec bru wcap stepA1
      enables) = true) = (Mem.wf 0 host = true ∧ Mem.wf 0 gddr.bytes = true ∧ Mem.wf 0xFF sec.flash = true) := by
  simp [memoriesWf, and_assoc]

/-- What every step of a fold keeps, the fold keeps. -/
theorem foldl_keeps {σ α : Type} {P : σ → Prop} (f : σ → α → σ) (hf : ∀ s a, P s → P (f s a)) (l : List α) (s : σ) (h : P s) :
    P (l.foldl f s) := by
  induction l generalizing s with
  | nil => exact h
  | cons a l ih => exact ih _ (hf s a h)

/-- The fold of state changes that each keep the canonical form keeps it. -/
theorem wf_fold {α : Type} (f : State → α → State) (l : List α) (s : State) (hf : ∀ s a, memoriesWf s = true → memoriesWf (f s a) = true)
    (h : memoriesWf s = true) : memoriesWf (l.foldl f s) = true :=
  foldl_keeps (P := fun s => memoriesWf s = true) f hf l s h

/-- A state that an option gives, or else another. -/
theorem wf_getD {o : Option State} {s : State} (ho : ∀ t, o = some t → memoriesWf t = true) (h : memoriesWf s = true) :
    memoriesWf (o.getD s) = true := by
  cases o with
  | none => exact h
  | some t => exact ho t rfl

end Sys2Proof.Machine
end

