-- ==== Sys2Proof/Laws/MemoriesOps.lean ====
section
/-!
SUPPORT. Every shared operation keeps the memories in their canonical form: the operations over clusters, far memory, images, rings and the clocks.
-/
namespace Sys2Proof.Machine

theorem State.setCl_wf (s : State) (c : Nat) (x : Cluster) (h0 : memoriesWf s = true) :
    memoriesWf (State.setCl s c x) = true := by
  unfold State.setCl
  try dsimp only
  repeat' with_reducible first
    | assumption | apply wf_host | apply wf_bytes | apply wf_flash | (simp only [wf_mk]; refine ⟨?_, ?_, ?_⟩)

theorem State.setService_wf (s : State) (c : Nat) (v : Service) (h0 : memoriesWf s = true) :
    memoriesWf (State.setService s c v) = true := by
  unfold State.setService
  try dsimp only
  repeat' with_reducible first
    | assumption | apply wf_host | apply wf_bytes | apply wf_flash | (simp only [wf_mk]; refine ⟨?_, ?_, ?_⟩)

theorem State.setLink_wf (s : State) (k : Nat) (v : LinkSt) (h0 : memoriesWf s = true) :
    memoriesWf (State.setLink s k v) = true := by
  unfold State.setLink
  try dsimp only
  repeat' with_reducible first
    | assumption | apply wf_host | apply wf_bytes | apply wf_flash | (simp only [wf_mk]; refine ⟨?_, ?_, ?_⟩)

theorem State.setImage_wf (s : State) (h : Nat) (im : Image) (h0 : memoriesWf s = true) :
    memoriesWf (State.setImage s h im) = true := by
  unfold State.setImage
  try dsimp only
  repeat' with_reducible first
    | assumption | apply wf_host | apply wf_bytes | apply wf_flash | (simp only [wf_mk]; refine ⟨?_, ?_, ?_⟩)

theorem State.setPipe_wf (s : State) (p : Nat) (q : Pipe) (h0 : memoriesWf s = true) :
    memoriesWf (State.setPipe s p q) = true := by
  unfold State.setPipe
  try dsimp only
  repeat' with_reducible first
    | assumption | apply wf_host | apply wf_bytes | apply wf_flash | (simp only [wf_mk]; refine ⟨?_, ?_, ?_⟩)

theorem State.setStream_wf (s : State) (i : Nat) (x : Stream) (h0 : memoriesWf s = true) :
    memoriesWf (State.setStream s i x) = true := by
  unfold State.setStream
  try dsimp only
  repeat' with_reducible first
    | assumption | apply wf_host | apply wf_bytes | apply wf_flash | (simp only [wf_mk]; refine ⟨?_, ?_, ?_⟩)

theorem State.setRing_wf (s : State) (r : Nat) (x : Ring) (h0 : memoriesWf s = true) :
    memoriesWf (State.setRing s r x) = true := by
  unfold State.setRing
  try dsimp only
  repeat' with_reducible first
    | assumption | apply wf_host | apply wf_bytes | apply wf_flash | (simp only [wf_mk]; refine ⟨?_, ?_, ?_⟩)

theorem State.setQuarter_wf (s : State) (e : Nat) (q : Quarter) (h0 : memoriesWf s = true) :
    memoriesWf (State.setQuarter s e q) = true := by
  unfold State.setQuarter
  try dsimp only
  repeat' with_reducible first
    | assumption | apply wf_host | apply wf_bytes | apply wf_flash | (simp only [wf_mk]; refine ⟨?_, ?_, ?_⟩)

theorem State.setRegion_wf (s : State) (n : Nat) (x : Rgt) (h0 : memoriesWf s = true) :
    memoriesWf (State.setRegion s n x) = true := by
  unfold State.setRegion
  try dsimp only
  repeat' with_reducible first
    | assumption | apply wf_host | apply wf_bytes | apply wf_flash | (simp only [wf_mk]; refine ⟨?_, ?_, ?_⟩)

theorem State.emit_wf (s : State) (o : Out) (h0 : memoriesWf s = true) :
    memoriesWf (State.emit s o) = true := by
  unfold State.emit
  try dsimp only
  repeat' with_reducible first
    | assumption | apply wf_host | apply wf_bytes | apply wf_flash | (simp only [wf_mk]; refine ⟨?_, ?_, ?_⟩)

theorem State.takeFree_wf (s : State) (h0 : memoriesWf s = true) : memoriesWf (State.takeFree s).2 = true := by
  unfold State.takeFree
  simp only [wf_mk]
  exact ⟨wf_host h0, wf_bytes h0, wf_flash h0⟩

theorem State.gddrWriteLine_wf (s : State) (a : Nat) (bs : List Byte) (h0 : memoriesWf s = true) :
    memoriesWf (State.gddrWriteLine s a bs) = true := by
  unfold State.gddrWriteLine
  try dsimp only
  repeat' with_reducible first
    | assumption | apply wf_host | apply wf_bytes | apply wf_flash | apply Mem.wf_writeBytes | split
    | (simp only [wf_mk]; refine ⟨?_, ?_, ?_⟩)

theorem State.gddrWriteFrom_wf (s : State) (n a : Nat) (bs : List Byte) (h0 : memoriesWf s = true) :
    memoriesWf (State.gddrWriteFrom s n a bs) = true := by
  induction n generalizing s a bs with
  | zero => exact h0
  | succ n ih =>
    unfold State.gddrWriteFrom
    split
    · exact h0
    · apply ih; apply State.gddrWriteLine_wf; exact h0

theorem State.gddrWrite_wf (s : State) (a : Nat) (bs : List Byte) (h0 : memoriesWf s = true) :
    memoriesWf (State.gddrWrite s a bs) = true := by
  unfold State.gddrWrite
  try dsimp only
  repeat' with_reducible first
    | assumption | apply State.gddrWriteFrom_wf

theorem State.asks_wf (s : State) (cls : Nat) (write : Bool) (a n : Nat) (h0 : memoriesWf s = true) :
    memoriesWf (State.asks s cls write a n) = true := by
  unfold State.asks
  try dsimp only
  repeat' with_reducible first
    | assumption | apply wf_host | apply wf_bytes | apply wf_flash | split | (simp only [wf_mk]; refine ⟨?_, ?_, ?_⟩)

theorem State.gddrClear_wf (s : State) (line n : Nat) (h0 : memoriesWf s = true) :
    memoriesWf (State.gddrClear s line n) = true := by
  unfold State.gddrClear
  try dsimp only
  repeat' with_reducible first
    | assumption | apply wf_host | apply wf_bytes | apply wf_flash | apply Mem.wf_filter | split
    | (simp only [wf_mk]; refine ⟨?_, ?_, ?_⟩)

theorem State.gddrZero_wf (s : State) (line n : Nat) (h0 : memoriesWf s = true) :
    memoriesWf (State.gddrZero s line n) = true := by
  unfold State.gddrZero
  try dsimp only
  repeat' with_reducible first
    | assumption | apply State.asks_wf | apply State.gddrClear_wf

theorem State.aerError_wf (s : State) (n : Nat) (h0 : memoriesWf s = true) :
    memoriesWf (State.aerError s n) = true := by
  unfold State.aerError
  try dsimp only
  repeat' with_reducible first
    | assumption | apply wf_host | apply wf_bytes | apply wf_flash | (simp only [wf_mk]; refine ⟨?_, ?_, ?_⟩)

theorem State.aerCorrected_wf (s : State) (n : Nat) (h0 : memoriesWf s = true) :
    memoriesWf (State.aerCorrected s n) = true := by
  unfold State.aerCorrected
  try dsimp only
  repeat' with_reducible first
    | assumption | apply wf_host | apply wf_bytes | apply wf_flash | split | (simp only [wf_mk]; refine ⟨?_, ?_, ?_⟩)

theorem State.signal_wf (s : State) (v : Nat) (h0 : memoriesWf s = true) :
    memoriesWf (State.signal s v) = true := by
  unfold State.signal
  try dsimp only
  repeat' with_reducible first
    | assumption | apply State.emit_wf | apply wf_host | apply wf_bytes | apply wf_flash | split
    | (simp only [wf_mk]; refine ⟨?_, ?_, ?_⟩)

theorem State.hostWrite_wf (s : State) (a : Nat) (bs : List Byte) (h0 : memoriesWf s = true) :
    memoriesWf (State.hostWrite s a bs) = true := by
  unfold State.hostWrite
  try dsimp only
  repeat' with_reducible first
    | assumption | apply wf_host | apply wf_bytes | apply wf_flash | apply Mem.wf_writeBytes
    | (simp only [wf_mk]; refine ⟨?_, ?_, ?_⟩)

theorem State.postEvent_wf (s : State) (type ring handle body : Nat) (h0 : memoriesWf s = true) :
    memoriesWf (State.postEvent s type ring handle body) = true := by
  unfold State.postEvent
  try dsimp only
  repeat' with_reducible first
    | assumption | apply State.signal_wf | apply State.hostWrite_wf | apply wf_host | apply wf_bytes | apply wf_flash | split
    | (simp only [wf_mk]; refine ⟨?_, ?_, ?_⟩)

theorem State.faultRecord_wf (s : State) (r : FaultRec) (h0 : memoriesWf s = true) :
    memoriesWf (State.faultRecord s r) = true := by
  unfold State.faultRecord
  try dsimp only
  repeat' with_reducible first
    | assumption | apply State.postEvent_wf | apply wf_host | apply wf_bytes | apply wf_flash | split
    | (simp only [wf_mk]; refine ⟨?_, ?_, ?_⟩)

theorem State.unitWrite_wf (s : State) (cls a : Nat) (bs : List Byte) (h0 : memoriesWf s = true) :
    memoriesWf (State.unitWrite s cls a bs) = true := by
  unfold State.unitWrite
  try dsimp only
  repeat' with_reducible first
    | assumption | apply State.gddrWrite_wf | apply State.asks_wf | apply State.faultRecord_wf | apply wf_host | apply wf_bytes
    | apply wf_flash | (apply wf_fold <;> intros) | (simp only [wf_mk]; refine ⟨?_, ?_, ?_⟩)

theorem State.pushCompletion_wf (s : State) (r : Nat) (c : Compl) (h0 : memoriesWf s = true) :
    memoriesWf (State.pushCompletion s r c) = true := by
  unfold State.pushCompletion
  try dsimp only
  repeat' with_reducible first
    | assumption | apply State.setRing_wf | apply wf_host | apply wf_bytes | apply wf_flash
    | (simp only [wf_mk]; refine ⟨?_, ?_, ?_⟩)

theorem State.clearAborted_wf (s : State) (h : Nat) (h0 : memoriesWf s = true) :
    memoriesWf (State.clearAborted s h) = true := by
  unfold State.clearAborted
  try dsimp only
  repeat' with_reducible first
    | assumption | apply State.setCl_wf | apply wf_host | apply wf_bytes | apply wf_flash | split | (apply wf_fold <;> intros)
    | (simp only [wf_mk]; refine ⟨?_, ?_, ?_⟩)

theorem State.finish_wf (s : State) (r n : Nat) (outcome check : BitVec 8) (info : Nat) (clear : Option (BitVec 16) := none)
    (h0 : memoriesWf s = true) :
    memoriesWf (State.finish s r n outcome check info clear) = true := by
  unfold State.finish
  try dsimp only
  repeat' with_reducible first
    | assumption | apply State.setRing_wf | apply State.clearAborted_wf | apply wf_host | apply wf_bytes | apply wf_flash
    | split | (simp only [wf_mk]; refine ⟨?_, ?_, ?_⟩)

theorem State.gapRecord_wf (s : State) (sid kind pipe cause : Nat) (start stop : TimeVal) (h0 : memoriesWf s = true) :
    memoriesWf (State.gapRecord s sid kind pipe cause start stop) = true := by
  unfold State.gapRecord
  try dsimp only
  repeat' with_reducible first
    | assumption | apply State.setStream_wf | apply wf_host | apply wf_bytes | apply wf_flash | split
    | (simp only [wf_mk]; refine ⟨?_, ?_, ?_⟩)

theorem State.openGap_wf (s : State) (p cause : Nat) (start : TimeVal) (h0 : memoriesWf s = true) :
    memoriesWf (State.openGap s p cause start) = true := by
  unfold State.openGap
  try dsimp only
  repeat' with_reducible first
    | assumption | apply State.setPipe_wf | apply State.postEvent_wf | apply wf_host | apply wf_bytes | apply wf_flash | split
    | (simp only [wf_mk]; refine ⟨?_, ?_, ?_⟩)

theorem State.closeGap_wf (s : State) (p : Nat) (stop : TimeVal) (h0 : memoriesWf s = true) :
    memoriesWf (State.closeGap s p stop) = true := by
  unfold State.closeGap
  try dsimp only
  repeat' with_reducible first
    | assumption | apply State.setPipe_wf | apply State.gapRecord_wf | apply wf_host | apply wf_bytes | apply wf_flash | split
    | (simp only [wf_mk]; refine ⟨?_, ?_, ?_⟩)

theorem State.abortCluster_wf (s : State) (c : Nat) (h0 : memoriesWf s = true) :
    memoriesWf (State.abortCluster s c) = true := by
  unfold State.abortCluster
  try dsimp only
  repeat' with_reducible first
    | assumption | apply State.setCl_wf | apply State.gddrWrite_wf | apply State.asks_wf | split | (apply wf_fold <;> intros)

theorem State.clearPaths_wf (s : State) (rs : List Route) (h0 : memoriesWf s = true) :
    memoriesWf (State.clearPaths s rs) = true := by
  unfold State.clearPaths
  try dsimp only
  repeat' with_reducible first
    | assumption | apply State.setLink_wf | apply wf_host | apply wf_bytes | apply wf_flash | (apply wf_fold <;> intros)
    | (simp only [wf_mk]; refine ⟨?_, ?_, ?_⟩)

theorem State.clearRoutes_wf (s : State) (im : Image) (h0 : memoriesWf s = true) :
    memoriesWf (State.clearRoutes s im) = true := by
  unfold State.clearRoutes
  try dsimp only
  repeat' with_reducible first
    | assumption | apply State.clearPaths_wf

theorem State.endSheet_wf (s : State) (h : Nat) (outcome check : BitVec 8) (code : Nat) (clear : Bool)
    (h0 : memoriesWf s = true) :
    memoriesWf (State.endSheet s h outcome check code clear) = true := by
  unfold State.endSheet
  try dsimp only
  repeat' with_reducible first
    | assumption | apply State.setImage_wf | apply State.finish_wf | apply wf_host | apply wf_bytes | apply wf_flash | split
    | (simp only [wf_mk]; refine ⟨?_, ?_, ?_⟩)

theorem State.failStart_wf (s : State) (h code : Nat) (h0 : memoriesWf s = true) :
    memoriesWf (State.failStart s h code) = true := by
  unfold State.failStart
  try dsimp only
  repeat' with_reducible first
    | assumption | apply State.setPipe_wf | apply State.abortCluster_wf | apply State.clearPaths_wf | apply State.endSheet_wf
    | apply wf_host | apply wf_bytes | apply wf_flash | split | (apply wf_fold <;> intros)
    | (simp only [wf_mk]; refine ⟨?_, ?_, ?_⟩)

theorem State.haltPipe_wf (s : State) (p cause : Nat) (h0 : memoriesWf s = true) :
    memoriesWf (State.haltPipe s p cause) = true := by
  unfold State.haltPipe
  try dsimp only
  repeat' with_reducible first
    | assumption | apply State.setPipe_wf | apply State.openGap_wf | apply State.abortCluster_wf | apply State.clearPaths_wf
    | apply State.failStart_wf | apply wf_host | apply wf_bytes | apply wf_flash | split | (apply wf_fold <;> intros)
    | (simp only [wf_mk]; refine ⟨?_, ?_, ?_⟩)

theorem State.freeRegion_wf (s : State) (n : Nat) (h0 : memoriesWf s = true) :
    memoriesWf (State.freeRegion s n) = true := by
  unfold State.freeRegion
  try dsimp only
  repeat' with_reducible first
    | assumption | apply State.setRegion_wf | apply State.gddrZero_wf | apply wf_host | apply wf_bytes | apply wf_flash
    | (simp only [wf_mk]; refine ⟨?_, ?_, ?_⟩)

theorem State.freeImage_wf (s : State) (h : Nat) (h0 : memoriesWf s = true) :
    memoriesWf (State.freeImage s h) = true := by
  unfold State.freeImage
  try dsimp only
  repeat' with_reducible first
    | assumption | apply State.setCl_wf | apply State.setImage_wf | apply State.setPipe_wf | apply State.setRegion_wf
    | apply State.gddrZero_wf | apply State.closeGap_wf | apply State.clearRoutes_wf | apply State.freeRegion_wf | apply wf_host
    | apply wf_bytes | apply wf_flash | split | (apply wf_fold <;> intros) | (simp only [wf_mk]; refine ⟨?_, ?_, ?_⟩)

theorem State.checkDrain_wf (s : State) (h : Nat) (h0 : memoriesWf s = true) :
    memoriesWf (State.checkDrain s h) = true := by
  unfold State.checkDrain
  try dsimp only
  repeat' with_reducible first
    | assumption | apply State.setImage_wf | apply State.clearAborted_wf | apply State.finish_wf | apply State.endSheet_wf
    | apply State.freeImage_wf | apply wf_host | apply wf_bytes | apply wf_flash | split | (apply wf_fold <;> intros)
    | (simp only [wf_mk]; refine ⟨?_, ?_, ?_⟩)

theorem State.vatFault_wf (s : State) (h : Nat) (h0 : memoriesWf s = true) :
    memoriesWf (State.vatFault s h) = true := by
  unfold State.vatFault
  try dsimp only
  repeat' with_reducible first
    | assumption | apply wf_host | apply wf_bytes | apply wf_flash | split | (simp only [wf_mk]; refine ⟨?_, ?_, ?_⟩)

theorem State.abortSheet_wf (s : State) (h : Nat) (outcome check : BitVec 8) (code : Nat) (h0 : memoriesWf s = true) :
    memoriesWf (State.abortSheet s h outcome check code) = true := by
  unfold State.abortSheet
  try dsimp only
  repeat' with_reducible first
    | assumption | apply State.abortCluster_wf | apply State.clearRoutes_wf | apply State.endSheet_wf
    | apply State.checkDrain_wf | apply State.vatFault_wf | (apply wf_fold <;> intros)

theorem State.abortFor_wf (s : State) (h c : Nat) (outcome check : BitVec 8) (code : Nat) (h0 : memoriesWf s = true) :
    memoriesWf (State.abortFor s h c outcome check code) = true := by
  unfold State.abortFor
  try dsimp only
  repeat' with_reducible first
    | assumption | apply State.abortCluster_wf | apply State.clearRoutes_wf | apply State.failStart_wf | apply State.haltPipe_wf
    | apply State.checkDrain_wf | apply State.abortSheet_wf | split | (apply wf_fold <;> intros)

theorem State.clusterEvent_wf (s : State) (c : Nat) (ev : ClEvent) (h0 : memoriesWf s = true) :
    memoriesWf (State.clusterEvent s c ev) = true := by
  unfold State.clusterEvent
  try dsimp only
  repeat' with_reducible first
    | assumption | apply State.setCl_wf | apply State.postEvent_wf | apply State.abortFor_wf | apply wf_host | apply wf_bytes
    | apply wf_flash | split | (simp only [wf_mk]; refine ⟨?_, ?_, ?_⟩)

theorem State.loseSource_wf (s : State) (n : Nat) (h0 : memoriesWf s = true) :
    memoriesWf (State.loseSource s n) = true := by
  unfold State.loseSource
  try dsimp only
  repeat' with_reducible first
    | assumption | apply wf_host | apply wf_bytes | apply wf_flash | (simp only [wf_mk]; refine ⟨?_, ?_, ?_⟩)

theorem State.measureDue_wf (s : State) (n : Nat) (e : Int) (h0 : memoriesWf s = true) :
    memoriesWf (State.measureDue s n e) = true := by
  unfold State.measureDue
  try dsimp only
  repeat' with_reducible first
    | assumption | apply wf_host | apply wf_bytes | apply wf_flash | (simp only [wf_mk]; refine ⟨?_, ?_, ?_⟩)

theorem State.fireOp_wf (s : State) (opc : Nat) (body : Fire → Except ClEvent Cluster) (c t i : Nat) (h0 : memoriesWf s = true) :
    memoriesWf (State.fireOp s opc body c t i) = true := by
  unfold State.fireOp
  try dsimp only
  repeat' with_reducible first
    | assumption | apply State.setCl_wf | apply State.clusterEvent_wf | split

theorem State.fireForm_wf (s : State) (opc : Nat) (form : BitVec 64 → Bool) (body : Fire → Except ClEvent Cluster) (c t i : Nat)
    (h0 : memoriesWf s = true) :
    memoriesWf (State.fireForm s opc form body c t i) = true := by
  unfold State.fireForm
  try dsimp only
  repeat' with_reducible first
    | assumption | apply State.fireOp_wf | split

theorem State.postGuards_wf (s : State) (c : Nat) (l : List Guard) (h0 : memoriesWf s = true) :
    memoriesWf (State.postGuards s c l) = true := by
  unfold State.postGuards
  try dsimp only
  repeat' with_reducible first
    | assumption | apply State.postEvent_wf | (apply wf_fold <;> intros)

theorem State.fireSiz_wf (s : State) (opc : Nat) (body : Fire → Except ClEvent (Cluster × List Guard)) (c t i : Nat)
    (h0 : memoriesWf s = true) :
    memoriesWf (State.fireSiz s opc body c t i) = true := by
  unfold State.fireSiz
  try dsimp only
  repeat' with_reducible first
    | assumption | apply State.setCl_wf | apply State.clusterEvent_wf | apply State.postGuards_wf | split

theorem State.fireSteer_wf (s : State) (opc : Nat) (c t i : Nat) (h0 : memoriesWf s = true) :
    memoriesWf (State.fireSteer s opc c t i) = true := by
  unfold State.fireSteer
  try dsimp only
  repeat' with_reducible first
    | assumption | apply State.setCl_wf | apply State.clusterEvent_wf | split

theorem State.hopLeave_wf (s : State) (h : Hop) (h0 : memoriesWf s = true) :
    memoriesWf (State.hopLeave s h) = true := by
  unfold State.hopLeave
  try dsimp only
  repeat' with_reducible first
    | assumption | apply State.setCl_wf | apply State.setLink_wf | apply wf_host | apply wf_bytes | apply wf_flash | split
    | (simp only [wf_mk]; refine ⟨?_, ?_, ?_⟩)

theorem State.hopLost_wf (s : State) (h : Hop) (h0 : memoriesWf s = true) :
    memoriesWf (State.hopLost s h) = true := by
  unfold State.hopLost
  try dsimp only
  repeat' with_reducible first
    | assumption | apply State.clusterEvent_wf | apply State.hopLeave_wf

theorem State.hopSink_wf {s t : State} {h : Hop} {e : Entry} {gen : Bool} {c i d : Nat} {k : Option Nat}
    (he : s.hopSink h e gen c i d k = some t) (h0 : memoriesWf s = true) : memoriesWf t = true := by
  unfold State.hopSink at he
  extract_lets x side turn at he
  clear_value x side turn
  repeat' (split at he)
  all_goals first
    | (simp only [reduceCtorEq] at he; done)
    | (simp only [Option.some.injEq] at he
       subst he
       repeat' with_reducible first
         | assumption | apply State.setCl_wf | apply State.clusterEvent_wf | apply State.hopLeave_wf | apply State.hopLost_wf)

theorem State.hopTo_wf {s t : State} {h : Hop} (he : s.hopTo h = some t) (h0 : memoriesWf s = true) : memoriesWf t = true := by
  have h1 := State.hopLeave_wf s h h0
  unfold State.hopTo at he
  dsimp only at he
  repeat' (split at he)
  all_goals first
    | (simp only [reduceCtorEq] at he; done)
    | exact State.hopSink_wf he h0
    | (simp only [Option.some.injEq] at he
       subst he
       first | exact State.hopLost_wf s h h0 | exact State.setLink_wf _ _ _ h1)

theorem State.hop_wf (s : State) (h : Hop) (h0 : memoriesWf s = true) : memoriesWf (State.hop s h) = true := by
  unfold State.hop
  apply wf_getD
  · intro t he; exact State.hopTo_wf he h0
  · exact h0

theorem State.farRequest_wf (s : State) (c t : Nat) (h0 : memoriesWf s = true) :
    memoriesWf (State.farRequest s c t) = true := by
  unfold State.farRequest
  try dsimp only
  repeat' with_reducible first
    | assumption | apply State.setCl_wf | apply State.clusterEvent_wf | apply wf_host | apply wf_bytes | apply wf_flash | split
    | (simp only [wf_mk]; refine ⟨?_, ?_, ?_⟩)

theorem State.farFlag_wf (s : State) (c t : Nat) (q : FarReq) (h0 : memoriesWf s = true) :
    memoriesWf (State.farFlag s c t q) = true := by
  unfold State.farFlag
  try dsimp only
  repeat' with_reducible first
    | assumption | apply State.setCl_wf | apply State.clusterEvent_wf | apply wf_host | apply wf_bytes | apply wf_flash | split
    | (simp only [wf_mk]; refine ⟨?_, ?_, ?_⟩)

theorem State.lineFault_wf (s : State) (line h : Nat) (h0 : memoriesWf s = true) :
    memoriesWf (State.lineFault s line h) = true := by
  unfold State.lineFault
  try dsimp only
  repeat' with_reducible first
    | assumption | apply State.faultRecord_wf | apply wf_host | apply wf_bytes | apply wf_flash
    | (simp only [wf_mk]; refine ⟨?_, ?_, ?_⟩)

theorem State.farComplete_wf (s : State) (c t : Nat) (write : Bool) (h0 : memoriesWf s = true) :
    memoriesWf (State.farComplete s c t write) = true := by
  unfold State.farComplete
  try dsimp only
  repeat' with_reducible first
    | assumption | apply State.setCl_wf | apply State.abortFor_wf | apply State.farFlag_wf | apply State.lineFault_wf
    | apply wf_host | apply wf_bytes | apply wf_flash | split | (simp only [wf_mk]; refine ⟨?_, ?_, ?_⟩)

theorem State.stall_wf (s : State) (c cause : Nat) (h0 : memoriesWf s = true) :
    memoriesWf (State.stall s c cause) = true := by
  unfold State.stall
  try dsimp only
  repeat' with_reducible first
    | assumption | apply State.setCl_wf | apply State.clusterEvent_wf | apply wf_host | apply wf_bytes | apply wf_flash | split
    | (apply wf_fold <;> intros) | (simp only [wf_mk]; refine ⟨?_, ?_, ?_⟩)

theorem State.requestDrain_wf (s : State) (h : Nat) (h0 : memoriesWf s = true) :
    memoriesWf (State.requestDrain s h) = true := by
  unfold State.requestDrain
  try dsimp only
  repeat' with_reducible first
    | assumption | apply State.setCl_wf | apply State.setImage_wf | apply State.setPipe_wf | apply wf_host | apply wf_bytes
    | apply wf_flash | split | (apply wf_fold <;> intros) | (simp only [wf_mk]; refine ⟨?_, ?_, ?_⟩)

theorem State.drainedCheck_wf (s : State) (h : Nat) (h0 : memoriesWf s = true) :
    memoriesWf (State.drainedCheck s h) = true := by
  unfold State.drainedCheck
  try dsimp only
  repeat' with_reducible first
    | assumption | apply State.endSheet_wf | apply State.checkDrain_wf | split

theorem State.snapshot_wf (s : State) (c : Nat) (h0 : memoriesWf s = true) :
    memoriesWf (State.snapshot s c) = true := by
  unfold State.snapshot
  try dsimp only
  repeat' with_reducible first
    | assumption | apply State.setCl_wf | apply State.setImage_wf | apply State.asks_wf | apply wf_host | apply wf_bytes
    | apply wf_flash | split | (apply wf_fold <;> intros) | (simp only [wf_mk]; refine ⟨?_, ?_, ?_⟩)

theorem State.checkWarm_wf (s : State) (h : Nat) (h0 : memoriesWf s = true) :
    memoriesWf (State.checkWarm s h) = true := by
  unfold State.checkWarm
  try dsimp only
  repeat' with_reducible first
    | assumption | apply State.setPipe_wf | apply State.endSheet_wf | split | (apply wf_fold <;> intros)

theorem State.remap_wf {s t : State} {h : Nat} {broken : PLink → Bool} (he : s.remap h broken = some t) (h0 : memoriesWf s = true) :
    memoriesWf t = true := by
  unfold State.remap at he
  dsimp only at he
  split at he
  · exact absurd he (by simp)
  · simp only [Option.some.injEq] at he
    subst he
    apply State.setImage_wf
    apply State.setImage_wf
    exact h0

theorem State.placeHidden_wf {s t : State} {qs : List Nat} {h n b : Nat} (he : s.placeHidden qs h n = some (b, t))
    (h0 : memoriesWf s = true) : memoriesWf t = true := by
  unfold State.placeHidden at he
  simp only [Option.map_eq_some_iff, Prod.mk.injEq] at he
  obtain ⟨a, -, -, rfl⟩ := he
  have h1 := State.gddrZero_wf s a (ceilDiv n 15 * 15) h0
  simp only [wf_mk]
  exact ⟨wf_host h1, wf_bytes h1, wf_flash h1⟩

theorem State.giveCluster_wf (s : State) (h v c : Nat) (h0 : memoriesWf s = true) :
    memoriesWf (State.giveCluster s h v c) = true := by
  unfold State.giveCluster
  try dsimp only
  repeat' with_reducible first
    | assumption | apply State.setCl_wf | apply wf_host | apply wf_bytes | apply wf_flash
    | (simp only [wf_mk]; refine ⟨?_, ?_, ?_⟩)

theorem State.patchXy_wf (s : State) (h : Nat) (h0 : memoriesWf s = true) :
    memoriesWf (State.patchXy s h) = true := by
  unfold State.patchXy
  try dsimp only
  repeat' with_reducible first
    | assumption | apply State.gddrWrite_wf | apply State.asks_wf | split | (apply wf_fold <;> intros)
    | (apply wf_getD <;> intros)

theorem State.restoreCluster_wf (s : State) (h v c : Nat) (h0 : memoriesWf s = true) :
    memoriesWf (State.restoreCluster s h v c) = true := by
  unfold State.restoreCluster
  try dsimp only
  repeat' with_reducible first
    | assumption | apply State.setCl_wf | apply State.asks_wf | apply wf_host | apply wf_bytes | apply wf_flash | split
    | (apply wf_fold <;> intros) | (simp only [wf_mk]; refine ⟨?_, ?_, ?_⟩)

end Sys2Proof.Machine
end

