-- ==== Sys2Proof/Laws/MemoriesLoad.lean ====
section
/-!
SUPPORT. Every shared operation keeps the memories in their canonical form: fencing, spares and the loader.
-/
namespace Sys2Proof.Machine

theorem State.setBucket_wf (s : State) (k u : Nat) (v : BitVec 16) (h0 : memoriesWf s = true) :
    memoriesWf (State.setBucket s k u v) = true := by
  unfold State.setBucket
  try dsimp only
  repeat' with_reducible first
    | assumption | apply wf_host | apply wf_bytes | apply wf_flash | (simp only [wf_mk]; refine ⟨?_, ?_, ?_⟩)

theorem State.addBucket_wf (s : State) (k u w : Nat) (h0 : memoriesWf s = true) : memoriesWf (s.addBucket k u w).1 = true := by
  unfold State.addBucket
  dsimp only
  split
  · have h1 := State.setBucket_wf s k u 0 h0
    simp only [wf_mk]
    exact ⟨wf_host h1, wf_bytes h1, wf_flash h1⟩
  · exact State.setBucket_wf s k u _ h0

theorem State.spareLow_wf (s : State) (k u left : Nat) (loc : BitVec 32) (h0 : memoriesWf s = true) :
    memoriesWf (State.spareLow s k u left loc) = true := by
  unfold State.spareLow
  try dsimp only
  repeat' with_reducible first
    | assumption | apply State.postEvent_wf | apply wf_host | apply wf_bytes | apply wf_flash | split
    | (simp only [wf_mk]; refine ⟨?_, ?_, ?_⟩)

theorem State.noteRepair_wf (s : State) (kind : Nat) (loc : BitVec 32) (h0 : memoriesWf s = true) :
    memoriesWf (State.noteRepair s kind loc) = true := by
  unfold State.noteRepair
  try dsimp only
  repeat' with_reducible first
    | assumption | apply wf_host | apply wf_bytes | apply wf_flash | (simp only [wf_mk]; refine ⟨?_, ?_, ?_⟩)

theorem State.beginConfig_wf (s : State) (h v c idx : Nat) (gen restore : Bool) (h0 : memoriesWf s = true) :
    memoriesWf (State.beginConfig s h v c idx gen restore) = true := by
  unfold State.beginConfig
  try dsimp only
  repeat' with_reducible first
    | assumption | apply State.setCl_wf | apply wf_host | apply wf_bytes | apply wf_flash | split
    | (simp only [wf_mk]; refine ⟨?_, ?_, ?_⟩)

theorem State.startClusters_wf (s0 : State) (h idx : Nat) (fresh : Bool) (h0 : memoriesWf s0 = true) :
    memoriesWf (State.startClusters s0 h idx fresh) = true := by
  unfold State.startClusters
  try dsimp only
  repeat' with_reducible first
    | assumption | apply State.setImage_wf | apply State.beginConfig_wf | apply wf_host | apply wf_bytes | apply wf_flash
    | split | (apply wf_fold <;> intros) | (simp only [wf_mk]; refine ⟨?_, ?_, ?_⟩)

theorem State.vatReread_wf (s : State) (h : Nat) (h0 : memoriesWf s = true) :
    memoriesWf (State.vatReread s h) = true := by
  unfold State.vatReread
  try dsimp only
  repeat' with_reducible first
    | assumption | apply wf_host | apply wf_bytes | apply wf_flash | split | (simp only [wf_mk]; refine ⟨?_, ?_, ?_⟩)

theorem State.vatRedeliver_wf (s0 : State) (h : Nat) (h0 : memoriesWf s0 = true) :
    memoriesWf (State.vatRedeliver s0 h) = true := by
  unfold State.vatRedeliver
  try dsimp only
  repeat' with_reducible first
    | assumption | apply State.vatReread_wf | apply wf_host | apply wf_bytes | apply wf_flash | split
    | (apply wf_fold <;> intros) | (simp only [wf_mk]; refine ⟨?_, ?_, ?_⟩)

theorem State.snapshotRest_wf (s : State) (h : Nat) (h0 : memoriesWf s = true) :
    memoriesWf (State.snapshotRest s h) = true := by
  unfold State.snapshotRest
  try dsimp only
  repeat' with_reducible first
    | assumption | apply State.snapshot_wf | split | (apply wf_fold <;> intros)

theorem State.interruptSheet_wf (s : State) (h : Nat) (h0 : memoriesWf s = true) :
    memoriesWf (State.interruptSheet s h) = true := by
  unfold State.interruptSheet
  try dsimp only
  repeat' with_reducible first
    | assumption | apply State.setImage_wf | apply State.abortCluster_wf | apply State.clearRoutes_wf | apply State.endSheet_wf
    | apply State.checkDrain_wf | apply State.vatFault_wf | apply State.snapshotRest_wf | apply wf_host | apply wf_bytes
    | apply wf_flash | split | (apply wf_fold <;> intros) | (simp only [wf_mk]; refine ⟨?_, ?_, ?_⟩)

theorem State.restoreColl_wf (s : State) (h : Nat) (h0 : memoriesWf s = true) :
    memoriesWf (State.restoreColl s h) = true := by
  unfold State.restoreColl
  try dsimp only
  repeat' with_reducible first
    | assumption | apply State.setImage_wf | apply State.gddrWrite_wf | apply State.asks_wf | apply wf_host | apply wf_bytes
    | apply wf_flash | split | (simp only [wf_mk]; refine ⟨?_, ?_, ?_⟩)

theorem State.replay_wf (s : State) (h : Nat) (h0 : memoriesWf s = true) :
    memoriesWf (State.replay s h) = true := by
  unfold State.replay
  try dsimp only
  repeat' with_reducible first
    | assumption | apply State.setCl_wf | apply State.setImage_wf | apply State.restoreCluster_wf | apply State.startClusters_wf
    | apply State.vatRedeliver_wf | apply State.restoreColl_wf | apply wf_host | apply wf_bytes | apply wf_flash | split
    | (apply wf_fold <;> intros) | (simp only [wf_mk]; refine ⟨?_, ?_, ?_⟩)

theorem State.dropRoutes_wf (s : State) (h : Nat) (h0 : memoriesWf s = true) :
    memoriesWf (State.dropRoutes s h) = true := by
  unfold State.dropRoutes
  try dsimp only
  repeat' with_reducible first
    | assumption | apply State.setImage_wf | apply wf_host | apply wf_bytes | apply wf_flash | split
    | (simp only [wf_mk]; refine ⟨?_, ?_, ?_⟩)

theorem State.rehome_wf {s t : State} {h : Nat} (he : s.rehome h = some t) (h0 : memoriesWf s = true) : memoriesWf t = true := by
  unfold State.rehome at he
  simp only [Option.map_eq_some_iff] at he
  obtain ⟨s1, h1, rfl⟩ := he
  have h2 := State.remap_wf h1 h0
  apply State.vatReread_wf
  apply State.patchXy_wf
  apply wf_fold
  · intro s p hs
    split
    · apply State.restoreCluster_wf; apply State.setCl_wf; apply State.giveCluster_wf; exact hs
    · exact hs
  · exact h2

theorem State.recoverWith_wf (s : State) (h : Nat) (resume : State → State)
    (hr : ∀ t, memoriesWf t = true → memoriesWf (resume t) = true) (h0 : memoriesWf s = true) :
    memoriesWf (s.recoverWith h resume) = true := by
  unfold State.recoverWith
  dsimp only
  split
  · exact h0
  · split
    · repeat' with_reducible first
      | assumption | split | apply State.vatFault_wf | apply State.endSheet_wf | apply State.faultRecord_wf
      | apply State.dropRoutes_wf
    · rename_i s1 h1
      exact hr _ (State.rehome_wf h1 h0)

theorem State.recover_wf (s : State) (h : Nat) (h0 : memoriesWf s = true) : memoriesWf (s.recover h) = true := by
  unfold State.recover
  apply State.recoverWith_wf _ _ _ _ h0
  intro t ht
  dsimp only
  repeat' with_reducible first
    | assumption | split | apply State.replay_wf | (simp only [wf_mk]; refine ⟨?_, ?_, ?_⟩) | apply wf_host | apply wf_bytes
    | apply wf_flash

theorem State.callSpare_wf {s t : State} {c : Nat} {owner : Option (BitVec 16 × Nat)} {move : Bool}
    (he : s.callSpare c owner move = some t) (h0 : memoriesWf s = true) : memoriesWf t = true := by
  unfold State.callSpare at he
  simp only [Option.map_eq_some_iff] at he
  obtain ⟨s1, h1, rfl⟩ := he
  simp only [wf_mk]
  exact ⟨wf_host h0, wf_bytes h0, wf_flash h0⟩

theorem State.takeOut_wf (s : State) (c cause : Nat) (h0 : memoriesWf s = true) :
    memoriesWf (State.takeOut s c cause) = true := by
  unfold State.takeOut
  try dsimp only
  repeat' with_reducible first
    | assumption | apply State.setCl_wf | apply State.setService_wf | apply wf_host | apply wf_bytes | apply wf_flash
    | (simp only [wf_mk]; refine ⟨?_, ?_, ?_⟩)

theorem State.hitImage_wf (s : State) (h : Nat) (cs : List Nat) (h0 : memoriesWf s = true) :
    memoriesWf (State.hitImage s h cs) = true := by
  unfold State.hitImage
  try dsimp only
  repeat' with_reducible first
    | assumption | apply State.haltPipe_wf | apply State.interruptSheet_wf | split | (apply wf_fold <;> intros)

theorem State.dropBist_wf (s : State) (d : Nat) (h0 : memoriesWf s = true) :
    memoriesWf (State.dropBist s d) = true := by
  unfold State.dropBist
  try dsimp only
  repeat' with_reducible first
    | assumption | refine State.callSpare_wf (by assumption) ?_ | apply wf_host | apply wf_bytes | apply wf_flash | split
    | (apply wf_getD <;> intros) | (simp only [wf_mk]; refine ⟨?_, ?_, ?_⟩)

theorem State.replaceCluster_wf (s : State) (c : Nat) (owner : Option (BitVec 16 × Nat)) (h0 : memoriesWf s = true) :
    memoriesWf (State.replaceCluster s c owner) = true := by
  unfold State.replaceCluster
  try dsimp only
  repeat' with_reducible first
    | assumption | refine State.callSpare_wf (by assumption) ?_ | apply wf_host | apply wf_bytes | apply wf_flash | split
    | (apply wf_getD <;> intros) | (simp only [wf_mk]; refine ⟨?_, ?_, ?_⟩)

theorem State.breakRoutes_wf (s : State) (c : Nat) (own : Option Nat) (more : List Nat) (h0 : memoriesWf s = true) :
    memoriesWf (s.breakRoutes c own more).1 = true := by
  unfold State.breakRoutes
  dsimp only
  repeat' with_reducible first
    | assumption | apply State.hitImage_wf | split | (apply wf_fold <;> intros)

theorem State.fenceCore_wf (s : State) (c cause t : Nat) (h0 : memoriesWf s = true) : memoriesWf (s.fenceCore c cause t).1 = true := by
  unfold State.fenceCore
  dsimp only
  repeat' with_reducible first
    | assumption | apply State.snapshot_wf | apply State.hitImage_wf | apply State.takeOut_wf | apply State.setImage_wf
    | apply State.faultRecord_wf | apply State.noteRepair_wf | apply State.breakRoutes_wf | apply State.replaceCluster_wf
    | apply State.dropBist_wf | apply wf_host | apply wf_bytes | apply wf_flash | split | (apply wf_fold <;> intros)
    | (simp only [wf_mk]; refine ⟨?_, ?_, ?_⟩)

theorem State.fenceAll_wf (s : State) (cs : List Nat) (cause t : Nat) (h0 : memoriesWf s = true) :
    memoriesWf (s.fenceAll cs cause t) = true := by
  unfold State.fenceAll
  dsimp only
  apply wf_fold
  · intro s a hs
    apply State.recover_wf
    exact hs
  · exact foldl_keeps (P := fun p : State × List Nat => memoriesWf p.1 = true) (fun p c => ((p.1.fenceCore c cause t).1, p.2 ++ (p.1.fenceCore c cause t).2)) (fun p c hp => State.fenceCore_wf _ _ _ _ hp) _ (s, []) h0

theorem State.fence_wf (s : State) (c cause t : Nat) (h0 : memoriesWf s = true) :
    memoriesWf (State.fence s c cause t) = true := by
  unfold State.fence
  try dsimp only
  repeat' with_reducible first
    | assumption | apply State.fenceAll_wf

theorem State.fenceUnowned_wf (s : State) (c : Nat) (spare : BitVec 32) (h0 : memoriesWf s = true) :
    memoriesWf (State.fenceUnowned s c spare) = true := by
  unfold State.fenceUnowned
  try dsimp only
  repeat' with_reducible first
    | assumption | apply State.faultRecord_wf | apply State.noteRepair_wf | apply State.recover_wf | apply State.takeOut_wf
    | apply State.breakRoutes_wf | apply wf_host | apply wf_bytes | apply wf_flash | (apply wf_fold <;> intros)
    | (simp only [wf_mk]; refine ⟨?_, ?_, ?_⟩)

theorem State.requestMove_wf (s : State) (c : Nat) (h0 : memoriesWf s = true) :
    memoriesWf (State.requestMove s c) = true := by
  unfold State.requestMove
  try dsimp only
  repeat' with_reducible first
    | assumption | apply State.spareLow_wf | refine State.callSpare_wf (by assumption) ?_ | apply State.fenceUnowned_wf
    | apply wf_host | apply wf_bytes | apply wf_flash | split | (apply wf_getD <;> intros)
    | (simp only [wf_mk]; refine ⟨?_, ?_, ?_⟩)

theorem State.haltDevice_wf (s : State) (cause : Nat) (h0 : memoriesWf s = true) :
    memoriesWf (State.haltDevice s cause) = true := by
  unfold State.haltDevice
  try dsimp only
  repeat' with_reducible first
    | assumption | apply wf_host | apply wf_bytes | apply wf_flash | split | (apply wf_fold <;> intros)
    | (simp only [wf_mk]; refine ⟨?_, ?_, ?_⟩)

theorem State.devWrite_wf (s : State) (l : Loc) (bs : List Byte) (h0 : memoriesWf s = true) :
    memoriesWf (State.devWrite s l bs) = true := by
  unfold State.devWrite
  try dsimp only
  repeat' with_reducible first
    | assumption | apply State.setCl_wf | apply State.gddrWrite_wf | apply State.hostWrite_wf | split

theorem State.asksAt_wf (s : State) (cls : Nat) (write : Bool) (l : Loc) (n : Nat) (h0 : memoriesWf s = true) :
    memoriesWf (State.asksAt s cls write l n) = true := by
  unfold State.asksAt
  try dsimp only
  repeat' with_reducible first
    | assumption | apply State.asks_wf | split

theorem State.claimRegionFor_wf {s t : State} {hd : Nat} {qs : List Nat} {r : RegRec} {x : IRegion}
    (he : s.claimRegionFor hd qs r = .ok (x, t)) (h0 : memoriesWf s = true) : memoriesWf t = true := by
  unfold State.claimRegionFor at he
  dsimp only at he
  repeat' (split at he)
  all_goals first
    | (simp only [reduceCtorEq] at he; done)
    | (simp only [Except.ok.injEq, Prod.mk.injEq] at he; obtain ⟨-, rfl⟩ := he; apply State.setRegion_wf; first | exact h0 | exact State.gddrZero_wf _ _ _ h0)

theorem State.claimRegions_wf {hd : Nat} {qs : List Nat} {rs : List RegRec} {s t : State} {xs : List IRegion}
    (he : s.claimRegions hd qs rs = .ok (xs, t)) (h0 : memoriesWf s = true) : memoriesWf t = true := by
  induction rs generalizing s t xs with
  | nil => simp only [State.claimRegions, Except.ok.injEq, Prod.mk.injEq] at he; obtain ⟨-, rfl⟩ := he; exact h0
  | cons r rs ih =>
    unfold State.claimRegions at he
    split at he
    · simp only [reduceCtorEq] at he
    · rename_i x s1 h1
      split at he
      · simp only [reduceCtorEq] at he
      · rename_i ys s2 h2
        simp only [Except.ok.injEq, Prod.mk.injEq] at he
        obtain ⟨-, rfl⟩ := he
        exact ih h2 (State.claimRegionFor_wf h1 h0)

theorem State.placeData_wf (s : State) (hd : Nat) (l : Loaded) (h0 : memoriesWf s = true) :
    memoriesWf (State.placeData s hd l) = true := by
  unfold State.placeData
  try dsimp only
  repeat' with_reducible first
    | assumption | apply State.gddrWrite_wf | apply State.asks_wf | apply wf_host | apply wf_bytes | apply wf_flash
    | apply Mem.wf_filter | (apply wf_fold <;> intros) | (apply wf_getD <;> intros) | (simp only [wf_mk]; refine ⟨?_, ?_, ?_⟩)

theorem State.makePipes_wf (s : State) (hd : Nat) (l : Loaded) (rs : List Route) (ps : List Nat) (h0 : memoriesWf s = true) :
    memoriesWf (State.makePipes s hd l rs ps) = true := by
  unfold State.makePipes
  try dsimp only
  repeat' with_reducible first
    | assumption | apply State.setPipe_wf | apply wf_host | apply wf_bytes | apply wf_flash | (apply wf_fold <;> intros)
    | (apply wf_getD <;> intros) | (simp only [wf_mk]; refine ⟨?_, ?_, ?_⟩)

theorem State.loadClaim_wf {s t : State} {r : Nat} {l : Loaded} {m : List Nat} {rs : List Route} {j : LoadJob}
    (he : s.loadClaim r l m rs = .ok (j, t)) (h0 : memoriesWf s = true) : memoriesWf t = true := by
  unfold State.loadClaim at he
  split at he
  · simp only [reduceCtorEq] at he
  · dsimp only at he
    split at he
    · simp only [reduceCtorEq] at he
    · rename_i k _ regions s1 h1
      split at he
      · simp only [reduceCtorEq] at he
      · rename_i copy s2 h2
        split at he
        · simp only [reduceCtorEq] at he
        · rename_i store s3 h3
          simp only [Except.ok.injEq, Prod.mk.injEq] at he
          obtain ⟨-, rfl⟩ := he
          have w2 := State.placeHidden_wf h2 (State.claimRegions_wf h1 h0)
          have w3 : memoriesWf s3 = true := by
            split at h3
            · simp only [Option.some.injEq, Prod.mk.injEq] at h3
              obtain ⟨-, rfl⟩ := h3
              exact w2
            · exact State.placeHidden_wf h3 w2
          apply wf_fold
          · intro s p hs
            exact State.giveCluster_wf _ _ _ _ hs
          · apply State.asks_wf
            apply State.gddrWrite_wf
            apply State.setImage_wf
            exact w3

theorem State.seedReplay_wf (s : State) (h : Nat) (h0 : memoriesWf s = true) :
    memoriesWf (State.seedReplay s h) = true := by
  unfold State.seedReplay
  try dsimp only
  repeat' with_reducible first
    | assumption | apply State.setImage_wf | apply State.replay_wf | apply wf_host | apply wf_bytes | apply wf_flash | split
    | (apply wf_fold <;> intros) | (simp only [wf_mk]; refine ⟨?_, ?_, ?_⟩)

theorem State.loadPlace_wf (s : State) (j : LoadJob) (l : Loaded) (h0 : memoriesWf s = true) :
    memoriesWf (State.loadPlace s j l) = true := by
  unfold State.loadPlace
  try dsimp only
  repeat' with_reducible first
    | assumption | apply State.setCl_wf | apply State.setImage_wf | apply State.placeData_wf | apply State.makePipes_wf
    | apply State.seedReplay_wf | apply wf_host | apply wf_bytes | apply wf_flash | split | (apply wf_fold <;> intros)
    | (simp only [wf_mk]; refine ⟨?_, ?_, ?_⟩)

theorem State.dropLoad_wf (s : State) (j : LoadJob) (h0 : memoriesWf s = true) :
    memoriesWf (State.dropLoad s j) = true := by
  unfold State.dropLoad
  try dsimp only
  repeat' with_reducible first
    | assumption | apply State.setImage_wf | apply State.freeImage_wf | apply wf_host | apply wf_bytes | apply wf_flash
    | (simp only [wf_mk]; refine ⟨?_, ?_, ?_⟩)

theorem State.load_wf {s t : State} {r : Nat} {b : List Byte} {j : LoadJob} (he : s.load r b = .ok (j, t)) (h0 : memoriesWf s = true) :
    memoriesWf t = true := by
  unfold State.load at he
  repeat' (split at he)
  all_goals first
    | (simp only [reduceCtorEq] at he; done)
    | exact State.loadClaim_wf he h0

theorem State.askImage_wf (s : State) (r addr n : Nat) (h0 : memoriesWf s = true) :
    memoriesWf (State.askImage s r addr n) = true := by
  unfold State.askImage
  try dsimp only
  repeat' with_reducible first
    | assumption | apply State.asksAt_wf | split

theorem State.startLoad_wf (s : State) (j : LoadJob) (h0 : memoriesWf s = true) :
    memoriesWf (State.startLoad s j) = true := by
  unfold State.startLoad
  try dsimp only
  repeat' with_reducible first
    | assumption | apply wf_host | apply wf_bytes | apply wf_flash | (simp only [wf_mk]; refine ⟨?_, ?_, ?_⟩)

theorem State.fwHead_wf {s t : State} {opc : Nat} {w : Work} (he : s.fwHead opc = some (w, t)) (h0 : memoriesWf s = true) :
    memoriesWf t = true := by
  unfold State.fwHead at he
  repeat' (split at he)
  all_goals first
    | (simp only [reduceCtorEq] at he; done)
    | (simp only [Option.some.injEq, Prod.mk.injEq] at he
       obtain ⟨-, rfl⟩ := he
       simp only [wf_mk]
       exact ⟨wf_host h0, wf_bytes h0, wf_flash h0⟩)

theorem State.endLoad_wf (s : State) (w : Work) (rep : Loc) (bs : List Byte) (o c : BitVec 8) (info : Nat)
    (h0 : memoriesWf s = true) :
    memoriesWf (State.endLoad s w rep bs o c info) = true := by
  unfold State.endLoad
  try dsimp only
  repeat' with_reducible first
    | assumption | apply State.finish_wf | apply State.devWrite_wf | apply State.asksAt_wf | split

theorem State.finishLoad_wf (s : State) (w : Work) (j : LoadJob) (h0 : memoriesWf s = true) :
    memoriesWf (State.finishLoad s w j) = true := by
  unfold State.finishLoad
  try dsimp only
  repeat' with_reducible first
    | assumption | apply State.finish_wf | apply State.loadPlace_wf | apply State.dropLoad_wf | apply State.endLoad_wf
    | apply wf_host | apply wf_bytes | apply wf_flash | split | (simp only [wf_mk]; refine ⟨?_, ?_, ?_⟩)

end Sys2Proof.Machine
end

