-- ==== Sys2Proof/Laws/MemoriesLinks.lean ====
section
/-!
SUPPORT. Every shared operation keeps the memories in their canonical form: streams, ports, bridges, lanes and records.
-/
namespace Sys2Proof.Machine

theorem State.setPartner_wf (s : State) (g : Nat) (p : Partner) (h0 : memoriesWf s = true) :
    memoriesWf (State.setPartner s g p) = true := by
  unfold State.setPartner
  try dsimp only
  repeat' with_reducible first
    | assumption | apply wf_host | apply wf_bytes | apply wf_flash | (simp only [wf_mk]; refine ⟨?_, ?_, ?_⟩)

theorem State.streamEvent_wf (s : State) (type i : Nat) (was : StreamSt) (h0 : memoriesWf s = true) :
    memoriesWf (State.streamEvent s type i was) = true := by
  unfold State.streamEvent
  try dsimp only
  repeat' with_reducible first
    | assumption | apply State.postEvent_wf | split

theorem State.inputLost_wf (s : State) (i : Nat) (h0 : memoriesWf s = true) :
    memoriesWf (State.inputLost s i) = true := by
  unfold State.inputLost
  try dsimp only
  repeat' with_reducible first
    | assumption | apply State.haltPipe_wf | (apply wf_fold <;> intros)

theorem State.streamGapAt_wf (s : State) (i cause : Nat) (start : TimeVal) (h0 : memoriesWf s = true) :
    memoriesWf (State.streamGapAt s i cause start) = true := by
  unfold State.streamGapAt
  try dsimp only
  repeat' with_reducible first
    | assumption | apply State.setStream_wf | apply wf_host | apply wf_bytes | apply wf_flash | split
    | (simp only [wf_mk]; refine ⟨?_, ?_, ?_⟩)

theorem State.streamGap_wf (s : State) (i cause : Nat) (h0 : memoriesWf s = true) :
    memoriesWf (State.streamGap s i cause) = true := by
  unfold State.streamGap
  try dsimp only
  repeat' with_reducible first
    | assumption | apply State.streamGapAt_wf | split

theorem State.closeGaps_wf (s : State) (i : Nat) (stop : TimeVal) (ends : Nat → Bool) (h0 : memoriesWf s = true) :
    memoriesWf (State.closeGaps s i stop ends) = true := by
  unfold State.closeGaps
  try dsimp only
  repeat' with_reducible first
    | assumption | apply State.setStream_wf | apply State.gapRecord_wf | apply wf_host | apply wf_bytes | apply wf_flash
    | (apply wf_fold <;> intros) | (simp only [wf_mk]; refine ⟨?_, ?_, ?_⟩)

theorem State.closeStreamGap_wf (s : State) (i : Nat) (stop : TimeVal) (h0 : memoriesWf s = true) :
    memoriesWf (State.closeStreamGap s i stop) = true := by
  unfold State.closeStreamGap
  try dsimp only
  repeat' with_reducible first
    | assumption | apply State.closeGaps_wf

theorem State.suspend_wf (s : State) (i : Nat) (h0 : memoriesWf s = true) :
    memoriesWf (State.suspend s i) = true := by
  unfold State.suspend
  try dsimp only
  repeat' with_reducible first
    | assumption | apply State.setStream_wf | apply State.streamEvent_wf | apply State.inputLost_wf | apply State.streamGap_wf
    | apply wf_host | apply wf_bytes | apply wf_flash | split | (simp only [wf_mk]; refine ⟨?_, ?_, ?_⟩)

theorem State.leave_wf (s : State) (i : Nat) (h0 : memoriesWf s = true) :
    memoriesWf (State.leave s i) = true := by
  unfold State.leave
  try dsimp only
  repeat' with_reducible first
    | assumption | apply State.setStream_wf | apply State.streamEvent_wf | apply State.inputLost_wf | apply State.closeGaps_wf
    | apply wf_host | apply wf_bytes | apply wf_flash | split | (simp only [wf_mk]; refine ⟨?_, ?_, ?_⟩)

theorem State.stockDown_wf (s : State) (g : Nat) (h0 : memoriesWf s = true) :
    memoriesWf (State.stockDown s g) = true := by
  unfold State.stockDown
  try dsimp only
  repeat' with_reducible first
    | assumption | apply State.suspend_wf | (apply wf_fold <;> intros)

theorem State.loseBuffer_wf (s : State) (i : Nat) (h0 : memoriesWf s = true) :
    memoriesWf (State.loseBuffer s i) = true := by
  unfold State.loseBuffer
  try dsimp only
  repeat' with_reducible first
    | assumption | apply State.setStream_wf | apply State.streamGap_wf | apply wf_host | apply wf_bytes | apply wf_flash | split
    | (simp only [wf_mk]; refine ⟨?_, ?_, ?_⟩)

theorem State.loseContexts_wf (s : State) (q : Nat) (h0 : memoriesWf s = true) :
    memoriesWf (State.loseContexts s q) = true := by
  unfold State.loseContexts
  try dsimp only
  repeat' with_reducible first
    | assumption | apply wf_host | apply wf_bytes | apply wf_flash | (simp only [wf_mk]; refine ⟨?_, ?_, ?_⟩)

theorem State.loseRegion_wf (s : State) (kind loc n : Nat) (h0 : memoriesWf s = true) :
    memoriesWf (State.loseRegion s kind loc n) = true := by
  unfold State.loseRegion
  try dsimp only
  repeat' with_reducible first
    | assumption | apply State.setRegion_wf | apply State.faultRecord_wf | apply State.loseBuffer_wf
    | apply State.loseContexts_wf | apply wf_host | apply wf_bytes | apply wf_flash | split
    | (simp only [wf_mk]; refine ⟨?_, ?_, ?_⟩)

theorem State.loseRanges_wf (s : State) (kind loc : Nat) (meets : Nat → Nat → Bool) (h0 : memoriesWf s = true) :
    memoriesWf (State.loseRanges s kind loc meets) = true := by
  unfold State.loseRanges
  try dsimp only
  repeat' with_reducible first
    | assumption | apply State.loseRegion_wf | apply wf_host | apply wf_bytes | apply wf_flash | split
    | (apply wf_fold <;> intros) | (simp only [wf_mk]; refine ⟨?_, ?_, ?_⟩)

theorem State.setXport_wf (s : State) (p : Nat) (x : XPort) (h0 : memoriesWf s = true) :
    memoriesWf (State.setXport s p x) = true := by
  unfold State.setXport
  try dsimp only
  repeat' with_reducible first
    | assumption | apply wf_host | apply wf_bytes | apply wf_flash | (simp only [wf_mk]; refine ⟨?_, ?_, ?_⟩)

theorem State.setGroup_wf (s : State) (g : Nat) (x : LnpGroup) (h0 : memoriesWf s = true) :
    memoriesWf (State.setGroup s g x) = true := by
  unfold State.setGroup
  try dsimp only
  repeat' with_reducible first
    | assumption | apply wf_host | apply wf_bytes | apply wf_flash | (simp only [wf_mk]; refine ⟨?_, ?_, ?_⟩)

theorem State.sendBlock_wf (s : State) (p type fields : Nat) (h0 : memoriesWf s = true) :
    memoriesWf (State.sendBlock s p type fields) = true := by
  unfold State.sendBlock
  try dsimp only
  repeat' with_reducible first
    | assumption | apply State.emit_wf

theorem State.floodBlock_wf (s : State) (but : Option Nat) (type fields : Nat) (h0 : memoriesWf s = true) :
    memoriesWf (State.floodBlock s but type fields) = true := by
  unfold State.floodBlock
  try dsimp only
  repeat' with_reducible first
    | assumption | apply State.sendBlock_wf | (apply wf_fold <;> intros)

theorem State.packetOut_wf (s : State) (p : Nat) (k : Packet) (h0 : memoriesWf s = true) :
    memoriesWf (State.packetOut s p k) = true := by
  unfold State.packetOut
  try dsimp only
  repeat' with_reducible first
    | assumption | apply State.emit_wf

theorem State.sendPacket_wf (s : State) (p : Nat) (k : Packet) (h0 : memoriesWf s = true) :
    memoriesWf (State.sendPacket s p k) = true := by
  unfold State.sendPacket
  try dsimp only
  repeat' with_reducible first
    | assumption | apply State.setXport_wf | apply State.packetOut_wf | apply wf_host | apply wf_bytes | apply wf_flash | split
    | (simp only [wf_mk]; refine ⟨?_, ?_, ?_⟩)

theorem State.beginSegment_wf (s : State) (h0 : memoriesWf s = true) :
    memoriesWf (State.beginSegment s) = true := by
  unfold State.beginSegment
  try dsimp only
  repeat' with_reducible first
    | assumption | apply State.setXport_wf | apply State.packetOut_wf | apply wf_host | apply wf_bytes | apply wf_flash | split
    | (apply wf_fold <;> intros) | (simp only [wf_mk]; refine ⟨?_, ?_, ?_⟩)

theorem State.transmit_wf (s : State) (p : Nat) (k : Packet) (h0 : memoriesWf s = true) :
    memoriesWf (State.transmit s p k) = true := by
  unfold State.transmit
  try dsimp only
  repeat' with_reducible first
    | assumption | apply State.setXport_wf | apply State.sendPacket_wf | apply wf_host | apply wf_bytes | apply wf_flash | split
    | (simp only [wf_mk]; refine ⟨?_, ?_, ?_⟩)

theorem State.refill_wf (s : State) (p n k : Nat) (h0 : memoriesWf s = true) : memoriesWf (s.refill p n k) = true := by
  induction k generalizing s with
  | zero => exact h0
  | succ k ih =>
    unfold State.refill
    dsimp only
    split
    · exact h0
    · split
      · apply ih; apply State.sendPacket_wf; apply State.setXport_wf; exact h0
      · exact h0

theorem State.floodPacket_wf (s : State) (but : Option Nat) (k : Packet) (h0 : memoriesWf s = true) :
    memoriesWf (State.floodPacket s but k) = true := by
  unfold State.floodPacket
  try dsimp only
  repeat' with_reducible first
    | assumption | apply State.transmit_wf | (apply wf_fold <;> intros)

theorem State.routePacket_wf (s : State) (k : Packet) (h0 : memoriesWf s = true) :
    memoriesWf (State.routePacket s k) = true := by
  unfold State.routePacket
  try dsimp only
  repeat' with_reducible first
    | assumption | apply State.setXport_wf | apply State.transmit_wf | apply wf_host | apply wf_bytes | apply wf_flash | split
    | (simp only [wf_mk]; refine ⟨?_, ?_, ?_⟩)

theorem State.sendLink_wf (s : State) (h0 : memoriesWf s = true) :
    memoriesWf (State.sendLink s) = true := by
  unfold State.sendLink
  try dsimp only
  repeat' with_reducible first
    | assumption | apply State.floodBlock_wf | apply wf_host | apply wf_bytes | apply wf_flash
    | (simp only [wf_mk]; refine ⟨?_, ?_, ?_⟩)

theorem State.bumpLinks_wf (s : State) (h0 : memoriesWf s = true) :
    memoriesWf (State.bumpLinks s) = true := by
  unfold State.bumpLinks
  try dsimp only
  repeat' with_reducible first
    | assumption | apply State.sendLink_wf | apply wf_host | apply wf_bytes | apply wf_flash | split
    | (simp only [wf_mk]; refine ⟨?_, ?_, ?_⟩)

theorem State.takePhase_wf (s : State) (h0 : memoriesWf s = true) : memoriesWf s.takePhase.2 = true := State.takeFree_wf s h0

theorem State.sendCalign_wf (s : State) (p na : Nat) (h0 : memoriesWf s = true) :
    memoriesWf (State.sendCalign s p na) = true := by
  unfold State.sendCalign
  try dsimp only
  repeat' with_reducible first
    | assumption | apply State.sendBlock_wf | apply State.takePhase_wf

theorem State.armAlign_wf (s : State) (boundary : Int) (na frames : Nat) (h0 : memoriesWf s = true) :
    memoriesWf (State.armAlign s boundary na frames) = true := by
  unfold State.armAlign
  try dsimp only
  repeat' with_reducible first
    | assumption | apply wf_host | apply wf_bytes | apply wf_flash | split | (simp only [wf_mk]; refine ⟨?_, ?_, ?_⟩)

theorem State.floodCalign_wf (s : State) (but : Option Nat) (na : Nat) (h0 : memoriesWf s = true) :
    memoriesWf (State.floodCalign s but na) = true := by
  unfold State.floodCalign
  try dsimp only
  repeat' with_reducible first
    | assumption | apply State.sendCalign_wf | (apply wf_fold <;> intros)

theorem State.sendMap_wf (s : State) (p : Nat) (h0 : memoriesWf s = true) :
    memoriesWf (State.sendMap s p) = true := by
  unfold State.sendMap
  try dsimp only
  repeat' with_reducible first
    | assumption | apply State.transmit_wf | apply wf_host | apply wf_bytes | apply wf_flash | (apply wf_fold <;> intros)
    | (simp only [wf_mk]; refine ⟨?_, ?_, ?_⟩)

theorem State.confirmedWith_wf (s : State) (count : Nat) (h0 : memoriesWf s = true) :
    memoriesWf (State.confirmedWith s count) = true := by
  unfold State.confirmedWith
  try dsimp only
  repeat' with_reducible first
    | assumption | apply State.sendLink_wf | apply State.sendMap_wf | apply wf_host | apply wf_bytes | apply wf_flash
    | (apply wf_fold <;> intros) | (simp only [wf_mk]; refine ⟨?_, ?_, ?_⟩)

theorem State.tryConfirm_wf (s : State) (h0 : memoriesWf s = true) :
    memoriesWf (State.tryConfirm s) = true := by
  unfold State.tryConfirm
  try dsimp only
  repeat' with_reducible first
    | assumption | apply State.sendBlock_wf | apply State.floodBlock_wf | apply State.armAlign_wf | apply State.floodCalign_wf
    | apply State.confirmedWith_wf | apply wf_host | apply wf_bytes | apply wf_flash | split | (apply wf_getD <;> intros)
    | (simp only [wf_mk]; refine ⟨?_, ?_, ?_⟩)

theorem State.xlinkEvent_wf (s : State) (type p cause : Nat) (h0 : memoriesWf s = true) :
    memoriesWf (State.xlinkEvent s type p cause) = true := by
  unfold State.xlinkEvent
  try dsimp only
  repeat' with_reducible first
    | assumption | apply State.postEvent_wf

theorem State.reparent_wf (s : State) (h0 : memoriesWf s = true) :
    memoriesWf (State.reparent s) = true := by
  unfold State.reparent
  try dsimp only
  repeat' with_reducible first
    | assumption | apply wf_host | apply wf_bytes | apply wf_flash | split | (simp only [wf_mk]; refine ⟨?_, ?_, ?_⟩)

theorem State.portDown_wf (s : State) (p cause : Nat) (h0 : memoriesWf s = true) :
    memoriesWf (State.portDown s p cause) = true := by
  unfold State.portDown
  try dsimp only
  repeat' with_reducible first
    | assumption | apply State.loseSource_wf | apply State.setXport_wf | apply State.floodPacket_wf | apply State.routePacket_wf
    | apply State.bumpLinks_wf | apply State.tryConfirm_wf | apply State.xlinkEvent_wf | apply State.reparent_wf | apply wf_host
    | apply wf_bytes | apply wf_flash | split | (apply wf_fold <;> intros) | (simp only [wf_mk]; refine ⟨?_, ?_, ?_⟩)

theorem State.portUp_wf (s : State) (p : Nat) (h0 : memoriesWf s = true) :
    memoriesWf (State.portUp s p) = true := by
  unfold State.portUp
  try dsimp only
  repeat' with_reducible first
    | assumption | apply State.setXport_wf | apply State.sendBlock_wf | apply State.refill_wf | apply State.bumpLinks_wf
    | apply State.xlinkEvent_wf | apply wf_host | apply wf_bytes | apply wf_flash | (apply wf_fold <;> intros)
    | (simp only [wf_mk]; refine ⟨?_, ?_, ?_⟩)

theorem State.timePort_wf (s : State) (p : Nat) (up : Bool) (h0 : memoriesWf s = true) :
    memoriesWf (State.timePort s p up) = true := by
  unfold State.timePort
  try dsimp only
  repeat' with_reducible first
    | assumption | apply State.loseSource_wf | apply wf_host | apply wf_bytes | apply wf_flash | split
    | (apply wf_fold <;> intros) | (simp only [wf_mk]; refine ⟨?_, ?_, ?_⟩)

theorem State.groupDown_wf (s : State) (g cause : Nat) (h0 : memoriesWf s = true) :
    memoriesWf (State.groupDown s g cause) = true := by
  unfold State.groupDown
  try dsimp only
  repeat' with_reducible first
    | assumption | apply State.stockDown_wf | apply State.portDown_wf | apply State.timePort_wf | split

theorem State.unheard_wf (s : State) (g : Nat) (h0 : memoriesWf s = true) :
    memoriesWf (State.unheard s g) = true := by
  unfold State.unheard
  try dsimp only
  repeat' with_reducible first
    | assumption | apply State.setPartner_wf | apply wf_host | apply wf_bytes | apply wf_flash | split
    | (simp only [wf_mk]; refine ⟨?_, ?_, ?_⟩)

theorem State.moveGroup_wf (s0 : State) (g cause : Nat) (y0 : LnpGroup) (h0 : memoriesWf s0 = true) :
    memoriesWf (State.moveGroup s0 g cause y0) = true := by
  unfold State.moveGroup
  try dsimp only
  repeat' with_reducible first
    | assumption | apply State.setGroup_wf | apply State.portUp_wf | apply State.timePort_wf | apply State.groupDown_wf
    | apply State.unheard_wf | apply wf_host | apply wf_bytes | apply wf_flash | split
    | (simp only [wf_mk]; refine ⟨?_, ?_, ?_⟩)

theorem State.deviceError_wf (s : State) (e m w : Nat) (h0 : memoriesWf s = true) :
    memoriesWf (State.deviceError s e m w) = true := by
  unfold State.deviceError
  try dsimp only
  repeat' with_reducible first
    | assumption | apply State.setQuarter_wf | apply State.faultRecord_wf | apply State.addBucket_wf | apply State.spareLow_wf
    | apply wf_host | apply wf_bytes | apply wf_flash | split | (simp only [wf_mk]; refine ⟨?_, ?_, ?_⟩)

theorem State.chanErr_wf (s : State) (e n : Nat) (f : ChanErr → ChanErr) (h0 : memoriesWf s = true) :
    memoriesWf (State.chanErr s e n f) = true := by
  unfold State.chanErr
  try dsimp only
  repeat' with_reducible first
    | assumption | apply State.setQuarter_wf | apply wf_host | apply wf_bytes | apply wf_flash
    | (simp only [wf_mk]; refine ⟨?_, ?_, ?_⟩)

theorem State.codeword_wf (s : State) (e c errs : Nat) (h0 : memoriesWf s = true) :
    memoriesWf (State.codeword s e c errs) = true := by
  unfold State.codeword
  try dsimp only
  repeat' with_reducible first
    | assumption | apply State.deviceError_wf | apply State.chanErr_wf | apply wf_host | apply wf_bytes | apply wf_flash | split
    | (simp only [wf_mk]; refine ⟨?_, ?_, ?_⟩)

theorem State.lineRead_wf (s : State) (line errs : Nat) (h0 : memoriesWf s = true) :
    memoriesWf (State.lineRead s line errs) = true := by
  unfold State.lineRead
  try dsimp only
  repeat' with_reducible first
    | assumption | apply State.codeword_wf | apply wf_host | apply wf_bytes | apply wf_flash | split
    | (simp only [wf_mk]; refine ⟨?_, ?_, ?_⟩)

theorem State.askDone_wf (s : State) (k line : Nat) (h0 : memoriesWf s = true) :
    memoriesWf (State.askDone s k line) = true := by
  unfold State.askDone
  try dsimp only
  repeat' with_reducible first
    | assumption | apply wf_host | apply wf_bytes | apply wf_flash | split | (simp only [wf_mk]; refine ⟨?_, ?_, ?_⟩)

theorem State.setFar_wf (s : State) (c k : Nat) (q : FarReq) (h0 : memoriesWf s = true) :
    memoriesWf (State.setFar s c k q) = true := by
  unfold State.setFar
  try dsimp only
  repeat' with_reducible first
    | assumption | apply State.setCl_wf | apply wf_host | apply wf_bytes | apply wf_flash
    | (simp only [wf_mk]; refine ⟨?_, ?_, ?_⟩)

theorem State.sendFar_wf (s : State) (e ch fuel : Nat) (h0 : memoriesWf s = true) : memoriesWf (s.sendFar e ch fuel) = true := by
  induction fuel generalizing s with
  | zero => exact h0
  | succ n ih =>
    unfold State.sendFar
    repeat' split
    all_goals first
      | exact h0
      | exact ih _ (State.setFar_wf _ _ _ _ h0)

theorem State.eccWrite_wf (s : State) (cls line : Nat) (h0 : memoriesWf s = true) :
    memoriesWf (State.eccWrite s cls line) = true := by
  unfold State.eccWrite
  try dsimp only
  repeat' with_reducible first
    | assumption | apply State.setQuarter_wf | apply wf_host | apply wf_bytes | apply wf_flash | split
    | (apply wf_fold <;> intros) | (simp only [wf_mk]; refine ⟨?_, ?_, ?_⟩)

theorem State.oweEcc_wf (s : State) (cls line : Nat) (owed : Bool) (h0 : memoriesWf s = true) :
    memoriesWf (State.oweEcc s cls line owed) = true := by
  unfold State.oweEcc
  try dsimp only
  repeat' with_reducible first
    | assumption | apply State.setQuarter_wf | apply wf_host | apply wf_bytes | apply wf_flash | split
    | (simp only [wf_mk]; refine ⟨?_, ?_, ?_⟩)

theorem State.clearRepeats_wf (s : State) (b : Beat) (h0 : memoriesWf s = true) :
    memoriesWf (State.clearRepeats s b) = true := by
  unfold State.clearRepeats
  try dsimp only
  repeat' with_reducible first
    | assumption | apply State.setQuarter_wf | apply wf_host | apply wf_bytes | apply wf_flash
    | (simp only [wf_mk]; refine ⟨?_, ?_, ?_⟩)

theorem State.noteHalf_wf (s : State) (b : Beat) (h0 : memoriesWf s = true) :
    memoriesWf (State.noteHalf s b) = true := by
  unfold State.noteHalf
  try dsimp only
  repeat' with_reducible first
    | assumption | apply State.setQuarter_wf | apply wf_host | apply wf_bytes | apply wf_flash | split
    | (simp only [wf_mk]; refine ⟨?_, ?_, ?_⟩)

theorem State.noteWhole_wf (s : State) (cls line : Nat) (whole : Bool) (h0 : memoriesWf s = true) :
    memoriesWf (State.noteWhole s cls line whole) = true := by
  unfold State.noteWhole
  try dsimp only
  repeat' with_reducible first
    | assumption | apply State.setQuarter_wf | apply wf_host | apply wf_bytes | apply wf_flash | split
    | (simp only [wf_mk]; refine ⟨?_, ?_, ?_⟩)

theorem State.checkLine_wf (s : State) (e ch a errs : Nat) (h0 : memoriesWf s = true) :
    memoriesWf (State.checkLine s e ch a errs) = true := by
  unfold State.checkLine
  try dsimp only
  repeat' with_reducible first
    | assumption | apply State.codeword_wf | apply State.lineRead_wf | split

theorem State.patrolTo_wf (s : State) (e ch a : Nat) (h0 : memoriesWf s = true) :
    memoriesWf (State.patrolTo s e ch a) = true := by
  unfold State.patrolTo
  try dsimp only
  repeat' with_reducible first
    | assumption | apply State.setQuarter_wf | apply wf_host | apply wf_bytes | apply wf_flash | split
    | (simp only [wf_mk]; refine ⟨?_, ?_, ?_⟩)

theorem State.withdraw_wf (s : State) (e kind : Nat) (loc : BitVec 32) (h0 : memoriesWf s = true) :
    memoriesWf (State.withdraw s e kind loc) = true := by
  unfold State.withdraw
  try dsimp only
  repeat' with_reducible first
    | assumption | apply State.setQuarter_wf | apply State.faultRecord_wf | apply State.loseContexts_wf
    | apply State.loseRanges_wf | apply wf_host | apply wf_bytes | apply wf_flash | (simp only [wf_mk]; refine ⟨?_, ?_, ?_⟩)

theorem State.blankDevice_wf (s : State) (e k : Nat) (h0 : memoriesWf s = true) :
    memoriesWf (State.blankDevice s e k) = true := by
  unfold State.blankDevice
  try dsimp only
  repeat' with_reducible first
    | assumption | apply State.setQuarter_wf | apply wf_host | apply wf_bytes | apply wf_flash | apply Mem.wf_filter
    | (simp only [wf_mk]; refine ⟨?_, ?_, ?_⟩)

theorem State.loseLogical_wf (s : State) (e m k : Nat) (h0 : memoriesWf s = true) :
    memoriesWf (State.loseLogical s e m k) = true := by
  unfold State.loseLogical
  try dsimp only
  repeat' with_reducible first
    | assumption | apply State.setQuarter_wf | apply State.faultRecord_wf | apply State.loseRanges_wf | apply State.withdraw_wf
    | apply State.blankDevice_wf | apply wf_host | apply wf_bytes | apply wf_flash | split
    | (simp only [wf_mk]; refine ⟨?_, ?_, ?_⟩)

theorem State.renewContexts_wf (s : State) (e : Nat) (h0 : memoriesWf s = true) :
    memoriesWf (State.renewContexts s e) = true := by
  unfold State.renewContexts
  try dsimp only
  repeat' with_reducible first
    | assumption | apply State.setRegion_wf | apply State.gddrZero_wf | apply wf_host | apply wf_bytes | apply wf_flash | split
    | (simp only [wf_mk]; refine ⟨?_, ?_, ?_⟩)

theorem State.postReam_wf (s : State) (type trunc form seq : Nat) (time : TimeVal) (bytes : Nat) (h0 : memoriesWf s = true) :
    memoriesWf (State.postReam s type trunc form seq time bytes) = true := by
  unfold State.postReam
  try dsimp only
  repeat' with_reducible first
    | assumption | apply State.signal_wf | apply State.hostWrite_wf | apply wf_host | apply wf_bytes | apply wf_flash | split
    | (simp only [wf_mk]; refine ⟨?_, ?_, ?_⟩)

theorem State.writeReam_wf (s : State) (h0 : memoriesWf s = true) :
    memoriesWf (State.writeReam s) = true := by
  unfold State.writeReam
  try dsimp only
  repeat' with_reducible first
    | assumption | apply State.hostWrite_wf | apply State.postReam_wf | apply wf_host | apply wf_bytes | apply wf_flash | split
    | (simp only [wf_mk]; refine ⟨?_, ?_, ?_⟩)

theorem State.copyRetained_wf (s : State) (h0 : memoriesWf s = true) :
    memoriesWf (State.copyRetained s) = true := by
  unfold State.copyRetained
  try dsimp only
  repeat' with_reducible first
    | assumption | apply State.signal_wf | apply State.hostWrite_wf | apply wf_host | apply wf_bytes | apply wf_flash | split
    | (apply wf_getD <;> intros) | (simp only [wf_mk]; refine ⟨?_, ?_, ?_⟩)

theorem State.deviceFatal_wf (s : State) (cause kind : Nat) (loc : BitVec 32) (h0 : memoriesWf s = true) :
    memoriesWf (State.deviceFatal s cause kind loc) = true := by
  unfold State.deviceFatal
  try dsimp only
  repeat' with_reducible first
    | assumption | apply State.aerError_wf | apply State.postEvent_wf | apply State.faultRecord_wf | apply State.haltDevice_wf
    | apply State.writeReam_wf | apply wf_host | apply wf_bytes | apply wf_flash | split
    | (simp only [wf_mk]; refine ⟨?_, ?_, ?_⟩)

theorem State.setBridge_wf (s : State) (k : Nat) (x : BridgeDir) (h0 : memoriesWf s = true) :
    memoriesWf (State.setBridge s k x) = true := by
  unfold State.setBridge
  try dsimp only
  repeat' with_reducible first
    | assumption | apply wf_host | apply wf_bytes | apply wf_flash | (simp only [wf_mk]; refine ⟨?_, ?_, ?_⟩)

theorem State.replaced_wf (s : State) (crossed : Bool) (r : FaultRec) (h0 : memoriesWf s = true) :
    memoriesWf (State.replaced s crossed r) = true := by
  unfold State.replaced
  try dsimp only
  repeat' with_reducible first
    | assumption | apply State.faultRecord_wf | split

theorem State.replaceWire_wf (s : State) (b d g w : Nat) (sudden : Bool) (h0 : memoriesWf s = true) :
    memoriesWf (State.replaceWire s b d g w sudden) = true := by
  unfold State.replaceWire
  try dsimp only
  repeat' with_reducible first
    | assumption | apply State.spareLow_wf | apply State.deviceFatal_wf | apply State.setBridge_wf | apply State.replaced_wf
    | apply wf_host | apply wf_bytes | apply wf_flash | split | (simp only [wf_mk]; refine ⟨?_, ?_, ?_⟩)

theorem State.setDie_wf (s : State) (k : Nat) (x : DieSt) (h0 : memoriesWf s = true) :
    memoriesWf (State.setDie s k x) = true := by
  unfold State.setDie
  try dsimp only
  repeat' with_reducible first
    | assumption | apply wf_host | apply wf_bytes | apply wf_flash | (simp only [wf_mk]; refine ⟨?_, ?_, ?_⟩)

theorem State.moveCluster_wf (s : State) (h c : Nat) (h0 : memoriesWf s = true) :
    memoriesWf (State.moveCluster s h c) = true := by
  unfold State.moveCluster
  try dsimp only
  repeat' with_reducible first
    | assumption | apply State.setCl_wf | apply State.setService_wf | apply State.setImage_wf | apply State.faultRecord_wf
    | apply State.snapshot_wf | refine State.remap_wf (by assumption) ?_ | apply State.giveCluster_wf | apply State.patchXy_wf
    | apply State.restoreCluster_wf | apply State.spareLow_wf | apply State.noteRepair_wf | apply State.vatReread_wf
    | apply State.recover_wf | apply State.takeOut_wf | apply State.breakRoutes_wf | apply wf_host | apply wf_bytes
    | apply wf_flash | split | (apply wf_fold <;> intros) | (apply wf_getD <;> intros)
    | (simp only [wf_mk]; refine ⟨?_, ?_, ?_⟩)

theorem State.setCore_wf (s : State) (k : Nat) (v : CoreSt) (h0 : memoriesWf s = true) :
    memoriesWf (State.setCore s k v) = true := by
  unfold State.setCore
  try dsimp only
  repeat' with_reducible first
    | assumption | apply wf_host | apply wf_bytes | apply wf_flash | split | (simp only [wf_mk]; refine ⟨?_, ?_, ?_⟩)

theorem State.giveRole_wf (s : State) (r k : Nat) (h0 : memoriesWf s = true) :
    memoriesWf (State.giveRole s r k) = true := by
  unfold State.giveRole
  try dsimp only
  repeat' with_reducible first
    | assumption | apply wf_host | apply wf_bytes | apply wf_flash | (simp only [wf_mk]; refine ⟨?_, ?_, ?_⟩)

theorem State.takeOver_wf (s : State) (k cause : Nat) (h0 : memoriesWf s = true) :
    memoriesWf (State.takeOver s k cause) = true := by
  unfold State.takeOver
  try dsimp only
  repeat' with_reducible first
    | assumption | apply State.postEvent_wf | apply State.faultRecord_wf | apply State.noteRepair_wf
    | apply State.deviceFatal_wf | apply State.setCore_wf | apply State.giveRole_wf | apply wf_host | apply wf_bytes
    | apply wf_flash | split | (apply wf_fold <;> intros) | (simp only [wf_mk]; refine ⟨?_, ?_, ?_⟩)

theorem State.stepGaps_wf (s : State) (h0 : memoriesWf s = true) :
    memoriesWf (State.stepGaps s) = true := by
  unfold State.stepGaps
  try dsimp only
  repeat' with_reducible first
    | assumption | apply State.openGap_wf | split | (apply wf_fold <;> intros)

theorem State.measured_wf (s : State) (src : Nat) (e : Int) (h0 : memoriesWf s = true) :
    memoriesWf (State.measured s src e) = true := by
  unfold State.measured
  try dsimp only
  repeat' with_reducible first
    | assumption | apply State.stepGaps_wf | apply wf_host | apply wf_bytes | apply wf_flash | split
    | (apply wf_fold <;> intros) | (simp only [wf_mk]; refine ⟨?_, ?_, ?_⟩)

theorem State.trackerHears_wf (s : State) (k : Nat) (rx asym : Int) (f : PtpFrame) (h0 : memoriesWf s = true) :
    memoriesWf (State.trackerHears s k rx asym f) = true := by
  unfold State.trackerHears
  try dsimp only
  repeat' with_reducible first
    | assumption | apply State.loseSource_wf | apply State.measureDue_wf | apply wf_host | apply wf_bytes | apply wf_flash
    | split | (simp only [wf_mk]; refine ⟨?_, ?_, ?_⟩)

theorem State.ppsPulse_wf (s : State) (n : Nat) (p : PpsPin) (time : TimeVal) (h0 : memoriesWf s = true) :
    memoriesWf (State.ppsPulse s n p time) = true := by
  unfold State.ppsPulse
  try dsimp only
  repeat' with_reducible first
    | assumption | apply State.emit_wf | apply wf_host | apply wf_bytes | apply wf_flash | split
    | (simp only [wf_mk]; refine ⟨?_, ?_, ?_⟩)

theorem State.latch_wf (s : State) (h0 : memoriesWf s = true) :
    memoriesWf (State.latch s) = true := by
  unfold State.latch
  try dsimp only
  repeat' with_reducible first
    | assumption | apply wf_host | apply wf_bytes | apply wf_flash | (simp only [wf_mk]; refine ⟨?_, ?_, ?_⟩)

theorem State.writeTbs_wf (s : State) (v : Word) (h0 : memoriesWf s = true) :
    memoriesWf (State.writeTbs s v) = true := by
  unfold State.writeTbs
  try dsimp only
  repeat' with_reducible first
    | assumption | apply wf_host | apply wf_bytes | apply wf_flash | split | (simp only [wf_mk]; refine ⟨?_, ?_, ?_⟩)

theorem State.laneReplaced_wf (s : State) (g l cls : Nat) (h0 : memoriesWf s = true) :
    memoriesWf (State.laneReplaced s g l cls) = true := by
  unfold State.laneReplaced
  try dsimp only
  repeat' with_reducible first
    | assumption | apply State.faultRecord_wf | apply State.noteRepair_wf | apply wf_host | apply wf_bytes | apply wf_flash
    | (simp only [wf_mk]; refine ⟨?_, ?_, ?_⟩)

theorem State.trainTo_wf (s : State) (g : Nat) (y : LnpGroup) (h0 : memoriesWf s = true) :
    memoriesWf (State.trainTo s g y) = true := by
  unfold State.trainTo
  try dsimp only
  repeat' with_reducible first
    | assumption | apply State.moveGroup_wf | apply State.laneReplaced_wf | split

theorem State.toDetect_wf (s : State) (g : Nat) (x : LnpGroup) (h0 : memoriesWf s = true) :
    memoriesWf (State.toDetect s g x) = true := by
  unfold State.toDetect
  try dsimp only
  repeat' with_reducible first
    | assumption | apply State.setPartner_wf | apply State.moveGroup_wf | apply State.trainTo_wf | apply wf_host
    | apply wf_bytes | apply wf_flash | split | (simp only [wf_mk]; refine ⟨?_, ?_, ?_⟩)

theorem State.trainOn_wf (s : State) (g : Nat) (y : LnpGroup) (h0 : memoriesWf s = true) :
    memoriesWf (State.trainOn s g y) = true := by
  unfold State.trainOn
  try dsimp only
  repeat' with_reducible first
    | assumption | apply State.setGroup_wf | apply State.trainTo_wf | apply State.toDetect_wf | split

theorem State.laneErrors_wf (s : State) (g l n : Nat) (h0 : memoriesWf s = true) :
    memoriesWf (State.laneErrors s g l n) = true := by
  unfold State.laneErrors
  try dsimp only
  repeat' with_reducible first
    | assumption | apply State.addBucket_wf | apply State.spareLow_wf | apply State.setGroup_wf | apply wf_host | apply wf_bytes
    | apply wf_flash | split | (apply wf_fold <;> intros) | (simp only [wf_mk]; refine ⟨?_, ?_, ?_⟩)

theorem State.lockLost_wf (s : State) (g l : Nat) (y : Lane) (n : Nat) (h0 : memoriesWf s = true) :
    memoriesWf (State.lockLost s g l y n) = true := by
  unfold State.lockLost
  try dsimp only
  repeat' with_reducible first
    | assumption | apply State.setGroup_wf | apply State.unheard_wf | apply State.toDetect_wf | apply State.laneErrors_wf
    | split

theorem State.sweepPeak_wf (s : State) (good : BitVec 15) (h0 : memoriesWf s = true) : memoriesWf (s.sweepPeak good).2 = true := by
  unfold State.sweepPeak
  dsimp only
  split
  · exact h0
  · exact State.takeFree_wf s h0

theorem State.openRecord_wf (s : State) (i : Nat) (r : Rec) (h0 : memoriesWf s = true) :
    memoriesWf (State.openRecord s i r) = true := by
  unfold State.openRecord
  try dsimp only
  repeat' with_reducible first
    | assumption | apply State.setStream_wf | apply wf_host | apply wf_bytes | apply wf_flash | split
    | (simp only [wf_mk]; refine ⟨?_, ?_, ?_⟩)

theorem State.openWindows_wf (s : State) (u tseq : Nat) (t : TimeVal) (h0 : memoriesWf s = true) :
    memoriesWf (State.openWindows s u tseq t) = true := by
  unfold State.openWindows
  try dsimp only
  repeat' with_reducible first
    | assumption | apply State.setStream_wf | apply State.openRecord_wf | apply wf_host | apply wf_bytes | apply wf_flash
    | split | (apply wf_fold <;> intros) | (simp only [wf_mk]; refine ⟨?_, ?_, ?_⟩)

theorem State.askMasks_wf (s : State) (x : Stream) (h0 : memoriesWf s = true) :
    memoriesWf (State.askMasks s x) = true := by
  unfold State.askMasks
  try dsimp only
  repeat' with_reducible first
    | assumption | apply State.asks_wf | split

theorem State.buildRecord_wf (s : State) (i : Nat) (r : Rec) (h0 : memoriesWf s = true) : memoriesWf (s.buildRecord i r).2.2 = true := by
  unfold State.buildRecord
  dsimp only
  split
  · exact h0
  · apply wf_fold
    · intro u k hu
      exact State.asks_wf _ _ _ _ _ hu
    · exact State.askMasks_wf _ _ h0

theorem State.handOff_wf (s : State) (i : Nat) (h0 : memoriesWf s = true) :
    memoriesWf (State.handOff s i) = true := by
  unfold State.handOff
  try dsimp only
  repeat' with_reducible first
    | assumption | apply State.setStream_wf | apply State.gddrWrite_wf | apply State.asks_wf | apply State.hostWrite_wf
    | apply State.pushCompletion_wf | apply State.buildRecord_wf | apply wf_host | apply wf_bytes | apply wf_flash | split
    | (simp only [wf_mk]; refine ⟨?_, ?_, ?_⟩)

theorem State.joinError_wf (s : State) (g : Nat) (h0 : memoriesWf s = true) :
    memoriesWf (State.joinError s g) = true := by
  unfold State.joinError
  try dsimp only
  repeat' with_reducible first
    | assumption | apply State.setGroup_wf | apply wf_host | apply wf_bytes | apply wf_flash
    | (simp only [wf_mk]; refine ⟨?_, ?_, ?_⟩)

theorem State.hearJoin_wf (s : State) (g type : Nat) (bytes : List Byte) (h0 : memoriesWf s = true) :
    memoriesWf (s.hearJoin g type bytes).2 = true := State.setPartner_wf _ _ _ h0

theorem State.answerJoin_wf (s : State) (g m : Nat) (bytes : List Byte) (h0 : memoriesWf s = true) :
    memoriesWf (State.answerJoin s g m bytes) = true := by
  unfold State.answerJoin
  try dsimp only
  repeat' with_reducible first
    | assumption | apply State.emit_wf | split

theorem State.refuseJoin_wf (s : State) (g : Nat) (lsn : BitVec 8) (reason : Nat) (h0 : memoriesWf s = true) :
    memoriesWf (State.refuseJoin s g lsn reason) = true := by
  unfold State.refuseJoin
  try dsimp only
  repeat' with_reducible first
    | assumption | apply State.answerJoin_wf

theorem State.acceptJoin_wf (s : State) (g : Nat) (lsn : BitVec 8) (i : Nat) (h0 : memoriesWf s = true) :
    memoriesWf (State.acceptJoin s g lsn i) = true := by
  unfold State.acceptJoin
  try dsimp only
  repeat' with_reducible first
    | assumption | apply State.answerJoin_wf

theorem State.rejoin_wf (s : State) (g : Nat) (lsn : BitVec 8) (i : Nat) (h0 : memoriesWf s = true) :
    memoriesWf (State.rejoin s g lsn i) = true := by
  unfold State.rejoin
  try dsimp only
  repeat' with_reducible first
    | assumption | apply State.setStream_wf | apply State.streamEvent_wf | apply State.leave_wf | apply State.refuseJoin_wf
    | apply State.acceptJoin_wf | apply wf_host | apply wf_bytes | apply wf_flash | split
    | (simp only [wf_mk]; refine ⟨?_, ?_, ?_⟩)

theorem State.join_wf (s : State) (g : Nat) (lsn : BitVec 8) (fmt fcode : BitVec 4) (rate : BitVec 32)
    (h0 : memoriesWf s = true) :
    memoriesWf (State.join s g lsn fmt fcode rate) = true := by
  unfold State.join
  try dsimp only
  repeat' with_reducible first
    | assumption | apply State.setStream_wf | refine State.load_wf (by assumption) ?_ | apply State.streamEvent_wf
    | apply State.refuseJoin_wf | apply State.acceptJoin_wf | apply State.rejoin_wf | apply wf_host | apply wf_bytes
    | apply wf_flash | split | (simp only [wf_mk]; refine ⟨?_, ?_, ?_⟩)

theorem State.inputFrame_wf (s : State) (i : Nat) (sof : Nat) (h0 : memoriesWf s = true) :
    memoriesWf (State.inputFrame s i sof) = true := by
  unfold State.inputFrame
  try dsimp only
  repeat' with_reducible first
    | assumption | apply State.haltPipe_wf | split | (apply wf_fold <;> intros)

theorem State.frameEnds_wf (s : State) (i : Nat) (seq : BitVec 16) (failed : Bool) (h0 : memoriesWf s = true) :
    memoriesWf (State.frameEnds s i seq failed) = true := by
  unfold State.frameEnds
  try dsimp only
  repeat' with_reducible first
    | assumption | apply State.setPipe_wf | apply wf_host | apply wf_bytes | apply wf_flash | split | (apply wf_fold <;> intros)
    | (simp only [wf_mk]; refine ⟨?_, ?_, ?_⟩)

theorem State.discardGap_wf (s : State) (i : Nat) (h0 : memoriesWf s = true) :
    memoriesWf (State.discardGap s i) = true := by
  unfold State.discardGap
  try dsimp only
  repeat' with_reducible first
    | assumption | apply State.streamGap_wf | split

theorem State.setAnchor_wf (s : State) (i : Nat) (t : TimeVal) (h0 : memoriesWf s = true) :
    memoriesWf (State.setAnchor s i t) = true := by
  unfold State.setAnchor
  try dsimp only
  repeat' with_reducible first
    | assumption | apply State.setStream_wf | apply State.unitWrite_wf | apply wf_host | apply wf_bytes | apply wf_flash
    | (simp only [wf_mk]; refine ⟨?_, ?_, ?_⟩)

theorem State.writeSamples_wf (s : State) (i : Nat) (f : StockFrame) (lo hi : Nat) (h0 : memoriesWf s = true) :
    memoriesWf (State.writeSamples s i f lo hi) = true := by
  unfold State.writeSamples
  try dsimp only
  repeat' with_reducible first
    | assumption | apply State.setStream_wf | apply State.unitWrite_wf | apply wf_host | apply wf_bytes | apply wf_flash
    | (simp only [wf_mk]; refine ⟨?_, ?_, ?_⟩)

theorem State.writePart_wf (s : State) (i : Nat) (f : StockFrame) (lo hi : Nat) (jump : Bool) (h0 : memoriesWf s = true) :
    memoriesWf (State.writePart s i f lo hi jump) = true := by
  unfold State.writePart
  try dsimp only
  repeat' with_reducible first
    | assumption | apply State.setStream_wf | apply State.closeStreamGap_wf | apply State.setAnchor_wf
    | apply State.writeSamples_wf | apply wf_host | apply wf_bytes | apply wf_flash | split
    | (simp only [wf_mk]; refine ⟨?_, ?_, ?_⟩)

theorem State.writeStaged_wf (s : State) (i : Nat) (f : StockFrame) (line block : Nat) (jump : Bool) (h0 : memoriesWf s = true) :
    memoriesWf (State.writeStaged s i f line block jump) = true := by
  unfold State.writeStaged
  try dsimp only
  repeat' with_reducible first
    | assumption | apply State.faultRecord_wf | apply State.streamGapAt_wf | apply State.writePart_wf | apply wf_host
    | apply wf_bytes | apply wf_flash | (simp only [wf_mk]; refine ⟨?_, ?_, ?_⟩)

theorem State.writeFrame_wf (s : State) (i : Nat) (f : StockFrame) (jump : Bool) (h0 : memoriesWf s = true) :
    memoriesWf (State.writeFrame s i f jump) = true := by
  unfold State.writeFrame
  try dsimp only
  repeat' with_reducible first
    | assumption | apply State.setStream_wf | apply State.writePart_wf | apply State.writeStaged_wf | split

theorem State.admittedFrame_wf (s : State) (i sof : Nat) (ta : TimeVal) (f : StockFrame) (h0 : memoriesWf s = true) :
    memoriesWf (State.admittedFrame s i sof ta f) = true := by
  unfold State.admittedFrame
  try dsimp only
  repeat' with_reducible first
    | assumption | apply State.setStream_wf | apply State.streamGap_wf | apply State.inputFrame_wf | apply State.frameEnds_wf
    | apply State.discardGap_wf | apply State.writeFrame_wf | apply wf_host | apply wf_bytes | apply wf_flash | split
    | (simp only [wf_mk]; refine ⟨?_, ?_, ?_⟩)

theorem State.badFrame_wf (s : State) (i : Nat) (f : StockFrame) (count : SErr → SErr) (h0 : memoriesWf s = true) :
    memoriesWf (State.badFrame s i f count) = true := by
  unfold State.badFrame
  try dsimp only
  repeat' with_reducible first
    | assumption | apply State.setStream_wf | apply State.frameEnds_wf | apply State.discardGap_wf | apply wf_host
    | apply wf_bytes | apply wf_flash | (simp only [wf_mk]; refine ⟨?_, ?_, ?_⟩)

theorem State.trigger_wf (s : State) (p : Nat) (z : EntrySet) (hit : Nat × BitVec 32 × BitVec 32 × Bool)
    (h0 : memoriesWf s = true) :
    memoriesWf (State.trigger s p z hit) = true := by
  unfold State.trigger
  try dsimp only
  repeat' with_reducible first
    | assumption | apply State.setPipe_wf | apply wf_host | apply wf_bytes | apply wf_flash | split | (apply wf_getD <;> intros)
    | (simp only [wf_mk]; refine ⟨?_, ?_, ?_⟩)

theorem State.judge_wf (s : State) (p : Nat) (z : EntrySet) (e : Entry) (h0 : memoriesWf s = true) :
    memoriesWf (State.judge s p z e) = true := by
  unfold State.judge
  try dsimp only
  repeat' with_reducible first
    | assumption | apply State.setPipe_wf | apply State.closeGap_wf | apply State.trigger_wf | apply wf_host | apply wf_bytes
    | apply wf_flash | split | (apply wf_fold <;> intros) | (apply wf_getD <;> intros)
    | (simp only [wf_mk]; refine ⟨?_, ?_, ?_⟩)

theorem State.noteSlack_wf (s : State) (p rel arrival : Nat) (h0 : memoriesWf s = true) :
    memoriesWf (State.noteSlack s p rel arrival) = true := by
  unfold State.noteSlack
  try dsimp only
  repeat' with_reducible first
    | assumption | apply State.setPipe_wf | apply State.takeFree_wf | apply wf_host | apply wf_bytes | apply wf_flash | split
    | (simp only [wf_mk]; refine ⟨?_, ?_, ?_⟩)

theorem State.takeDecision_wf (s : State) (p arrival : Nat) (h0 : memoriesWf s = true) :
    memoriesWf (State.takeDecision s p arrival) = true := by
  unfold State.takeDecision
  try dsimp only
  repeat' with_reducible first
    | assumption | apply State.setCl_wf | apply State.setPipe_wf | apply wf_host | apply wf_bytes | apply wf_flash | split
    | (simp only [wf_mk]; refine ⟨?_, ?_, ?_⟩)

theorem State.release_wf (s : State) (p : Nat) (z : EntrySet) (e : Entry) (arrival : Nat) (h0 : memoriesWf s = true) :
    memoriesWf (State.release s p z e arrival) = true := by
  unfold State.release
  try dsimp only
  repeat' with_reducible first
    | assumption | apply State.setPipe_wf | apply State.openGap_wf | apply State.judge_wf | apply State.noteSlack_wf
    | apply wf_host | apply wf_bytes | apply wf_flash | split | (apply wf_getD <;> intros)
    | (simp only [wf_mk]; refine ⟨?_, ?_, ?_⟩)

theorem State.toHeadboxes_wf (s : State) (m : TrigMsg) (h0 : memoriesWf s = true) :
    memoriesWf (State.toHeadboxes s m) = true := by
  unfold State.toHeadboxes
  try dsimp only
  repeat' with_reducible first
    | assumption | apply wf_host | apply wf_bytes | apply wf_flash | (apply wf_fold <;> intros)
    | (simp only [wf_mk]; refine ⟨?_, ?_, ?_⟩)

theorem State.toLines_wf (s : State) (m : TrigMsg) (h0 : memoriesWf s = true) :
    memoriesWf (State.toLines s m) = true := by
  unfold State.toLines
  try dsimp only
  repeat' with_reducible first
    | assumption | apply wf_host | apply wf_bytes | apply wf_flash | split | (apply wf_fold <;> intros)
    | (simp only [wf_mk]; refine ⟨?_, ?_, ?_⟩)

theorem State.writeDet_wf (s : State) (p : Nat) (b : Bool) (v : Word) (h0 : memoriesWf s = true) :
    memoriesWf (State.writeDet s p b v) = true := by
  unfold State.writeDet
  try dsimp only
  repeat' with_reducible first
    | assumption | apply State.setPipe_wf | apply wf_host | apply wf_bytes | apply wf_flash | split
    | (simp only [wf_mk]; refine ⟨?_, ?_, ?_⟩)

theorem State.setLine_wf (s : State) (n : Nat) (l : TrigLine) (h0 : memoriesWf s = true) :
    memoriesWf (State.setLine s n l) = true := by
  unfold State.setLine
  try dsimp only
  repeat' with_reducible first
    | assumption | apply wf_host | apply wf_bytes | apply wf_flash | (simp only [wf_mk]; refine ⟨?_, ?_, ?_⟩)

theorem State.writeLine_wf (s : State) (n r : Nat) (v : Word) (h0 : memoriesWf s = true) :
    memoriesWf (State.writeLine s n r v) = true := by
  unfold State.writeLine
  try dsimp only
  repeat' with_reducible first
    | assumption | apply State.setLine_wf | apply wf_host | apply wf_bytes | apply wf_flash | split
    | (simp only [wf_mk]; refine ⟨?_, ?_, ?_⟩)

end Sys2Proof.Machine
end

