-- ==== Sys2Proof/Laws/MemoriesHost.lean ====
section
/-!
SUPPORT. Every shared operation keeps the memories in their canonical form: ring pairs, copies, actions, VAT and PCIe.
-/
namespace Sys2Proof.Machine

theorem State.masterOn_wf (s : State) (h0 : memoriesWf s = true) :
    memoriesWf (State.masterOn s) = true := by
  unfold State.masterOn
  try dsimp only
  repeat' with_reducible first
    | assumption | apply wf_host | apply wf_bytes | apply wf_flash | (simp only [wf_mk]; refine ⟨?_, ?_, ?_⟩)

theorem State.writeRingCfg_wf (s : State) (r : Nat) (v : Word) (h0 : memoriesWf s = true) :
    memoriesWf (State.writeRingCfg s r v) = true := by
  unfold State.writeRingCfg
  try dsimp only
  repeat' with_reducible first
    | assumption | apply State.setRing_wf | apply State.clearAborted_wf | apply State.masterOn_wf | split
    | (apply wf_fold <;> intros)

theorem State.writeEvtCfg_wf (s : State) (v : Word) (h0 : memoriesWf s = true) :
    memoriesWf (State.writeEvtCfg s v) = true := by
  unfold State.writeEvtCfg
  try dsimp only
  repeat' with_reducible first
    | assumption | apply State.masterOn_wf | apply wf_host | apply wf_bytes | apply wf_flash | split
    | (simp only [wf_mk]; refine ⟨?_, ?_, ?_⟩)

theorem State.writeReamCfg_wf (s : State) (v : Word) (h0 : memoriesWf s = true) :
    memoriesWf (State.writeReamCfg s v) = true := by
  unfold State.writeReamCfg
  try dsimp only
  repeat' with_reducible first
    | assumption | apply State.masterOn_wf | apply wf_host | apply wf_bytes | apply wf_flash | split
    | (simp only [wf_mk]; refine ⟨?_, ?_, ?_⟩)

theorem State.setReamRing_wf (s : State) (v : Word) (h0 : memoriesWf s = true) :
    memoriesWf (State.setReamRing s v) = true := by
  unfold State.setReamRing
  try dsimp only
  repeat' with_reducible first
    | assumption | apply State.copyRetained_wf | apply State.writeReamCfg_wf | split

theorem State.ringError_wf (s : State) (r cause : Nat) (h0 : memoriesWf s = true) :
    memoriesWf (State.ringError s r cause) = true := by
  unfold State.ringError
  try dsimp only
  repeat' with_reducible first
    | assumption | apply State.setRing_wf | apply State.postEvent_wf | apply wf_host | apply wf_bytes | apply wf_flash
    | (simp only [wf_mk]; refine ⟨?_, ?_, ?_⟩)

theorem State.bellIgnored_wf (s : State) (r : Nat) (h0 : memoriesWf s = true) :
    memoriesWf (State.bellIgnored s r) = true := by
  unfold State.bellIgnored
  try dsimp only
  repeat' with_reducible first
    | assumption | apply State.setRing_wf | apply wf_host | apply wf_bytes | apply wf_flash
    | (simp only [wf_mk]; refine ⟨?_, ?_, ?_⟩)

theorem State.bellSq_wf (s : State) (r : Nat) (v : BitVec 64) (h0 : memoriesWf s = true) :
    memoriesWf (State.bellSq s r v) = true := by
  unfold State.bellSq
  try dsimp only
  repeat' with_reducible first
    | assumption | apply State.setRing_wf | apply State.ringError_wf | apply State.bellIgnored_wf | apply wf_host
    | apply wf_bytes | apply wf_flash | split | (simp only [wf_mk]; refine ⟨?_, ?_, ?_⟩)

theorem State.freeSlots_wf (s : State) (cs : List Compl) (h0 : memoriesWf s = true) :
    memoriesWf (State.freeSlots s cs) = true := by
  unfold State.freeSlots
  try dsimp only
  repeat' with_reducible first
    | assumption | apply State.setStream_wf | apply wf_host | apply wf_bytes | apply wf_flash | split
    | (apply wf_fold <;> intros) | (simp only [wf_mk]; refine ⟨?_, ?_, ?_⟩)

theorem State.bellCq_wf (s : State) (r : Nat) (v : BitVec 64) (h0 : memoriesWf s = true) :
    memoriesWf (State.bellCq s r v) = true := by
  unfold State.bellCq
  try dsimp only
  repeat' with_reducible first
    | assumption | apply State.setRing_wf | apply State.ringError_wf | apply State.bellIgnored_wf | apply State.freeSlots_wf
    | apply wf_host | apply wf_bytes | apply wf_flash | split | (simp only [wf_mk]; refine ⟨?_, ?_, ?_⟩)

theorem State.bell_wf (s : State) (r off : Nat) (v : BitVec 64) (h0 : memoriesWf s = true) :
    memoriesWf (State.bell s r off v) = true := by
  unfold State.bell
  try dsimp only
  repeat' with_reducible first
    | assumption | apply State.bellSq_wf | apply State.bellCq_wf | apply wf_host | apply wf_bytes | apply wf_flash | split
    | (simp only [wf_mk]; refine ⟨?_, ?_, ?_⟩)

theorem State.doorbell_wf (s : State) (r off : Nat) (v : BitVec 64) (h0 : memoriesWf s = true) :
    memoriesWf (State.doorbell s r off v) = true := by
  unfold State.doorbell
  try dsimp only
  repeat' with_reducible first
    | assumption | apply State.bell_wf | apply wf_host | apply wf_bytes | apply wf_flash | split
    | (simp only [wf_mk]; refine ⟨?_, ?_, ?_⟩)

theorem State.accept_wf {s t : State} {r : Nat} {b : List Byte} (he : s.accept r b = some t) (h0 : memoriesWf s = true) :
    memoriesWf t = true := by
  unfold State.accept at he
  have h1 : memoriesWf (s.setRing r ((s.ring r).take b)) = true := State.setRing_wf _ _ _ h0
  dsimp only at he
  repeat' (split at he)
  all_goals first
    | (simp only [reduceCtorEq] at he; done)
    | (simp only [Option.some.injEq] at he
       subst he
       first
         | exact h1
         | (simp only [wf_mk]; exact ⟨wf_host h1, wf_bytes h1, wf_flash h1⟩))

theorem State.bindPort_wf (s : State) (p port : Nat) (sid : Option Nat) (h0 : memoriesWf s = true) :
    memoriesWf (State.bindPort s p port sid) = true := by
  unfold State.bindPort
  try dsimp only
  repeat' with_reducible first
    | assumption | apply State.setPipe_wf | apply wf_host | apply wf_bytes | apply wf_flash | split
    | (simp only [wf_mk]; refine ⟨?_, ?_, ?_⟩)

theorem State.admitStream_wf (s : State) (r sid tag transit depth h port : Nat) (a : Admission) (h0 : memoriesWf s = true) :
    memoriesWf (State.admitStream s r sid tag transit depth h port a) = true := by
  unfold State.admitStream
  try dsimp only
  repeat' with_reducible first
    | assumption | apply State.setStream_wf | apply State.setRegion_wf | apply State.gddrZero_wf | apply State.bindPort_wf
    | apply wf_host | apply wf_bytes | apply wf_flash | split | (simp only [wf_mk]; refine ⟨?_, ?_, ?_⟩)

theorem State.endAdmission_wf (s : State) (sid : Nat) (h0 : memoriesWf s = true) :
    memoriesWf (State.endAdmission s sid) = true := by
  unfold State.endAdmission
  try dsimp only
  repeat' with_reducible first
    | assumption | apply State.setStream_wf | apply State.setRing_wf | apply State.freeRegion_wf | apply State.closeStreamGap_wf
    | apply State.handOff_wf | apply State.bindPort_wf | apply wf_host | apply wf_bytes | apply wf_flash | split
    | (apply wf_fold <;> intros) | (simp only [wf_mk]; refine ⟨?_, ?_, ?_⟩)

theorem State.startPipe_wf (s : State) (p : Nat) (h0 : memoriesWf s = true) :
    memoriesWf (State.startPipe s p) = true := by
  unfold State.startPipe
  try dsimp only
  repeat' with_reducible first
    | assumption | apply State.setPipe_wf | apply State.openGap_wf | apply wf_host | apply wf_bytes | apply wf_flash | split
    | (simp only [wf_mk]; refine ⟨?_, ?_, ?_⟩)

theorem State.startSheet_wf (s : State) (w : Work) (h cidx : Nat) (seed : Option Nat) (h0 : memoriesWf s = true) :
    memoriesWf (State.startSheet s w h cidx seed) = true := by
  unfold State.startSheet
  try dsimp only
  repeat' with_reducible first
    | assumption | apply State.setImage_wf | apply State.startClusters_wf | apply State.startPipe_wf | apply wf_host
    | apply wf_bytes | apply wf_flash | split | (apply wf_fold <;> intros) | (simp only [wf_mk]; refine ⟨?_, ?_, ?_⟩)

theorem State.drainFor_wf (s : State) (h : Nat) (d : BitVec 12 × Nat) (h0 : memoriesWf s = true) :
    memoriesWf (State.drainFor s h d) = true := by
  unfold State.drainFor
  try dsimp only
  repeat' with_reducible first
    | assumption | apply State.setImage_wf | apply State.checkDrain_wf | apply State.requestDrain_wf | apply wf_host
    | apply wf_bytes | apply wf_flash | (simp only [wf_mk]; refine ⟨?_, ?_, ?_⟩)

theorem State.setChan_wf (s : State) (c : Nat) (x : Channel) (h0 : memoriesWf s = true) :
    memoriesWf (State.setChan s c x) = true := by
  unfold State.setChan
  try dsimp only
  repeat' with_reducible first
    | assumption | apply wf_host | apply wf_bytes | apply wf_flash | (simp only [wf_mk]; refine ⟨?_, ?_, ?_⟩)

theorem State.copyWrite_wf (s : State) (src l : Loc) (bs : List Byte) (h0 : memoriesWf s = true) :
    memoriesWf (s.copyWrite src l bs).1 = true :=
  State.asksAt_wf _ _ _ _ _ (State.asksAt_wf _ _ _ _ _ (State.devWrite_wf s l bs h0))

theorem State.scramble_wf (s : State) (l : Loc) (n : Nat) (h0 : memoriesWf s = true) :
    memoriesWf (State.scramble s l n) = true := by
  unfold State.scramble
  try dsimp only
  repeat' with_reducible first
    | assumption | apply State.devWrite_wf | apply wf_host | apply wf_bytes | apply wf_flash | apply Mem.wf_writeBytes | split
    | (simp only [wf_mk]; refine ⟨?_, ?_, ?_⟩)

theorem State.startCopy_wf (s : State) (c : Nat) (w : Work) (h0 : memoriesWf s = true) :
    memoriesWf (State.startCopy s c w) = true := by
  unfold State.startCopy
  try dsimp only
  repeat' with_reducible first
    | assumption | apply State.finish_wf | apply State.setChan_wf | apply wf_host | apply wf_bytes | apply wf_flash | split
    | (simp only [wf_mk]; refine ⟨?_, ?_, ?_⟩)

theorem State.startPaced_wf (s : State) (c : Nat) (w : Work) (h0 : memoriesWf s = true) :
    memoriesWf (State.startPaced s c w) = true := by
  unfold State.startPaced
  try dsimp only
  repeat' with_reducible first
    | assumption | apply State.finish_wf | apply State.setChan_wf | apply wf_host | apply wf_bytes | apply wf_flash | split
    | (simp only [wf_mk]; refine ⟨?_, ?_, ?_⟩)

theorem State.copyError_wf (s : State) (c : Nat) (outcome check : BitVec 8) (h0 : memoriesWf s = true) :
    memoriesWf (State.copyError s c outcome check) = true := by
  unfold State.copyError
  try dsimp only
  repeat' with_reducible first
    | assumption | apply State.setChan_wf | apply State.scramble_wf | apply wf_host | apply wf_bytes | apply wf_flash | split
    | (apply wf_fold <;> intros) | (simp only [wf_mk]; refine ⟨?_, ?_, ?_⟩)

theorem State.memError_wf (s : State) (c : Nat) (h0 : memoriesWf s = true) :
    memoriesWf (State.memError s c) = true := by
  unfold State.memError
  try dsimp only
  repeat' with_reducible first
    | assumption | apply State.copyError_wf

theorem State.moveEntry_wf (s : State) (c : Nat) (hdr : List Byte) (h0 : memoriesWf s = true) :
    memoriesWf (State.moveEntry s c hdr) = true := by
  unfold State.moveEntry
  try dsimp only
  repeat' with_reducible first
    | assumption | apply State.gddrWrite_wf | apply State.asks_wf | apply State.setChan_wf | apply State.copyWrite_wf
    | apply State.memError_wf | apply wf_host | apply wf_bytes | apply wf_flash | split
    | (simp only [wf_mk]; refine ⟨?_, ?_, ?_⟩)

theorem State.vatHead_wf {s t : State} {op : Option Nat} {w : Work} (he : s.vatHead op = some (w, t)) (h0 : memoriesWf s = true) :
    memoriesWf t = true := by
  unfold State.vatHead at he
  dsimp only at he
  repeat' (split at he)
  all_goals first
    | (simp only [reduceCtorEq] at he; done)
    | (simp only [Option.some.injEq, Prod.mk.injEq] at he
       obtain ⟨-, rfl⟩ := he
       simp only [wf_mk]
       exact ⟨wf_host h0, wf_bytes h0, wf_flash h0⟩)

theorem State.armSweep_wf (s : State) (w : Work) (h0 : memoriesWf s = true) :
    memoriesWf (State.armSweep s w) = true := by
  unfold State.armSweep
  try dsimp only
  repeat' with_reducible first
    | assumption | apply State.finish_wf | apply wf_host | apply wf_bytes | apply wf_flash | split
    | (simp only [wf_mk]; refine ⟨?_, ?_, ?_⟩)

theorem State.enterWork_wf (s : State) (w : Work) (h0 : memoriesWf s = true) :
    memoriesWf (State.enterWork s w) = true := by
  unfold State.enterWork
  try dsimp only
  repeat' with_reducible first
    | assumption | apply State.armSweep_wf | apply wf_host | apply wf_bytes | apply wf_flash | split
    | (simp only [wf_mk]; refine ⟨?_, ?_, ?_⟩)

theorem State.enterTaken_wf (s : State) (h0 : memoriesWf s = true) :
    memoriesWf (State.enterTaken s) = true := by
  unfold State.enterTaken
  try dsimp only
  repeat' with_reducible first
    | assumption | apply State.enterWork_wf | apply wf_host | apply wf_bytes | apply wf_flash | split
    | (apply wf_fold <;> intros) | (simp only [wf_mk]; refine ⟨?_, ?_, ?_⟩)

theorem State.vatWrite_wf (s : State) (l : Loc) (bs : List Byte) (h0 : memoriesWf s = true) :
    memoriesWf (State.vatWrite s l bs) = true := by
  unfold State.vatWrite
  try dsimp only
  repeat' with_reducible first
    | assumption | apply State.devWrite_wf | apply State.asksAt_wf

theorem State.endSweep_wf (s : State) (z : Sweep) (outcome check : BitVec 8) (seqNo : Nat) (h0 : memoriesWf s = true) :
    memoriesWf (State.endSweep s z outcome check seqNo) = true := by
  unfold State.endSweep
  try dsimp only
  repeat' with_reducible first
    | assumption | apply State.pushCompletion_wf | apply State.finish_wf | apply wf_host | apply wf_bytes | apply wf_flash
    | split | (simp only [wf_mk]; refine ⟨?_, ?_, ?_⟩)

theorem State.endPending_wf (s : State) (z : Sweep) (outcome check : BitVec 8) (h0 : memoriesWf s = true) :
    memoriesWf (State.endPending s z outcome check) = true := by
  unfold State.endPending
  try dsimp only
  repeat' with_reducible first
    | assumption | apply State.vatWrite_wf | apply State.endSweep_wf | split

theorem State.setTsu_wf (s : State) (u : Nat) (x : Tsu) (h0 : memoriesWf s = true) :
    memoriesWf (State.setTsu s u x) = true := by
  unfold State.setTsu
  try dsimp only
  repeat' with_reducible first
    | assumption | apply wf_host | apply wf_bytes | apply wf_flash | (simp only [wf_mk]; refine ⟨?_, ?_, ?_⟩)

theorem State.pulsePins_wf (s : State) (u : Nat) (x : Tsu) (t : TimeVal) (h0 : memoriesWf s = true) :
    memoriesWf (State.pulsePins s u x t) = true := by
  unfold State.pulsePins
  try dsimp only
  repeat' with_reducible first
    | assumption | apply wf_host | apply wf_bytes | apply wf_flash | split | (apply wf_fold <;> intros)
    | (simp only [wf_mk]; refine ⟨?_, ?_, ?_⟩)

theorem State.setEpoch_wf (s : State) (p : Nat) (t : TimeVal) (h0 : memoriesWf s = true) :
    memoriesWf (State.setEpoch s p t) = true := by
  unfold State.setEpoch
  try dsimp only
  repeat' with_reducible first
    | assumption | apply State.setPipe_wf | apply wf_host | apply wf_bytes | apply wf_flash | split
    | (simp only [wf_mk]; refine ⟨?_, ?_, ?_⟩)

theorem State.enterTemplate_wf (s0 : State) (t : Nat) (h0 : memoriesWf s0 = true) :
    memoriesWf (State.enterTemplate s0 t) = true := by
  unfold State.enterTemplate
  try dsimp only
  repeat' with_reducible first
    | assumption | apply State.enterTaken_wf | apply wf_host | apply wf_bytes | apply wf_flash | split
    | (simp only [wf_mk]; refine ⟨?_, ?_, ?_⟩)

theorem State.fireTarget_wf (s : State) (u : Nat) (x : Tsu) (t : TimeVal) (late : Bool) (h0 : memoriesWf s = true) :
    memoriesWf (State.fireTarget s u x t late) = true := by
  unfold State.fireTarget
  try dsimp only
  repeat' with_reducible first
    | assumption | apply State.postEvent_wf | apply State.openWindows_wf | apply State.setEpoch_wf
    | apply State.enterTemplate_wf | apply wf_host | apply wf_bytes | apply wf_flash | split | (apply wf_getD <;> intros)
    | (simp only [wf_mk]; refine ⟨?_, ?_, ?_⟩)

theorem State.fireUnit_wf (s : State) (u : Nat) (h0 : memoriesWf s = true) :
    memoriesWf (State.fireUnit s u) = true := by
  unfold State.fireUnit
  try dsimp only
  repeat' with_reducible first
    | assumption | apply State.setTsu_wf | apply State.pulsePins_wf | apply State.fireTarget_wf | apply wf_host | apply wf_bytes
    | apply wf_flash | split | (simp only [wf_mk]; refine ⟨?_, ?_, ?_⟩)

theorem State.fireFirst_wf (s : State) (u : Nat) (h0 : memoriesWf s = true) :
    memoriesWf (State.fireFirst s u) = true := by
  unfold State.fireFirst
  try dsimp only
  repeat' with_reducible first
    | assumption | apply State.fireUnit_wf | split

theorem State.disarm_wf (s : State) (u : Nat) (h0 : memoriesWf s = true) :
    memoriesWf (State.disarm s u) = true := by
  unfold State.disarm
  try dsimp only
  repeat' with_reducible first
    | assumption | apply State.setTsu_wf | apply State.fireFirst_wf | apply wf_host | apply wf_bytes | apply wf_flash
    | (simp only [wf_mk]; refine ⟨?_, ?_, ?_⟩)

theorem State.timeHead_wf {s t : State} {kind : Nat} {w : Work} (he : s.timeHead kind = some (w, t)) (h0 : memoriesWf s = true) :
    memoriesWf t = true := by
  unfold State.timeHead at he
  split at he
  · simp only [reduceCtorEq] at he
  · rename_i h1
    split at he
    · simp only [Option.some.injEq, Prod.mk.injEq] at he
      obtain ⟨-, rfl⟩ := he
      exact State.fwHead_wf h1 h0
    · simp only [reduceCtorEq] at he

theorem State.arm_wf (s : State) (u target tparam start period count : Nat) (h0 : memoriesWf s = true) :
    memoriesWf (State.arm s u target tparam start period count) = true := by
  unfold State.arm
  try dsimp only
  repeat' with_reducible first
    | assumption | apply State.setTsu_wf | apply State.fireFirst_wf | apply wf_host | apply wf_bytes | apply wf_flash | split
    | (simp only [wf_mk]; refine ⟨?_, ?_, ?_⟩)

theorem State.setHolder_wf (s : State) (kind n : Nat) (r : Option (BitVec 12)) (h0 : memoriesWf s = true) :
    memoriesWf (State.setHolder s kind n r) = true := by
  unfold State.setHolder
  try dsimp only
  repeat' with_reducible first
    | assumption | apply wf_host | apply wf_bytes | apply wf_flash | (simp only [wf_mk]; refine ⟨?_, ?_, ?_⟩)

theorem State.freeUnit_wf (s : State) (kind n : Nat) (h0 : memoriesWf s = true) :
    memoriesWf (State.freeUnit s kind n) = true := by
  unfold State.freeUnit
  try dsimp only
  repeat' with_reducible first
    | assumption | apply State.setLine_wf | apply State.disarm_wf | apply wf_host | apply wf_bytes | apply wf_flash | split
    | (simp only [wf_mk]; refine ⟨?_, ?_, ?_⟩)

theorem State.drainRelease_wf (s : State) (h : Nat) (h0 : memoriesWf s = true) :
    memoriesWf (State.drainRelease s h) = true := by
  unfold State.drainRelease
  try dsimp only
  repeat' with_reducible first
    | assumption | apply State.setImage_wf | apply State.checkDrain_wf | apply State.requestDrain_wf | apply wf_host
    | apply wf_bytes | apply wf_flash | (simp only [wf_mk]; refine ⟨?_, ?_, ?_⟩)

theorem State.enterSweep_wf (s : State) (op : Nat) (h0 : memoriesWf s = true) :
    memoriesWf (State.enterSweep s op) = true := by
  unfold State.enterSweep
  try dsimp only
  repeat' with_reducible first
    | assumption | refine State.vatHead_wf (by assumption) ?_ | apply State.enterWork_wf | split

theorem State.startSweep_wf (s : State) (z : Sweep) (h0 : memoriesWf s = true) :
    memoriesWf (State.startSweep s z) = true := by
  unfold State.startSweep
  try dsimp only
  repeat' with_reducible first
    | assumption | apply wf_host | apply wf_bytes | apply wf_flash | split | (simp only [wf_mk]; refine ⟨?_, ?_, ?_⟩)

theorem State.modRun_wf (s : State) (f : Run → Run) (h0 : memoriesWf s = true) :
    memoriesWf (State.modRun s f) = true := by
  unfold State.modRun
  try dsimp only
  repeat' with_reducible first
    | assumption | apply wf_host | apply wf_bytes | apply wf_flash | (simp only [wf_mk]; refine ⟨?_, ?_, ?_⟩)

theorem State.setCache_wf (s : State) (q : Nat) (l : List (Nat × Bool)) (h0 : memoriesWf s = true) :
    memoriesWf (State.setCache s q l) = true := by
  unfold State.setCache
  try dsimp only
  repeat' with_reducible first
    | assumption | apply wf_host | apply wf_bytes | apply wf_flash | (simp only [wf_mk]; refine ⟨?_, ?_, ?_⟩)

theorem State.dirty_wf (s : State) (c : Nat) (b : List Byte) (cached : List (Nat × Bool)) (h0 : memoriesWf s = true) :
    memoriesWf (State.dirty s c b cached) = true := by
  unfold State.dirty
  try dsimp only
  repeat' with_reducible first
    | assumption | apply State.setCache_wf | apply wf_host | apply wf_bytes | apply wf_flash
    | (simp only [wf_mk]; refine ⟨?_, ?_, ?_⟩)

theorem State.reuse_wf (s : State) (c : Nat) (cached : List (Nat × Bool)) (h0 : memoriesWf s = true) :
    memoriesWf (State.reuse s c cached) = true := by
  unfold State.reuse
  try dsimp only
  repeat' with_reducible first
    | assumption | apply State.setCache_wf

theorem State.vatUnitFault_wf (s : State) (kind : BitVec 8) (loc : Nat) (h0 : memoriesWf s = true) :
    memoriesWf (State.vatUnitFault s kind loc) = true := by
  unfold State.vatUnitFault
  try dsimp only
  repeat' with_reducible first
    | assumption | apply State.faultRecord_wf | apply wf_host | apply wf_bytes | apply wf_flash
    | (simp only [wf_mk]; refine ⟨?_, ?_, ?_⟩)

theorem State.vatSlots_wf (s : State) (write : Bool) (c : Nat) (h0 : memoriesWf s = true) :
    memoriesWf (State.vatSlots s write c) = true := by
  unfold State.vatSlots
  try dsimp only
  repeat' with_reducible first
    | assumption | apply State.asks_wf

theorem State.readError_wf (s : State) (c : Nat) (h0 : memoriesWf s = true) :
    memoriesWf (State.readError s c) = true := by
  unfold State.readError
  try dsimp only
  repeat' with_reducible first
    | assumption | apply State.gddrWrite_wf | apply State.vatSlots_wf | apply wf_host | apply wf_bytes | apply wf_flash | split
    | (simp only [wf_mk]; refine ⟨?_, ?_, ?_⟩)

theorem State.vatHit_wf (s : State) (q : Nat) (h0 : memoriesWf s = true) :
    memoriesWf (State.vatHit s q) = true := by
  unfold State.vatHit
  try dsimp only
  repeat' with_reducible first
    | assumption | apply State.modRun_wf | apply wf_host | apply wf_bytes | apply wf_flash
    | (simp only [wf_mk]; refine ⟨?_, ?_, ?_⟩)

theorem State.runContext_wf (s : State) (i c : Nat) (b : List Byte) (cached : List (Nat × Bool)) (h0 : memoriesWf s = true) :
    memoriesWf (s.runContext i c b cached).2 = true := by
  unfold State.runContext
  have h1 := State.setCache_wf s (c % 4) cached h0
  dsimp only
  repeat' with_reducible first
    | assumption | split | apply State.reuse_wf | apply State.setCache_wf | apply State.asksAt_wf | apply State.modRun_wf
    | (simp only [wf_mk]; refine ⟨?_, ?_, ?_⟩) | (apply wf_host) | apply wf_bytes | apply wf_flash

theorem State.useContext_wf (s : State) (i c : Nat) (hit : Bool) (lost : Option Nat) (cached : List (Nat × Bool))
    (h0 : memoriesWf s = true) : memoriesWf (s.useContext i c hit lost cached).2 = true := by
  unfold State.useContext
  dsimp only
  repeat' with_reducible first
    | assumption | split | apply State.setCache_wf | apply State.dirty_wf | apply State.reuse_wf | apply State.asksAt_wf
    | apply State.vatSlots_wf | apply State.readError_wf | apply State.vatUnitFault_wf | apply State.runContext_wf
    | apply State.devWrite_wf | apply State.vatHit_wf

theorem State.fetchContext_wf {s t : State} {i n : Nat} {lost sel : Option Nat} (he : s.fetchContext i lost sel = some (n, t))
    (h0 : memoriesWf s = true) : memoriesWf t = true := by
  unfold State.fetchContext at he
  dsimp only at he
  repeat' (split at he)
  all_goals first
    | (simp only [reduceCtorEq] at he; done)
    | (simp only [Option.some.injEq, Prod.mk.injEq] at he
       obtain ⟨-, rfl⟩ := he
       first | exact h0 | exact State.modRun_wf _ _ h0)
    | (simp only [Option.map_eq_some_iff] at he
       obtain ⟨x, -, hx⟩ := he
       have ht := congrArg Prod.snd hx
       dsimp only at ht
       rw [← ht]
       apply State.useContext_wf
       exact State.modRun_wf _ _ h0)

theorem State.startBatch_wf (s : State) (q : Nat) (h0 : memoriesWf s = true) :
    memoriesWf (State.startBatch s q) = true := by
  unfold State.startBatch
  try dsimp only
  repeat' with_reducible first
    | assumption | apply State.modRun_wf | apply wf_host | apply wf_bytes | apply wf_flash | split
    | (simp only [wf_mk]; refine ⟨?_, ?_, ?_⟩)

theorem State.sendEntry_wf (s : State) (q : Nat) (h0 : memoriesWf s = true) :
    memoriesWf (State.sendEntry s q) = true := by
  unfold State.sendEntry
  try dsimp only
  repeat' with_reducible first
    | assumption | apply State.setCl_wf | apply State.modRun_wf | apply wf_host | apply wf_bytes | apply wf_flash | split
    | (apply wf_getD <;> intros) | (simp only [wf_mk]; refine ⟨?_, ?_, ?_⟩)

theorem State.rereadModels_wf (s : State) (h0 : memoriesWf s = true) :
    memoriesWf (State.rereadModels s) = true := by
  unfold State.rereadModels
  try dsimp only
  repeat' with_reducible first
    | assumption | apply State.modRun_wf | apply wf_host | apply wf_bytes | apply wf_flash | split
    | (simp only [wf_mk]; refine ⟨?_, ?_, ?_⟩)

theorem State.commitContext_wf (s : State) (x : Ctx) (es : List Entry) (h0 : memoriesWf s = true) :
    memoriesWf (State.commitContext s x es) = true := by
  unfold State.commitContext
  try dsimp only
  repeat' with_reducible first
    | assumption | apply State.vatWrite_wf | apply State.modRun_wf | apply State.dirty_wf | apply wf_host | apply wf_bytes
    | apply wf_flash | split | (simp only [wf_mk]; refine ⟨?_, ?_, ?_⟩)

theorem State.commitBatch_wf (s : State) (key per : Nat) (b : Batch) (h0 : memoriesWf s = true) :
    memoriesWf (State.commitBatch s key per b) = true := by
  unfold State.commitBatch
  try dsimp only
  repeat' with_reducible first
    | assumption | apply State.modRun_wf | apply State.commitContext_wf | apply wf_host | apply wf_bytes | apply wf_flash
    | (apply wf_fold <;> intros) | (simp only [wf_mk]; refine ⟨?_, ?_, ?_⟩)

theorem State.cutSweeps_wf (s0 : State) (h0 : memoriesWf s0 = true) :
    memoriesWf (State.cutSweeps s0) = true := by
  unfold State.cutSweeps
  try dsimp only
  repeat' with_reducible first
    | assumption | apply State.enterTaken_wf | apply State.endPending_wf | apply State.modRun_wf | apply wf_host
    | apply wf_bytes | apply wf_flash | split | (apply wf_fold <;> intros) | (simp only [wf_mk]; refine ⟨?_, ?_, ?_⟩)

theorem State.loseDirty_wf (s : State) (c entry : Nat) (h0 : memoriesWf s = true) :
    memoriesWf (State.loseDirty s c entry) = true := by
  unfold State.loseDirty
  try dsimp only
  repeat' with_reducible first
    | assumption | apply State.modRun_wf | apply State.vatUnitFault_wf | apply State.readError_wf | apply wf_host
    | apply wf_bytes | apply wf_flash | split | (simp only [wf_mk]; refine ⟨?_, ?_, ?_⟩)

theorem State.writeBack_wf (s : State) (c : Nat) (h0 : memoriesWf s = true) :
    memoriesWf (State.writeBack s c) = true := by
  unfold State.writeBack
  try dsimp only
  repeat' with_reducible first
    | assumption | apply State.gddrWrite_wf | apply State.vatSlots_wf | apply wf_host | apply wf_bytes | apply wf_flash
    | (simp only [wf_mk]; refine ⟨?_, ?_, ?_⟩)

theorem State.completeSweep_wf (s : State) (h0 : memoriesWf s = true) :
    memoriesWf (State.completeSweep s) = true := by
  unfold State.completeSweep
  try dsimp only
  repeat' with_reducible first
    | assumption | apply State.vatWrite_wf | apply State.endSweep_wf | apply wf_host | apply wf_bytes | apply wf_flash | split
    | (apply wf_fold <;> intros) | (simp only [wf_mk]; refine ⟨?_, ?_, ?_⟩)

theorem State.modPcx_wf (s : State) (f : PcxRegs → PcxRegs) (h0 : memoriesWf s = true) :
    memoriesWf (State.modPcx s f) = true := by
  unfold State.modPcx
  try dsimp only
  repeat' with_reducible first
    | assumption | apply wf_host | apply wf_bytes | apply wf_flash | (simp only [wf_mk]; refine ⟨?_, ?_, ?_⟩)

theorem State.bar4Unsupported_wf (s : State) (h0 : memoriesWf s = true) :
    memoriesWf (State.bar4Unsupported s) = true := by
  unfold State.bar4Unsupported
  try dsimp only
  repeat' with_reducible first
    | assumption | apply State.aerError_wf | apply State.modPcx_wf | apply wf_host | apply wf_bytes | apply wf_flash
    | (simp only [wf_mk]; refine ⟨?_, ?_, ?_⟩)

theorem State.sendPending_wf (s : State) (v : Nat) (h0 : memoriesWf s = true) :
    memoriesWf (State.sendPending s v) = true := by
  unfold State.sendPending
  try dsimp only
  repeat' with_reducible first
    | assumption | apply State.emit_wf | apply wf_host | apply wf_bytes | apply wf_flash | split
    | (simp only [wf_mk]; refine ⟨?_, ?_, ?_⟩)

theorem State.setMask_wf (s : State) (v : Nat) (m : Bool) (h0 : memoriesWf s = true) :
    memoriesWf (State.setMask s v m) = true := by
  unfold State.setMask
  try dsimp only
  repeat' with_reducible first
    | assumption | apply State.sendPending_wf | apply wf_host | apply wf_bytes | apply wf_flash
    | (simp only [wf_mk]; refine ⟨?_, ?_, ?_⟩)

theorem State.cutChannel_wf (s : State) (c : Nat) (h0 : memoriesWf s = true) :
    memoriesWf (State.cutChannel s c) = true := by
  unfold State.cutChannel
  try dsimp only
  repeat' with_reducible first
    | assumption | apply State.setChan_wf | apply State.copyError_wf | apply wf_host | apply wf_bytes | apply wf_flash
    | apply Mem.wf_filter | split | (simp only [wf_mk]; refine ⟨?_, ?_, ?_⟩)

theorem State.clearFor_wf (s : State) (r : Nat) (h0 : memoriesWf s = true) :
    memoriesWf (State.clearFor s r) = true := by
  unfold State.clearFor
  try dsimp only
  repeat' with_reducible first
    | assumption | apply State.clearAborted_wf | (apply wf_fold <;> intros)

theorem State.functionReset_wf (s : State) (h0 : memoriesWf s = true) :
    memoriesWf (State.functionReset s) = true := by
  unfold State.functionReset
  try dsimp only
  repeat' with_reducible first
    | assumption | apply State.cutSweeps_wf | apply State.cutChannel_wf | apply State.clearFor_wf | apply wf_host
    | apply wf_bytes | apply wf_flash | (apply wf_fold <;> intros) | (simp only [wf_mk]; refine ⟨?_, ?_, ?_⟩)

theorem State.setD3_wf (s : State) (on : Bool) (h0 : memoriesWf s = true) :
    memoriesWf (State.setD3 s on) = true := by
  unfold State.setD3
  try dsimp only
  repeat' with_reducible first
    | assumption | apply wf_host | apply wf_bytes | apply wf_flash | (simp only [wf_mk]; refine ⟨?_, ?_, ?_⟩)

end Sys2Proof.Machine
end

