-- ==== Sys2Proof/Machine/ConfigSpace.lean ====
section
/-!
DEFINITION. Configuration space of the PCI Express function (R451, R454, R456–R458, R461, R465, R470, R472). R457 gives where each
capability lies and some of its values; the registers inside a capability are those of the base specification (PRESUMED, log entry 8).
No row of the table is a configuration request, a read of BAR2, or an error of the link itself: `State.configRead`, `State.configWrite`,
`State.readBar2` and `LinkError.log` say what one does.
-/
namespace Sys2Proof.Machine

/-- The capabilities of R457: configuration offset, capability ID and version (0 for those in the first 256 bytes). -/
def capabilities : List (Nat × Nat × Nat) :=
  [(0x40, 0x01, 0), (0x50, 0x11, 0), (0x70, 0x10, 0), (0x100, 0x0001, 2), (0x148, 0x0019, 1), (0x178, 0x0025, 1), (0x188, 0x0026, 1),
   (0x1B8, 0x0027, 1), (0x200, 0x002A, 1), (0x230, 0x0031, 1), (0x260, 0x0015, 1), (0x270, 0x002E, 1), (0x288, 0x0003, 1)]

/-- The offset of the capability after the one at an offset, in the same list: 0 at the list's end. -/
def nextCapability (off : Nat) : Nat :=
  match capabilities.find? fun c => decide (off < c.1) && (decide (c.1 < 0x100) == decide (off < 0x100)) with
  | some c => c.1
  | none => 0

/-- The low 16 bits of a conventional capability's header, or all 32 of an extended one's: its ID, version and the next offset. -/
def capHeader (off id version : Nat) : Nat :=
  if off < 0x100 then id + 2 ^ 8 * nextCapability off else id + 2 ^ 16 * version + 2 ^ 20 * nextCapability off

/-- The registers of the header (R456, R458). -/
def State.headerReg (s : State) (off : Nat) : Nat :=
  let c := s.pcx.cfg
  match off with
  | 0x00 => 0xD0251F3D
  | 0x04 => 2 * bitN c.memEn + 4 * bitN c.busMaster + 0x100000
  | 0x08 => 0x12000000 + s.stepping.toNat
  | 0x10 => c.kept off / 2 ^ 28 * 2 ^ 28 + 4
  | 0x18 => c.kept off / 2 ^ 24 * 2 ^ 24 + 4
  | 0x20 => c.kept off / 2 ^ (30 + c.bar4Log.toNat) * 2 ^ (30 + c.bar4Log.toNat) + 12
  | 0x14 | 0x1C => c.kept off
  | 0x24 => c.kept off / 2 ^ (c.bar4Log.toNat - 2) * 2 ^ (c.bar4Log.toNat - 2)
  | 0x2C => c.sticky off
  | 0x34 => 0x40
  | 0x3C => c.kept off % 256
  | _ => 0

/-- The registers of the PCI Power Management, MSI-X and PCI Express capabilities past their headers (R451, R454, R457, R465, R472). -/
def State.capReg (s : State) (off : Nat) : Nat :=
  let c := s.pcx.cfg
  let r := s.pcx.regs
  match off with
  | 0x40 => 2 ^ 16 * 3
  | 0x44 => 8 + 3 * bitN c.d3hot
  | 0x50 => 2 ^ 16 * (4095 + 2 ^ 14 * bitN c.funcMask + 2 ^ 15 * bitN c.msixEn)
  | 0x54 => 0x00800000
  | 0x58 => 0x00810000
  | 0x70 => 2 ^ 16 * (2 + 2 ^ 15)
  | 0x74 => 2 + 2 ^ 5 + 2 ^ 15 + 2 ^ 28
  | 0x78 => c.kept off % 2 ^ 16 / 2 ^ 8 % 2 * 2 ^ 8 + c.kept off % 16 + 2 ^ 4 * bitN c.relaxed + 2 ^ 5 * c.mps.toNat +
      2 ^ 12 * c.mrrs.toNat
  | 0x7C => 6 + 2 ^ 4 * 16 + 2 ^ 10 * 2 + 2 ^ 15 * 3
  | 0x80 => bitsOf (c.kept off) 13 1 * 2 ^ 13 + c.kept off % 2 ^ 9 / 2 ^ 6 % 2 * 2 ^ 6 + c.kept off % 4 / 2 * 2 + 2 ^ 9 + 2 ^ 16 * (r.rate.toNat + 2 ^ 4 * r.width.toNat)
  | 0x94 => 0xF + 2 ^ 4 + 2 ^ 16 + 2 ^ 17
  | 0x98 => c.kept off % 32 + bitsOf (c.kept off) 12 1 * 2 ^ 12
  | 0x9C => 0x7E
  | 0xA0 => c.kept off % 16 + 2 ^ 5 + 2 ^ 26 * bitN r.flit
  | _ => 0

/-- The power states of the link (R451): L1 while the function is in D3hot, or under ASPM, whose times the model leaves out. -/
inductive LinkPower where
  | down | l0 | l1
  deriving DecidableEq, Repr

/-- The power state of the link (R451, R472). -/
def State.linkPower (s : State) : LinkPower := if !s.linkUp then .down else if s.pcx.cfg.d3hot then .l1 else .l0

/-- A word of Lane Margining at the Receiver (R451): whether the link runs at a rate that can be margined, then for each lane its command
and the answer to it, free but for No Command. -/
def State.marginReg (s : State) (off : Nat) : Nat :=
  let cmd := s.pcx.cfg.kept off % 2 ^ 16
  if off = 0x1BC then 2 ^ 16 * bitN (s.linkUp && decide (4 ≤ s.pcx.regs.rate.toNat))
  else cmd + 2 ^ 16 * (if cmd = 0x9C38 then cmd else (Config.marginStatus ((off - 0x1C0) / 4) cmd).toNat)

/-- The registers of the extended capabilities past their headers that the rules give a value (R457, R461, R467, R470, R650). -/
def State.extReg (s : State) (off : Nat) : Nat :=
  let c := s.pcx.cfg
  match off with
  | 0x104 => c.aer.toNat
  | 0x108 => c.sticky off
  | 0x10C => c.sticky off
  | 0x110 => c.aerCor.toNat
  | 0x114 => c.sticky off
  | 0x118 => c.aerFirst.toNat
  | 0x11C | 0x120 | 0x124 | 0x128 => bitsOf c.aerLog.toNat (8 * (off - 0x11C)) 32
  | 0x138 | 0x13C | 0x140 | 0x144 => bitsOf c.aerLog.toNat (128 + 8 * (off - 0x138)) 32
  | 0x264 => 2 ^ 14 * 255
  | 0x268 => 4 + 2 ^ 5 + 2 ^ 8 * (10 + c.bar4Log.toNat)
  | 0x27C => bitN s.pcx.doeBusy.isSome
  | 0x28C => s.sec.serial.toNat % 2 ^ 32
  | 0x290 => s.sec.serial.toNat / 2 ^ 32
  | _ => if 0x1BC ≤ off ∧ off < 0x200 then s.marginReg off else 0

/-- The DW of configuration space at an offset; every offset that holds nothing reads 0 (R457). -/
def State.configReg (s : State) (off : Nat) : Word :=
  let head := match capabilities.find? (·.1 == off) with
    | some k => capHeader k.1 k.2.1 k.2.2
    | none => 0
  BitVec.ofNat 32 (head + (if off < 0x40 then s.headerReg off else if off < 0x100 then s.capReg off else s.extReg off))

/-- A configuration read: none while the function answers Request Retry Status (R475). -/
def State.configRead (s : State) (off : BitVec 10) : Option Word := if s.configUp then some (s.configReg (4 * off.toNat)) else none

/-- Changes configuration space. -/
def State.modConfig (s : State) (f : Config_ → Config_) : State := { s with pcx := { s.pcx with cfg := f s.pcx.cfg } }

/-- Sends every MSI-X message that nothing holds any more (R466, R472). -/
def State.sendAllPending (s : State) : State := (s.pcx.msix.map (·.1)).foldl State.sendPending s

/-- Keeps a word that software wrote. -/
def Config_.keep (c : Config_) (off : Nat) (v : Word) : Config_ := { c with written := SMap.set 0 c.written off (v ^^^ configDefault off) }

/-- Keeps a word that survives a function reset. -/
def Config_.keepSticky (c : Config_) (off : Nat) (v : Word) : Config_ := { c with other := SMap.set 0 c.other off (v ^^^ configDefault off) }

/-- A write of Device Control (R451, R473): payloads above 512 B are not supported; bit 15 asks for a Function Level Reset. -/
def State.writeDevCtl (s : State) (v : Word) : State :=
  let n := v.toNat
  let s1 := s.modConfig fun c => { c.keep 0x78 v with
    relaxed := bitAt n 4, mrrs := BitVec.ofNat 3 (min 5 (bitsOf n 12 3)), mps := BitVec.ofNat 3 (min 2 (bitsOf n 5 3)) }
  if bitAt n 15 then s1.functionReset.modPcx fun r => { r with flr := satBump r.flr 1 } else s1

/-- A write of the PCI Power Management control: D0 or D3hot; D1 and D2 are not supported (R451, R472). -/
def State.writePower (s : State) (v : Word) : State :=
  match bitsOf v.toNat 0 2 with
  | 0 => if s.pcx.cfg.d3hot then (s.setD3 false).sendAllPending else s
  | 3 => s.setD3 true
  | _ => s

/-- A write of a whole DW of configuration space. RO fields and offsets that hold nothing ignore it (R457). -/
def State.writeConfigReg (s : State) (off : Nat) (v : Word) : State :=
  let n := v.toNat
  match off with
  | 0x04 => (s.modConfig fun c => { c with memEn := bitAt n 1, busMaster := bitAt n 2 }).sendAllPending
  | 0x10 | 0x14 | 0x18 | 0x1C | 0x20 | 0x24 | 0x3C | 0x80 | 0x98 | 0xA0 => s.modConfig (·.keep off v)
  | 0x44 => s.writePower v
  | 0x50 => (s.modConfig fun c => { c with funcMask := bitAt n 30, msixEn := bitAt n 31 }).sendAllPending
  | 0x78 => s.writeDevCtl v
  | 0x104 => s.modConfig fun c => { c with aer := c.aer &&& ~~~v }
  | 0x110 => s.modConfig fun c => { c with aerCor := c.aerCor &&& ~~~v }
  | 0x108 | 0x10C | 0x114 => s.modConfig (·.keepSticky off v)
  | 0x268 =>
    let k := bitsOf n 8 6
    if 10 ≤ k ∧ k ≤ 17 then s.modConfig fun c => { c with bar4Log := BitVec.ofNat 3 (k - 10) } else s
  | 0x278 => if bitAt n 0 then s.doeAbort else s
  | _ => if 0x1C0 ≤ off ∧ off < 0x200 then s.modConfig (·.keep off (v &&& 0xFFFF)) else s

/-- A configuration write of the bytes of a DW that `enables` names: the others keep what they read, but bits that a 1 clears stay. -/
def State.configWrite (s : State) (off : BitVec 10) (enables : BitVec 4) (v : Word) : State :=
  let a := 4 * off.toNat
  let m := BitVec.ofNat 32 (((List.range 4).map fun b => if enables.getLsbD b then 0xFF * 2 ^ (8 * b) else 0).sum)
  let old := if a = 0x104 ∨ a = 0x110 then 0 else s.configReg a
  if s.configUp then s.writeConfigReg a ((v &&& m) ||| (old &&& ~~~m)) else s

/-! ## Reads of BAR2 and errors of the link -/

/-- A read of BAR2 (R460): none while the function answers Unsupported Request (R464). -/
def State.readBar2 (s : State) (_off : BitVec 24) : Option (BitVec 64) := if s.barsUp then some 0 else none

/-- The errors that the link meets by itself (R467). -/
inductive LinkError where
  | receiver | badTlp | badDllp | replayTimeout | replayRollover | correctedInternal | unexpectedCompletion | malformed | flowControl
  | dataLink | overflow
  deriving DecidableEq, Repr

/-- What an error of the link does: its status bit, and nothing else (R467, R469). -/
def LinkError.log (e : LinkError) (s : State) : State :=
  match e with
  | .receiver => s.aerCorrected 0
  | .badTlp => s.aerCorrected 6
  | .badDllp => s.aerCorrected 7
  | .replayRollover => s.aerCorrected 8
  | .replayTimeout => s.aerCorrected 12
  | .correctedInternal => s.aerCorrected 14
  | .dataLink => s.aerError 4
  | .flowControl => s.aerError 13
  | .unexpectedCompletion => s.aerError 16
  | .overflow => s.aerError 17
  | .malformed => s.aerError 18

end Sys2Proof.Machine
end

