-- ==== Sys2Proof/Machine/Tap.lean ====
section
/-!
DEFINITION. The test access port (R719): IEEE 1149.1 as the rule names it, with the IDCODE of each stepping. No row of the table clocks
it: `State.tapClock` says what one TCK does. The opcodes but that of BYPASS, the length of the instruction register and the cells of the
boundary register are free values (log entry 96).
-/
namespace Sys2Proof.Machine

/-- The state of the port's controller after a TCK with TMS at a level (IEEE 1149.1). -/
def TapSt.next (t : TapSt) (tms : Bool) : TapSt :=
  match t, tms with
  | .reset, true => .reset
  | .reset, false => .idle
  | .idle, true => .selectDr
  | .idle, false => .idle
  | .selectDr, true => .selectIr
  | .selectDr, false => .captureDr
  | .captureDr, true => .exit1Dr
  | .captureDr, false => .shiftDr
  | .shiftDr, true => .exit1Dr
  | .shiftDr, false => .shiftDr
  | .exit1Dr, true => .updateDr
  | .exit1Dr, false => .pauseDr
  | .pauseDr, true => .exit2Dr
  | .pauseDr, false => .pauseDr
  | .exit2Dr, true => .updateDr
  | .exit2Dr, false => .shiftDr
  | .updateDr, true => .selectDr
  | .updateDr, false => .idle
  | .selectIr, true => .reset
  | .selectIr, false => .captureIr
  | .captureIr, true => .exit1Ir
  | .captureIr, false => .shiftIr
  | .shiftIr, true => .exit1Ir
  | .shiftIr, false => .shiftIr
  | .exit1Ir, true => .updateIr
  | .exit1Ir, false => .pauseIr
  | .pauseIr, true => .exit2Ir
  | .pauseIr, false => .pauseIr
  | .exit2Ir, true => .updateIr
  | .exit2Ir, false => .shiftIr
  | .updateIr, true => .selectDr
  | .updateIr, false => .idle

/-- The IDCODE of the stepping (R719). -/
def State.idcode (s : State) : Word := if s.stepA1 then 0x1D0259CF else 0x2D0259CF

/-- Whether the port answers an instruction: in Dead IDCODE and BYPASS only, and debug only where the fuses leave it open (R656, R719). -/
def State.tapAnswers (s : State) (i : TapInstr) : Bool :=
  match i with
  | .idcode | .bypass => true
  | .scan => s.bru.stage != .dead
  | .debug => s.bru.stage != .dead && s.sec.fuses.jtag == 0

/-- The instruction that the bits shifted in name: all ones name BYPASS, and so does whatever the port does not answer. -/
def State.tapNamed (s : State) (ir : List Bool) : TapInstr :=
  let i : TapInstr := if ir.all id then .bypass else match Config.tapOpcode ir with
    | 0 => .idcode
    | 1 => .scan
    | 2 => .debug
    | _ => .bypass
  if s.tapAnswers i then i else .bypass

/-- The instruction in force: one loaded before the device entered Dead may answer no more. -/
def State.tapInstr (s : State) : TapInstr := if s.tapAnswers s.sec.tap.instr then s.sec.tap.instr else .bypass

/-- What the data register of the instruction captures, bit 0 first: the IDCODE, the single 0 of BYPASS, or free values of the boundary
register and of debug registers. -/
def State.tapCapture (s : State) : List Bool :=
  match s.tapInstr with
  | .idcode => (List.range 32).map s.idcode.getLsbD
  | .bypass => [false]
  | .scan => (List.range (Config.boundaryLength + 1)).map fun k => (Config.freeByte s.free k).getLsbD 0
  | .debug => [(Config.freeByte s.free 0).getLsbD 0]

/-- What the instruction register captures: its two low bits are 01. -/
def State.tapCaptureIr (s : State) : List Bool :=
  true :: false :: (List.range Config.tapLength).map fun k => (Config.freeByte s.free k).getLsbD 0

/-- One TCK: what the controller's state does with TDI, and its next state (IEEE 1149.1). -/
def State.tapClock (s : State) (tms tdi : Bool) : State :=
  let t := s.sec.tap
  let u : Tap := match t.st with
    | .reset => { t with instr := .idcode }
    | .captureDr => { t with shift := s.tapCapture }
    | .captureIr => { t with shift := s.tapCaptureIr }
    | .shiftDr | .shiftIr => { t with shift := t.shift.tail ++ [tdi] }
    | .updateIr => { t with instr := s.tapNamed t.shift }
    | _ => t
  { s with sec := { s.sec with tap := { u with st := t.st.next tms } }, free := s.free + 1 }

/-- TDO while data or an instruction is shifted. -/
def State.tapOut (s : State) : Option Bool :=
  match s.sec.tap.st with
  | .shiftDr | .shiftIr => s.sec.tap.shift.head?
  | _ => none

end Sys2Proof.Machine
end

