-- ==== Sys2Proof/Laws/MemoriesSystem.lean ====
section
/-!
SUPPORT. Every shared operation keeps the memories in their canonical form: boot, power, Dandy, Xomos and the registers.
-/
namespace Sys2Proof.Machine

theorem wf_flashWrite (m : Mem) (a : Nat) (bs : List Byte) (h : Mem.wf 0xFF m = true) : Mem.wf 0xFF (flashWrite m a bs) = true := by
  induction bs generalizing m a with
  | nil => exact h
  | cons b bs ih => exact ih _ _ (SMap.wf_set 0xFF m a b h)

theorem State.writePointer_wf (s : State) (p : Pointer) (copy : Nat) (h0 : memoriesWf s = true) :
    memoriesWf (s.writePointer p copy) = true := by
  unfold State.writePointer
  simp only [wf_mk]
  exact ⟨wf_host h0, wf_bytes h0, wf_flashWrite _ _ _ (wf_flash h0)⟩

theorem State.updateDone_wf (s : State) (st : BitVec 2) (code : Nat) (h0 : memoriesWf s = true) :
    memoriesWf (State.updateDone s st code) = true := by
  unfold State.updateDone
  try dsimp only
  repeat' with_reducible first
    | assumption | apply wf_host | apply wf_bytes | apply wf_flash | (simp only [wf_mk]; refine ⟨?_, ?_, ?_⟩)

theorem State.updateGo_wf (s : State) (h0 : memoriesWf s = true) : memoriesWf s.updateGo = true := by
  unfold State.updateGo
  dsimp only
  repeat' with_reducible first
    | assumption | split | apply State.asks_wf | apply State.updateDone_wf | apply State.writePointer_wf
    | (simp only [wf_mk]; refine ⟨?_, ?_, ?_⟩) | apply wf_flashWrite | apply wf_host | apply wf_bytes | apply wf_flash

theorem State.stage_wf (s : State) (a n : Nat) (h0 : memoriesWf s = true) : memoriesWf (s.stage a n) = true := by
  unfold State.stage
  dsimp only
  repeat' with_reducible first
    | assumption | split | apply State.asks_wf | apply State.updateDone_wf | apply State.writePointer_wf
    | (simp only [wf_mk]; refine ⟨?_, ?_, ?_⟩) | apply wf_flashWrite | apply wf_host | apply wf_bytes | apply wf_flash

theorem State.setSpdm_wf (s : State) (smbus : Bool) (c : Spdm) (h0 : memoriesWf s = true) :
    memoriesWf (State.setSpdm s smbus c) = true := by
  unfold State.setSpdm
  try dsimp only
  repeat' with_reducible first
    | assumption | apply wf_host | apply wf_bytes | apply wf_flash | split | (simp only [wf_mk]; refine ⟨?_, ?_, ?_⟩)

theorem State.doeAnswer_wf (s : State) (type : Nat) (b : List Byte) (h0 : memoriesWf s = true) :
    memoriesWf (State.doeAnswer s type b) = true := by
  unfold State.doeAnswer
  try dsimp only
  repeat' with_reducible first
    | assumption | apply State.emit_wf | apply State.modPcx_wf | apply wf_host | apply wf_bytes | apply wf_flash
    | (simp only [wf_mk]; refine ⟨?_, ?_, ?_⟩)

theorem State.spdmSend_wf (s : State) (smbus : Bool) (b : List Byte) (h0 : memoriesWf s = true) :
    memoriesWf (State.spdmSend s smbus b) = true := by
  unfold State.spdmSend
  try dsimp only
  repeat' with_reducible first
    | assumption | apply State.emit_wf | apply State.doeAnswer_wf | split

theorem State.spdmReply_wf (s : State) (q : SpdmReq) (size : Nat) (far : Bool) (f : State → State × List Byte)
    (hf : memoriesWf (f s).1 = true) (h0 : memoriesWf s = true) : memoriesWf (s.spdmReply q size far f) = true := by
  unfold State.spdmReply
  dsimp only
  repeat' (with_reducible first | assumption | split | apply State.spdmSend_wf)

theorem State.answerVersion_wf (s : State) (q : SpdmReq) (h0 : memoriesWf s = true) :
    memoriesWf (State.answerVersion s q) = true := by
  unfold State.answerVersion
  try dsimp only
  repeat' with_reducible first
    | assumption | apply State.setSpdm_wf | apply State.spdmSend_wf | apply wf_host | apply wf_bytes | apply wf_flash | split
    | (simp only [wf_mk]; refine ⟨?_, ?_, ?_⟩)

theorem State.answerCapabilities_wf (s : State) (q : SpdmReq) (h0 : memoriesWf s = true) :
    memoriesWf (State.answerCapabilities s q) = true := by
  unfold State.answerCapabilities
  try dsimp only
  repeat' with_reducible first
    | assumption | apply State.setSpdm_wf | apply State.spdmReply_wf | apply wf_host | apply wf_bytes | apply wf_flash
    | (simp only [wf_mk]; refine ⟨?_, ?_, ?_⟩)

theorem State.answerAlgorithms_wf (s : State) (q : SpdmReq) (h0 : memoriesWf s = true) :
    memoriesWf (State.answerAlgorithms s q) = true := by
  unfold State.answerAlgorithms
  try dsimp only
  repeat' with_reducible first
    | assumption | apply State.setSpdm_wf | apply State.spdmReply_wf | apply wf_host | apply wf_bytes | apply wf_flash | split
    | (simp only [wf_mk]; refine ⟨?_, ?_, ?_⟩)

theorem State.answerDigests_wf (s : State) (q : SpdmReq) (h0 : memoriesWf s = true) :
    memoriesWf (State.answerDigests s q) = true := by
  unfold State.answerDigests
  try dsimp only
  repeat' with_reducible first
    | assumption | apply State.setSpdm_wf | apply State.spdmReply_wf | apply wf_host | apply wf_bytes | apply wf_flash
    | (simp only [wf_mk]; refine ⟨?_, ?_, ?_⟩)

theorem State.answerCertificate_wf (s : State) (q : SpdmReq) (h0 : memoriesWf s = true) :
    memoriesWf (State.answerCertificate s q) = true := by
  unfold State.answerCertificate
  try dsimp only
  repeat' with_reducible first
    | assumption | apply State.setSpdm_wf | apply State.spdmReply_wf | apply wf_host | apply wf_bytes | apply wf_flash | split
    | (simp only [wf_mk]; refine ⟨?_, ?_, ?_⟩)

theorem State.freeNonce_wf (s : State) (h0 : memoriesWf s = true) : memoriesWf s.freeNonce.2 = true := by
  unfold State.freeNonce
  simp only [wf_mk]
  exact ⟨wf_host h0, wf_bytes h0, wf_flash h0⟩

theorem State.answerChallenge_wf (s : State) (q : SpdmReq) (h0 : memoriesWf s = true) :
    memoriesWf (State.answerChallenge s q) = true := by
  unfold State.answerChallenge
  try dsimp only
  repeat' with_reducible first
    | assumption | apply State.setSpdm_wf | apply State.spdmReply_wf | apply State.freeNonce_wf | apply wf_host | apply wf_bytes
    | apply wf_flash | split | (simp only [wf_mk]; refine ⟨?_, ?_, ?_⟩)

theorem State.answerMeasurements_wf (s : State) (q : SpdmReq) (h0 : memoriesWf s = true) :
    memoriesWf (State.answerMeasurements s q) = true := by
  unfold State.answerMeasurements
  try dsimp only
  repeat' with_reducible first
    | assumption | apply State.setSpdm_wf | apply State.spdmReply_wf | apply State.freeNonce_wf | apply wf_host | apply wf_bytes
    | apply wf_flash | split | (simp only [wf_mk]; refine ⟨?_, ?_, ?_⟩)

theorem State.spdmServe_wf (s : State) (q : SpdmReq) (h0 : memoriesWf s = true) :
    memoriesWf (State.spdmServe s q) = true := by
  unfold State.spdmServe
  try dsimp only
  repeat' with_reducible first
    | assumption | apply State.answerVersion_wf | apply State.answerCapabilities_wf | apply State.answerAlgorithms_wf
    | apply State.answerDigests_wf | apply State.answerCertificate_wf | apply State.answerChallenge_wf
    | apply State.answerMeasurements_wf | split

theorem State.spdmBefore_wf (s : State) (q : SpdmReq) (h0 : memoriesWf s = true) :
    memoriesWf (State.spdmBefore s q) = true := by
  unfold State.spdmBefore
  try dsimp only
  repeat' with_reducible first
    | assumption | apply State.spdmServe_wf | apply wf_host | apply wf_bytes | apply wf_flash | split
    | (simp only [wf_mk]; refine ⟨?_, ?_, ?_⟩)

theorem State.spdmTake_wf (s : State) (q : SpdmReq) (code : Nat) (h0 : memoriesWf s = true) :
    memoriesWf (State.spdmTake s q code) = true := by
  unfold State.spdmTake
  try dsimp only
  repeat' with_reducible first
    | assumption | apply State.spdmServe_wf | apply State.spdmBefore_wf | split

theorem State.doeAbort_wf (s : State) (h0 : memoriesWf s = true) :
    memoriesWf (State.doeAbort s) = true := by
  unfold State.doeAbort
  try dsimp only
  repeat' with_reducible first
    | assumption | apply State.modPcx_wf | apply wf_host | apply wf_bytes | apply wf_flash
    | (simp only [wf_mk]; refine ⟨?_, ?_, ?_⟩)

theorem State.modConfig_wf (s : State) (f : Config_ → Config_) (h0 : memoriesWf s = true) :
    memoriesWf (State.modConfig s f) = true := by
  unfold State.modConfig
  try dsimp only
  repeat' with_reducible first
    | assumption | apply wf_host | apply wf_bytes | apply wf_flash | (simp only [wf_mk]; refine ⟨?_, ?_, ?_⟩)

theorem State.sendAllPending_wf (s : State) (h0 : memoriesWf s = true) :
    memoriesWf (State.sendAllPending s) = true := by
  unfold State.sendAllPending
  try dsimp only
  repeat' with_reducible first
    | assumption | apply State.sendPending_wf | (apply wf_fold <;> intros)

theorem State.writeDevCtl_wf (s : State) (v : Word) (h0 : memoriesWf s = true) :
    memoriesWf (State.writeDevCtl s v) = true := by
  unfold State.writeDevCtl
  try dsimp only
  repeat' with_reducible first
    | assumption | apply State.modPcx_wf | apply State.functionReset_wf | apply State.modConfig_wf | apply wf_host
    | apply wf_bytes | apply wf_flash | split | (simp only [wf_mk]; refine ⟨?_, ?_, ?_⟩)

theorem State.writePower_wf (s : State) (v : Word) (h0 : memoriesWf s = true) :
    memoriesWf (State.writePower s v) = true := by
  unfold State.writePower
  try dsimp only
  repeat' with_reducible first
    | assumption | apply State.setD3_wf | apply State.sendAllPending_wf | split

theorem State.writeConfigReg_wf (s : State) (off : Nat) (v : Word) (h0 : memoriesWf s = true) :
    memoriesWf (State.writeConfigReg s off v) = true := by
  unfold State.writeConfigReg
  try dsimp only
  repeat' with_reducible first
    | assumption | apply State.doeAbort_wf | apply State.modConfig_wf | apply State.sendAllPending_wf
    | apply State.writeDevCtl_wf | apply State.writePower_wf | apply wf_host | apply wf_bytes | apply wf_flash | split
    | (simp only [wf_mk]; refine ⟨?_, ?_, ?_⟩)

theorem State.configWrite_wf (s : State) (off : BitVec 10) (enables : BitVec 4) (v : Word) (h0 : memoriesWf s = true) :
    memoriesWf (State.configWrite s off enables v) = true := by
  unfold State.configWrite
  try dsimp only
  repeat' with_reducible first
    | assumption | apply State.writeConfigReg_wf | split

theorem wf_LinkError_log (e : LinkError) (s : State) (h0 : memoriesWf s = true) :
    memoriesWf (LinkError.log e s) = true := by
  unfold LinkError.log
  try dsimp only
  repeat' with_reducible first
    | assumption | apply State.aerError_wf | apply State.aerCorrected_wf | split

theorem State.tapClock_wf (s : State) (tms tdi : Bool) (h0 : memoriesWf s = true) :
    memoriesWf (State.tapClock s tms tdi) = true := by
  unfold State.tapClock
  try dsimp only
  repeat' with_reducible first
    | assumption | apply State.reset_wf | apply wf_host | apply wf_bytes | apply wf_flash | split
    | (simp only [wf_mk]; refine ⟨?_, ?_, ?_⟩)

theorem wf_reset : memoriesWf State.reset = true := rfl

theorem State.afterReset_wf (s : State) (device : Bool) (cause : BitVec 4) (h0 : memoriesWf s = true) :
    memoriesWf (s.afterReset device cause) = true := by
  unfold State.afterReset
  simp only [wf_mk]
  exact ⟨wf_host h0, wf_bytes wf_reset, wf_flash h0⟩

theorem State.enterDead_wf (s : State) (check part code : Nat) (h0 : memoriesWf s = true) :
    memoriesWf (State.enterDead s check part code) = true := by
  unfold State.enterDead
  try dsimp only
  repeat' with_reducible first
    | assumption | apply wf_host | apply wf_bytes | apply wf_flash | (simp only [wf_mk]; refine ⟨?_, ?_, ?_⟩)

theorem State.noteSet_wf (s : State) (n : Nat) (h0 : memoriesWf s = true) :
    memoriesWf (State.noteSet s n) = true := by
  unfold State.noteSet
  try dsimp only
  repeat' with_reducible first
    | assumption | apply wf_host | apply wf_bytes | apply wf_flash | (simp only [wf_mk]; refine ⟨?_, ?_, ?_⟩)

theorem State.applyManifest_wf (s : State) (h0 : memoriesWf s = true) :
    memoriesWf (State.applyManifest s) = true := by
  unfold State.applyManifest
  try dsimp only
  repeat' with_reducible first
    | assumption | apply wf_host | apply wf_bytes | apply wf_flash | (apply wf_fold <;> intros)
    | (simp only [wf_mk]; refine ⟨?_, ?_, ?_⟩)

theorem State.startSet_wf (s : State) (n : Nat) (h0 : memoriesWf s = true) :
    memoriesWf (State.startSet s n) = true := by
  unfold State.startSet
  try dsimp only
  repeat' with_reducible first
    | assumption | apply State.noteSet_wf | apply State.applyManifest_wf | apply wf_host | apply wf_bytes | apply wf_flash
    | (simp only [wf_mk]; refine ⟨?_, ?_, ?_⟩)

theorem State.tryActive_wf (s : State) (n : Nat) (h0 : memoriesWf s = true) :
    memoriesWf (State.tryActive s n) = true := by
  unfold State.tryActive
  try dsimp only
  repeat' with_reducible first
    | assumption | apply State.enterDead_wf | apply State.noteSet_wf | apply State.startSet_wf | split

theorem State.romStage_wf (s : State) (h0 : memoriesWf s = true) : memoriesWf s.romStage = true := by
  have h1 : memoriesWf ({ s with bru := { s.bru with stage := .rom }, sec := { s.sec with serial := s.deviceSerial } } : State) = true := by
    simp only [wf_mk]; exact ⟨wf_host h0, wf_bytes h0, wf_flash h0⟩
  unfold State.romStage
  generalize ({ s with bru := { s.bru with stage := .rom }, sec := { s.sec with serial := s.deviceSerial } } : State) = u at h1 ⊢
  have h2 : memoriesWf ({ u with bru := { u.bru with pendingSet := true } } : State) = true := by
    simp only [wf_mk]; exact ⟨wf_host h1, wf_bytes h1, wf_flash h1⟩
  dsimp only
  repeat' with_reducible first
    | assumption | split | apply State.enterDead_wf | apply State.noteSet_wf | apply State.tryActive_wf
    | apply State.startSet_wf | apply State.writePointer_wf

theorem State.off_wf (s : State) (h0 : memoriesWf s = true) :
    memoriesWf (State.off s) = true := by
  unfold State.off
  try dsimp only
  repeat' with_reducible first
    | assumption | apply State.afterReset_wf | apply wf_host | apply wf_bytes | apply wf_flash
    | (simp only [wf_mk]; refine ⟨?_, ?_, ?_⟩)

theorem State.writeSwrst_wf (s : State) (v : Word) (h0 : memoriesWf s = true) :
    memoriesWf (State.writeSwrst s v) = true := by
  unfold State.writeSwrst
  try dsimp only
  repeat' with_reducible first
    | assumption | apply State.afterReset_wf | apply State.romStage_wf | apply wf_host | apply wf_bytes | apply wf_flash | split
    | (simp only [wf_mk]; refine ⟨?_, ?_, ?_⟩)

theorem State.foundFault_wf (s : State) (kind : BitVec 8) (loc : BitVec 32) (h0 : memoriesWf s = true) :
    memoriesWf (State.foundFault s kind loc) = true := by
  unfold State.foundFault
  try dsimp only
  repeat' with_reducible first
    | assumption | apply State.noteRepair_wf | split

theorem State.repairBridges_wf (s : State) (h0 : memoriesWf s = true) :
    memoriesWf (State.repairBridges s) = true := by
  unfold State.repairBridges
  try dsimp only
  repeat' with_reducible first
    | assumption | apply State.setBridge_wf | apply wf_host | apply wf_bytes | apply wf_flash | (apply wf_fold <;> intros)
    | (simp only [wf_mk]; refine ⟨?_, ?_, ?_⟩)

theorem State.enableGroup_wf (s : State) (g : Nat) (h0 : memoriesWf s = true) :
    memoriesWf (State.enableGroup s g) = true := by
  unfold State.enableGroup
  try dsimp only
  repeat' with_reducible first
    | assumption | apply State.toDetect_wf | apply wf_host | apply wf_bytes | apply wf_flash | split
    | (apply wf_fold <;> intros) | (simp only [wf_mk]; refine ⟨?_, ?_, ?_⟩)

theorem State.fuseCore_wf (s : State) (k : Nat) (h0 : memoriesWf s = true) :
    memoriesWf (State.fuseCore s k) = true := by
  unfold State.fuseCore
  try dsimp only
  repeat' with_reducible first
    | assumption | apply State.setCore_wf | apply State.giveRole_wf | split | (apply wf_fold <;> intros)

theorem State.startQuarter_wf (s : State) (e : Nat) (h0 : memoriesWf s = true) :
    memoriesWf (State.startQuarter s e) = true := by
  unfold State.startQuarter
  try dsimp only
  repeat' with_reducible first
    | assumption | apply State.setQuarter_wf | apply wf_host | apply wf_bytes | apply wf_flash
    | (simp only [wf_mk]; refine ⟨?_, ?_, ?_⟩)

theorem State.positionLost_wf (s : State) (e m : Nat) (found : Bool) (h0 : memoriesWf s = true) :
    memoriesWf (State.positionLost s e m found) = true := by
  unfold State.positionLost
  try dsimp only
  repeat' with_reducible first
    | assumption | apply State.setQuarter_wf | apply State.faultRecord_wf | apply State.withdraw_wf | apply State.foundFault_wf
    | apply wf_host | apply wf_bytes | apply wf_flash | split | (simp only [wf_mk]; refine ⟨?_, ?_, ?_⟩)

theorem State.testQuarter_wf (s : State) (e : Nat) (fail : BitVec 12) (h0 : memoriesWf s = true) :
    memoriesWf (State.testQuarter s e fail) = true := by
  unfold State.testQuarter
  try dsimp only
  repeat' with_reducible first
    | assumption | apply State.gddrClear_wf | apply State.startQuarter_wf | apply State.positionLost_wf
    | (apply wf_fold <;> intros)

theorem State.placeContexts_wf (s : State) (h0 : memoriesWf s = true) :
    memoriesWf (State.placeContexts s) = true := by
  unfold State.placeContexts
  try dsimp only
  repeat' with_reducible first
    | assumption | apply State.setRegion_wf | apply State.loseContexts_wf | apply wf_host | apply wf_bytes | apply wf_flash
    | split | (apply wf_fold <;> intros) | (simp only [wf_mk]; refine ⟨?_, ?_, ?_⟩)

theorem State.edgesUp_wf (s : State) (h0 : memoriesWf s = true) :
    memoriesWf (State.edgesUp s) = true := by
  unfold State.edgesUp
  try dsimp only
  repeat' with_reducible first
    | assumption | apply State.repairBridges_wf | apply State.placeContexts_wf | apply wf_host | apply wf_bytes | apply wf_flash
    | (simp only [wf_mk]; refine ⟨?_, ?_, ?_⟩)

theorem State.fenceAtStart_wf (s : State) (c cause : Nat) (h0 : memoriesWf s = true) :
    memoriesWf (State.fenceAtStart s c cause) = true := by
  unfold State.fenceAtStart
  try dsimp only
  repeat' with_reducible first
    | assumption | apply State.faultRecord_wf | apply State.takeOut_wf | apply State.foundFault_wf | apply wf_host
    | apply wf_bytes | apply wf_flash | split | (simp only [wf_mk]; refine ⟨?_, ?_, ?_⟩)

theorem State.fenceFused_wf (s : State) (k : Nat) (h0 : memoriesWf s = true) :
    memoriesWf (State.fenceFused s k) = true := by
  unfold State.fenceFused
  try dsimp only
  repeat' with_reducible first
    | assumption | apply State.takeOut_wf | (apply wf_fold <;> intros)

theorem State.startPlls_wf (s : State) (k fails : Nat) (h0 : memoriesWf s = true) :
    memoriesWf (State.startPlls s k fails) = true := by
  unfold State.startPlls
  try dsimp only
  repeat' with_reducible first
    | assumption | apply State.faultRecord_wf | apply State.noteRepair_wf | apply State.setDie_wf | apply wf_host
    | apply wf_bytes | apply wf_flash | split | (simp only [wf_mk]; refine ⟨?_, ?_, ?_⟩)

theorem State.mapSpares_wf (s : State) (h0 : memoriesWf s = true) :
    memoriesWf (State.mapSpares s) = true := by
  unfold State.mapSpares
  try dsimp only
  repeat' with_reducible first
    | assumption | apply State.setCl_wf | apply State.setService_wf | apply wf_host | apply wf_bytes | apply wf_flash | split
    | (apply wf_fold <;> intros) | (simp only [wf_mk]; refine ⟨?_, ?_, ?_⟩)

theorem State.dieDone_wf (s : State) (k : Nat) (passed : Bool) (h0 : memoriesWf s = true) :
    memoriesWf (State.dieDone s k passed) = true := by
  unfold State.dieDone
  try dsimp only
  repeat' with_reducible first
    | assumption | apply State.mapSpares_wf | apply wf_host | apply wf_bytes | apply wf_flash | split
    | (simp only [wf_mk]; refine ⟨?_, ?_, ?_⟩)

theorem State.blowFuses_wf (s : State) (h0 : memoriesWf s = true) :
    memoriesWf (State.blowFuses s) = true := by
  unfold State.blowFuses
  try dsimp only
  repeat' with_reducible first
    | assumption | apply wf_host | apply wf_bytes | apply wf_flash | split | (simp only [wf_mk]; refine ⟨?_, ?_, ?_⟩)

theorem State.setUnowned_wf (s : State) (v : CState) (h0 : memoriesWf s = true) :
    memoriesWf (State.setUnowned s v) = true := by
  unfold State.setUnowned
  try dsimp only
  repeat' with_reducible first
    | assumption | apply State.setCl_wf | apply wf_host | apply wf_bytes | apply wf_flash | (apply wf_fold <;> intros)
    | (simp only [wf_mk]; refine ⟨?_, ?_, ?_⟩)

theorem State.writeTrim_wf (s : State) (on : Bool) (h0 : memoriesWf s = true) :
    memoriesWf (State.writeTrim s on) = true := by
  unfold State.writeTrim
  try dsimp only
  repeat' with_reducible first
    | assumption | apply State.off_wf | apply State.setUnowned_wf | apply wf_host | apply wf_bytes | apply wf_flash | split
    | (simp only [wf_mk]; refine ⟨?_, ?_, ?_⟩)

theorem State.writeCap_wf (s : State) (v : Word) (h0 : memoriesWf s = true) :
    memoriesWf (State.writeCap s v) = true := by
  unfold State.writeCap
  try dsimp only
  repeat' with_reducible first
    | assumption | apply wf_host | apply wf_bytes | apply wf_flash | (simp only [wf_mk]; refine ⟨?_, ?_, ?_⟩)

theorem State.reportTemps_wf (s : State) (temps : Vector (BitVec 8) 25) (h0 : memoriesWf s = true) :
    memoriesWf (State.reportTemps s temps) = true := by
  unfold State.reportTemps
  try dsimp only
  repeat' with_reducible first
    | assumption | apply wf_host | apply wf_bytes | apply wf_flash | (apply wf_fold <;> intros) | (apply wf_getD <;> intros)
    | (simp only [wf_mk]; refine ⟨?_, ?_, ?_⟩)

theorem State.readTemps_wf (s : State) (temps : List (Fin 25 × BitVec 8)) (h0 : memoriesWf s = true) :
    memoriesWf (State.readTemps s temps) = true := by
  unfold State.readTemps
  try dsimp only
  repeat' with_reducible first
    | assumption | apply wf_host | apply wf_bytes | apply wf_flash | (apply wf_fold <;> intros)
    | (simp only [wf_mk]; refine ⟨?_, ?_, ?_⟩)

theorem State.postThrottle_wf (s : State) (h0 : memoriesWf s = true) :
    memoriesWf (State.postThrottle s) = true := by
  unfold State.postThrottle
  try dsimp only
  repeat' with_reducible first
    | assumption | apply State.postEvent_wf | apply wf_host | apply wf_bytes | apply wf_flash | split
    | (simp only [wf_mk]; refine ⟨?_, ?_, ?_⟩)

theorem State.postCapUnmet_wf (s : State) (h0 : memoriesWf s = true) :
    memoriesWf (State.postCapUnmet s) = true := by
  unfold State.postCapUnmet
  try dsimp only
  repeat' with_reducible first
    | assumption | apply State.postEvent_wf | apply wf_host | apply wf_bytes | apply wf_flash | split
    | (simp only [wf_mk]; refine ⟨?_, ?_, ?_⟩)

theorem State.thermalEvent_wf (s : State) (die : Nat) (start : Bool) (tj : BitVec 8) (h0 : memoriesWf s = true) :
    memoriesWf (State.thermalEvent s die start tj) = true := by
  unfold State.thermalEvent
  try dsimp only
  repeat' with_reducible first
    | assumption | apply State.postEvent_wf

theorem State.setGpio_wf (s : State) (n : Nat) (g : Gpio) (h0 : memoriesWf s = true) :
    memoriesWf (State.setGpio s n g) = true := by
  unfold State.setGpio
  try dsimp only
  repeat' with_reducible first
    | assumption | apply wf_host | apply wf_bytes | apply wf_flash | (simp only [wf_mk]; refine ⟨?_, ?_, ?_⟩)

theorem State.writeGpio_wf (s : State) (n : Nat) (v : Word) (h0 : memoriesWf s = true) :
    memoriesWf (State.writeGpio s n v) = true := by
  unfold State.writeGpio
  try dsimp only
  repeat' with_reducible first
    | assumption | apply State.setGpio_wf | apply wf_host | apply wf_bytes | apply wf_flash | split
    | (simp only [wf_mk]; refine ⟨?_, ?_, ?_⟩)

theorem State.loadDandy_wf (s : State) (l : Loaded) (h0 : memoriesWf s = true) :
    memoriesWf (State.loadDandy s l) = true := by
  unfold State.loadDandy
  try dsimp only
  repeat' with_reducible first
    | assumption | apply State.setCl_wf | apply wf_host | apply wf_bytes | apply wf_flash | split
    | (simp only [wf_mk]; refine ⟨?_, ?_, ?_⟩)

theorem State.asleep_wf (s : State) (h0 : memoriesWf s = true) : memoriesWf s.asleep = true := by
  have h1 : memoriesWf ({ s with enables := 0 } : State) = true := by
    simp only [wf_mk]; exact ⟨wf_host h0, wf_bytes h0, wf_flash h0⟩
  unfold State.asleep
  simp only [wf_mk]
  exact ⟨wf_host (State.afterReset_wf _ true 0 h1), wf_bytes h0, wf_flash h0⟩

theorem State.enterWatch_wf (s : State) (h0 : memoriesWf s = true) :
    memoriesWf (State.enterWatch s) = true := by
  unfold State.enterWatch
  try dsimp only
  repeat' with_reducible first
    | assumption | apply State.takeFree_wf | apply State.loadDandy_wf | apply State.asleep_wf
    | apply wf_host | apply wf_bytes | apply wf_flash | split | (simp only [wf_mk]; refine ⟨?_, ?_, ?_⟩)

theorem State.requestWatch_wf (s : State) (h0 : memoriesWf s = true) :
    memoriesWf (State.requestWatch s) = true := by
  unfold State.requestWatch
  try dsimp only
  repeat' with_reducible first
    | assumption | apply State.enterWatch_wf | apply State.postEvent_wf | apply wf_host | apply wf_bytes | apply wf_flash | split
    | (simp only [wf_mk]; refine ⟨?_, ?_, ?_⟩)

theorem State.updateTick_wf (s : State) (h0 : memoriesWf s = true) :
    memoriesWf (State.updateTick s) = true := by
  unfold State.updateTick
  try dsimp only
  repeat' with_reducible first
    | assumption | apply State.requestWatch_wf | apply State.stage_wf | apply wf_host | apply wf_bytes | apply wf_flash | split
    | (simp only [wf_mk]; refine ⟨?_, ?_, ?_⟩)

theorem State.beginExit_wf (s : State) (h0 : memoriesWf s = true) :
    memoriesWf (State.beginExit s) = true := by
  unfold State.beginExit
  try dsimp only
  repeat' with_reducible first
    | assumption | apply wf_host | apply wf_bytes | apply wf_flash | split | (simp only [wf_mk]; refine ⟨?_, ?_, ?_⟩)

theorem State.watchTick_wf (s : State) (h0 : memoriesWf s = true) :
    memoriesWf (State.watchTick s) = true := by
  unfold State.watchTick
  try dsimp only
  repeat' with_reducible first
    | assumption | apply State.beginExit_wf | apply wf_host | apply wf_bytes | apply wf_flash
    | (simp only [wf_mk]; refine ⟨?_, ?_, ?_⟩)

theorem State.wakeBy_wf (s : State) (b : Nat) (h0 : memoriesWf s = true) :
    memoriesWf (State.wakeBy s b) = true := by
  unfold State.wakeBy
  try dsimp only
  repeat' with_reducible first
    | assumption | apply State.beginExit_wf | apply wf_host | apply wf_bytes | apply wf_flash | split
    | (simp only [wf_mk]; refine ⟨?_, ?_, ?_⟩)

theorem State.leaveWatch_wf (s : State) (h0 : memoriesWf s = true) : memoriesWf s.leaveWatch = true := by
  unfold State.leaveWatch
  apply State.romStage_wf
  simp only [wf_mk]
  exact ⟨wf_host h0, wf_bytes h0, wf_flash h0⟩

theorem State.deckleTick_wf (s : State) (h0 : memoriesWf s = true) :
    memoriesWf (State.deckleTick s) = true := by
  unfold State.deckleTick
  try dsimp only
  repeat' with_reducible first
    | assumption | apply wf_host | apply wf_bytes | apply wf_flash | split | (apply wf_fold <;> intros)
    | (simp only [wf_mk]; refine ⟨?_, ?_, ?_⟩)

theorem State.frameTick_wf (s : State) (h0 : memoriesWf s = true) :
    memoriesWf (State.frameTick s) = true := by
  unfold State.frameTick
  try dsimp only
  repeat' with_reducible first
    | assumption | apply State.beginSegment_wf | apply wf_host | apply wf_bytes | apply wf_flash | split
    | (apply wf_fold <;> intros) | (simp only [wf_mk]; refine ⟨?_, ?_, ?_⟩)

theorem State.laneTick_wf (s : State) (h0 : memoriesWf s = true) :
    memoriesWf (State.laneTick s) = true := by
  unfold State.laneTick
  try dsimp only
  repeat' with_reducible first
    | assumption | apply State.takeFree_wf | apply wf_host | apply wf_bytes | apply wf_flash | split
    | (simp only [wf_mk]; refine ⟨?_, ?_, ?_⟩)

theorem wf_tick (s : State) (h0 : memoriesWf s = true) :
    memoriesWf (tick s) = true := by
  unfold tick
  try dsimp only
  repeat' with_reducible first
    | assumption | apply State.watchTick_wf | apply State.deckleTick_wf | apply State.frameTick_wf | apply State.laneTick_wf
    | apply State.updateTick_wf | apply wf_host | apply wf_bytes | apply wf_flash | split | (simp only [wf_mk]; refine ⟨?_, ?_, ?_⟩)

theorem State.startDandy_wf (s : State) (h0 : memoriesWf s = true) :
    memoriesWf (State.startDandy s) = true := by
  unfold State.startDandy
  try dsimp only
  repeat' with_reducible first
    | assumption | apply State.setCl_wf | apply State.startSheet_wf | apply wf_host | apply wf_bytes | apply wf_flash | split
    | (simp only [wf_mk]; refine ⟨?_, ?_, ?_⟩)

theorem State.endWindow_wf (s : State) (h0 : memoriesWf s = true) :
    memoriesWf (State.endWindow s) = true := by
  unfold State.endWindow
  try dsimp only
  repeat' with_reducible first
    | assumption | apply State.setCl_wf | apply wf_host | apply wf_bytes | apply wf_flash | split
    | (simp only [wf_mk]; refine ⟨?_, ?_, ?_⟩)

theorem State.dandyHit_wf (s : State) (h0 : memoriesWf s = true) :
    memoriesWf (State.dandyHit s) = true := by
  unfold State.dandyHit
  try dsimp only
  repeat' with_reducible first
    | assumption | apply State.postEvent_wf | apply wf_host | apply wf_bytes | apply wf_flash | split
    | (simp only [wf_mk]; refine ⟨?_, ?_, ?_⟩)

theorem State.sendNak_wf (s : State) (p k : Nat) (h0 : memoriesWf s = true) :
    memoriesWf (State.sendNak s p k) = true := by
  unfold State.sendNak
  try dsimp only
  repeat' with_reducible first
    | assumption | apply State.setXport_wf | apply State.sendBlock_wf | apply wf_host | apply wf_bytes | apply wf_flash | split
    | (simp only [wf_mk]; refine ⟨?_, ?_, ?_⟩)

theorem State.takeMap_wf (s : State) (p : Nat) (k : Packet) (h0 : memoriesWf s = true) :
    memoriesWf (State.takeMap s p k) = true := by
  unfold State.takeMap
  try dsimp only
  repeat' with_reducible first
    | assumption | apply State.sendLink_wf | apply wf_host | apply wf_bytes | apply wf_flash | split
    | (apply wf_fold <;> intros) | (simp only [wf_mk]; refine ⟨?_, ?_, ?_⟩)

theorem State.takePacket_wf (s : State) (p : Nat) (k : Packet) (h0 : memoriesWf s = true) :
    memoriesWf (State.takePacket s p k) = true := by
  unfold State.takePacket
  try dsimp only
  repeat' with_reducible first
    | assumption | apply State.routePacket_wf | apply State.takeMap_wf | apply wf_host | apply wf_bytes | apply wf_flash | split
    | (simp only [wf_mk]; refine ⟨?_, ?_, ?_⟩)

theorem State.failPort_wf (s : State) (p cause : Nat) (h0 : memoriesWf s = true) :
    memoriesWf (State.failPort s p cause) = true := by
  unfold State.failPort
  try dsimp only
  repeat' with_reducible first
    | assumption | apply State.moveGroup_wf | apply State.toDetect_wf | apply wf_host | apply wf_bytes | apply wf_flash
    | (simp only [wf_mk]; refine ⟨?_, ?_, ?_⟩)

theorem State.resend_wf (s : State) (p n : Nat) (seq : BitVec 12) (h0 : memoriesWf s = true) :
    memoriesWf (State.resend s p n seq) = true := by
  unfold State.resend
  try dsimp only
  repeat' with_reducible first
    | assumption | apply State.setXport_wf | apply State.sendPacket_wf | apply State.failPort_wf | apply wf_host
    | apply wf_bytes | apply wf_flash | split | (apply wf_fold <;> intros) | (simp only [wf_mk]; refine ⟨?_, ?_, ?_⟩)

theorem State.reroute_wf (s : State) (h0 : memoriesWf s = true) :
    memoriesWf (State.reroute s) = true := by
  unfold State.reroute
  try dsimp only
  repeat' with_reducible first
    | assumption | apply State.setXport_wf | apply State.routePacket_wf | apply wf_host | apply wf_bytes | apply wf_flash
    | split | (apply wf_fold <;> intros) | (simp only [wf_mk]; refine ⟨?_, ?_, ?_⟩)

theorem State.deliverRemote_wf (s : State) (m : TrigMsg) (h0 : memoriesWf s = true) :
    memoriesWf (State.deliverRemote s m) = true := by
  unfold State.deliverRemote
  try dsimp only
  repeat' with_reducible first
    | assumption | apply State.postEvent_wf | apply State.toHeadboxes_wf | split | (apply wf_fold <;> intros)

theorem State.syncDone_wf (s : State) (p : Nat) (t1 t2 t3 t4 : TimeVal) (h0 : memoriesWf s = true) :
    memoriesWf (State.syncDone s p t1 t2 t3 t4) = true := by
  unfold State.syncDone
  try dsimp only
  repeat' with_reducible first
    | assumption | apply State.measureDue_wf | apply State.setXport_wf | apply wf_host | apply wf_bytes | apply wf_flash | split
    | (simp only [wf_mk]; refine ⟨?_, ?_, ?_⟩)

theorem State.frameOffset_wf (s : State) (p : Nat) (m : CalignMsg) (h0 : memoriesWf s = true) :
    memoriesWf (State.frameOffset s p m) = true := by
  unfold State.frameOffset
  try dsimp only
  repeat' with_reducible first
    | assumption | apply State.postEvent_wf | apply State.setXport_wf | apply wf_host | apply wf_bytes | apply wf_flash | split
    | (simp only [wf_mk]; refine ⟨?_, ?_, ?_⟩)

theorem State.miswire_wf (s : State) (p : Nat) (q : Nat × Nat × Nat) (h0 : memoriesWf s = true) :
    memoriesWf (State.miswire s p q) = true := by
  unfold State.miswire
  try dsimp only
  repeat' with_reducible first
    | assumption | apply State.postEvent_wf | apply State.setXport_wf | apply wf_host | apply wf_bytes | apply wf_flash
    | (simp only [wf_mk]; refine ⟨?_, ?_, ?_⟩)

theorem State.duplicate_wf (s : State) (q : Nat × Nat × Nat) (h0 : memoriesWf s = true) :
    memoriesWf (State.duplicate s q) = true := by
  unfold State.duplicate
  try dsimp only
  repeat' with_reducible first
    | assumption | apply State.postEvent_wf | apply wf_host | apply wf_bytes | apply wf_flash
    | (simp only [wf_mk]; refine ⟨?_, ?_, ?_⟩)

theorem State.followParent_wf (s : State) (h0 : memoriesWf s = true) :
    memoriesWf (State.followParent s) = true := by
  unfold State.followParent
  try dsimp only
  repeat' with_reducible first
    | assumption | apply wf_host | apply wf_bytes | apply wf_flash | split | (simp only [wf_mk]; refine ⟨?_, ?_, ?_⟩)

theorem State.joinSystem_wf (s : State) (p : Nat) (m : CoordMsg) (h0 : memoriesWf s = true) :
    memoriesWf (State.joinSystem s p m) = true := by
  unfold State.joinSystem
  try dsimp only
  repeat' with_reducible first
    | assumption | apply State.postEvent_wf | apply State.floodBlock_wf | apply State.tryConfirm_wf
    | apply State.followParent_wf | apply wf_host | apply wf_bytes | apply wf_flash | split
    | (simp only [wf_mk]; refine ⟨?_, ?_, ?_⟩)

theorem State.newEpoch_wf (s : State) (p : Nat) (m : CoordMsg) (h0 : memoriesWf s = true) :
    memoriesWf (State.newEpoch s p m) = true := by
  unfold State.newEpoch
  try dsimp only
  repeat' with_reducible first
    | assumption | apply State.floodBlock_wf | apply State.tryConfirm_wf | apply wf_host | apply wf_bytes | apply wf_flash
    | (simp only [wf_mk]; refine ⟨?_, ?_, ?_⟩)

theorem State.displaced_wf (s : State) (p : Nat) (m : CoordMsg) (q : Nat × Nat × Nat) (h0 : memoriesWf s = true) :
    memoriesWf (State.displaced s p m q) = true := by
  unfold State.displaced
  try dsimp only
  repeat' with_reducible first
    | assumption | apply State.takeFree_wf | apply State.tryConfirm_wf | apply State.miswire_wf | apply State.duplicate_wf
    | split

theorem State.writeSysCfg_wf (s : State) (v : Nat) (h0 : memoriesWf s = true) :
    memoriesWf (State.writeSysCfg s v) = true := by
  unfold State.writeSysCfg
  try dsimp only
  repeat' with_reducible first
    | assumption | apply wf_host | apply wf_bytes | apply wf_flash | split | (simp only [wf_mk]; refine ⟨?_, ?_, ?_⟩)

theorem State.collFatal_wf (s : State) (h : Nat) (check : BitVec 8) (h0 : memoriesWf s = true) :
    memoriesWf (State.collFatal s h check) = true := by
  unfold State.collFatal
  try dsimp only
  repeat' with_reducible first
    | assumption | apply State.endSheet_wf | apply State.haltPipe_wf | apply State.abortSheet_wf | split
    | (apply wf_fold <;> intros)

theorem State.noteEnd_wf (s : State) (h k : Nat) (q : CollReq) (n status rank : Nat) (h0 : memoriesWf s = true) :
    memoriesWf (State.noteEnd s h k q n status rank) = true := by
  unfold State.noteEnd
  try dsimp only
  repeat' with_reducible first
    | assumption | apply State.gddrWrite_wf | apply State.asks_wf | apply State.postEvent_wf | apply wf_host | apply wf_bytes
    | apply wf_flash | split | (simp only [wf_mk]; refine ⟨?_, ?_, ?_⟩)

theorem State.passRequest_wf (s : State) (h : Nat) (q : CollReq) (h0 : memoriesWf s = true) :
    memoriesWf (State.passRequest s h q) = true := by
  unfold State.passRequest
  try dsimp only
  repeat' with_reducible first
    | assumption | apply State.setImage_wf | apply State.gddrWrite_wf | apply State.asks_wf | apply wf_host | apply wf_bytes
    | apply wf_flash | (simp only [wf_mk]; refine ⟨?_, ?_, ?_⟩)

theorem State.skipEnded_wf (s : State) (h n : Nat) (h0 : memoriesWf s = true) : memoriesWf (s.skipEnded h n) = true := by
  induction n generalizing s with
  | zero => exact h0
  | succ n ih =>
    unfold State.skipEnded
    dsimp only
    split
    · exact ih _ (State.passRequest_wf _ _ _ h0)
    · exact h0

theorem State.endRequest_wf (s : State) (h : Nat) (q : CollReq) (status rank : Nat) (h0 : memoriesWf s = true) :
    memoriesWf (State.endRequest s h q status rank) = true := by
  unfold State.endRequest
  try dsimp only
  repeat' with_reducible first
    | assumption | apply State.lineFault_wf | apply State.collFatal_wf | apply State.noteEnd_wf | apply State.passRequest_wf
    | apply State.skipEnded_wf | split

theorem State.writeLines_wf (s : State) (ls : List Nat) (bs : List Byte) (h0 : memoriesWf s = true) :
    memoriesWf (s.writeLines ls bs) = true := by
  induction ls generalizing s bs with
  | nil => exact h0
  | cons l ls ih => exact ih _ _ (State.gddrWrite_wf s _ _ h0)

theorem State.collSend_wf (s : State) (ranks : List Nat) (kind : BitVec 4) (tag : BitVec 32) (data : List (BitVec 96))
    (h0 : memoriesWf s = true) :
    memoriesWf (State.collSend s ranks kind tag data) = true := by
  unfold State.collSend
  try dsimp only
  repeat' with_reducible first
    | assumption | apply State.routePacket_wf | apply wf_host | apply wf_bytes | apply wf_flash | (apply wf_fold <;> intros)
    | (simp only [wf_mk]; refine ⟨?_, ?_, ?_⟩)

theorem State.askRequest_wf (s : State) (h : Nat) (q : CollReq) (h0 : memoriesWf s = true) :
    memoriesWf (State.askRequest s h q) = true := by
  unfold State.askRequest
  try dsimp only
  repeat' with_reducible first
    | assumption | apply State.asks_wf | split

theorem State.sendHead_wf (s : State) (h : Nat) (q : CollReq) (others : List Nat) (h0 : memoriesWf s = true) :
    memoriesWf (State.sendHead s h q others) = true := by
  unfold State.sendHead
  try dsimp only
  repeat' with_reducible first
    | assumption | apply State.setImage_wf | apply State.collSend_wf | apply State.askRequest_wf | apply wf_host
    | apply wf_bytes | apply wf_flash | split | (simp only [wf_mk]; refine ⟨?_, ?_, ?_⟩)

theorem State.sendData_wf (s : State) (h : Nat) (q : CollReq) (others : List Nat) (src : List Nat) (h0 : memoriesWf s = true) :
    memoriesWf (State.sendData s h q others src) = true := by
  unfold State.sendData
  try dsimp only
  repeat' with_reducible first
    | assumption | apply State.setImage_wf | apply State.asks_wf | apply State.collSend_wf | apply wf_host | apply wf_bytes
    | apply wf_flash | split | (apply wf_fold <;> intros) | (simp only [wf_mk]; refine ⟨?_, ?_, ?_⟩)

theorem State.perform_wf (s : State) (h : Nat) (q : CollReq) (members src dst : List Nat) (peers : List CollPeer)
    (h0 : memoriesWf s = true) :
    memoriesWf (State.perform s h q members src dst peers) = true := by
  unfold State.perform
  try dsimp only
  repeat' with_reducible first
    | assumption | apply State.lineFault_wf | apply State.collFatal_wf | apply State.endRequest_wf | apply State.writeLines_wf
    | split

theorem State.collPoll_wf (s : State) (h : Nat) (h0 : memoriesWf s = true) :
    memoriesWf (State.collPoll s h) = true := by
  unfold State.collPoll
  try dsimp only
  repeat' with_reducible first
    | assumption | apply State.setImage_wf | apply State.asks_wf | apply wf_host | apply wf_bytes | apply wf_flash | split
    | (simp only [wf_mk]; refine ⟨?_, ?_, ?_⟩)

theorem State.exchange_wf (s : State) (h : Nat) (q : CollReq) (members : List Nat) (peers : List CollPeer)
    (h0 : memoriesWf s = true) :
    memoriesWf (State.exchange s h q members peers) = true := by
  unfold State.exchange
  try dsimp only
  repeat' with_reducible first
    | assumption | apply State.lineFault_wf | apply State.collFatal_wf | apply State.endRequest_wf | apply State.sendHead_wf
    | apply State.sendData_wf | apply State.perform_wf | split

theorem State.takeRequest_wf (s : State) (h : Nat) (peers : List CollPeer) (h0 : memoriesWf s = true) :
    memoriesWf (State.takeRequest s h peers) = true := by
  unfold State.takeRequest
  try dsimp only
  repeat' with_reducible first
    | assumption | apply State.takeFree_wf | apply State.lineFault_wf | apply State.collFatal_wf | apply State.endRequest_wf
    | apply State.askRequest_wf | apply State.exchange_wf | split

theorem State.loseMember_wf (s : State) (h rank : Nat) (h0 : memoriesWf s = true) :
    memoriesWf (State.loseMember s h rank) = true := by
  unfold State.loseMember
  try dsimp only
  repeat' with_reducible first
    | assumption | apply State.setImage_wf | apply State.noteEnd_wf | apply State.skipEnded_wf | apply wf_host | apply wf_bytes
    | apply wf_flash | (apply wf_fold <;> intros) | (simp only [wf_mk]; refine ⟨?_, ?_, ?_⟩)

theorem State.tellDma_wf (s : State) (line : Nat) (h0 : memoriesWf s = true) :
    memoriesWf (State.tellDma s line) = true := by
  unfold State.tellDma
  try dsimp only
  repeat' with_reducible first
    | assumption | apply State.memError_wf | split | (apply wf_fold <;> intros)

theorem State.tellContext_wf (s : State) (line : Nat) (x : Ctx) (h0 : memoriesWf s = true) :
    memoriesWf (State.tellContext s line x) = true := by
  unfold State.tellContext
  try dsimp only
  repeat' with_reducible first
    | assumption | apply State.modRun_wf | apply State.vatUnitFault_wf | apply State.readError_wf | apply wf_host
    | apply wf_bytes | apply wf_flash | (simp only [wf_mk]; refine ⟨?_, ?_, ?_⟩)

theorem State.tellVat_wf (s : State) (line : Nat) (h0 : memoriesWf s = true) :
    memoriesWf (State.tellVat s line) = true := by
  unfold State.tellVat
  try dsimp only
  repeat' with_reducible first
    | assumption | apply State.modRun_wf | apply State.tellContext_wf | apply wf_host | apply wf_bytes | apply wf_flash | split
    | (apply wf_fold <;> intros) | (simp only [wf_mk]; refine ⟨?_, ?_, ?_⟩)

theorem State.tellColl_wf (s : State) (line : Nat) (h0 : memoriesWf s = true) :
    memoriesWf (State.tellColl s line) = true := by
  unfold State.tellColl
  try dsimp only
  repeat' with_reducible first
    | assumption | apply State.lineFault_wf | apply State.collFatal_wf | split | (apply wf_fold <;> intros)

theorem State.tellConfig_wf (s : State) (line : Nat) (h0 : memoriesWf s = true) :
    memoriesWf (State.tellConfig s line) = true := by
  unfold State.tellConfig
  try dsimp only
  repeat' with_reducible first
    | assumption | apply State.abortFor_wf | apply State.lineFault_wf | split | (apply wf_fold <;> intros)

theorem State.tellWork_wf (s : State) (cls line : Nat) (h0 : memoriesWf s = true) :
    memoriesWf (State.tellWork s cls line) = true := by
  unfold State.tellWork
  try dsimp only
  repeat' with_reducible first
    | assumption | apply State.tellDma_wf | apply State.tellVat_wf | apply State.tellColl_wf | apply State.tellConfig_wf | split

theorem State.serve_wf (s : State) (t : Target) (cls : Nat) (write : Bool) (line : Nat) (h0 : memoriesWf s = true) :
    memoriesWf (State.serve s t cls write line) = true := by
  unfold State.serve
  try dsimp only
  repeat' with_reducible first
    | assumption | apply State.gddrWrite_wf | apply State.askDone_wf | apply State.setFar_wf | apply State.oweEcc_wf
    | apply wf_host | apply wf_bytes | apply wf_flash | split | (apply wf_getD <;> intros)
    | (simp only [wf_mk]; refine ⟨?_, ?_, ?_⟩)

theorem State.tellRead_wf (s : State) (t : Target) (cls line : Nat) (told : Bool) (h0 : memoriesWf s = true) :
    memoriesWf (State.tellRead s t cls line told) = true := by
  unfold State.tellRead
  try dsimp only
  repeat' with_reducible first
    | assumption | apply State.tellWork_wf | split

theorem State.lineDone_wf (s : State) (t : Target) (cls line errs : Nat) (write : Bool) (h0 : memoriesWf s = true) :
    memoriesWf (State.lineDone s t cls line errs write) = true := by
  unfold State.lineDone
  try dsimp only
  repeat' with_reducible first
    | assumption | apply State.lineRead_wf | apply State.eccWrite_wf | apply State.oweEcc_wf | apply State.noteWhole_wf
    | apply State.serve_wf | apply State.tellRead_wf | split

theorem State.serveBad_wf (s : State) (t : Target) (cls line : Nat) (h0 : memoriesWf s = true) :
    memoriesWf (State.serveBad s t cls line) = true := by
  unfold State.serveBad
  try dsimp only
  repeat' with_reducible first
    | assumption | apply State.askDone_wf | apply State.setFar_wf | apply State.oweEcc_wf | apply wf_host | apply wf_bytes
    | apply wf_flash | split | (apply wf_getD <;> intros) | (simp only [wf_mk]; refine ⟨?_, ?_, ?_⟩)

theorem State.giveUpBurst_wf (s : State) (cls : Nat) (write : Bool) (line : Nat) (b : Beat) (t : Option Target)
    (h0 : memoriesWf s = true) :
    memoriesWf (State.giveUpBurst s cls write line b t) = true := by
  unfold State.giveUpBurst
  try dsimp only
  repeat' with_reducible first
    | assumption | apply State.codeword_wf | apply State.lineRead_wf | apply State.clearRepeats_wf | apply State.noteHalf_wf
    | apply State.checkLine_wf | apply State.patrolTo_wf | apply State.tellRead_wf | apply State.serveBad_wf | split

theorem State.writeDomain_wf (s : State) (d n : Nat) (h0 : memoriesWf s = true) :
    memoriesWf (State.writeDomain s d n) = true := by
  unfold State.writeDomain
  try dsimp only
  repeat' with_reducible first
    | assumption | apply wf_host | apply wf_bytes | apply wf_flash | split | (simp only [wf_mk]; refine ⟨?_, ?_, ?_⟩)

theorem State.writeTsu_wf (s : State) (u n : Nat) (meets : Bool) (h0 : memoriesWf s = true) :
    memoriesWf (State.writeTsu s u n meets) = true := by
  unfold State.writeTsu
  try dsimp only
  repeat' with_reducible first
    | assumption | apply wf_host | apply wf_bytes | apply wf_flash | (simp only [wf_mk]; refine ⟨?_, ?_, ?_⟩)

theorem State.writeTbsReg_wf (s : State) (o : Nat) (v : Word) (meets : Bool) (h0 : memoriesWf s = true) :
    memoriesWf (State.writeTbsReg s o v meets) = true := by
  unfold State.writeTbsReg
  try dsimp only
  repeat' with_reducible first
    | assumption | apply State.latch_wf | apply State.writeTbs_wf | apply State.writeDomain_wf | apply State.writeTsu_wf
    | apply wf_host | apply wf_bytes | apply wf_flash | split | (simp only [wf_mk]; refine ⟨?_, ?_, ?_⟩)

theorem State.writeTrpReg_wf (s : State) (o : Nat) (v : Word) (meets : Bool) (h0 : memoriesWf s = true) :
    memoriesWf (State.writeTrpReg s o v meets) = true := by
  unfold State.writeTrpReg
  try dsimp only
  repeat' with_reducible first
    | assumption | apply State.setPipe_wf | apply State.writeDet_wf | apply State.setLine_wf | apply State.writeLine_wf
    | apply wf_host | apply wf_bytes | apply wf_flash | split | (simp only [wf_mk]; refine ⟨?_, ?_, ?_⟩)

theorem State.writeRngReg_wf (s : State) (r o : Nat) (v : Word) (h0 : memoriesWf s = true) :
    memoriesWf (State.writeRngReg s r o v) = true := by
  unfold State.writeRngReg
  try dsimp only
  repeat' with_reducible first
    | assumption | apply State.setRing_wf | apply State.writeRingCfg_wf | apply wf_host | apply wf_bytes | apply wf_flash
    | split | (simp only [wf_mk]; refine ⟨?_, ?_, ?_⟩)

theorem State.writeRgcReg_wf (s : State) (o : Nat) (v : Word) (h0 : memoriesWf s = true) :
    memoriesWf (State.writeRgcReg s o v) = true := by
  unfold State.writeRgcReg
  try dsimp only
  repeat' with_reducible first
    | assumption | apply State.writeEvtCfg_wf | apply State.setReamRing_wf | apply wf_host | apply wf_bytes | apply wf_flash
    | split | (simp only [wf_mk]; refine ⟨?_, ?_, ?_⟩)

theorem State.writeMsix_wf (s : State) (o : Nat) (v : Word) (h0 : memoriesWf s = true) :
    memoriesWf (State.writeMsix s o v) = true := by
  unfold State.writeMsix
  try dsimp only
  repeat' with_reducible first
    | assumption | apply State.setMask_wf | apply wf_host | apply wf_bytes | apply wf_flash | split
    | (simp only [wf_mk]; refine ⟨?_, ?_, ?_⟩)

theorem State.writePwrReg_wf (s : State) (o : Nat) (v : Word) (h0 : memoriesWf s = true) :
    memoriesWf (State.writePwrReg s o v) = true := by
  unfold State.writePwrReg
  try dsimp only
  repeat' with_reducible first
    | assumption | apply State.writeTrim_wf | apply State.writeCap_wf | apply State.writeGpio_wf | apply State.requestWatch_wf
    | apply wf_host | apply wf_bytes | apply wf_flash | split | (simp only [wf_mk]; refine ⟨?_, ?_, ?_⟩)

theorem State.writeDndReg_wf (s : State) (o : Nat) (v : Word) (h0 : memoriesWf s = true) :
    memoriesWf (State.writeDndReg s o v) = true := by
  unfold State.writeDndReg
  try dsimp only
  repeat' with_reducible first
    | assumption | apply wf_host | apply wf_bytes | apply wf_flash | split | (simp only [wf_mk]; refine ⟨?_, ?_, ?_⟩)

theorem State.writeSecReg_wf (s : State) (o : Nat) (v : Word) (h0 : memoriesWf s = true) :
    memoriesWf (State.writeSecReg s o v) = true := by
  unfold State.writeSecReg
  try dsimp only
  repeat' with_reducible first
    | assumption | apply State.updateGo_wf | apply wf_host | apply wf_bytes | apply wf_flash | split
    | (simp only [wf_mk]; refine ⟨?_, ?_, ?_⟩)

theorem State.writeBar0_wf (s : State) (off : Nat) (v : Word) (meets : Bool) (h0 : memoriesWf s = true) :
    memoriesWf (State.writeBar0 s off v meets) = true := by
  unfold State.writeBar0
  try dsimp only
  repeat' with_reducible first
    | assumption | apply State.writeSwrst_wf | apply State.writeSysCfg_wf | apply State.writeTbsReg_wf
    | apply State.writeTrpReg_wf | apply State.writeRngReg_wf | apply State.writeRgcReg_wf | apply State.writeMsix_wf
    | apply State.writePwrReg_wf | apply State.writeDndReg_wf | apply State.writeSecReg_wf | apply wf_host | apply wf_bytes
    | apply wf_flash | split | (simp only [wf_mk]; refine ⟨?_, ?_, ?_⟩)

end Sys2Proof.Machine
end

