-- ==== Sys2Proof/Laws/State.lean ====
section
/-!
SUPPORT. What every setter of the state leaves in each of its fields, one lemma a field, and what is read back after it.
-/
namespace Sys2Proof.Machine

/-! ### setCl -/

@[simp] theorem State.setCl_pending (s : State) (c : Nat) (x : Cluster) : (s.setCl c x).pending = s.pending := rfl
@[simp] theorem State.setCl_free (s : State) (c : Nat) (x : Cluster) : (s.setCl c x).free = s.free := rfl
@[simp] theorem State.setCl_out (s : State) (c : Nat) (x : Cluster) : (s.setCl c x).out = s.out := rfl
@[simp] theorem State.setCl_host (s : State) (c : Nat) (x : Cluster) : (s.setCl c x).host = s.host := rfl
@[simp] theorem State.setCl_fab (s : State) (c : Nat) (x : Cluster) :
    (s.setCl c x).fab = { s.fab with clusters := SMap.set {} s.fab.clusters c x } := rfl
@[simp] theorem State.setCl_gddr (s : State) (c : Nat) (x : Cluster) : (s.setCl c x).gddr = s.gddr := rfl
@[simp] theorem State.setCl_images (s : State) (c : Nat) (x : Cluster) : (s.setCl c x).images = s.images := rfl
@[simp] theorem State.setCl_lanes (s : State) (c : Nat) (x : Cluster) : (s.setCl c x).lanes = s.lanes := rfl
@[simp] theorem State.setCl_tb (s : State) (c : Nat) (x : Cluster) : (s.setCl c x).tb = s.tb := rfl
@[simp] theorem State.setCl_hbx (s : State) (c : Nat) (x : Cluster) : (s.setCl c x).hbx = s.hbx := rfl
@[simp] theorem State.setCl_trp (s : State) (c : Nat) (x : Cluster) : (s.setCl c x).trp = s.trp := rfl
@[simp] theorem State.setCl_vat (s : State) (c : Nat) (x : Cluster) : (s.setCl c x).vat = s.vat := rfl
@[simp] theorem State.setCl_pcx (s : State) (c : Nat) (x : Cluster) : (s.setCl c x).pcx = s.pcx := rfl
@[simp] theorem State.setCl_hif (s : State) (c : Nat) (x : Cluster) : (s.setCl c x).hif = s.hif := rfl
@[simp] theorem State.setCl_xms (s : State) (c : Nat) (x : Cluster) : (s.setCl c x).xms = s.xms := rfl
@[simp] theorem State.setCl_flt (s : State) (c : Nat) (x : Cluster) : (s.setCl c x).flt = s.flt := rfl
@[simp] theorem State.setCl_svc (s : State) (c : Nat) (x : Cluster) : (s.setCl c x).svc = s.svc := rfl
@[simp] theorem State.setCl_pwr (s : State) (c : Nat) (x : Cluster) : (s.setCl c x).pwr = s.pwr := rfl
@[simp] theorem State.setCl_dnd (s : State) (c : Nat) (x : Cluster) : (s.setCl c x).dnd = s.dnd := rfl
@[simp] theorem State.setCl_sec (s : State) (c : Nat) (x : Cluster) : (s.setCl c x).sec = s.sec := rfl
@[simp] theorem State.setCl_bru (s : State) (c : Nat) (x : Cluster) : (s.setCl c x).bru = s.bru := rfl
@[simp] theorem State.setCl_wcap (s : State) (c : Nat) (x : Cluster) : (s.setCl c x).wcap = s.wcap := rfl
@[simp] theorem State.setCl_stepA1 (s : State) (c : Nat) (x : Cluster) : (s.setCl c x).stepA1 = s.stepA1 := rfl
@[simp] theorem State.setCl_enables (s : State) (c : Nat) (x : Cluster) : (s.setCl c x).enables = s.enables := rfl

/-! ### setService -/

@[simp] theorem State.setService_pending (s : State) (c : Nat) (v : Service) : (s.setService c v).pending = s.pending := rfl
@[simp] theorem State.setService_free (s : State) (c : Nat) (v : Service) : (s.setService c v).free = s.free := rfl
@[simp] theorem State.setService_out (s : State) (c : Nat) (v : Service) : (s.setService c v).out = s.out := rfl
@[simp] theorem State.setService_host (s : State) (c : Nat) (v : Service) : (s.setService c v).host = s.host := rfl
@[simp] theorem State.setService_fab (s : State) (c : Nat) (v : Service) :
    (s.setService c v).fab = { s.fab with service := SMap.set .inService s.fab.service c v } := rfl
@[simp] theorem State.setService_gddr (s : State) (c : Nat) (v : Service) : (s.setService c v).gddr = s.gddr := rfl
@[simp] theorem State.setService_images (s : State) (c : Nat) (v : Service) : (s.setService c v).images = s.images := rfl
@[simp] theorem State.setService_lanes (s : State) (c : Nat) (v : Service) : (s.setService c v).lanes = s.lanes := rfl
@[simp] theorem State.setService_tb (s : State) (c : Nat) (v : Service) : (s.setService c v).tb = s.tb := rfl
@[simp] theorem State.setService_hbx (s : State) (c : Nat) (v : Service) : (s.setService c v).hbx = s.hbx := rfl
@[simp] theorem State.setService_trp (s : State) (c : Nat) (v : Service) : (s.setService c v).trp = s.trp := rfl
@[simp] theorem State.setService_vat (s : State) (c : Nat) (v : Service) : (s.setService c v).vat = s.vat := rfl
@[simp] theorem State.setService_pcx (s : State) (c : Nat) (v : Service) : (s.setService c v).pcx = s.pcx := rfl
@[simp] theorem State.setService_hif (s : State) (c : Nat) (v : Service) : (s.setService c v).hif = s.hif := rfl
@[simp] theorem State.setService_xms (s : State) (c : Nat) (v : Service) : (s.setService c v).xms = s.xms := rfl
@[simp] theorem State.setService_flt (s : State) (c : Nat) (v : Service) : (s.setService c v).flt = s.flt := rfl
@[simp] theorem State.setService_svc (s : State) (c : Nat) (v : Service) : (s.setService c v).svc = s.svc := rfl
@[simp] theorem State.setService_pwr (s : State) (c : Nat) (v : Service) : (s.setService c v).pwr = s.pwr := rfl
@[simp] theorem State.setService_dnd (s : State) (c : Nat) (v : Service) : (s.setService c v).dnd = s.dnd := rfl
@[simp] theorem State.setService_sec (s : State) (c : Nat) (v : Service) : (s.setService c v).sec = s.sec := rfl
@[simp] theorem State.setService_bru (s : State) (c : Nat) (v : Service) : (s.setService c v).bru = s.bru := rfl
@[simp] theorem State.setService_wcap (s : State) (c : Nat) (v : Service) : (s.setService c v).wcap = s.wcap := rfl
@[simp] theorem State.setService_stepA1 (s : State) (c : Nat) (v : Service) : (s.setService c v).stepA1 = s.stepA1 := rfl
@[simp] theorem State.setService_enables (s : State) (c : Nat) (v : Service) : (s.setService c v).enables = s.enables := rfl

/-! ### setLink -/

@[simp] theorem State.setLink_pending (s : State) (k : Nat) (v : LinkSt) : (s.setLink k v).pending = s.pending := rfl
@[simp] theorem State.setLink_free (s : State) (k : Nat) (v : LinkSt) : (s.setLink k v).free = s.free := rfl
@[simp] theorem State.setLink_out (s : State) (k : Nat) (v : LinkSt) : (s.setLink k v).out = s.out := rfl
@[simp] theorem State.setLink_host (s : State) (k : Nat) (v : LinkSt) : (s.setLink k v).host = s.host := rfl
@[simp] theorem State.setLink_fab (s : State) (k : Nat) (v : LinkSt) :
    (s.setLink k v).fab = { s.fab with links := SMap.set {} s.fab.links k v } := rfl
@[simp] theorem State.setLink_gddr (s : State) (k : Nat) (v : LinkSt) : (s.setLink k v).gddr = s.gddr := rfl
@[simp] theorem State.setLink_images (s : State) (k : Nat) (v : LinkSt) : (s.setLink k v).images = s.images := rfl
@[simp] theorem State.setLink_lanes (s : State) (k : Nat) (v : LinkSt) : (s.setLink k v).lanes = s.lanes := rfl
@[simp] theorem State.setLink_tb (s : State) (k : Nat) (v : LinkSt) : (s.setLink k v).tb = s.tb := rfl
@[simp] theorem State.setLink_hbx (s : State) (k : Nat) (v : LinkSt) : (s.setLink k v).hbx = s.hbx := rfl
@[simp] theorem State.setLink_trp (s : State) (k : Nat) (v : LinkSt) : (s.setLink k v).trp = s.trp := rfl
@[simp] theorem State.setLink_vat (s : State) (k : Nat) (v : LinkSt) : (s.setLink k v).vat = s.vat := rfl
@[simp] theorem State.setLink_pcx (s : State) (k : Nat) (v : LinkSt) : (s.setLink k v).pcx = s.pcx := rfl
@[simp] theorem State.setLink_hif (s : State) (k : Nat) (v : LinkSt) : (s.setLink k v).hif = s.hif := rfl
@[simp] theorem State.setLink_xms (s : State) (k : Nat) (v : LinkSt) : (s.setLink k v).xms = s.xms := rfl
@[simp] theorem State.setLink_flt (s : State) (k : Nat) (v : LinkSt) : (s.setLink k v).flt = s.flt := rfl
@[simp] theorem State.setLink_svc (s : State) (k : Nat) (v : LinkSt) : (s.setLink k v).svc = s.svc := rfl
@[simp] theorem State.setLink_pwr (s : State) (k : Nat) (v : LinkSt) : (s.setLink k v).pwr = s.pwr := rfl
@[simp] theorem State.setLink_dnd (s : State) (k : Nat) (v : LinkSt) : (s.setLink k v).dnd = s.dnd := rfl
@[simp] theorem State.setLink_sec (s : State) (k : Nat) (v : LinkSt) : (s.setLink k v).sec = s.sec := rfl
@[simp] theorem State.setLink_bru (s : State) (k : Nat) (v : LinkSt) : (s.setLink k v).bru = s.bru := rfl
@[simp] theorem State.setLink_wcap (s : State) (k : Nat) (v : LinkSt) : (s.setLink k v).wcap = s.wcap := rfl
@[simp] theorem State.setLink_stepA1 (s : State) (k : Nat) (v : LinkSt) : (s.setLink k v).stepA1 = s.stepA1 := rfl
@[simp] theorem State.setLink_enables (s : State) (k : Nat) (v : LinkSt) : (s.setLink k v).enables = s.enables := rfl

/-! ### setImage -/

@[simp] theorem State.setImage_pending (s : State) (h : Nat) (im : Image) : (s.setImage h im).pending = s.pending := rfl
@[simp] theorem State.setImage_free (s : State) (h : Nat) (im : Image) : (s.setImage h im).free = s.free := rfl
@[simp] theorem State.setImage_out (s : State) (h : Nat) (im : Image) : (s.setImage h im).out = s.out := rfl
@[simp] theorem State.setImage_host (s : State) (h : Nat) (im : Image) : (s.setImage h im).host = s.host := rfl
@[simp] theorem State.setImage_fab (s : State) (h : Nat) (im : Image) : (s.setImage h im).fab = s.fab := rfl
@[simp] theorem State.setImage_gddr (s : State) (h : Nat) (im : Image) : (s.setImage h im).gddr = s.gddr := rfl
@[simp] theorem State.setImage_images (s : State) (h : Nat) (im : Image) :
    (s.setImage h im).images = SMap.set {} s.images h im := rfl
@[simp] theorem State.setImage_lanes (s : State) (h : Nat) (im : Image) : (s.setImage h im).lanes = s.lanes := rfl
@[simp] theorem State.setImage_tb (s : State) (h : Nat) (im : Image) : (s.setImage h im).tb = s.tb := rfl
@[simp] theorem State.setImage_hbx (s : State) (h : Nat) (im : Image) : (s.setImage h im).hbx = s.hbx := rfl
@[simp] theorem State.setImage_trp (s : State) (h : Nat) (im : Image) : (s.setImage h im).trp = s.trp := rfl
@[simp] theorem State.setImage_vat (s : State) (h : Nat) (im : Image) : (s.setImage h im).vat = s.vat := rfl
@[simp] theorem State.setImage_pcx (s : State) (h : Nat) (im : Image) : (s.setImage h im).pcx = s.pcx := rfl
@[simp] theorem State.setImage_hif (s : State) (h : Nat) (im : Image) : (s.setImage h im).hif = s.hif := rfl
@[simp] theorem State.setImage_xms (s : State) (h : Nat) (im : Image) : (s.setImage h im).xms = s.xms := rfl
@[simp] theorem State.setImage_flt (s : State) (h : Nat) (im : Image) : (s.setImage h im).flt = s.flt := rfl
@[simp] theorem State.setImage_svc (s : State) (h : Nat) (im : Image) : (s.setImage h im).svc = s.svc := rfl
@[simp] theorem State.setImage_pwr (s : State) (h : Nat) (im : Image) : (s.setImage h im).pwr = s.pwr := rfl
@[simp] theorem State.setImage_dnd (s : State) (h : Nat) (im : Image) : (s.setImage h im).dnd = s.dnd := rfl
@[simp] theorem State.setImage_sec (s : State) (h : Nat) (im : Image) : (s.setImage h im).sec = s.sec := rfl
@[simp] theorem State.setImage_bru (s : State) (h : Nat) (im : Image) : (s.setImage h im).bru = s.bru := rfl
@[simp] theorem State.setImage_wcap (s : State) (h : Nat) (im : Image) : (s.setImage h im).wcap = s.wcap := rfl
@[simp] theorem State.setImage_stepA1 (s : State) (h : Nat) (im : Image) : (s.setImage h im).stepA1 = s.stepA1 := rfl
@[simp] theorem State.setImage_enables (s : State) (h : Nat) (im : Image) : (s.setImage h im).enables = s.enables := rfl

/-! ### setPipe -/

@[simp] theorem State.setPipe_pending (s : State) (p : Nat) (q : Pipe) : (s.setPipe p q).pending = s.pending := rfl
@[simp] theorem State.setPipe_free (s : State) (p : Nat) (q : Pipe) : (s.setPipe p q).free = s.free := rfl
@[simp] theorem State.setPipe_out (s : State) (p : Nat) (q : Pipe) : (s.setPipe p q).out = s.out := rfl
@[simp] theorem State.setPipe_host (s : State) (p : Nat) (q : Pipe) : (s.setPipe p q).host = s.host := rfl
@[simp] theorem State.setPipe_fab (s : State) (p : Nat) (q : Pipe) : (s.setPipe p q).fab = s.fab := rfl
@[simp] theorem State.setPipe_gddr (s : State) (p : Nat) (q : Pipe) : (s.setPipe p q).gddr = s.gddr := rfl
@[simp] theorem State.setPipe_images (s : State) (p : Nat) (q : Pipe) : (s.setPipe p q).images = s.images := rfl
@[simp] theorem State.setPipe_lanes (s : State) (p : Nat) (q : Pipe) : (s.setPipe p q).lanes = s.lanes := rfl
@[simp] theorem State.setPipe_tb (s : State) (p : Nat) (q : Pipe) : (s.setPipe p q).tb = s.tb := rfl
@[simp] theorem State.setPipe_hbx (s : State) (p : Nat) (q : Pipe) : (s.setPipe p q).hbx = s.hbx := rfl
@[simp] theorem State.setPipe_trp (s : State) (p : Nat) (q : Pipe) :
    (s.setPipe p q).trp = { s.trp with pipes := SMap.set {} s.trp.pipes p q } := rfl
@[simp] theorem State.setPipe_vat (s : State) (p : Nat) (q : Pipe) : (s.setPipe p q).vat = s.vat := rfl
@[simp] theorem State.setPipe_pcx (s : State) (p : Nat) (q : Pipe) : (s.setPipe p q).pcx = s.pcx := rfl
@[simp] theorem State.setPipe_hif (s : State) (p : Nat) (q : Pipe) : (s.setPipe p q).hif = s.hif := rfl
@[simp] theorem State.setPipe_xms (s : State) (p : Nat) (q : Pipe) : (s.setPipe p q).xms = s.xms := rfl
@[simp] theorem State.setPipe_flt (s : State) (p : Nat) (q : Pipe) : (s.setPipe p q).flt = s.flt := rfl
@[simp] theorem State.setPipe_svc (s : State) (p : Nat) (q : Pipe) : (s.setPipe p q).svc = s.svc := rfl
@[simp] theorem State.setPipe_pwr (s : State) (p : Nat) (q : Pipe) : (s.setPipe p q).pwr = s.pwr := rfl
@[simp] theorem State.setPipe_dnd (s : State) (p : Nat) (q : Pipe) : (s.setPipe p q).dnd = s.dnd := rfl
@[simp] theorem State.setPipe_sec (s : State) (p : Nat) (q : Pipe) : (s.setPipe p q).sec = s.sec := rfl
@[simp] theorem State.setPipe_bru (s : State) (p : Nat) (q : Pipe) : (s.setPipe p q).bru = s.bru := rfl
@[simp] theorem State.setPipe_wcap (s : State) (p : Nat) (q : Pipe) : (s.setPipe p q).wcap = s.wcap := rfl
@[simp] theorem State.setPipe_stepA1 (s : State) (p : Nat) (q : Pipe) : (s.setPipe p q).stepA1 = s.stepA1 := rfl
@[simp] theorem State.setPipe_enables (s : State) (p : Nat) (q : Pipe) : (s.setPipe p q).enables = s.enables := rfl

/-! ### setStream -/

@[simp] theorem State.setStream_pending (s : State) (i : Nat) (x : Stream) : (s.setStream i x).pending = s.pending := rfl
@[simp] theorem State.setStream_free (s : State) (i : Nat) (x : Stream) : (s.setStream i x).free = s.free := rfl
@[simp] theorem State.setStream_out (s : State) (i : Nat) (x : Stream) : (s.setStream i x).out = s.out := rfl
@[simp] theorem State.setStream_host (s : State) (i : Nat) (x : Stream) : (s.setStream i x).host = s.host := rfl
@[simp] theorem State.setStream_fab (s : State) (i : Nat) (x : Stream) : (s.setStream i x).fab = s.fab := rfl
@[simp] theorem State.setStream_gddr (s : State) (i : Nat) (x : Stream) : (s.setStream i x).gddr = s.gddr := rfl
@[simp] theorem State.setStream_images (s : State) (i : Nat) (x : Stream) : (s.setStream i x).images = s.images := rfl
@[simp] theorem State.setStream_lanes (s : State) (i : Nat) (x : Stream) : (s.setStream i x).lanes = s.lanes := rfl
@[simp] theorem State.setStream_tb (s : State) (i : Nat) (x : Stream) : (s.setStream i x).tb = s.tb := rfl
@[simp] theorem State.setStream_hbx (s : State) (i : Nat) (x : Stream) :
    (s.setStream i x).hbx = { s.hbx with streams := SMap.set {} s.hbx.streams i x } := rfl
@[simp] theorem State.setStream_trp (s : State) (i : Nat) (x : Stream) : (s.setStream i x).trp = s.trp := rfl
@[simp] theorem State.setStream_vat (s : State) (i : Nat) (x : Stream) : (s.setStream i x).vat = s.vat := rfl
@[simp] theorem State.setStream_pcx (s : State) (i : Nat) (x : Stream) : (s.setStream i x).pcx = s.pcx := rfl
@[simp] theorem State.setStream_hif (s : State) (i : Nat) (x : Stream) : (s.setStream i x).hif = s.hif := rfl
@[simp] theorem State.setStream_xms (s : State) (i : Nat) (x : Stream) : (s.setStream i x).xms = s.xms := rfl
@[simp] theorem State.setStream_flt (s : State) (i : Nat) (x : Stream) : (s.setStream i x).flt = s.flt := rfl
@[simp] theorem State.setStream_svc (s : State) (i : Nat) (x : Stream) : (s.setStream i x).svc = s.svc := rfl
@[simp] theorem State.setStream_pwr (s : State) (i : Nat) (x : Stream) : (s.setStream i x).pwr = s.pwr := rfl
@[simp] theorem State.setStream_dnd (s : State) (i : Nat) (x : Stream) : (s.setStream i x).dnd = s.dnd := rfl
@[simp] theorem State.setStream_sec (s : State) (i : Nat) (x : Stream) : (s.setStream i x).sec = s.sec := rfl
@[simp] theorem State.setStream_bru (s : State) (i : Nat) (x : Stream) : (s.setStream i x).bru = s.bru := rfl
@[simp] theorem State.setStream_wcap (s : State) (i : Nat) (x : Stream) : (s.setStream i x).wcap = s.wcap := rfl
@[simp] theorem State.setStream_stepA1 (s : State) (i : Nat) (x : Stream) : (s.setStream i x).stepA1 = s.stepA1 := rfl
@[simp] theorem State.setStream_enables (s : State) (i : Nat) (x : Stream) : (s.setStream i x).enables = s.enables := rfl

/-! ### setRing -/

@[simp] theorem State.setRing_pending (s : State) (r : Nat) (x : Ring) : (s.setRing r x).pending = s.pending := rfl
@[simp] theorem State.setRing_free (s : State) (r : Nat) (x : Ring) : (s.setRing r x).free = s.free := rfl
@[simp] theorem State.setRing_out (s : State) (r : Nat) (x : Ring) : (s.setRing r x).out = s.out := rfl
@[simp] theorem State.setRing_host (s : State) (r : Nat) (x : Ring) : (s.setRing r x).host = s.host := rfl
@[simp] theorem State.setRing_fab (s : State) (r : Nat) (x : Ring) : (s.setRing r x).fab = s.fab := rfl
@[simp] theorem State.setRing_gddr (s : State) (r : Nat) (x : Ring) : (s.setRing r x).gddr = s.gddr := rfl
@[simp] theorem State.setRing_images (s : State) (r : Nat) (x : Ring) : (s.setRing r x).images = s.images := rfl
@[simp] theorem State.setRing_lanes (s : State) (r : Nat) (x : Ring) : (s.setRing r x).lanes = s.lanes := rfl
@[simp] theorem State.setRing_tb (s : State) (r : Nat) (x : Ring) : (s.setRing r x).tb = s.tb := rfl
@[simp] theorem State.setRing_hbx (s : State) (r : Nat) (x : Ring) : (s.setRing r x).hbx = s.hbx := rfl
@[simp] theorem State.setRing_trp (s : State) (r : Nat) (x : Ring) : (s.setRing r x).trp = s.trp := rfl
@[simp] theorem State.setRing_vat (s : State) (r : Nat) (x : Ring) : (s.setRing r x).vat = s.vat := rfl
@[simp] theorem State.setRing_pcx (s : State) (r : Nat) (x : Ring) : (s.setRing r x).pcx = s.pcx := rfl
@[simp] theorem State.setRing_hif (s : State) (r : Nat) (x : Ring) :
    (s.setRing r x).hif = { s.hif with rings := SMap.set {} s.hif.rings r x } := rfl
@[simp] theorem State.setRing_xms (s : State) (r : Nat) (x : Ring) : (s.setRing r x).xms = s.xms := rfl
@[simp] theorem State.setRing_flt (s : State) (r : Nat) (x : Ring) : (s.setRing r x).flt = s.flt := rfl
@[simp] theorem State.setRing_svc (s : State) (r : Nat) (x : Ring) : (s.setRing r x).svc = s.svc := rfl
@[simp] theorem State.setRing_pwr (s : State) (r : Nat) (x : Ring) : (s.setRing r x).pwr = s.pwr := rfl
@[simp] theorem State.setRing_dnd (s : State) (r : Nat) (x : Ring) : (s.setRing r x).dnd = s.dnd := rfl
@[simp] theorem State.setRing_sec (s : State) (r : Nat) (x : Ring) : (s.setRing r x).sec = s.sec := rfl
@[simp] theorem State.setRing_bru (s : State) (r : Nat) (x : Ring) : (s.setRing r x).bru = s.bru := rfl
@[simp] theorem State.setRing_wcap (s : State) (r : Nat) (x : Ring) : (s.setRing r x).wcap = s.wcap := rfl
@[simp] theorem State.setRing_stepA1 (s : State) (r : Nat) (x : Ring) : (s.setRing r x).stepA1 = s.stepA1 := rfl
@[simp] theorem State.setRing_enables (s : State) (r : Nat) (x : Ring) : (s.setRing r x).enables = s.enables := rfl

/-! ### setQuarter -/

@[simp] theorem State.setQuarter_pending (s : State) (e : Nat) (q : Quarter) : (s.setQuarter e q).pending = s.pending := rfl
@[simp] theorem State.setQuarter_free (s : State) (e : Nat) (q : Quarter) : (s.setQuarter e q).free = s.free := rfl
@[simp] theorem State.setQuarter_out (s : State) (e : Nat) (q : Quarter) : (s.setQuarter e q).out = s.out := rfl
@[simp] theorem State.setQuarter_host (s : State) (e : Nat) (q : Quarter) : (s.setQuarter e q).host = s.host := rfl
@[simp] theorem State.setQuarter_fab (s : State) (e : Nat) (q : Quarter) : (s.setQuarter e q).fab = s.fab := rfl
@[simp] theorem State.setQuarter_gddr (s : State) (e : Nat) (q : Quarter) :
    (s.setQuarter e q).gddr = { s.gddr with quarters := SMap.set {} s.gddr.quarters e q } := rfl
@[simp] theorem State.setQuarter_images (s : State) (e : Nat) (q : Quarter) : (s.setQuarter e q).images = s.images := rfl
@[simp] theorem State.setQuarter_lanes (s : State) (e : Nat) (q : Quarter) : (s.setQuarter e q).lanes = s.lanes := rfl
@[simp] theorem State.setQuarter_tb (s : State) (e : Nat) (q : Quarter) : (s.setQuarter e q).tb = s.tb := rfl
@[simp] theorem State.setQuarter_hbx (s : State) (e : Nat) (q : Quarter) : (s.setQuarter e q).hbx = s.hbx := rfl
@[simp] theorem State.setQuarter_trp (s : State) (e : Nat) (q : Quarter) : (s.setQuarter e q).trp = s.trp := rfl
@[simp] theorem State.setQuarter_vat (s : State) (e : Nat) (q : Quarter) : (s.setQuarter e q).vat = s.vat := rfl
@[simp] theorem State.setQuarter_pcx (s : State) (e : Nat) (q : Quarter) : (s.setQuarter e q).pcx = s.pcx := rfl
@[simp] theorem State.setQuarter_hif (s : State) (e : Nat) (q : Quarter) : (s.setQuarter e q).hif = s.hif := rfl
@[simp] theorem State.setQuarter_xms (s : State) (e : Nat) (q : Quarter) : (s.setQuarter e q).xms = s.xms := rfl
@[simp] theorem State.setQuarter_flt (s : State) (e : Nat) (q : Quarter) : (s.setQuarter e q).flt = s.flt := rfl
@[simp] theorem State.setQuarter_svc (s : State) (e : Nat) (q : Quarter) : (s.setQuarter e q).svc = s.svc := rfl
@[simp] theorem State.setQuarter_pwr (s : State) (e : Nat) (q : Quarter) : (s.setQuarter e q).pwr = s.pwr := rfl
@[simp] theorem State.setQuarter_dnd (s : State) (e : Nat) (q : Quarter) : (s.setQuarter e q).dnd = s.dnd := rfl
@[simp] theorem State.setQuarter_sec (s : State) (e : Nat) (q : Quarter) : (s.setQuarter e q).sec = s.sec := rfl
@[simp] theorem State.setQuarter_bru (s : State) (e : Nat) (q : Quarter) : (s.setQuarter e q).bru = s.bru := rfl
@[simp] theorem State.setQuarter_wcap (s : State) (e : Nat) (q : Quarter) : (s.setQuarter e q).wcap = s.wcap := rfl
@[simp] theorem State.setQuarter_stepA1 (s : State) (e : Nat) (q : Quarter) : (s.setQuarter e q).stepA1 = s.stepA1 := rfl
@[simp] theorem State.setQuarter_enables (s : State) (e : Nat) (q : Quarter) : (s.setQuarter e q).enables = s.enables := rfl

/-! ### setRegion -/

@[simp] theorem State.setRegion_pending (s : State) (n : Nat) (x : Rgt) : (s.setRegion n x).pending = s.pending := rfl
@[simp] theorem State.setRegion_free (s : State) (n : Nat) (x : Rgt) : (s.setRegion n x).free = s.free := rfl
@[simp] theorem State.setRegion_out (s : State) (n : Nat) (x : Rgt) : (s.setRegion n x).out = s.out := rfl
@[simp] theorem State.setRegion_host (s : State) (n : Nat) (x : Rgt) : (s.setRegion n x).host = s.host := rfl
@[simp] theorem State.setRegion_fab (s : State) (n : Nat) (x : Rgt) : (s.setRegion n x).fab = s.fab := rfl
@[simp] theorem State.setRegion_gddr (s : State) (n : Nat) (x : Rgt) :
    (s.setRegion n x).gddr = { s.gddr with rgt := SMap.set {} s.gddr.rgt n x } := rfl
@[simp] theorem State.setRegion_images (s : State) (n : Nat) (x : Rgt) : (s.setRegion n x).images = s.images := rfl
@[simp] theorem State.setRegion_lanes (s : State) (n : Nat) (x : Rgt) : (s.setRegion n x).lanes = s.lanes := rfl
@[simp] theorem State.setRegion_tb (s : State) (n : Nat) (x : Rgt) : (s.setRegion n x).tb = s.tb := rfl
@[simp] theorem State.setRegion_hbx (s : State) (n : Nat) (x : Rgt) : (s.setRegion n x).hbx = s.hbx := rfl
@[simp] theorem State.setRegion_trp (s : State) (n : Nat) (x : Rgt) : (s.setRegion n x).trp = s.trp := rfl
@[simp] theorem State.setRegion_vat (s : State) (n : Nat) (x : Rgt) : (s.setRegion n x).vat = s.vat := rfl
@[simp] theorem State.setRegion_pcx (s : State) (n : Nat) (x : Rgt) : (s.setRegion n x).pcx = s.pcx := rfl
@[simp] theorem State.setRegion_hif (s : State) (n : Nat) (x : Rgt) : (s.setRegion n x).hif = s.hif := rfl
@[simp] theorem State.setRegion_xms (s : State) (n : Nat) (x : Rgt) : (s.setRegion n x).xms = s.xms := rfl
@[simp] theorem State.setRegion_flt (s : State) (n : Nat) (x : Rgt) : (s.setRegion n x).flt = s.flt := rfl
@[simp] theorem State.setRegion_svc (s : State) (n : Nat) (x : Rgt) : (s.setRegion n x).svc = s.svc := rfl
@[simp] theorem State.setRegion_pwr (s : State) (n : Nat) (x : Rgt) : (s.setRegion n x).pwr = s.pwr := rfl
@[simp] theorem State.setRegion_dnd (s : State) (n : Nat) (x : Rgt) : (s.setRegion n x).dnd = s.dnd := rfl
@[simp] theorem State.setRegion_sec (s : State) (n : Nat) (x : Rgt) : (s.setRegion n x).sec = s.sec := rfl
@[simp] theorem State.setRegion_bru (s : State) (n : Nat) (x : Rgt) : (s.setRegion n x).bru = s.bru := rfl
@[simp] theorem State.setRegion_wcap (s : State) (n : Nat) (x : Rgt) : (s.setRegion n x).wcap = s.wcap := rfl
@[simp] theorem State.setRegion_stepA1 (s : State) (n : Nat) (x : Rgt) : (s.setRegion n x).stepA1 = s.stepA1 := rfl
@[simp] theorem State.setRegion_enables (s : State) (n : Nat) (x : Rgt) : (s.setRegion n x).enables = s.enables := rfl

/-! ### emit -/

@[simp] theorem State.emit_pending (s : State) (o : Out) : (s.emit o).pending = s.pending := rfl
@[simp] theorem State.emit_free (s : State) (o : Out) : (s.emit o).free = s.free := rfl
@[simp] theorem State.emit_out (s : State) (o : Out) : (s.emit o).out = s.out ++ [o] := rfl
@[simp] theorem State.emit_host (s : State) (o : Out) : (s.emit o).host = s.host := rfl
@[simp] theorem State.emit_fab (s : State) (o : Out) : (s.emit o).fab = s.fab := rfl
@[simp] theorem State.emit_gddr (s : State) (o : Out) : (s.emit o).gddr = s.gddr := rfl
@[simp] theorem State.emit_images (s : State) (o : Out) : (s.emit o).images = s.images := rfl
@[simp] theorem State.emit_lanes (s : State) (o : Out) : (s.emit o).lanes = s.lanes := rfl
@[simp] theorem State.emit_tb (s : State) (o : Out) : (s.emit o).tb = s.tb := rfl
@[simp] theorem State.emit_hbx (s : State) (o : Out) : (s.emit o).hbx = s.hbx := rfl
@[simp] theorem State.emit_trp (s : State) (o : Out) : (s.emit o).trp = s.trp := rfl
@[simp] theorem State.emit_vat (s : State) (o : Out) : (s.emit o).vat = s.vat := rfl
@[simp] theorem State.emit_pcx (s : State) (o : Out) : (s.emit o).pcx = s.pcx := rfl
@[simp] theorem State.emit_hif (s : State) (o : Out) : (s.emit o).hif = s.hif := rfl
@[simp] theorem State.emit_xms (s : State) (o : Out) : (s.emit o).xms = s.xms := rfl
@[simp] theorem State.emit_flt (s : State) (o : Out) : (s.emit o).flt = s.flt := rfl
@[simp] theorem State.emit_svc (s : State) (o : Out) : (s.emit o).svc = s.svc := rfl
@[simp] theorem State.emit_pwr (s : State) (o : Out) : (s.emit o).pwr = s.pwr := rfl
@[simp] theorem State.emit_dnd (s : State) (o : Out) : (s.emit o).dnd = s.dnd := rfl
@[simp] theorem State.emit_sec (s : State) (o : Out) : (s.emit o).sec = s.sec := rfl
@[simp] theorem State.emit_bru (s : State) (o : Out) : (s.emit o).bru = s.bru := rfl
@[simp] theorem State.emit_wcap (s : State) (o : Out) : (s.emit o).wcap = s.wcap := rfl
@[simp] theorem State.emit_stepA1 (s : State) (o : Out) : (s.emit o).stepA1 = s.stepA1 := rfl
@[simp] theorem State.emit_enables (s : State) (o : Out) : (s.emit o).enables = s.enables := rfl

/-! ### gddrClear -/

@[simp] theorem State.gddrClear_pending (s : State) (line n : Nat) : (s.gddrClear line n).pending = s.pending := rfl
@[simp] theorem State.gddrClear_free (s : State) (line n : Nat) : (s.gddrClear line n).free = s.free := rfl
@[simp] theorem State.gddrClear_out (s : State) (line n : Nat) : (s.gddrClear line n).out = s.out := rfl
@[simp] theorem State.gddrClear_host (s : State) (line n : Nat) : (s.gddrClear line n).host = s.host := rfl
@[simp] theorem State.gddrClear_fab (s : State) (line n : Nat) : (s.gddrClear line n).fab = s.fab := rfl
@[simp] theorem State.gddrClear_images (s : State) (line n : Nat) : (s.gddrClear line n).images = s.images := rfl
@[simp] theorem State.gddrClear_lanes (s : State) (line n : Nat) : (s.gddrClear line n).lanes = s.lanes := rfl
@[simp] theorem State.gddrClear_tb (s : State) (line n : Nat) : (s.gddrClear line n).tb = s.tb := rfl
@[simp] theorem State.gddrClear_hbx (s : State) (line n : Nat) : (s.gddrClear line n).hbx = s.hbx := rfl
@[simp] theorem State.gddrClear_trp (s : State) (line n : Nat) : (s.gddrClear line n).trp = s.trp := rfl
@[simp] theorem State.gddrClear_vat (s : State) (line n : Nat) : (s.gddrClear line n).vat = s.vat := rfl
@[simp] theorem State.gddrClear_pcx (s : State) (line n : Nat) : (s.gddrClear line n).pcx = s.pcx := rfl
@[simp] theorem State.gddrClear_hif (s : State) (line n : Nat) : (s.gddrClear line n).hif = s.hif := rfl
@[simp] theorem State.gddrClear_xms (s : State) (line n : Nat) : (s.gddrClear line n).xms = s.xms := rfl
@[simp] theorem State.gddrClear_flt (s : State) (line n : Nat) : (s.gddrClear line n).flt = s.flt := rfl
@[simp] theorem State.gddrClear_svc (s : State) (line n : Nat) : (s.gddrClear line n).svc = s.svc := rfl
@[simp] theorem State.gddrClear_pwr (s : State) (line n : Nat) : (s.gddrClear line n).pwr = s.pwr := rfl
@[simp] theorem State.gddrClear_dnd (s : State) (line n : Nat) : (s.gddrClear line n).dnd = s.dnd := rfl
@[simp] theorem State.gddrClear_sec (s : State) (line n : Nat) : (s.gddrClear line n).sec = s.sec := rfl
@[simp] theorem State.gddrClear_bru (s : State) (line n : Nat) : (s.gddrClear line n).bru = s.bru := rfl
@[simp] theorem State.gddrClear_wcap (s : State) (line n : Nat) : (s.gddrClear line n).wcap = s.wcap := rfl
@[simp] theorem State.gddrClear_stepA1 (s : State) (line n : Nat) : (s.gddrClear line n).stepA1 = s.stepA1 := rfl
@[simp] theorem State.gddrClear_enables (s : State) (line n : Nat) : (s.gddrClear line n).enables = s.enables := rfl

/-! ### hostWrite -/

@[simp] theorem State.hostWrite_pending (s : State) (a : Nat) (bs : List Byte) : (s.hostWrite a bs).pending = s.pending := rfl
@[simp] theorem State.hostWrite_free (s : State) (a : Nat) (bs : List Byte) : (s.hostWrite a bs).free = s.free := rfl
@[simp] theorem State.hostWrite_out (s : State) (a : Nat) (bs : List Byte) : (s.hostWrite a bs).out = s.out := rfl
@[simp] theorem State.hostWrite_host (s : State) (a : Nat) (bs : List Byte) :
    (s.hostWrite a bs).host = s.host.writeBytes a bs := rfl
@[simp] theorem State.hostWrite_fab (s : State) (a : Nat) (bs : List Byte) : (s.hostWrite a bs).fab = s.fab := rfl
@[simp] theorem State.hostWrite_gddr (s : State) (a : Nat) (bs : List Byte) : (s.hostWrite a bs).gddr = s.gddr := rfl
@[simp] theorem State.hostWrite_images (s : State) (a : Nat) (bs : List Byte) : (s.hostWrite a bs).images = s.images := rfl
@[simp] theorem State.hostWrite_lanes (s : State) (a : Nat) (bs : List Byte) : (s.hostWrite a bs).lanes = s.lanes := rfl
@[simp] theorem State.hostWrite_tb (s : State) (a : Nat) (bs : List Byte) : (s.hostWrite a bs).tb = s.tb := rfl
@[simp] theorem State.hostWrite_hbx (s : State) (a : Nat) (bs : List Byte) : (s.hostWrite a bs).hbx = s.hbx := rfl
@[simp] theorem State.hostWrite_trp (s : State) (a : Nat) (bs : List Byte) : (s.hostWrite a bs).trp = s.trp := rfl
@[simp] theorem State.hostWrite_vat (s : State) (a : Nat) (bs : List Byte) : (s.hostWrite a bs).vat = s.vat := rfl
@[simp] theorem State.hostWrite_pcx (s : State) (a : Nat) (bs : List Byte) : (s.hostWrite a bs).pcx = s.pcx := rfl
@[simp] theorem State.hostWrite_hif (s : State) (a : Nat) (bs : List Byte) : (s.hostWrite a bs).hif = s.hif := rfl
@[simp] theorem State.hostWrite_xms (s : State) (a : Nat) (bs : List Byte) : (s.hostWrite a bs).xms = s.xms := rfl
@[simp] theorem State.hostWrite_flt (s : State) (a : Nat) (bs : List Byte) : (s.hostWrite a bs).flt = s.flt := rfl
@[simp] theorem State.hostWrite_svc (s : State) (a : Nat) (bs : List Byte) : (s.hostWrite a bs).svc = s.svc := rfl
@[simp] theorem State.hostWrite_pwr (s : State) (a : Nat) (bs : List Byte) : (s.hostWrite a bs).pwr = s.pwr := rfl
@[simp] theorem State.hostWrite_dnd (s : State) (a : Nat) (bs : List Byte) : (s.hostWrite a bs).dnd = s.dnd := rfl
@[simp] theorem State.hostWrite_sec (s : State) (a : Nat) (bs : List Byte) : (s.hostWrite a bs).sec = s.sec := rfl
@[simp] theorem State.hostWrite_bru (s : State) (a : Nat) (bs : List Byte) : (s.hostWrite a bs).bru = s.bru := rfl
@[simp] theorem State.hostWrite_wcap (s : State) (a : Nat) (bs : List Byte) : (s.hostWrite a bs).wcap = s.wcap := rfl
@[simp] theorem State.hostWrite_stepA1 (s : State) (a : Nat) (bs : List Byte) : (s.hostWrite a bs).stepA1 = s.stepA1 := rfl
@[simp] theorem State.hostWrite_enables (s : State) (a : Nat) (bs : List Byte) : (s.hostWrite a bs).enables = s.enables := rfl

/-! ### setBucket -/

@[simp] theorem State.setBucket_pending (s : State) (k u : Nat) (v : BitVec 16) : (s.setBucket k u v).pending = s.pending := rfl
@[simp] theorem State.setBucket_free (s : State) (k u : Nat) (v : BitVec 16) : (s.setBucket k u v).free = s.free := rfl
@[simp] theorem State.setBucket_out (s : State) (k u : Nat) (v : BitVec 16) : (s.setBucket k u v).out = s.out := rfl
@[simp] theorem State.setBucket_host (s : State) (k u : Nat) (v : BitVec 16) : (s.setBucket k u v).host = s.host := rfl
@[simp] theorem State.setBucket_fab (s : State) (k u : Nat) (v : BitVec 16) : (s.setBucket k u v).fab = s.fab := rfl
@[simp] theorem State.setBucket_gddr (s : State) (k u : Nat) (v : BitVec 16) : (s.setBucket k u v).gddr = s.gddr := rfl
@[simp] theorem State.setBucket_images (s : State) (k u : Nat) (v : BitVec 16) : (s.setBucket k u v).images = s.images := rfl
@[simp] theorem State.setBucket_lanes (s : State) (k u : Nat) (v : BitVec 16) : (s.setBucket k u v).lanes = s.lanes := rfl
@[simp] theorem State.setBucket_tb (s : State) (k u : Nat) (v : BitVec 16) : (s.setBucket k u v).tb = s.tb := rfl
@[simp] theorem State.setBucket_hbx (s : State) (k u : Nat) (v : BitVec 16) : (s.setBucket k u v).hbx = s.hbx := rfl
@[simp] theorem State.setBucket_trp (s : State) (k u : Nat) (v : BitVec 16) : (s.setBucket k u v).trp = s.trp := rfl
@[simp] theorem State.setBucket_vat (s : State) (k u : Nat) (v : BitVec 16) : (s.setBucket k u v).vat = s.vat := rfl
@[simp] theorem State.setBucket_pcx (s : State) (k u : Nat) (v : BitVec 16) : (s.setBucket k u v).pcx = s.pcx := rfl
@[simp] theorem State.setBucket_hif (s : State) (k u : Nat) (v : BitVec 16) : (s.setBucket k u v).hif = s.hif := rfl
@[simp] theorem State.setBucket_xms (s : State) (k u : Nat) (v : BitVec 16) : (s.setBucket k u v).xms = s.xms := rfl
@[simp] theorem State.setBucket_flt (s : State) (k u : Nat) (v : BitVec 16) :
    (s.setBucket k u v).flt = { s.flt with buckets := SMap.set 0 s.flt.buckets (bucketKey k u) v } := rfl
@[simp] theorem State.setBucket_svc (s : State) (k u : Nat) (v : BitVec 16) : (s.setBucket k u v).svc = s.svc := rfl
@[simp] theorem State.setBucket_pwr (s : State) (k u : Nat) (v : BitVec 16) : (s.setBucket k u v).pwr = s.pwr := rfl
@[simp] theorem State.setBucket_dnd (s : State) (k u : Nat) (v : BitVec 16) : (s.setBucket k u v).dnd = s.dnd := rfl
@[simp] theorem State.setBucket_sec (s : State) (k u : Nat) (v : BitVec 16) : (s.setBucket k u v).sec = s.sec := rfl
@[simp] theorem State.setBucket_bru (s : State) (k u : Nat) (v : BitVec 16) : (s.setBucket k u v).bru = s.bru := rfl
@[simp] theorem State.setBucket_wcap (s : State) (k u : Nat) (v : BitVec 16) : (s.setBucket k u v).wcap = s.wcap := rfl
@[simp] theorem State.setBucket_stepA1 (s : State) (k u : Nat) (v : BitVec 16) : (s.setBucket k u v).stepA1 = s.stepA1 := rfl
@[simp] theorem State.setBucket_enables (s : State) (k u : Nat) (v : BitVec 16) : (s.setBucket k u v).enables = s.enables := rfl

/-! ### noteRepair -/

@[simp] theorem State.noteRepair_pending (s : State) (kind : Nat) (loc : BitVec 32) :
    (s.noteRepair kind loc).pending = s.pending := rfl
@[simp] theorem State.noteRepair_free (s : State) (kind : Nat) (loc : BitVec 32) : (s.noteRepair kind loc).free = s.free := rfl
@[simp] theorem State.noteRepair_out (s : State) (kind : Nat) (loc : BitVec 32) : (s.noteRepair kind loc).out = s.out := rfl
@[simp] theorem State.noteRepair_host (s : State) (kind : Nat) (loc : BitVec 32) : (s.noteRepair kind loc).host = s.host := rfl
@[simp] theorem State.noteRepair_fab (s : State) (kind : Nat) (loc : BitVec 32) : (s.noteRepair kind loc).fab = s.fab := rfl
@[simp] theorem State.noteRepair_gddr (s : State) (kind : Nat) (loc : BitVec 32) : (s.noteRepair kind loc).gddr = s.gddr := rfl
@[simp] theorem State.noteRepair_images (s : State) (kind : Nat) (loc : BitVec 32) :
    (s.noteRepair kind loc).images = s.images := rfl
@[simp] theorem State.noteRepair_lanes (s : State) (kind : Nat) (loc : BitVec 32) : (s.noteRepair kind loc).lanes = s.lanes := rfl
@[simp] theorem State.noteRepair_tb (s : State) (kind : Nat) (loc : BitVec 32) : (s.noteRepair kind loc).tb = s.tb := rfl
@[simp] theorem State.noteRepair_hbx (s : State) (kind : Nat) (loc : BitVec 32) : (s.noteRepair kind loc).hbx = s.hbx := rfl
@[simp] theorem State.noteRepair_trp (s : State) (kind : Nat) (loc : BitVec 32) : (s.noteRepair kind loc).trp = s.trp := rfl
@[simp] theorem State.noteRepair_vat (s : State) (kind : Nat) (loc : BitVec 32) : (s.noteRepair kind loc).vat = s.vat := rfl
@[simp] theorem State.noteRepair_pcx (s : State) (kind : Nat) (loc : BitVec 32) : (s.noteRepair kind loc).pcx = s.pcx := rfl
@[simp] theorem State.noteRepair_hif (s : State) (kind : Nat) (loc : BitVec 32) : (s.noteRepair kind loc).hif = s.hif := rfl
@[simp] theorem State.noteRepair_xms (s : State) (kind : Nat) (loc : BitVec 32) : (s.noteRepair kind loc).xms = s.xms := rfl
@[simp] theorem State.noteRepair_flt (s : State) (kind : Nat) (loc : BitVec 32) :
    (s.noteRepair kind loc).flt = { s.flt with unburned := s.flt.unburned ++ [(BitVec.ofNat 8 kind, loc)] } := rfl
@[simp] theorem State.noteRepair_svc (s : State) (kind : Nat) (loc : BitVec 32) : (s.noteRepair kind loc).svc = s.svc := rfl
@[simp] theorem State.noteRepair_pwr (s : State) (kind : Nat) (loc : BitVec 32) : (s.noteRepair kind loc).pwr = s.pwr := rfl
@[simp] theorem State.noteRepair_dnd (s : State) (kind : Nat) (loc : BitVec 32) : (s.noteRepair kind loc).dnd = s.dnd := rfl
@[simp] theorem State.noteRepair_sec (s : State) (kind : Nat) (loc : BitVec 32) : (s.noteRepair kind loc).sec = s.sec := rfl
@[simp] theorem State.noteRepair_bru (s : State) (kind : Nat) (loc : BitVec 32) : (s.noteRepair kind loc).bru = s.bru := rfl
@[simp] theorem State.noteRepair_wcap (s : State) (kind : Nat) (loc : BitVec 32) : (s.noteRepair kind loc).wcap = s.wcap := rfl
@[simp] theorem State.noteRepair_stepA1 (s : State) (kind : Nat) (loc : BitVec 32) :
    (s.noteRepair kind loc).stepA1 = s.stepA1 := rfl
@[simp] theorem State.noteRepair_enables (s : State) (kind : Nat) (loc : BitVec 32) :
    (s.noteRepair kind loc).enables = s.enables := rfl

/-! ### setPartner -/

@[simp] theorem State.setPartner_pending (s : State) (g : Nat) (p : Partner) : (s.setPartner g p).pending = s.pending := rfl
@[simp] theorem State.setPartner_free (s : State) (g : Nat) (p : Partner) : (s.setPartner g p).free = s.free := rfl
@[simp] theorem State.setPartner_out (s : State) (g : Nat) (p : Partner) : (s.setPartner g p).out = s.out := rfl
@[simp] theorem State.setPartner_host (s : State) (g : Nat) (p : Partner) : (s.setPartner g p).host = s.host := rfl
@[simp] theorem State.setPartner_fab (s : State) (g : Nat) (p : Partner) : (s.setPartner g p).fab = s.fab := rfl
@[simp] theorem State.setPartner_gddr (s : State) (g : Nat) (p : Partner) : (s.setPartner g p).gddr = s.gddr := rfl
@[simp] theorem State.setPartner_images (s : State) (g : Nat) (p : Partner) : (s.setPartner g p).images = s.images := rfl
@[simp] theorem State.setPartner_lanes (s : State) (g : Nat) (p : Partner) : (s.setPartner g p).lanes = s.lanes := rfl
@[simp] theorem State.setPartner_tb (s : State) (g : Nat) (p : Partner) : (s.setPartner g p).tb = s.tb := rfl
@[simp] theorem State.setPartner_hbx (s : State) (g : Nat) (p : Partner) :
    (s.setPartner g p).hbx = { s.hbx with partners := SMap.set {} s.hbx.partners g p } := rfl
@[simp] theorem State.setPartner_trp (s : State) (g : Nat) (p : Partner) : (s.setPartner g p).trp = s.trp := rfl
@[simp] theorem State.setPartner_vat (s : State) (g : Nat) (p : Partner) : (s.setPartner g p).vat = s.vat := rfl
@[simp] theorem State.setPartner_pcx (s : State) (g : Nat) (p : Partner) : (s.setPartner g p).pcx = s.pcx := rfl
@[simp] theorem State.setPartner_hif (s : State) (g : Nat) (p : Partner) : (s.setPartner g p).hif = s.hif := rfl
@[simp] theorem State.setPartner_xms (s : State) (g : Nat) (p : Partner) : (s.setPartner g p).xms = s.xms := rfl
@[simp] theorem State.setPartner_flt (s : State) (g : Nat) (p : Partner) : (s.setPartner g p).flt = s.flt := rfl
@[simp] theorem State.setPartner_svc (s : State) (g : Nat) (p : Partner) : (s.setPartner g p).svc = s.svc := rfl
@[simp] theorem State.setPartner_pwr (s : State) (g : Nat) (p : Partner) : (s.setPartner g p).pwr = s.pwr := rfl
@[simp] theorem State.setPartner_dnd (s : State) (g : Nat) (p : Partner) : (s.setPartner g p).dnd = s.dnd := rfl
@[simp] theorem State.setPartner_sec (s : State) (g : Nat) (p : Partner) : (s.setPartner g p).sec = s.sec := rfl
@[simp] theorem State.setPartner_bru (s : State) (g : Nat) (p : Partner) : (s.setPartner g p).bru = s.bru := rfl
@[simp] theorem State.setPartner_wcap (s : State) (g : Nat) (p : Partner) : (s.setPartner g p).wcap = s.wcap := rfl
@[simp] theorem State.setPartner_stepA1 (s : State) (g : Nat) (p : Partner) : (s.setPartner g p).stepA1 = s.stepA1 := rfl
@[simp] theorem State.setPartner_enables (s : State) (g : Nat) (p : Partner) : (s.setPartner g p).enables = s.enables := rfl

/-! ### setXport -/

@[simp] theorem State.setXport_pending (s : State) (p : Nat) (x : XPort) : (s.setXport p x).pending = s.pending := rfl
@[simp] theorem State.setXport_free (s : State) (p : Nat) (x : XPort) : (s.setXport p x).free = s.free := rfl
@[simp] theorem State.setXport_out (s : State) (p : Nat) (x : XPort) : (s.setXport p x).out = s.out := rfl
@[simp] theorem State.setXport_host (s : State) (p : Nat) (x : XPort) : (s.setXport p x).host = s.host := rfl
@[simp] theorem State.setXport_fab (s : State) (p : Nat) (x : XPort) : (s.setXport p x).fab = s.fab := rfl
@[simp] theorem State.setXport_gddr (s : State) (p : Nat) (x : XPort) : (s.setXport p x).gddr = s.gddr := rfl
@[simp] theorem State.setXport_images (s : State) (p : Nat) (x : XPort) : (s.setXport p x).images = s.images := rfl
@[simp] theorem State.setXport_lanes (s : State) (p : Nat) (x : XPort) : (s.setXport p x).lanes = s.lanes := rfl
@[simp] theorem State.setXport_tb (s : State) (p : Nat) (x : XPort) : (s.setXport p x).tb = s.tb := rfl
@[simp] theorem State.setXport_hbx (s : State) (p : Nat) (x : XPort) : (s.setXport p x).hbx = s.hbx := rfl
@[simp] theorem State.setXport_trp (s : State) (p : Nat) (x : XPort) : (s.setXport p x).trp = s.trp := rfl
@[simp] theorem State.setXport_vat (s : State) (p : Nat) (x : XPort) : (s.setXport p x).vat = s.vat := rfl
@[simp] theorem State.setXport_pcx (s : State) (p : Nat) (x : XPort) : (s.setXport p x).pcx = s.pcx := rfl
@[simp] theorem State.setXport_hif (s : State) (p : Nat) (x : XPort) : (s.setXport p x).hif = s.hif := rfl
@[simp] theorem State.setXport_xms (s : State) (p : Nat) (x : XPort) :
    (s.setXport p x).xms = { s.xms with ports := SMap.set {} s.xms.ports p x } := rfl
@[simp] theorem State.setXport_flt (s : State) (p : Nat) (x : XPort) : (s.setXport p x).flt = s.flt := rfl
@[simp] theorem State.setXport_svc (s : State) (p : Nat) (x : XPort) : (s.setXport p x).svc = s.svc := rfl
@[simp] theorem State.setXport_pwr (s : State) (p : Nat) (x : XPort) : (s.setXport p x).pwr = s.pwr := rfl
@[simp] theorem State.setXport_dnd (s : State) (p : Nat) (x : XPort) : (s.setXport p x).dnd = s.dnd := rfl
@[simp] theorem State.setXport_sec (s : State) (p : Nat) (x : XPort) : (s.setXport p x).sec = s.sec := rfl
@[simp] theorem State.setXport_bru (s : State) (p : Nat) (x : XPort) : (s.setXport p x).bru = s.bru := rfl
@[simp] theorem State.setXport_wcap (s : State) (p : Nat) (x : XPort) : (s.setXport p x).wcap = s.wcap := rfl
@[simp] theorem State.setXport_stepA1 (s : State) (p : Nat) (x : XPort) : (s.setXport p x).stepA1 = s.stepA1 := rfl
@[simp] theorem State.setXport_enables (s : State) (p : Nat) (x : XPort) : (s.setXport p x).enables = s.enables := rfl

/-! ### setGroup -/

@[simp] theorem State.setGroup_pending (s : State) (g : Nat) (x : LnpGroup) : (s.setGroup g x).pending = s.pending := rfl
@[simp] theorem State.setGroup_free (s : State) (g : Nat) (x : LnpGroup) : (s.setGroup g x).free = s.free := rfl
@[simp] theorem State.setGroup_out (s : State) (g : Nat) (x : LnpGroup) : (s.setGroup g x).out = s.out := rfl
@[simp] theorem State.setGroup_host (s : State) (g : Nat) (x : LnpGroup) : (s.setGroup g x).host = s.host := rfl
@[simp] theorem State.setGroup_fab (s : State) (g : Nat) (x : LnpGroup) : (s.setGroup g x).fab = s.fab := rfl
@[simp] theorem State.setGroup_gddr (s : State) (g : Nat) (x : LnpGroup) : (s.setGroup g x).gddr = s.gddr := rfl
@[simp] theorem State.setGroup_images (s : State) (g : Nat) (x : LnpGroup) : (s.setGroup g x).images = s.images := rfl
@[simp] theorem State.setGroup_lanes (s : State) (g : Nat) (x : LnpGroup) :
    (s.setGroup g x).lanes = SMap.set {} s.lanes g x := rfl
@[simp] theorem State.setGroup_tb (s : State) (g : Nat) (x : LnpGroup) : (s.setGroup g x).tb = s.tb := rfl
@[simp] theorem State.setGroup_hbx (s : State) (g : Nat) (x : LnpGroup) : (s.setGroup g x).hbx = s.hbx := rfl
@[simp] theorem State.setGroup_trp (s : State) (g : Nat) (x : LnpGroup) : (s.setGroup g x).trp = s.trp := rfl
@[simp] theorem State.setGroup_vat (s : State) (g : Nat) (x : LnpGroup) : (s.setGroup g x).vat = s.vat := rfl
@[simp] theorem State.setGroup_pcx (s : State) (g : Nat) (x : LnpGroup) : (s.setGroup g x).pcx = s.pcx := rfl
@[simp] theorem State.setGroup_hif (s : State) (g : Nat) (x : LnpGroup) : (s.setGroup g x).hif = s.hif := rfl
@[simp] theorem State.setGroup_xms (s : State) (g : Nat) (x : LnpGroup) : (s.setGroup g x).xms = s.xms := rfl
@[simp] theorem State.setGroup_flt (s : State) (g : Nat) (x : LnpGroup) : (s.setGroup g x).flt = s.flt := rfl
@[simp] theorem State.setGroup_svc (s : State) (g : Nat) (x : LnpGroup) : (s.setGroup g x).svc = s.svc := rfl
@[simp] theorem State.setGroup_pwr (s : State) (g : Nat) (x : LnpGroup) : (s.setGroup g x).pwr = s.pwr := rfl
@[simp] theorem State.setGroup_dnd (s : State) (g : Nat) (x : LnpGroup) : (s.setGroup g x).dnd = s.dnd := rfl
@[simp] theorem State.setGroup_sec (s : State) (g : Nat) (x : LnpGroup) : (s.setGroup g x).sec = s.sec := rfl
@[simp] theorem State.setGroup_bru (s : State) (g : Nat) (x : LnpGroup) : (s.setGroup g x).bru = s.bru := rfl
@[simp] theorem State.setGroup_wcap (s : State) (g : Nat) (x : LnpGroup) : (s.setGroup g x).wcap = s.wcap := rfl
@[simp] theorem State.setGroup_stepA1 (s : State) (g : Nat) (x : LnpGroup) : (s.setGroup g x).stepA1 = s.stepA1 := rfl
@[simp] theorem State.setGroup_enables (s : State) (g : Nat) (x : LnpGroup) : (s.setGroup g x).enables = s.enables := rfl

/-! ### setBridge -/

@[simp] theorem State.setBridge_pending (s : State) (k : Nat) (x : BridgeDir) : (s.setBridge k x).pending = s.pending := rfl
@[simp] theorem State.setBridge_free (s : State) (k : Nat) (x : BridgeDir) : (s.setBridge k x).free = s.free := rfl
@[simp] theorem State.setBridge_out (s : State) (k : Nat) (x : BridgeDir) : (s.setBridge k x).out = s.out := rfl
@[simp] theorem State.setBridge_host (s : State) (k : Nat) (x : BridgeDir) : (s.setBridge k x).host = s.host := rfl
@[simp] theorem State.setBridge_fab (s : State) (k : Nat) (x : BridgeDir) :
    (s.setBridge k x).fab = { s.fab with bridges := SMap.set {} s.fab.bridges k x } := rfl
@[simp] theorem State.setBridge_gddr (s : State) (k : Nat) (x : BridgeDir) : (s.setBridge k x).gddr = s.gddr := rfl
@[simp] theorem State.setBridge_images (s : State) (k : Nat) (x : BridgeDir) : (s.setBridge k x).images = s.images := rfl
@[simp] theorem State.setBridge_lanes (s : State) (k : Nat) (x : BridgeDir) : (s.setBridge k x).lanes = s.lanes := rfl
@[simp] theorem State.setBridge_tb (s : State) (k : Nat) (x : BridgeDir) : (s.setBridge k x).tb = s.tb := rfl
@[simp] theorem State.setBridge_hbx (s : State) (k : Nat) (x : BridgeDir) : (s.setBridge k x).hbx = s.hbx := rfl
@[simp] theorem State.setBridge_trp (s : State) (k : Nat) (x : BridgeDir) : (s.setBridge k x).trp = s.trp := rfl
@[simp] theorem State.setBridge_vat (s : State) (k : Nat) (x : BridgeDir) : (s.setBridge k x).vat = s.vat := rfl
@[simp] theorem State.setBridge_pcx (s : State) (k : Nat) (x : BridgeDir) : (s.setBridge k x).pcx = s.pcx := rfl
@[simp] theorem State.setBridge_hif (s : State) (k : Nat) (x : BridgeDir) : (s.setBridge k x).hif = s.hif := rfl
@[simp] theorem State.setBridge_xms (s : State) (k : Nat) (x : BridgeDir) : (s.setBridge k x).xms = s.xms := rfl
@[simp] theorem State.setBridge_flt (s : State) (k : Nat) (x : BridgeDir) : (s.setBridge k x).flt = s.flt := rfl
@[simp] theorem State.setBridge_svc (s : State) (k : Nat) (x : BridgeDir) : (s.setBridge k x).svc = s.svc := rfl
@[simp] theorem State.setBridge_pwr (s : State) (k : Nat) (x : BridgeDir) : (s.setBridge k x).pwr = s.pwr := rfl
@[simp] theorem State.setBridge_dnd (s : State) (k : Nat) (x : BridgeDir) : (s.setBridge k x).dnd = s.dnd := rfl
@[simp] theorem State.setBridge_sec (s : State) (k : Nat) (x : BridgeDir) : (s.setBridge k x).sec = s.sec := rfl
@[simp] theorem State.setBridge_bru (s : State) (k : Nat) (x : BridgeDir) : (s.setBridge k x).bru = s.bru := rfl
@[simp] theorem State.setBridge_wcap (s : State) (k : Nat) (x : BridgeDir) : (s.setBridge k x).wcap = s.wcap := rfl
@[simp] theorem State.setBridge_stepA1 (s : State) (k : Nat) (x : BridgeDir) : (s.setBridge k x).stepA1 = s.stepA1 := rfl
@[simp] theorem State.setBridge_enables (s : State) (k : Nat) (x : BridgeDir) : (s.setBridge k x).enables = s.enables := rfl

/-! ### setDie -/

@[simp] theorem State.setDie_pending (s : State) (k : Nat) (x : DieSt) : (s.setDie k x).pending = s.pending := rfl
@[simp] theorem State.setDie_free (s : State) (k : Nat) (x : DieSt) : (s.setDie k x).free = s.free := rfl
@[simp] theorem State.setDie_out (s : State) (k : Nat) (x : DieSt) : (s.setDie k x).out = s.out := rfl
@[simp] theorem State.setDie_host (s : State) (k : Nat) (x : DieSt) : (s.setDie k x).host = s.host := rfl
@[simp] theorem State.setDie_fab (s : State) (k : Nat) (x : DieSt) :
    (s.setDie k x).fab = { s.fab with dies := SMap.set {} s.fab.dies k x } := rfl
@[simp] theorem State.setDie_gddr (s : State) (k : Nat) (x : DieSt) : (s.setDie k x).gddr = s.gddr := rfl
@[simp] theorem State.setDie_images (s : State) (k : Nat) (x : DieSt) : (s.setDie k x).images = s.images := rfl
@[simp] theorem State.setDie_lanes (s : State) (k : Nat) (x : DieSt) : (s.setDie k x).lanes = s.lanes := rfl
@[simp] theorem State.setDie_tb (s : State) (k : Nat) (x : DieSt) : (s.setDie k x).tb = s.tb := rfl
@[simp] theorem State.setDie_hbx (s : State) (k : Nat) (x : DieSt) : (s.setDie k x).hbx = s.hbx := rfl
@[simp] theorem State.setDie_trp (s : State) (k : Nat) (x : DieSt) : (s.setDie k x).trp = s.trp := rfl
@[simp] theorem State.setDie_vat (s : State) (k : Nat) (x : DieSt) : (s.setDie k x).vat = s.vat := rfl
@[simp] theorem State.setDie_pcx (s : State) (k : Nat) (x : DieSt) : (s.setDie k x).pcx = s.pcx := rfl
@[simp] theorem State.setDie_hif (s : State) (k : Nat) (x : DieSt) : (s.setDie k x).hif = s.hif := rfl
@[simp] theorem State.setDie_xms (s : State) (k : Nat) (x : DieSt) : (s.setDie k x).xms = s.xms := rfl
@[simp] theorem State.setDie_flt (s : State) (k : Nat) (x : DieSt) : (s.setDie k x).flt = s.flt := rfl
@[simp] theorem State.setDie_svc (s : State) (k : Nat) (x : DieSt) : (s.setDie k x).svc = s.svc := rfl
@[simp] theorem State.setDie_pwr (s : State) (k : Nat) (x : DieSt) : (s.setDie k x).pwr = s.pwr := rfl
@[simp] theorem State.setDie_dnd (s : State) (k : Nat) (x : DieSt) : (s.setDie k x).dnd = s.dnd := rfl
@[simp] theorem State.setDie_sec (s : State) (k : Nat) (x : DieSt) : (s.setDie k x).sec = s.sec := rfl
@[simp] theorem State.setDie_bru (s : State) (k : Nat) (x : DieSt) : (s.setDie k x).bru = s.bru := rfl
@[simp] theorem State.setDie_wcap (s : State) (k : Nat) (x : DieSt) : (s.setDie k x).wcap = s.wcap := rfl
@[simp] theorem State.setDie_stepA1 (s : State) (k : Nat) (x : DieSt) : (s.setDie k x).stepA1 = s.stepA1 := rfl
@[simp] theorem State.setDie_enables (s : State) (k : Nat) (x : DieSt) : (s.setDie k x).enables = s.enables := rfl

/-! ### setCore -/

@[simp] theorem State.setCore_pending (s : State) (k : Nat) (v : CoreSt) : (s.setCore k v).pending = s.pending := rfl
@[simp] theorem State.setCore_free (s : State) (k : Nat) (v : CoreSt) : (s.setCore k v).free = s.free := rfl
@[simp] theorem State.setCore_out (s : State) (k : Nat) (v : CoreSt) : (s.setCore k v).out = s.out := rfl
@[simp] theorem State.setCore_host (s : State) (k : Nat) (v : CoreSt) : (s.setCore k v).host = s.host := rfl
@[simp] theorem State.setCore_fab (s : State) (k : Nat) (v : CoreSt) : (s.setCore k v).fab = s.fab := rfl
@[simp] theorem State.setCore_gddr (s : State) (k : Nat) (v : CoreSt) : (s.setCore k v).gddr = s.gddr := rfl
@[simp] theorem State.setCore_images (s : State) (k : Nat) (v : CoreSt) : (s.setCore k v).images = s.images := rfl
@[simp] theorem State.setCore_lanes (s : State) (k : Nat) (v : CoreSt) : (s.setCore k v).lanes = s.lanes := rfl
@[simp] theorem State.setCore_tb (s : State) (k : Nat) (v : CoreSt) : (s.setCore k v).tb = s.tb := rfl
@[simp] theorem State.setCore_hbx (s : State) (k : Nat) (v : CoreSt) : (s.setCore k v).hbx = s.hbx := rfl
@[simp] theorem State.setCore_trp (s : State) (k : Nat) (v : CoreSt) : (s.setCore k v).trp = s.trp := rfl
@[simp] theorem State.setCore_vat (s : State) (k : Nat) (v : CoreSt) : (s.setCore k v).vat = s.vat := rfl
@[simp] theorem State.setCore_pcx (s : State) (k : Nat) (v : CoreSt) : (s.setCore k v).pcx = s.pcx := rfl
@[simp] theorem State.setCore_hif (s : State) (k : Nat) (v : CoreSt) : (s.setCore k v).hif = s.hif := rfl
@[simp] theorem State.setCore_xms (s : State) (k : Nat) (v : CoreSt) : (s.setCore k v).xms = s.xms := rfl
@[simp] theorem State.setCore_flt (s : State) (k : Nat) (v : CoreSt) : (s.setCore k v).flt = s.flt := rfl
@[simp] theorem State.setCore_svc (s : State) (k : Nat) (v : CoreSt) :
    (s.setCore k v).svc = { s.svc with cores := SMap.set (if k < 2 then CoreSt.active else CoreSt.spare) s.svc.cores k v } := rfl
@[simp] theorem State.setCore_pwr (s : State) (k : Nat) (v : CoreSt) : (s.setCore k v).pwr = s.pwr := rfl
@[simp] theorem State.setCore_dnd (s : State) (k : Nat) (v : CoreSt) : (s.setCore k v).dnd = s.dnd := rfl
@[simp] theorem State.setCore_sec (s : State) (k : Nat) (v : CoreSt) : (s.setCore k v).sec = s.sec := rfl
@[simp] theorem State.setCore_bru (s : State) (k : Nat) (v : CoreSt) : (s.setCore k v).bru = s.bru := rfl
@[simp] theorem State.setCore_wcap (s : State) (k : Nat) (v : CoreSt) : (s.setCore k v).wcap = s.wcap := rfl
@[simp] theorem State.setCore_stepA1 (s : State) (k : Nat) (v : CoreSt) : (s.setCore k v).stepA1 = s.stepA1 := rfl
@[simp] theorem State.setCore_enables (s : State) (k : Nat) (v : CoreSt) : (s.setCore k v).enables = s.enables := rfl

/-! ### giveRole -/

@[simp] theorem State.giveRole_pending (s : State) (r k : Nat) : (s.giveRole r k).pending = s.pending := rfl
@[simp] theorem State.giveRole_free (s : State) (r k : Nat) : (s.giveRole r k).free = s.free := rfl
@[simp] theorem State.giveRole_out (s : State) (r k : Nat) : (s.giveRole r k).out = s.out := rfl
@[simp] theorem State.giveRole_host (s : State) (r k : Nat) : (s.giveRole r k).host = s.host := rfl
@[simp] theorem State.giveRole_fab (s : State) (r k : Nat) : (s.giveRole r k).fab = s.fab := rfl
@[simp] theorem State.giveRole_gddr (s : State) (r k : Nat) : (s.giveRole r k).gddr = s.gddr := rfl
@[simp] theorem State.giveRole_images (s : State) (r k : Nat) : (s.giveRole r k).images = s.images := rfl
@[simp] theorem State.giveRole_lanes (s : State) (r k : Nat) : (s.giveRole r k).lanes = s.lanes := rfl
@[simp] theorem State.giveRole_tb (s : State) (r k : Nat) : (s.giveRole r k).tb = s.tb := rfl
@[simp] theorem State.giveRole_hbx (s : State) (r k : Nat) : (s.giveRole r k).hbx = s.hbx := rfl
@[simp] theorem State.giveRole_trp (s : State) (r k : Nat) : (s.giveRole r k).trp = s.trp := rfl
@[simp] theorem State.giveRole_vat (s : State) (r k : Nat) : (s.giveRole r k).vat = s.vat := rfl
@[simp] theorem State.giveRole_pcx (s : State) (r k : Nat) : (s.giveRole r k).pcx = s.pcx := rfl
@[simp] theorem State.giveRole_hif (s : State) (r k : Nat) : (s.giveRole r k).hif = s.hif := rfl
@[simp] theorem State.giveRole_xms (s : State) (r k : Nat) : (s.giveRole r k).xms = s.xms := rfl
@[simp] theorem State.giveRole_flt (s : State) (r k : Nat) : (s.giveRole r k).flt = s.flt := rfl
@[simp] theorem State.giveRole_svc (s : State) (r k : Nat) :
    (s.giveRole r k).svc = { s.svc with roles := SMap.set r s.svc.roles r k } := rfl
@[simp] theorem State.giveRole_pwr (s : State) (r k : Nat) : (s.giveRole r k).pwr = s.pwr := rfl
@[simp] theorem State.giveRole_dnd (s : State) (r k : Nat) : (s.giveRole r k).dnd = s.dnd := rfl
@[simp] theorem State.giveRole_sec (s : State) (r k : Nat) : (s.giveRole r k).sec = s.sec := rfl
@[simp] theorem State.giveRole_bru (s : State) (r k : Nat) : (s.giveRole r k).bru = s.bru := rfl
@[simp] theorem State.giveRole_wcap (s : State) (r k : Nat) : (s.giveRole r k).wcap = s.wcap := rfl
@[simp] theorem State.giveRole_stepA1 (s : State) (r k : Nat) : (s.giveRole r k).stepA1 = s.stepA1 := rfl
@[simp] theorem State.giveRole_enables (s : State) (r k : Nat) : (s.giveRole r k).enables = s.enables := rfl

/-! ### setLine -/

@[simp] theorem State.setLine_pending (s : State) (n : Nat) (l : TrigLine) : (s.setLine n l).pending = s.pending := rfl
@[simp] theorem State.setLine_free (s : State) (n : Nat) (l : TrigLine) : (s.setLine n l).free = s.free := rfl
@[simp] theorem State.setLine_out (s : State) (n : Nat) (l : TrigLine) : (s.setLine n l).out = s.out := rfl
@[simp] theorem State.setLine_host (s : State) (n : Nat) (l : TrigLine) : (s.setLine n l).host = s.host := rfl
@[simp] theorem State.setLine_fab (s : State) (n : Nat) (l : TrigLine) : (s.setLine n l).fab = s.fab := rfl
@[simp] theorem State.setLine_gddr (s : State) (n : Nat) (l : TrigLine) : (s.setLine n l).gddr = s.gddr := rfl
@[simp] theorem State.setLine_images (s : State) (n : Nat) (l : TrigLine) : (s.setLine n l).images = s.images := rfl
@[simp] theorem State.setLine_lanes (s : State) (n : Nat) (l : TrigLine) : (s.setLine n l).lanes = s.lanes := rfl
@[simp] theorem State.setLine_tb (s : State) (n : Nat) (l : TrigLine) : (s.setLine n l).tb = s.tb := rfl
@[simp] theorem State.setLine_hbx (s : State) (n : Nat) (l : TrigLine) : (s.setLine n l).hbx = s.hbx := rfl
@[simp] theorem State.setLine_trp (s : State) (n : Nat) (l : TrigLine) :
    (s.setLine n l).trp = { s.trp with lines := SMap.set {} s.trp.lines n l } := rfl
@[simp] theorem State.setLine_vat (s : State) (n : Nat) (l : TrigLine) : (s.setLine n l).vat = s.vat := rfl
@[simp] theorem State.setLine_pcx (s : State) (n : Nat) (l : TrigLine) : (s.setLine n l).pcx = s.pcx := rfl
@[simp] theorem State.setLine_hif (s : State) (n : Nat) (l : TrigLine) : (s.setLine n l).hif = s.hif := rfl
@[simp] theorem State.setLine_xms (s : State) (n : Nat) (l : TrigLine) : (s.setLine n l).xms = s.xms := rfl
@[simp] theorem State.setLine_flt (s : State) (n : Nat) (l : TrigLine) : (s.setLine n l).flt = s.flt := rfl
@[simp] theorem State.setLine_svc (s : State) (n : Nat) (l : TrigLine) : (s.setLine n l).svc = s.svc := rfl
@[simp] theorem State.setLine_pwr (s : State) (n : Nat) (l : TrigLine) : (s.setLine n l).pwr = s.pwr := rfl
@[simp] theorem State.setLine_dnd (s : State) (n : Nat) (l : TrigLine) : (s.setLine n l).dnd = s.dnd := rfl
@[simp] theorem State.setLine_sec (s : State) (n : Nat) (l : TrigLine) : (s.setLine n l).sec = s.sec := rfl
@[simp] theorem State.setLine_bru (s : State) (n : Nat) (l : TrigLine) : (s.setLine n l).bru = s.bru := rfl
@[simp] theorem State.setLine_wcap (s : State) (n : Nat) (l : TrigLine) : (s.setLine n l).wcap = s.wcap := rfl
@[simp] theorem State.setLine_stepA1 (s : State) (n : Nat) (l : TrigLine) : (s.setLine n l).stepA1 = s.stepA1 := rfl
@[simp] theorem State.setLine_enables (s : State) (n : Nat) (l : TrigLine) : (s.setLine n l).enables = s.enables := rfl

/-! ### setChan -/

@[simp] theorem State.setChan_pending (s : State) (c : Nat) (x : Channel) : (s.setChan c x).pending = s.pending := rfl
@[simp] theorem State.setChan_free (s : State) (c : Nat) (x : Channel) : (s.setChan c x).free = s.free := rfl
@[simp] theorem State.setChan_out (s : State) (c : Nat) (x : Channel) : (s.setChan c x).out = s.out := rfl
@[simp] theorem State.setChan_host (s : State) (c : Nat) (x : Channel) : (s.setChan c x).host = s.host := rfl
@[simp] theorem State.setChan_fab (s : State) (c : Nat) (x : Channel) : (s.setChan c x).fab = s.fab := rfl
@[simp] theorem State.setChan_gddr (s : State) (c : Nat) (x : Channel) : (s.setChan c x).gddr = s.gddr := rfl
@[simp] theorem State.setChan_images (s : State) (c : Nat) (x : Channel) : (s.setChan c x).images = s.images := rfl
@[simp] theorem State.setChan_lanes (s : State) (c : Nat) (x : Channel) : (s.setChan c x).lanes = s.lanes := rfl
@[simp] theorem State.setChan_tb (s : State) (c : Nat) (x : Channel) : (s.setChan c x).tb = s.tb := rfl
@[simp] theorem State.setChan_hbx (s : State) (c : Nat) (x : Channel) : (s.setChan c x).hbx = s.hbx := rfl
@[simp] theorem State.setChan_trp (s : State) (c : Nat) (x : Channel) : (s.setChan c x).trp = s.trp := rfl
@[simp] theorem State.setChan_vat (s : State) (c : Nat) (x : Channel) : (s.setChan c x).vat = s.vat := rfl
@[simp] theorem State.setChan_pcx (s : State) (c : Nat) (x : Channel) : (s.setChan c x).pcx = s.pcx := rfl
@[simp] theorem State.setChan_hif (s : State) (c : Nat) (x : Channel) :
    (s.setChan c x).hif = { s.hif with dma := SMap.set {} s.hif.dma c x } := rfl
@[simp] theorem State.setChan_xms (s : State) (c : Nat) (x : Channel) : (s.setChan c x).xms = s.xms := rfl
@[simp] theorem State.setChan_flt (s : State) (c : Nat) (x : Channel) : (s.setChan c x).flt = s.flt := rfl
@[simp] theorem State.setChan_svc (s : State) (c : Nat) (x : Channel) : (s.setChan c x).svc = s.svc := rfl
@[simp] theorem State.setChan_pwr (s : State) (c : Nat) (x : Channel) : (s.setChan c x).pwr = s.pwr := rfl
@[simp] theorem State.setChan_dnd (s : State) (c : Nat) (x : Channel) : (s.setChan c x).dnd = s.dnd := rfl
@[simp] theorem State.setChan_sec (s : State) (c : Nat) (x : Channel) : (s.setChan c x).sec = s.sec := rfl
@[simp] theorem State.setChan_bru (s : State) (c : Nat) (x : Channel) : (s.setChan c x).bru = s.bru := rfl
@[simp] theorem State.setChan_wcap (s : State) (c : Nat) (x : Channel) : (s.setChan c x).wcap = s.wcap := rfl
@[simp] theorem State.setChan_stepA1 (s : State) (c : Nat) (x : Channel) : (s.setChan c x).stepA1 = s.stepA1 := rfl
@[simp] theorem State.setChan_enables (s : State) (c : Nat) (x : Channel) : (s.setChan c x).enables = s.enables := rfl

/-! ### setTsu -/

@[simp] theorem State.setTsu_pending (s : State) (u : Nat) (x : Tsu) : (s.setTsu u x).pending = s.pending := rfl
@[simp] theorem State.setTsu_free (s : State) (u : Nat) (x : Tsu) : (s.setTsu u x).free = s.free := rfl
@[simp] theorem State.setTsu_out (s : State) (u : Nat) (x : Tsu) : (s.setTsu u x).out = s.out := rfl
@[simp] theorem State.setTsu_host (s : State) (u : Nat) (x : Tsu) : (s.setTsu u x).host = s.host := rfl
@[simp] theorem State.setTsu_fab (s : State) (u : Nat) (x : Tsu) : (s.setTsu u x).fab = s.fab := rfl
@[simp] theorem State.setTsu_gddr (s : State) (u : Nat) (x : Tsu) : (s.setTsu u x).gddr = s.gddr := rfl
@[simp] theorem State.setTsu_images (s : State) (u : Nat) (x : Tsu) : (s.setTsu u x).images = s.images := rfl
@[simp] theorem State.setTsu_lanes (s : State) (u : Nat) (x : Tsu) : (s.setTsu u x).lanes = s.lanes := rfl
@[simp] theorem State.setTsu_tb (s : State) (u : Nat) (x : Tsu) :
    (s.setTsu u x).tb = { s.tb with tsu := SMap.set {} s.tb.tsu u x } := rfl
@[simp] theorem State.setTsu_hbx (s : State) (u : Nat) (x : Tsu) : (s.setTsu u x).hbx = s.hbx := rfl
@[simp] theorem State.setTsu_trp (s : State) (u : Nat) (x : Tsu) : (s.setTsu u x).trp = s.trp := rfl
@[simp] theorem State.setTsu_vat (s : State) (u : Nat) (x : Tsu) : (s.setTsu u x).vat = s.vat := rfl
@[simp] theorem State.setTsu_pcx (s : State) (u : Nat) (x : Tsu) : (s.setTsu u x).pcx = s.pcx := rfl
@[simp] theorem State.setTsu_hif (s : State) (u : Nat) (x : Tsu) : (s.setTsu u x).hif = s.hif := rfl
@[simp] theorem State.setTsu_xms (s : State) (u : Nat) (x : Tsu) : (s.setTsu u x).xms = s.xms := rfl
@[simp] theorem State.setTsu_flt (s : State) (u : Nat) (x : Tsu) : (s.setTsu u x).flt = s.flt := rfl
@[simp] theorem State.setTsu_svc (s : State) (u : Nat) (x : Tsu) : (s.setTsu u x).svc = s.svc := rfl
@[simp] theorem State.setTsu_pwr (s : State) (u : Nat) (x : Tsu) : (s.setTsu u x).pwr = s.pwr := rfl
@[simp] theorem State.setTsu_dnd (s : State) (u : Nat) (x : Tsu) : (s.setTsu u x).dnd = s.dnd := rfl
@[simp] theorem State.setTsu_sec (s : State) (u : Nat) (x : Tsu) : (s.setTsu u x).sec = s.sec := rfl
@[simp] theorem State.setTsu_bru (s : State) (u : Nat) (x : Tsu) : (s.setTsu u x).bru = s.bru := rfl
@[simp] theorem State.setTsu_wcap (s : State) (u : Nat) (x : Tsu) : (s.setTsu u x).wcap = s.wcap := rfl
@[simp] theorem State.setTsu_stepA1 (s : State) (u : Nat) (x : Tsu) : (s.setTsu u x).stepA1 = s.stepA1 := rfl
@[simp] theorem State.setTsu_enables (s : State) (u : Nat) (x : Tsu) : (s.setTsu u x).enables = s.enables := rfl

/-! ### setHolder -/

@[simp] theorem State.setHolder_pending (s : State) (kind n : Nat) (r : Option (BitVec 12)) :
    (s.setHolder kind n r).pending = s.pending := rfl
@[simp] theorem State.setHolder_free (s : State) (kind n : Nat) (r : Option (BitVec 12)) :
    (s.setHolder kind n r).free = s.free := rfl
@[simp] theorem State.setHolder_out (s : State) (kind n : Nat) (r : Option (BitVec 12)) :
    (s.setHolder kind n r).out = s.out := rfl
@[simp] theorem State.setHolder_host (s : State) (kind n : Nat) (r : Option (BitVec 12)) :
    (s.setHolder kind n r).host = s.host := rfl
@[simp] theorem State.setHolder_fab (s : State) (kind n : Nat) (r : Option (BitVec 12)) :
    (s.setHolder kind n r).fab = s.fab := rfl
@[simp] theorem State.setHolder_gddr (s : State) (kind n : Nat) (r : Option (BitVec 12)) :
    (s.setHolder kind n r).gddr = s.gddr := rfl
@[simp] theorem State.setHolder_images (s : State) (kind n : Nat) (r : Option (BitVec 12)) :
    (s.setHolder kind n r).images = s.images := rfl
@[simp] theorem State.setHolder_lanes (s : State) (kind n : Nat) (r : Option (BitVec 12)) :
    (s.setHolder kind n r).lanes = s.lanes := rfl
@[simp] theorem State.setHolder_tb (s : State) (kind n : Nat) (r : Option (BitVec 12)) : (s.setHolder kind n r).tb = s.tb := rfl
@[simp] theorem State.setHolder_hbx (s : State) (kind n : Nat) (r : Option (BitVec 12)) :
    (s.setHolder kind n r).hbx = s.hbx := rfl
@[simp] theorem State.setHolder_trp (s : State) (kind n : Nat) (r : Option (BitVec 12)) :
    (s.setHolder kind n r).trp = s.trp := rfl
@[simp] theorem State.setHolder_vat (s : State) (kind n : Nat) (r : Option (BitVec 12)) :
    (s.setHolder kind n r).vat = s.vat := rfl
@[simp] theorem State.setHolder_pcx (s : State) (kind n : Nat) (r : Option (BitVec 12)) :
    (s.setHolder kind n r).pcx = s.pcx := rfl
@[simp] theorem State.setHolder_hif (s : State) (kind n : Nat) (r : Option (BitVec 12)) :
    (s.setHolder kind n r).hif = { s.hif with own := { holder := SMap.set none s.hif.own.holder (ownKey kind n) r } } := rfl
@[simp] theorem State.setHolder_xms (s : State) (kind n : Nat) (r : Option (BitVec 12)) :
    (s.setHolder kind n r).xms = s.xms := rfl
@[simp] theorem State.setHolder_flt (s : State) (kind n : Nat) (r : Option (BitVec 12)) :
    (s.setHolder kind n r).flt = s.flt := rfl
@[simp] theorem State.setHolder_svc (s : State) (kind n : Nat) (r : Option (BitVec 12)) :
    (s.setHolder kind n r).svc = s.svc := rfl
@[simp] theorem State.setHolder_pwr (s : State) (kind n : Nat) (r : Option (BitVec 12)) :
    (s.setHolder kind n r).pwr = s.pwr := rfl
@[simp] theorem State.setHolder_dnd (s : State) (kind n : Nat) (r : Option (BitVec 12)) :
    (s.setHolder kind n r).dnd = s.dnd := rfl
@[simp] theorem State.setHolder_sec (s : State) (kind n : Nat) (r : Option (BitVec 12)) :
    (s.setHolder kind n r).sec = s.sec := rfl
@[simp] theorem State.setHolder_bru (s : State) (kind n : Nat) (r : Option (BitVec 12)) :
    (s.setHolder kind n r).bru = s.bru := rfl
@[simp] theorem State.setHolder_wcap (s : State) (kind n : Nat) (r : Option (BitVec 12)) :
    (s.setHolder kind n r).wcap = s.wcap := rfl
@[simp] theorem State.setHolder_stepA1 (s : State) (kind n : Nat) (r : Option (BitVec 12)) :
    (s.setHolder kind n r).stepA1 = s.stepA1 := rfl
@[simp] theorem State.setHolder_enables (s : State) (kind n : Nat) (r : Option (BitVec 12)) :
    (s.setHolder kind n r).enables = s.enables := rfl

/-! ### modRun -/

@[simp] theorem State.modRun_pending (s : State) (f : Run → Run) : (s.modRun f).pending = s.pending := rfl
@[simp] theorem State.modRun_free (s : State) (f : Run → Run) : (s.modRun f).free = s.free := rfl
@[simp] theorem State.modRun_out (s : State) (f : Run → Run) : (s.modRun f).out = s.out := rfl
@[simp] theorem State.modRun_host (s : State) (f : Run → Run) : (s.modRun f).host = s.host := rfl
@[simp] theorem State.modRun_fab (s : State) (f : Run → Run) : (s.modRun f).fab = s.fab := rfl
@[simp] theorem State.modRun_gddr (s : State) (f : Run → Run) : (s.modRun f).gddr = s.gddr := rfl
@[simp] theorem State.modRun_images (s : State) (f : Run → Run) : (s.modRun f).images = s.images := rfl
@[simp] theorem State.modRun_lanes (s : State) (f : Run → Run) : (s.modRun f).lanes = s.lanes := rfl
@[simp] theorem State.modRun_tb (s : State) (f : Run → Run) : (s.modRun f).tb = s.tb := rfl
@[simp] theorem State.modRun_hbx (s : State) (f : Run → Run) : (s.modRun f).hbx = s.hbx := rfl
@[simp] theorem State.modRun_trp (s : State) (f : Run → Run) : (s.modRun f).trp = s.trp := rfl
@[simp] theorem State.modRun_vat (s : State) (f : Run → Run) : (s.modRun f).vat = { s.vat with run := f s.vat.run } := rfl
@[simp] theorem State.modRun_pcx (s : State) (f : Run → Run) : (s.modRun f).pcx = s.pcx := rfl
@[simp] theorem State.modRun_hif (s : State) (f : Run → Run) : (s.modRun f).hif = s.hif := rfl
@[simp] theorem State.modRun_xms (s : State) (f : Run → Run) : (s.modRun f).xms = s.xms := rfl
@[simp] theorem State.modRun_flt (s : State) (f : Run → Run) : (s.modRun f).flt = s.flt := rfl
@[simp] theorem State.modRun_svc (s : State) (f : Run → Run) : (s.modRun f).svc = s.svc := rfl
@[simp] theorem State.modRun_pwr (s : State) (f : Run → Run) : (s.modRun f).pwr = s.pwr := rfl
@[simp] theorem State.modRun_dnd (s : State) (f : Run → Run) : (s.modRun f).dnd = s.dnd := rfl
@[simp] theorem State.modRun_sec (s : State) (f : Run → Run) : (s.modRun f).sec = s.sec := rfl
@[simp] theorem State.modRun_bru (s : State) (f : Run → Run) : (s.modRun f).bru = s.bru := rfl
@[simp] theorem State.modRun_wcap (s : State) (f : Run → Run) : (s.modRun f).wcap = s.wcap := rfl
@[simp] theorem State.modRun_stepA1 (s : State) (f : Run → Run) : (s.modRun f).stepA1 = s.stepA1 := rfl
@[simp] theorem State.modRun_enables (s : State) (f : Run → Run) : (s.modRun f).enables = s.enables := rfl

/-! ### setCache -/

@[simp] theorem State.setCache_pending (s : State) (q : Nat) (l : List (Nat × Bool)) : (s.setCache q l).pending = s.pending := rfl
@[simp] theorem State.setCache_free (s : State) (q : Nat) (l : List (Nat × Bool)) : (s.setCache q l).free = s.free := rfl
@[simp] theorem State.setCache_out (s : State) (q : Nat) (l : List (Nat × Bool)) : (s.setCache q l).out = s.out := rfl
@[simp] theorem State.setCache_host (s : State) (q : Nat) (l : List (Nat × Bool)) : (s.setCache q l).host = s.host := rfl
@[simp] theorem State.setCache_fab (s : State) (q : Nat) (l : List (Nat × Bool)) : (s.setCache q l).fab = s.fab := rfl
@[simp] theorem State.setCache_gddr (s : State) (q : Nat) (l : List (Nat × Bool)) : (s.setCache q l).gddr = s.gddr := rfl
@[simp] theorem State.setCache_images (s : State) (q : Nat) (l : List (Nat × Bool)) : (s.setCache q l).images = s.images := rfl
@[simp] theorem State.setCache_lanes (s : State) (q : Nat) (l : List (Nat × Bool)) : (s.setCache q l).lanes = s.lanes := rfl
@[simp] theorem State.setCache_tb (s : State) (q : Nat) (l : List (Nat × Bool)) : (s.setCache q l).tb = s.tb := rfl
@[simp] theorem State.setCache_hbx (s : State) (q : Nat) (l : List (Nat × Bool)) : (s.setCache q l).hbx = s.hbx := rfl
@[simp] theorem State.setCache_trp (s : State) (q : Nat) (l : List (Nat × Bool)) : (s.setCache q l).trp = s.trp := rfl
@[simp] theorem State.setCache_vat (s : State) (q : Nat) (l : List (Nat × Bool)) :
    (s.setCache q l).vat = { s.vat with cache := SMap.set [] s.vat.cache q l } := rfl
@[simp] theorem State.setCache_pcx (s : State) (q : Nat) (l : List (Nat × Bool)) : (s.setCache q l).pcx = s.pcx := rfl
@[simp] theorem State.setCache_hif (s : State) (q : Nat) (l : List (Nat × Bool)) : (s.setCache q l).hif = s.hif := rfl
@[simp] theorem State.setCache_xms (s : State) (q : Nat) (l : List (Nat × Bool)) : (s.setCache q l).xms = s.xms := rfl
@[simp] theorem State.setCache_flt (s : State) (q : Nat) (l : List (Nat × Bool)) : (s.setCache q l).flt = s.flt := rfl
@[simp] theorem State.setCache_svc (s : State) (q : Nat) (l : List (Nat × Bool)) : (s.setCache q l).svc = s.svc := rfl
@[simp] theorem State.setCache_pwr (s : State) (q : Nat) (l : List (Nat × Bool)) : (s.setCache q l).pwr = s.pwr := rfl
@[simp] theorem State.setCache_dnd (s : State) (q : Nat) (l : List (Nat × Bool)) : (s.setCache q l).dnd = s.dnd := rfl
@[simp] theorem State.setCache_sec (s : State) (q : Nat) (l : List (Nat × Bool)) : (s.setCache q l).sec = s.sec := rfl
@[simp] theorem State.setCache_bru (s : State) (q : Nat) (l : List (Nat × Bool)) : (s.setCache q l).bru = s.bru := rfl
@[simp] theorem State.setCache_wcap (s : State) (q : Nat) (l : List (Nat × Bool)) : (s.setCache q l).wcap = s.wcap := rfl
@[simp] theorem State.setCache_stepA1 (s : State) (q : Nat) (l : List (Nat × Bool)) : (s.setCache q l).stepA1 = s.stepA1 := rfl
@[simp] theorem State.setCache_enables (s : State) (q : Nat) (l : List (Nat × Bool)) : (s.setCache q l).enables = s.enables := rfl

/-! ### modPcx -/

@[simp] theorem State.modPcx_pending (s : State) (f : PcxRegs → PcxRegs) : (s.modPcx f).pending = s.pending := rfl
@[simp] theorem State.modPcx_free (s : State) (f : PcxRegs → PcxRegs) : (s.modPcx f).free = s.free := rfl
@[simp] theorem State.modPcx_out (s : State) (f : PcxRegs → PcxRegs) : (s.modPcx f).out = s.out := rfl
@[simp] theorem State.modPcx_host (s : State) (f : PcxRegs → PcxRegs) : (s.modPcx f).host = s.host := rfl
@[simp] theorem State.modPcx_fab (s : State) (f : PcxRegs → PcxRegs) : (s.modPcx f).fab = s.fab := rfl
@[simp] theorem State.modPcx_gddr (s : State) (f : PcxRegs → PcxRegs) : (s.modPcx f).gddr = s.gddr := rfl
@[simp] theorem State.modPcx_images (s : State) (f : PcxRegs → PcxRegs) : (s.modPcx f).images = s.images := rfl
@[simp] theorem State.modPcx_lanes (s : State) (f : PcxRegs → PcxRegs) : (s.modPcx f).lanes = s.lanes := rfl
@[simp] theorem State.modPcx_tb (s : State) (f : PcxRegs → PcxRegs) : (s.modPcx f).tb = s.tb := rfl
@[simp] theorem State.modPcx_hbx (s : State) (f : PcxRegs → PcxRegs) : (s.modPcx f).hbx = s.hbx := rfl
@[simp] theorem State.modPcx_trp (s : State) (f : PcxRegs → PcxRegs) : (s.modPcx f).trp = s.trp := rfl
@[simp] theorem State.modPcx_vat (s : State) (f : PcxRegs → PcxRegs) : (s.modPcx f).vat = s.vat := rfl
@[simp] theorem State.modPcx_pcx (s : State) (f : PcxRegs → PcxRegs) :
    (s.modPcx f).pcx = { s.pcx with regs := f s.pcx.regs } := rfl
@[simp] theorem State.modPcx_hif (s : State) (f : PcxRegs → PcxRegs) : (s.modPcx f).hif = s.hif := rfl
@[simp] theorem State.modPcx_xms (s : State) (f : PcxRegs → PcxRegs) : (s.modPcx f).xms = s.xms := rfl
@[simp] theorem State.modPcx_flt (s : State) (f : PcxRegs → PcxRegs) : (s.modPcx f).flt = s.flt := rfl
@[simp] theorem State.modPcx_svc (s : State) (f : PcxRegs → PcxRegs) : (s.modPcx f).svc = s.svc := rfl
@[simp] theorem State.modPcx_pwr (s : State) (f : PcxRegs → PcxRegs) : (s.modPcx f).pwr = s.pwr := rfl
@[simp] theorem State.modPcx_dnd (s : State) (f : PcxRegs → PcxRegs) : (s.modPcx f).dnd = s.dnd := rfl
@[simp] theorem State.modPcx_sec (s : State) (f : PcxRegs → PcxRegs) : (s.modPcx f).sec = s.sec := rfl
@[simp] theorem State.modPcx_bru (s : State) (f : PcxRegs → PcxRegs) : (s.modPcx f).bru = s.bru := rfl
@[simp] theorem State.modPcx_wcap (s : State) (f : PcxRegs → PcxRegs) : (s.modPcx f).wcap = s.wcap := rfl
@[simp] theorem State.modPcx_stepA1 (s : State) (f : PcxRegs → PcxRegs) : (s.modPcx f).stepA1 = s.stepA1 := rfl
@[simp] theorem State.modPcx_enables (s : State) (f : PcxRegs → PcxRegs) : (s.modPcx f).enables = s.enables := rfl

/-! ### setGpio -/

@[simp] theorem State.setGpio_pending (s : State) (n : Nat) (g : Gpio) : (s.setGpio n g).pending = s.pending := rfl
@[simp] theorem State.setGpio_free (s : State) (n : Nat) (g : Gpio) : (s.setGpio n g).free = s.free := rfl
@[simp] theorem State.setGpio_out (s : State) (n : Nat) (g : Gpio) : (s.setGpio n g).out = s.out := rfl
@[simp] theorem State.setGpio_host (s : State) (n : Nat) (g : Gpio) : (s.setGpio n g).host = s.host := rfl
@[simp] theorem State.setGpio_fab (s : State) (n : Nat) (g : Gpio) : (s.setGpio n g).fab = s.fab := rfl
@[simp] theorem State.setGpio_gddr (s : State) (n : Nat) (g : Gpio) : (s.setGpio n g).gddr = s.gddr := rfl
@[simp] theorem State.setGpio_images (s : State) (n : Nat) (g : Gpio) : (s.setGpio n g).images = s.images := rfl
@[simp] theorem State.setGpio_lanes (s : State) (n : Nat) (g : Gpio) : (s.setGpio n g).lanes = s.lanes := rfl
@[simp] theorem State.setGpio_tb (s : State) (n : Nat) (g : Gpio) : (s.setGpio n g).tb = s.tb := rfl
@[simp] theorem State.setGpio_hbx (s : State) (n : Nat) (g : Gpio) : (s.setGpio n g).hbx = s.hbx := rfl
@[simp] theorem State.setGpio_trp (s : State) (n : Nat) (g : Gpio) : (s.setGpio n g).trp = s.trp := rfl
@[simp] theorem State.setGpio_vat (s : State) (n : Nat) (g : Gpio) : (s.setGpio n g).vat = s.vat := rfl
@[simp] theorem State.setGpio_pcx (s : State) (n : Nat) (g : Gpio) : (s.setGpio n g).pcx = s.pcx := rfl
@[simp] theorem State.setGpio_hif (s : State) (n : Nat) (g : Gpio) : (s.setGpio n g).hif = s.hif := rfl
@[simp] theorem State.setGpio_xms (s : State) (n : Nat) (g : Gpio) : (s.setGpio n g).xms = s.xms := rfl
@[simp] theorem State.setGpio_flt (s : State) (n : Nat) (g : Gpio) : (s.setGpio n g).flt = s.flt := rfl
@[simp] theorem State.setGpio_svc (s : State) (n : Nat) (g : Gpio) : (s.setGpio n g).svc = s.svc := rfl
@[simp] theorem State.setGpio_pwr (s : State) (n : Nat) (g : Gpio) :
    (s.setGpio n g).pwr = { s.pwr with gpio := SMap.set {} s.pwr.gpio n g } := rfl
@[simp] theorem State.setGpio_dnd (s : State) (n : Nat) (g : Gpio) : (s.setGpio n g).dnd = s.dnd := rfl
@[simp] theorem State.setGpio_sec (s : State) (n : Nat) (g : Gpio) : (s.setGpio n g).sec = s.sec := rfl
@[simp] theorem State.setGpio_bru (s : State) (n : Nat) (g : Gpio) : (s.setGpio n g).bru = s.bru := rfl
@[simp] theorem State.setGpio_wcap (s : State) (n : Nat) (g : Gpio) : (s.setGpio n g).wcap = s.wcap := rfl
@[simp] theorem State.setGpio_stepA1 (s : State) (n : Nat) (g : Gpio) : (s.setGpio n g).stepA1 = s.stepA1 := rfl
@[simp] theorem State.setGpio_enables (s : State) (n : Nat) (g : Gpio) : (s.setGpio n g).enables = s.enables := rfl

/-! ### What a state reads after a write -/

@[simp] theorem State.cl_setCl_same (s : State) (c : Nat) (x : Cluster) :
    (s.setCl c x).cl c = x := SMap.get_set_same _ _ _ _
@[simp] theorem State.cl_setCl_other (s : State) {c j : Nat} (x : Cluster) (hj : c ≠ j) :
    (s.setCl c x).cl j = s.cl j := SMap.get_set_other _ _ _ hj
@[simp] theorem State.image_setImage_same (s : State) (h : Nat) (im : Image) :
    (s.setImage h im).image h = im := SMap.get_set_same _ _ _ _
@[simp] theorem State.image_setImage_other (s : State) {h j : Nat} (im : Image) (hj : h ≠ j) :
    (s.setImage h im).image j = s.image j := SMap.get_set_other _ _ _ hj
@[simp] theorem State.pipe_setPipe_same (s : State) (p : Nat) (q : Pipe) :
    (s.setPipe p q).pipe p = q := SMap.get_set_same _ _ _ _
@[simp] theorem State.pipe_setPipe_other (s : State) {p j : Nat} (q : Pipe) (hj : p ≠ j) :
    (s.setPipe p q).pipe j = s.pipe j := SMap.get_set_other _ _ _ hj
@[simp] theorem State.stream_setStream_same (s : State) (i : Nat) (x : Stream) :
    (s.setStream i x).stream i = x := SMap.get_set_same _ _ _ _
@[simp] theorem State.stream_setStream_other (s : State) {i j : Nat} (x : Stream) (hj : i ≠ j) :
    (s.setStream i x).stream j = s.stream j := SMap.get_set_other _ _ _ hj
@[simp] theorem State.ring_setRing_same (s : State) (r : Nat) (x : Ring) :
    (s.setRing r x).ring r = x := SMap.get_set_same _ _ _ _
@[simp] theorem State.ring_setRing_other (s : State) {r j : Nat} (x : Ring) (hj : r ≠ j) :
    (s.setRing r x).ring j = s.ring j := SMap.get_set_other _ _ _ hj
@[simp] theorem State.quarter_setQuarter_same (s : State) (e : Nat) (q : Quarter) :
    (s.setQuarter e q).quarter e = q := SMap.get_set_same _ _ _ _
@[simp] theorem State.quarter_setQuarter_other (s : State) {e j : Nat} (q : Quarter) (hj : e ≠ j) :
    (s.setQuarter e q).quarter j = s.quarter j := SMap.get_set_other _ _ _ hj
@[simp] theorem State.region_setRegion_same (s : State) (n : Nat) (x : Rgt) :
    (s.setRegion n x).region n = x := SMap.get_set_same _ _ _ _
@[simp] theorem State.region_setRegion_other (s : State) {n j : Nat} (x : Rgt) (hj : n ≠ j) :
    (s.setRegion n x).region j = s.region j := SMap.get_set_other _ _ _ hj
@[simp] theorem State.group_setGroup_same (s : State) (g : Nat) (x : LnpGroup) :
    (s.setGroup g x).group g = x := SMap.get_set_same _ _ _ _
@[simp] theorem State.group_setGroup_other (s : State) {g j : Nat} (x : LnpGroup) (hj : g ≠ j) :
    (s.setGroup g x).group j = s.group j := SMap.get_set_other _ _ _ hj
@[simp] theorem State.xport_setXport_same (s : State) (p : Nat) (x : XPort) :
    (s.setXport p x).xport p = x := SMap.get_set_same _ _ _ _
@[simp] theorem State.xport_setXport_other (s : State) {p j : Nat} (x : XPort) (hj : p ≠ j) :
    (s.setXport p x).xport j = s.xport j := SMap.get_set_other _ _ _ hj
@[simp] theorem State.chan_setChan_same (s : State) (c : Nat) (x : Channel) :
    (s.setChan c x).chan c = x := SMap.get_set_same _ _ _ _
@[simp] theorem State.chan_setChan_other (s : State) {c j : Nat} (x : Channel) (hj : c ≠ j) :
    (s.setChan c x).chan j = s.chan j := SMap.get_set_other _ _ _ hj

end Sys2Proof.Machine
end

