-- ==== Sys2Proof/Laws/Tiles.lean ====
section
/-!
SUPPORT. Laws of the shared tile operations: taking inputs, sending a result, writing a register.
-/
namespace Sys2Proof.Machine

theorem natLe_length (n x : Nat) : (natLe n x).length = n := by
  induction n generalizing x with
  | zero => rfl
  | succ n ih => simp [natLe, ih]

/-- The number that the little-endian bytes of a number hold. -/
theorem leNat_natLe (n x : Nat) : leNat (natLe n x) = x % 256 ^ n := by
  induction n generalizing x with
  | zero => simp [natLe, leNat, Nat.mod_one]
  | succ n ih =>
    simp only [natLe, leNat, ih]
    rw [show (BitVec.ofNat 8 x).toNat = x % 256 by simp, Nat.pow_succ', Nat.mod_mul]

@[simp] theorem tile_setTile_same (x : Cluster) (t : Nat) (y : Tile) : (x.setTile t y).tile t = y := SMap.get_set_same _ _ _ _
theorem tile_setTile_other (x : Cluster) (t u : Nat) (y : Tile) (h : t ≠ u) : (x.setTile t y).tile u = x.tile u :=
  SMap.get_set_other _ _ _ h

@[simp] theorem setReg_sram (y : Tile) (n : Nat) (v : BitVec 32) : (y.setReg n v).sram = y.sram := by
  unfold Tile.setReg; split <;> rfl

/-- A register written leaves the other registers alone. -/
theorem setReg_other (y : Tile) (n m : Nat) (v : BitVec 32) (h : m ≠ n) : (y.setReg n v).reg m = y.reg m := by
  unfold Tile.setReg Tile.reg
  split
  · rfl
  · split
    · rfl
    · exact SMap.get_set_other _ _ _ (Ne.symm h)

/-- The tile with what a result or the taking of inputs may change set to what `z` holds. -/
def Tile.frameOf (y z : Tile) : Tile :=
  { y with
    queues := z.queues, outR := z.outR, chest := z.chest, fired := z.fired, satInt := z.satInt, satFp := z.satFp, tokenQ := z.tokenQ
    regs := z.regs }

/-- The cluster with what a result may change set to what `z` holds. -/
def Cluster.frameOf (x z : Cluster) : Cluster :=
  { x with tiles := z.tiles, regs := { x.regs with spills := z.regs.spills, chestMax := z.regs.chestMax } }

/-- `x` differs from `z` in tile `t` at most, there only in what `Tile.frameOf` names and in registers outside `keep`, and
else only in what `Cluster.frameOf` names. -/
def Cluster.Keeps (x z : Cluster) (t : Nat) (keep : Nat → Prop) : Prop :=
  (∀ u, u ≠ t → x.tile u = z.tile u) ∧ (x.tile t).frameOf (z.tile t) = z.tile t ∧
    (∀ n, keep n → (x.tile t).reg n = (z.tile t).reg n) ∧ x.frameOf z = z

theorem Cluster.Keeps.refl (x : Cluster) (t : Nat) (k : Nat → Prop) : x.Keeps x t k := ⟨fun _ _ => rfl, rfl, fun _ _ => rfl, rfl⟩

theorem Cluster.Keeps.trans {x y z : Cluster} {t : Nat} {k : Nat → Prop} (h1 : x.Keeps y t k) (h2 : y.Keeps z t k) :
    x.Keeps z t k := by
  obtain ⟨a1, b1, c1, d1⟩ := h1
  obtain ⟨a2, b2, c2, d2⟩ := h2
  refine ⟨fun u hu => (a1 u hu).trans (a2 u hu), ?_, fun n hn => (c1 n hn).trans (c2 n hn), ?_⟩
  · have : (x.tile t).frameOf (z.tile t) = ((x.tile t).frameOf (y.tile t)).frameOf (z.tile t) := rfl
    rw [this, b1, b2]
  · have : x.frameOf z = (x.frameOf y).frameOf z := rfl
    rw [this, d1, d2]

/-- A tile replaced by one that differs only as `Tile.frameOf` allows. -/
theorem Cluster.keeps_setTile (x : Cluster) (t : Nat) (y : Tile) (k : Nat → Prop) (h1 : y.frameOf (x.tile t) = x.tile t)
    (h2 : ∀ n, k n → y.reg n = (x.tile t).reg n) : (x.setTile t y).Keeps x t k :=
  ⟨fun u hu => tile_setTile_other _ _ _ _ (Ne.symm hu), by rw [tile_setTile_same]; exact h1,
    by rw [tile_setTile_same]; exact h2, rfl⟩

theorem Cluster.keeps_push (x : Cluster) (t q : Nat) (e : Entry) (k : Nat → Prop) : (x.push t q e).Keeps x t k := by
  unfold Cluster.push
  dsimp only
  split
  · exact ⟨fun u hu => tile_setTile_other _ _ _ _ (Ne.symm hu),
      by
        have h : ({ x.setTile t { x.tile t with chest := (x.tile t).chest ++ [(q, e)] } with
          regs := { x.regs with spills := satBump x.regs.spills 1
                                chestMax := BitVec.ofNat 9 (max x.regs.chestMax.toNat ((x.tile t).chest ++ [(q, e)]).length) } } :
            Cluster).tile t = { x.tile t with chest := (x.tile t).chest ++ [(q, e)] } := SMap.get_set_same _ _ _ _
        rw [h]; rfl,
      fun n _ => by
        have h : ({ x.setTile t { x.tile t with chest := (x.tile t).chest ++ [(q, e)] } with
          regs := { x.regs with spills := satBump x.regs.spills 1
                                chestMax := BitVec.ofNat 9 (max x.regs.chestMax.toNat ((x.tile t).chest ++ [(q, e)]).length) } } :
            Cluster).tile t = { x.tile t with chest := (x.tile t).chest ++ [(q, e)] } := SMap.get_set_same _ _ _ _
        rw [h]; rfl, rfl⟩
  · refine Cluster.keeps_setTile _ _ _ _ ?_ ?_
    · unfold Tile.enqueue; split <;> rfl
    · intro n _; unfold Tile.enqueue; split <;> rfl

/-- What sending a result changes (R65, R69, R88). -/
theorem Cluster.keeps_send (x : Cluster) (t mask : Nat) (dest : Option Nat) (e : Entry) (k : Nat → Prop) :
    (x.send t mask dest e).Keeps x t k := by
  have h : (x.setTile t ((x.tile t).drive mask e)).Keeps x t k := Cluster.keeps_setTile _ _ _ _ rfl fun _ _ => rfl
  unfold Cluster.send
  cases dest with
  | none => exact h
  | some q => exact (Cluster.keeps_push _ _ _ _ _).trans h

theorem Tile.pop_frame (y : Tile) (q : Nat) : (y.pop q).frameOf y = y ∧ (y.pop q).regs = y.regs := by
  unfold Tile.pop; split <;> exact ⟨rfl, rfl⟩

theorem Tile.pops_frame (y : Tile) (l : List Nat) :
    (l.foldl (fun z q => z.pop q) y).frameOf y = y ∧ (l.foldl (fun z q => z.pop q) y).regs = y.regs := by
  induction l generalizing y with
  | nil => exact ⟨rfl, rfl⟩
  | cons q l ih =>
    have h1 := ih (y.pop q)
    have h2 := y.pop_frame q
    refine ⟨?_, h1.2.trans h2.2⟩
    have : ((q :: l).foldl (fun z q => z.pop q) y).frameOf y = ((l.foldl (fun z q => z.pop q) (y.pop q)).frameOf (y.pop q)).frameOf y := rfl
    rw [this, h1.1, h2.1]

theorem Tile.setReg_frame (y : Tile) (n : Nat) (v : BitVec 32) : (y.setReg n v).frameOf y = y := by
  unfold Tile.setReg; split <;> rfl

/-- What taking the inputs of an operation changes: the queues popped, the pointer of an SRAM stream, the firing count (R63). -/
theorem Cluster.keeps_take (x : Cluster) (t i : Nat) (f : Fire) (h : x.take t i = .ok f) :
    f.t = t ∧ f.x.Keeps x t fun n => n = opSrc f.o → opStreams f.o = false := by
  simp only [Cluster.take] at h
  generalize (x.tile t).op i = o at h
  generalize (if opOpc o = 0x23 then 0 else streamBytes o) = n at h
  split at h
  · cases h
  · cases h
    have h1 := (x.tile t).pops_frame (opQueues o)
    refine ⟨rfl, Cluster.keeps_setTile _ _ _ _ ?_ ?_⟩
    · split
      · exact (congrArg (fun z : Tile => z.frameOf (x.tile t)) (Tile.setReg_frame ((opQueues o).foldl (fun z q => z.pop q) (x.tile t))
          (opSrc o) (BitVec.ofNat 32 (((x.tile t).reg (opSrc o)).toNat + n)))).trans h1.1
      · exact h1.1
    · intro m hm
      have e : ∀ a : Tile, (a.countFire i).reg m = a.reg m := fun _ => rfl
      rw [e]
      split
      · rename_i hs
        have hne : m ≠ opSrc o := fun e => by simpa [hs] using hm e
        rw [setReg_other _ _ _ _ hne]
        simp [Tile.reg, h1.2]
      · simp [Tile.reg, h1.2]

/-- What sending a vector result changes. -/
theorem Fire.keeps_emit (f : Fire) (e : Nat) (k : Nat → Prop) : (f.emit e).Keeps f.x f.t k := Cluster.keeps_send _ _ _ _ _ _

/-- What counting clamped lanes and overflows changes. -/
theorem Fire.keeps_countSat (f : Fire) (a b : Nat) (k : Nat → Prop) : (f.withTile (f.tile.countSat a b)).x.Keeps f.x f.t k :=
  Cluster.keeps_setTile _ _ _ _ rfl fun _ _ => rfl

theorem Fire.keeps_emitInts (f : Fire) (fmt : Nat) (l : List Int) (k : Nat → Prop) : (f.emitInts fmt l).Keeps f.x f.t k :=
  (Fire.keeps_emit _ _ _).trans (f.keeps_countSat _ _ k)

theorem Fire.keeps_emitFloats (f : Fire) (fmt : Nat) (l : List FVal) (k : Nat → Prop) : (f.emitFloats fmt l).Keeps f.x f.t k :=
  (Fire.keeps_emit _ _ _).trans (f.keeps_countSat _ _ k)

theorem Fire.keeps_lanewise (f : Fire) (a : Int → Int → Int) (b : FVal → FVal → FVal) (k : Nat → Prop) :
    (f.lanewise a b).Keeps f.x f.t k := by
  unfold Fire.lanewise
  dsimp only
  split
  · exact f.keeps_emitInts _ _ k
  · exact f.keeps_emitFloats _ _ k

end Sys2Proof.Machine
end

