-- ==== Sys2Proof/Tests/Slice0.lean ====
section
/-!
SUPPORT. Tests: what commands do on small states, the well-formedness checks, and for every hypothesis of a statement a state
that meets it. Expected values come from the spec's words.
-/
set_option Elab.async false

namespace Sys2Proof.Tests
open Sys2Proof.Machine

/-! ## Small states -/

/-- A tile operation word (R66). -/
def opWord (opc selA selB out dst src fmt sel imm : Nat) : BitVec 64 :=
  BitVec.ofNat 64 (opc * 2 ^ 58 + selA * 2 ^ 54 + selB * 2 ^ 50 + out * 2 ^ 46 + dst * 2 ^ 40 + src * 2 ^ 34 + fmt * 2 ^ 32 +
    sel * 2 ^ 24 + imm)

/-- A state with one cluster. -/
def clusterIn (x : Cluster) : State := { fab := { clusters := [(0, x)] } }

/-- A state whose cluster 0 runs with one tile, uniform where no mode is given. -/
def tileIn (y : Tile) : State :=
  clusterIn { st := .run
              tiles := [(0, { y with cfg := { y.cfg with mode := if y.cfg.mode = .unconfigured then .uniform else y.cfg.mode } })] }

/-- A tile with one operation, entries in its queues N, E, L0 and L1, a token, registers and a scale vector. -/
def opTile (o : BitVec 64) : Tile :=
  { cfg := { mode := .uniform, ops := [(0, o)], quota := 16 }
    queues := [(0, [0x00030002]), (1, [0x00050004]), (4, [7]), (5, [15])]
    tokenQ := [BitVec.ofNat 32 (2 ^ 31 + 2 ^ 27 + 2)]
    regs := [(1, 64), (2, 128)] }

/-- Cluster 0 with that tile. -/
def opState (o : BitVec 64) : State := tileIn (opTile o)

/-- An entry in the east register of tile 0, its neighbour taking arrivals from the west. -/
def hopState : State :=
  clusterIn { st := .run
              tiles := [(0, { cfg := { mode := .uniform, outReg := [(1, true)] }, outR := [(1, some 7)] }),
                        (1, { cfg := { mode := .uniform, inSink := [(3, 1)] } })] }

/-- The same with the neighbour's queue full. -/
def hopFull : State :=
  clusterIn { st := .run
              tiles := [(0, { cfg := { mode := .uniform, outReg := [(1, true)] }, outR := [(1, some 7)] }),
                        (1, { cfg := { mode := .uniform, inSink := [(3, 1)] }, queues := [(3, [1, 2, 3, 4])] })] }

/-- The same with a chest. -/
def hopSpill : State :=
  clusterIn { st := .run
              tiles := [(0, { cfg := { mode := .uniform, outReg := [(1, true)] }, outR := [(1, some 7)] }),
                        (1, { cfg := { mode := .uniform, inSink := [(3, 1)], quota := 16 }, queues := [(3, [1, 2, 3, 4])] })] }

/-- An image whose one route goes east from cluster `c` over `n` links. -/
def routed (c n : Nat) : State :=
  { fab := { clusters := [(c, { st := .run, regs := { handle := 1 }
                                tiles := [(39, { cfg := { mode := .uniform, outReg := [(1, true)] }, outR := [(1, some 9)] })] })] }
    images := [(1, { map := [some c], vw := 1, vh := 1
                     routes := [{ src := 0, dir := 1, stream := 1, path := (List.range n).map fun k => ⟨c + k, 1, 1⟩ }] })] }

/-- An operation that waits for room in its full local queue L0, in a trigger cluster or with its chest full. -/
def spillIn (trigger full : Bool) : State :=
  clusterIn { st := .run
              regs := { trigger }
              tiles := [(0, { cfg := { mode := .uniform, ops := [(0, opWord 0x21 1 0 0 1 0 2 0 0)], quota := 16 }
                              queues := [(0, [3]), (4, [1, 2, 3, 4, 5, 6, 7, 8])]
                              chest := if full then List.replicate 16 (5, 0) else [] })] }

/-- The firing of the operation of tile 0 with an opcode, if it issues with its inputs taken. -/
def firing (s : State) (opc : Nat) : Option Fire :=
  if opOpc (((s.cl 0).tile 0).op 0) = opc ∧ s.mayFire 0 0 0 = true then
    ((s.cl 0).take 0 0).toOption
  else none

theorem fires_of {s : State} {opc : Nat} {f : Fire} (h : firing s opc = some f) : Fires s opc 0 0 0 f := by
  unfold firing at h
  split at h
  · rename_i h1
    refine ⟨h1.1, h1.2, ?_⟩
    cases h2 : (s.cl 0).take 0 0 with
    | error e => rw [h2] at h; cases h
    | ok g => rw [h2] at h; cases h; rfl
  · cases h

/-- A loaded image of cluster 0, which runs. -/
def imageState : State :=
  { clusterIn { st := .run, regs := { handle := 1 } } with images := [(1, { map := [some 0], vw := 1, vh := 1 })] }

/-- GDDR6 that runs, with a read slot of class 3, a read slot of FAR, a refresh slot and a COPY slot of quad 0 in its table. -/
def gddrState : State :=
  { pwr := { st := .run }
    gddr := { gcal := [(0, BitVec.ofNat 16 (3 * 4096)), (1, BitVec.ofNat 16 (5 * 4096)), (2, BitVec.ofNat 16 (2 * 4096)), (3, BitVec.ofNat 16 (9 * 4096))] } }

/-- A state with lane group 0. -/
def groupIn (x : LnpGroup) : State := { lanes := [(0, x)] }

/-- A frame of PTP domain 0. -/
def ptpFrame (k : PtpKind) : PtpFrame :=
  { isPtp := true, fcsOk := true, tags := 0, udp := false, kind := k, twoStep := false, domain := 0, source := 1, gm := 2, seq := 3
    origin := 0, correction := 0, utc := 37, logInterval := 0, decision := .master, mark := { ago := 0, phase := 0 } }

/-- A stock group with a JOINED and a suspended stream. -/
def stockState (st : GState) : State :=
  { lanes := [(0, { st := st, rate := 4 })]
    hbx := { partners := [(0, { present := true })]
             streams := [(0, { st := .joined, lsn := 1, fmt := 1, rate := 1000, credit := frameCredit 0 4 }), (1, { st := .suspended, lsn := 2 })] } }

/-- A frame of its JOINED stream, with a wrong CRC. -/
def stockFrame : StockFrame :=
  { sid := 0, seq := 0, fmt := 1, nsamp := 16, ts := 0, blocks := List.replicate (frameBlocks 1 0) 0, stray := false, eofSid := 0, eofSeq := 0
    crc := 1, mark := { ago := 0, phase := 0 } }


/-- The header of an image of one virtual cluster, with a 64-byte digest. -/
def imageHead (digest : List Byte) : List Byte :=
  natLe 4 0x57494D47 ++ natLe 4 1 ++ natLe 8 0x01010001 ++ natLe 16 0 ++ natLe 8 192 ++ natLe 4 0 ++ natLe 4 1 ++ natLe 4 128 ++ natLe 4 0 ++
    natLe 8 5 ++ digest

/-- An image of one virtual cluster whose SRAM is initialised with nothing. -/
def tinyImage : List Byte :=
  let table := natLe 32 2 ++ natLe 32 0
  imageHead (sha512 (imageHead (List.replicate 64 0) ++ table)) ++ table

/-- A state whose root firmware has taken a descriptor of ring pair 0. -/
def fwState (bytes : List Byte) : State :=
  { hif := { rings := [(0, { st := .active, taken := [{ opcode := BitVec.ofNat 8 (fieldAt bytes 0 1) }] })], fw := [{ bytes }] } }

/-- LOAD_IMAGE of that image at host address 0, its report at 4,096. -/
def loadState : State :=
  { fwState (natLe 8 1 ++ natLe 8 0 ++ natLe 8 192 ++ natLe 8 4096 ++ natLe 8 96) with
    pcx := { perstLow := false, regs := { width := 16 }, cfg := { busMaster := true } }
    host := Mem.writeBytes [] 0 tinyImage }

/-- ADMIT of SID 0, joined. -/
def admitState : State :=
  { fwState (natLe 4 5 ++ natLe 4 65536 ++ natLe 4 4096) with hbx := { streams := [(0, { st := .joined, lsn := 1, fmt := 1, rate := 1000 })] } }

/-- A stock frame that its stream takes at once. -/
def liveFrame : StockFrame := stockFrame

/-- A pipeline of a one-cluster trigger image, with an arrival, an entry set and a decision entry. -/
def trigState (st : PState) : State :=
  { fab := { clusters := [(0, { regs := { handle := 1 }, tiles := [(1, { queues := [(5, [5])] })] })] }
    images := [(1, { kind := 1, map := [some 0], vw := 1, vh := 1, pipes := [0] })]
    lanes := [(0, { st := .active, rate := 4 })]
    tb := { st := .locked }
    hbx := { streams := [(0, { st := .admitted, lsn := 1, fmt := 1, rate := 1000, transit := 1000 })] }
    trp := { pipes := [(0, { st, handle := 1, deckle := 4800, ports := [{ num := 1, sid := some 0, started := true }], decTile := 1
                             sets := [{ got := 1 }], inq := [{ port := 1, entry := 7 }] })] } }

/-- A stream with a waiting record, its W at `w`. -/
def recordState (w : Nat) : State :=
  { pcx := { perstLow := false, regs := { width := 16 }, cfg := { busMaster := true } }
    hif := { rings := [(0, { st := .active })] }
    hbx := { streams := [(0, { st := .admitted, fmt := 1, rate := 1000, buf := { rgt := 4, depth := 16, w, anchors := [{}] }
                               recs := { waiting := [{ kind := 1, lo := 0, hi := 2, nt := some 1 }] } })] } }

/-- A device that the host reaches. -/
def hostState : State :=
  { bru := { stage := .ready, pcieUp := true, held := false }
    pwr := { st := .run }
    pcx := { perstLow := false, regs := { width := 16 }, cfg := { memEn := true, busMaster := true } }
    gddr := { rgt := [(4, { lines := 15, valid := true, bar4 := true })] }
    hif := { rings := [(0, { st := .active, enable := true, written := [{}] })], dma := [(0, { st := .copy, total := 8 })] } }

/-- An ACTIVE ring pair with its completions. -/
def ringWith (l : List Compl) : Ring := { st := .active, enable := true, waiting := l }

/-- A device with Xomos port 0 up, in a discovery state. -/
def portState (st : XState) : State :=
  { lanes := [(16, { st := .active })]
    gddr := { aligned := true }
    bru := { stage := .ready, held := false }
    xms := { st, goSeen := true, dirty := true, started := true, regs := { origin := true, parent := 0 }
             ports := [(0, { tsync := some (1, 0), t2 := some 0, t4 := some 0, cls := [(3, { ackDue := true, store := [{}] })] })] } }

/-- An image whose region 15 holds a BARRIER of a group of this rank alone. -/
def collState : State :=
  { xms := { st := .flooded, regs := { rank := 0 } }
    gddr := { rgt := [(4, { base := 15, lines := 30, valid := true })], bytes := [(960, 1), (1027, 0x40), (2048, 5)] }
    images := [(1, { map := [some 0], granted := 0x40, regions := List.replicate 16 { lines := 20, rgt := 4 }, sheet := { active := true } })] }

/-- A device whose dandy has an image in GDDR6 and watches a joined stream. -/
def sleepState : State :=
  { hostState with
    hif := {}
    gddr := { rgt := [(4, { lines := 15, valid := true, host := true })], bytes := Mem.writeBytes [] 0 tinyImage }
    dnd := { changed := true, imgBytes := 192 }
    lanes := [(0, { st := .active, rate := 4 })]
    hbx := { streams := [(0, { st := .joined, lsn := 1, fmt := 1, rate := 1000 })] } }

/-- The dandy in a window on stream 0. -/
def dandyState : State :=
  { sleepState with dnd := { scheduled := true, nfr := 5, win := { active := true } } }

/-- A frame that passes the dandy's checks. -/
def dandyTestFrame : StockFrame := { stockFrame with crc := frameCrc stockFrame }
/-! ## Well-formedness: a term that each check refuses -/

theorem test_wf_gddr6Burst : wellFormed (.gddr6Burst 0 0 ⟨1384120320, false⟩ 0) = false := by decide
theorem test_wf_eccLineFetch : wellFormed (.eccLineFetch 0 0 ⟨1384120320, true, 0⟩) = false := by decide
theorem test_wf_edcRetry : wellFormed (.edcRetry 0 0 ⟨1384120320, false⟩) = false := by decide
theorem test_wf_bar4 : wellFormed (.bar4Read 0 4097) = false ∧ wellFormed (.bar4Read 0 0) = false ∧
    wellFormed (.bar4Write 0 [] false) = false := by decide
theorem test_wf_accepts : wellFormed (.pllLockLoss 0) = true := by decide

/-! ## What single commands do, the expected values worked by hand from the spec -/

/-- A tile with one operation that sends to L0, and a head in its queues N and E. -/
def twoHeads (o : BitVec 64) (a b : Entry) : State :=
  tileIn { cfg := { ops := [(0, o)] }, queues := [(0, [a]), (1, [b])] }

/-- Queue L0 of tile 0 of cluster 0 after a command. -/
def l0After (i : Instr) (s : State) : List Entry :=
  match exec i s with
  | .next t => ((t.cl 0).tile 0).queue 4
  | _ => []

/-- ADD in C8 clamps: 127 + 1 is 127, −128 + −1 is −128, 2 + 3 is 5 (R158). -/
theorem test_add_clamps : l0After (.addOp 0 0 0) (twoHeads (opWord 7 1 2 0 1 0 1 0 0) 0x02807F 0x03FF01) = [0x05807F] := by decide
/-- SUB in C4: 0 − 1 is −1 in each of two lanes (R129). -/
theorem test_sub_c4 : l0After (.subOp 0 0 0) (twoHeads (opWord 8 1 2 0 1 0 0 0 0) 0x00 0x11) = [0xFF] := by decide
/-- XOR of 128 bits (R73). -/
theorem test_xor : l0After (.xorOp 0 0 0) (twoHeads (opWord 0x10 1 2 0 1 0 0 0 0) 0xF0F0 0xFF00) = [0x0FF0] := by decide
/-- MAX in C8 is signed: the larger of −1 and 1 is 1 (R129, R158). -/
theorem test_max_signed : l0After (.maxOp 0 0 0) (twoHeads (opWord 9 1 2 0 1 0 1 0 0) 0xFF 0x01) = [0x01] := by decide
/-- SHIFT right by 2 of −8 in C8 is −2 (R159). -/
theorem test_shift_right : l0After (.shift 0 0 0) (twoHeads (opWord 0x11 1 0 0 1 0 1 0 0xFFFFFE) 0xF8 0) = [0xFE] := by decide
/-- ADD in W16: 1.0 + 1.0 is 2.0 in lane 1, 0.5 + 0.5 is 1.0 in lane 0, with 6 exponent bits of bias 31 (R130, R131). -/
theorem test_add_w16 : l0After (.addOp 0 0 0) (twoHeads (opWord 7 1 2 0 1 0 2 0 0) 0x3E003C00 0x3E003C00) = [0x40003E00] := by decide
/-- An operation whose input queue is empty does not fire (R60). -/
theorem test_empty_input : l0After (.xorOp 0 0 0) (tileIn { cfg := { ops := [(0, opWord 0x10 1 2 0 1 0 0 0 0)] }, queues := [(0, [1])] }) = [] := by
  decide
/-- ST moves its pointer on by 16 and writes the entry's lowest byte first (R73). -/
theorem test_st_bytes : (match exec (.st 0 0 0) (opState (opWord 0x20 1 0 0 1 0 2 0 0)) with
    | .next t => [(((t.cl 0).tile 0).sram.read 64).toNat, (((t.cl 0).tile 0).sram.read 66).toNat, (((t.cl 0).tile 0).reg 1).toNat]
    | _ => []) = [2, 3, 80] := by decide
/-- LDI sign-extends its 24 bits (R73). -/
theorem test_ldi_sign : (match exec (.ldi 0 0 0) (opState (opWord 0x22 0 0 0 5 0 0 0 0x800000)) with
    | .next t => ((t.cl 0).tile 0).reg 5
    | _ => 0) = 0xFF800000 := by decide
/-- A step takes the front command; an empty queue advances the time base by 2^32 (R308). -/
theorem test_step_idle : (match step hostState with | .next t => t.tb.value | _ => 0) = 2 ^ 32 := by decide
/-- A BAR4 write outside every BAR4 region is counted (R462). -/
theorem test_bar4_unsupported : (match exec (.bar4Write 2048 [1] false) hostState with | .next t => t.pcx.regs.bar4Ur | _ => 0) = 1 := by
  decide
/-- An access to BAR0 that is not one aligned DW is counted and discarded (R459). -/
theorem test_bar0_bad : (match exec (.registerWrite 0xA00006 5 false) hostState with
    | .next t => (t.pcx.regs.bar0Bad, t.readBar0 0xA00004) | _ => (0, 0)) = (1, 0x6D6) := by decide
/-- The extended capabilities begin with AER, version 2, and link to 0x148; the conventional list ends with PCI Express (R457). -/
theorem test_config_capabilities : (hostState.configReg 0x100).toNat = 0x14820001 ∧ (hostState.configReg 0x70).toNat % 0x10000 = 0x10 := by
  decide
/-- The function's identity on stepping B0 (R456). -/
theorem test_config_identity : hostState.configReg 0x00 = 0xD0251F3D ∧ hostState.configReg 0x08 = 0x120000B0 := by decide
/-- An offset outside the capabilities ignores a write and reads 0 (R457). -/
theorem test_config_elsewhere : ((hostState.configWrite 0x30 0xF 0x12345678).configRead 0x30) = some 0 := by decide
/-- The port reads IDCODE out first after its reset, its bit 0 being 1 (R719). -/
theorem test_tap_idcode : (([false, true, false, false].foldl (fun s b => s.tapClock b false) (State.reset.tapClock true false)).tapOut) =
    some true ∧ State.reset.idcode = 0x2D0259CF := by decide
/-- The classes share the two crossings of a channel whole (R32, R260). -/
theorem test_crossing_shares : ([classAcq, classTrig, classVat, classFar, classColl, classDma].map crossDepth).sum =
    Crossing.memRequest.depth ∧ ([classTrig, classVat, classFar, classColl, classDma].map returnDepth).sum = Crossing.memReturn.depth := by decide
/-- One transfer into a cluster takes from 1 MESH and 2 ARITH cycles to 1 MESH and 3 ARITH cycles (R31, R32). -/
theorem test_crossing_latency : Crossing.clusterIn.latency = (72, 92) := by decide
/-- The default GDDR6 table keeps the rules on every table (R256, R258, R261, R264). -/
theorem test_gddr_default : gddrTableOk gcalDefault = true := by decide +kernel
/-- The table gives no row any bits, so no word spells a command. -/
theorem test_no_words : decodeTableWord 32 0 = none ∧ State.reset.withFetchWord 32 0 = State.reset := by decide

/-! ## Witnesses of the statements' hypotheses -/

theorem test_step_front : ∃ (s : State) (i : Instr) (rest : List Instr), s.pending = i :: rest :=
  ⟨{ pending := [.fuseBurn] }, .fuseBurn, [], rfl⟩

theorem test_idle_held : State.reset.pending = [] ∧ State.reset.bru.held = true := by decide

theorem test_idle_ticks : ∀ p ∈ [(false, 0), (true, 5), (true, 2046)], ∃ s : State, s.pending = [] ∧ s.bru.held = false ∧ s.pwr.st ≠ .watch ∧
    s.gddr.aligned = p.1 ∧ s.gddr.frame = p.2 ∧ s.lanes.any (·.2.sendsSlots) = false ∧ s.sec.job = none :=
  by
  intro p _
  refine ⟨{ bru := { held := false }, pwr := { st := .run }, gddr := { aligned := p.1, frame := p.2 } }, rfl, rfl, ?_, rfl, rfl, rfl, rfl⟩
  intro h; cases h

theorem test_idle_segment : ∃ s v : State, s.pending = [] ∧ s.bru.held = false ∧ s.pwr.st ≠ .watch ∧ s.gddr.aligned = true ∧
    s.lanes.any (·.2.sendsSlots) = false ∧ v = { s with gddr := { s.gddr with frame := s.gddr.frame + 3 } } ∧ v.segment ≠ s.segment ∧
    v.beginSegment.lanes.any (·.2.sendsSlots) = false := by
  refine ⟨{ bru := { held := false }, pwr := { st := .run }, gddr := { aligned := true, frame := 62 } }, _, rfl, rfl, ?_, rfl, rfl, rfl, ?_⟩
  · intro h; cases h
  · decide +kernel

theorem test_idle_watch : ∃ s : State, s.pending = [] ∧ s.bru.held = false ∧ s.pwr.st = .watch ∧ s.pwr.wake ≠ 0 ∧
    s.pwr.entryEnds ≤ s.pwr.sinceWait + 12 :=
  ⟨{ bru := { held := false }, pwr := { st := .watch, wake := 8 } }, by decide⟩

theorem test_canonical_step : ∃ s t : State, memoriesWf s = true ∧ step s = .next t := ⟨State.reset, State.reset, rfl, rfl⟩

theorem test_hop_tile : ∃ (s : State) (h : Hop) (e : Entry) (gen : Bool) (x : Cluster), s.clocked (hopAt h) = true ∧
    s.hopSource h = some (e, gen, .sink 0 1 3 none) ∧ ((s.hopLeave h).cl 0).arrive 1 3 e = .ok x :=
  ⟨hopState, .tile 0 0 1, 7, false, _, by decide, by decide, rfl⟩

theorem test_hop_wait : ∃ (s : State) (h : Hop) (e : Entry) (gen : Bool), s.clocked (hopAt h) = true ∧
    s.hopSource h = some (e, gen, .sink 0 1 3 none) ∧ ((s.hopLeave h).cl 0).arrive 1 3 e = .error none :=
  ⟨hopFull, .tile 0 0 1, 7, false, by decide, by decide, rfl⟩

theorem test_hop_none : ∃ (s : State) (h : Hop), s.clocked (hopAt h) = true ∧ s.hopSource h = none :=
  ⟨State.reset, .tile 0 0 1, by decide⟩

theorem test_hop_pass : ∃ (s : State) (h : Hop) (e : Entry) (gen : Bool) (l : PLink), s.clocked (hopAt h) = true ∧
    s.hopSource h = some (e, gen, .pass l) ∧ (s.link l.key).pass = none :=
  ⟨routed 0 2, .tile 0 39 1, 9, false, ⟨1, 1, 1⟩, by decide⟩

theorem test_hop_cross : ∃ (s : State) (h : Hop) (e : Entry) (gen : Bool) (l : PLink), s.clocked (hopAt h) = true ∧
    s.hopSource h = some (e, gen, .cross l) ∧ (s.link l.key).cross.length < 8 :=
  ⟨routed 10 1, .tile 10 39 1, 9, false, ⟨10, 1, 1⟩, by decide⟩

theorem test_emit_next : ∃ (s : State) (y : Tile), y = (s.cl 0).tile 0 ∧ s.clocked 0 = true ∧
    (SMap.get {} y.emit (EmitKey .mul)).entries = [(0, 5)] ∧ y.outsFree (outMask (y.op 0)) = true ∧
    y.destRoom (localDest (y.op 0)) none = true :=
  ⟨tileIn { emit := [(0, { entries := [(0, 5)] })] }, _, rfl, by decide⟩

theorem test_far_request : ∀ n ∈ [1, 9], ∃ (s : State) (x : Cluster) (y : Tile) (j : FarJob), x = s.cl 0 ∧ y = x.tile 0 ∧
    s.clocked 0 = true ∧ y.farJobs = [j] ∧ x.farRoom j.write = true ∧ x.regs.translate j.write j.line = if n = 1 then some 6 else none := by
  intro n hn
  refine ⟨clusterIn { st := .run, regs := { fwin := [(0, { lines := 4, pbase := 5, valid := true, rd := true })] }
                      tiles := [(0, { farJobs := [{ line := n, left := 1 }] })] }, _, _, { line := n, left := 1 }, rfl, rfl, rfl, rfl, rfl, ?_⟩
  simp only [List.mem_cons, List.not_mem_nil, or_false] at hn
  rcases hn with rfl | rfl <;> decide

theorem test_far_served : ∀ v ∈ [Served.ok, .bad], ∀ w i : Bool, ∃ (s : State) (q : FarReq), s.clocked 0 = true ∧
    (s.cl 0).farQ.find? (fun r => r.tile == 0) = some q ∧ q.served = v ∧ q.inc = i ∧ q.write = w := by
  intro v _ w i
  exact ⟨clusterIn { st := .run, farQ := [{ served := v, write := w, inc := i }] }, { served := v, write := w, inc := i }, rfl, rfl, rfl, rfl, rfl⟩

theorem test_token_zero : ∃ (s : State) (y : Tile), y = (s.cl 0).tile 0 ∧ s.clocked 0 = true ∧ y.tokenQ = [0] ∧
    tokCount 0 = 0 ∧ y.dropsZero = true :=
  ⟨tileIn { tokenQ := [0], cfg := { ops := [(0, opWord 0x2D 0 0 0 0 0 0 0 0)] } }, _, rfl, by decide⟩

theorem test_spill_due : ∀ p ∈ [(false, false), (true, false), (false, true)], ∃ s : State, s = spillIn p.1 p.2 ∧ s.clocked 0 = true ∧
    (s.cl 0).working = true ∧ (s.cl 0).regs.trigger = p.1 ∧ s.chestShort 0 0 4 = p.2 ∧ s.spillDue 0 0 4 = true ∧
    (s.cl 0).regs.event.getLsbD 7 = false := by
  intro p hp
  refine ⟨_, rfl, ?_⟩
  simp only [List.mem_cons, List.not_mem_nil, or_false] at hp
  rcases hp with rfl | rfl | rfl <;> decide +kernel

theorem test_spill_input : (hopSpill.cl 0).working = true ∧ hopSpill.spillDue 0 1 3 = true ∧ hopSpill.chestShort 0 1 3 = false ∧
    (hopSpill.cl 0).regs.trigger = false ∧ hopSpill.clocked 0 = true := by decide +kernel

theorem test_refill : ∃ (s : State) (y : Tile), y = (s.cl 0).tile 0 ∧ s.clocked 0 = true ∧
    y.chest.find? (fun p => p.1 == 4) = some (4, 3) ∧ y.queueLen 4 < queueDepth 4 :=
  ⟨tileIn { chest := [(4, 3)], spill := 16 }, _, rfl, by decide⟩

theorem test_fires_mul : ∀ p ∈ [(0x01, opWord 1 1 2 0 0 0 1 0 0), (0x02, opWord 2 1 2 0 0 0 1 0 0), (0x01, opWord 1 1 2 0 0 0 2 0 0),
    (0x02, opWord 2 1 2 0 0 0 2 0 0), (0x03, opWord 3 1 2 0 1 0 1 0 1), (0x03, opWord 3 1 2 0 1 0 1 0 2),
    (0x04, opWord 4 0 0 0 1 0 1 0 3), (0x05, opWord 5 0 0 0 0 0 0 0 0), (0x06, opWord 6 1 2 0 1 1 2 0 0)],
    (firing (opState p.2) p.1).isSome = true := by decide

theorem test_macr_reads_out : ∃ f, Fires (opState (opWord 3 1 2 0 1 0 1 0 1)) 3 0 0 0 f ∧
    SMap.get 0 (f.accumulate true).tile.macrCnt f.i + 1 = opImm f.o := ⟨_, fires_of rfl, by decide⟩

theorem test_fires_lanes : ∀ p ∈ [(0x07, 1), (0x08, 0), (0x09, 1), (0x0A, 1), (0x07, 2), (0x08, 3), (0x09, 2), (0x0A, 3),
    (0x0B, 2), (0x11, 1)], (firing (opState (opWord p.1 1 (if p.1 = 0x0B ∨ p.1 = 0x11 then 0 else 2) 0 1 1 p.2 0 1)) p.1).isSome = true := by
  decide

theorem test_fires_entries : ∀ p ∈ [(0x0E, 1), (0x0F, 1), (0x10, 1), (0x21, 1), (0x12, 1), (0x13, 1), (0x0C, 1), (0x0D, 0), (0x0D, 2),
    (0x0C, 3)],
    (firing (opState (opWord p.1 1 (if p.1 = 0x0C ∨ p.1 = 0x0D ∨ p.1 = 0x21 then 0 else 2) 0 1 0 p.2 0 0)) p.1).isSome = true := by
  decide

theorem test_fires_sfu : ∀ k ∈ [0x15, 0x16, 0x17, 0x18, 0x19, 0x1A, 0x1B],
    (firing (opState (opWord k 1 0 0 1 0 2 0 0)) k).isSome = true := by decide

theorem test_sfu_values : FVal.ofBits w16 0x7FC0 = .nan ∧ FVal.ofBits f32 0 = .fin false 0 (-149) ∧ FVal.ofBits f32 0x7F800000 = .inf false ∧
    FVal.ofBits w16 (w16.signBit + w16.infBits) = .inf true ∧ (∃ m e, FVal.ofBits f32 0xBF800000 = .fin true m e ∧ m ≠ 0) :=
  ⟨by decide, by decide, by decide, by decide, _, _, rfl, by decide⟩

theorem test_fires_cvt : ∀ p ∈ [(0x14, opWord 0x14 1 0 0 1 0 0 2 0), (0x14, opWord 0x14 1 0 0 1 0 2 1 0), (0x2F, opWord 0x2F 0 0 0 1 0 0 0 1)],
    (firing (opState p.2) p.1).isSome = true := by decide

theorem test_cvt_pack_completes : ∃ f, Fires (tileIn { opTile (opWord 0x14 1 0 0 1 0 2 1 0) with packs := [(0, { pos := 1 })] }) 0x14 0 0 0 f ∧
    (SMap.get {} f.tile.packs f.i).pos + 1 = laneCount 1 / laneCount 2 := ⟨_, fires_of rfl, by decide⟩

theorem test_fires_stats : ∀ m ∈ [0, 1, 2, 3], (firing (opState (opWord 0x1E (if m = 0 then 1 else 0) 0 0 1 0 2 0 (m * 2 ^ 22))) 0x1E).isSome = true ∧
    statsMode (opWord 0x1E (if m = 0 then 1 else 0) 0 0 1 0 2 0 (m * 2 ^ 22)) = m := by decide

theorem test_quant_hypotheses : ∀ sel ∈ [0, 1], ∃ f g l h posts, Fires (opState (opWord 0x1C 1 0 0 1 0 2 sel 0)) 0x1C 0 0 0 f ∧ f.loadHeld = .ok g ∧
    g.quantElements ((g.tile.book 0).candidates sel) [] ((List.range 8).map fun k => (0, laneF 2 g.a k)) = (l, h, posts) := by
  intro sel hs
  simp only [List.mem_cons, List.not_mem_nil, or_false] at hs
  rcases hs with rfl | rfl <;> exact ⟨_, _, _, _, _, fires_of rfl, rfl, rfl⟩

theorem test_dequant_hypotheses : ∃ f g, Fires (tileIn { opTile (opWord 0x1D 1 0 0 1 0 2 0 0) with
      siz := { held := [(0, { loaded := true, recs := [BitVec.ofNat 128 0x3F800000] })] } }) 0x1D 0 0 0 f ∧ f.loadHeld = .ok g ∧
    ∀ k < min (laneCount 0) (sizChannels g.o), (((g.tile.held g.i).recs.map ChanRec.ofEntry).getD k {}).valid = true :=
  ⟨_, _, fires_of rfl, rfl, by decide⟩

theorem test_fires_mem : ∀ p ∈ [(0x1F, opWord 0x1F 7 0 0 1 1 2 0 1), (0x20, opWord 0x20 1 0 0 1 0 2 0 0), (0x22, opWord 0x22 0 0 0 1 0 0 0 5),
    (0x23, opWord 0x23 7 0 0 0 1 0 0 0), (0x23, opWord 0x23 7 0 0 0 1 0 4 0), (0x24, opWord 0x24 0 0 0 0 1 0 0 65536),
    (0x25, opWord 0x25 0 0 0 0 1 0 0 65536)], (firing (opState p.2) p.1).isSome = true := by decide

theorem test_mem_below_chest : (opTile 0).sramOk 64 512 = true ∧ (opTile 0).sramOk 64 16 = true ∧ (opTile 0).sramOk 0 64 = true := by decide

theorem test_past_chest : ∀ p ∈ [(0x20, opWord 0x20 1 0 0 1 0 2 0 0), (0x23, opWord 0x23 7 0 0 0 1 0 0 0), (0x24, opWord 0x24 0 0 0 0 1 0 0 (768 + 65536)),
    (0x25, opWord 0x25 0 0 0 0 1 0 0 (768 + 65536))],
    (firing (tileIn { opTile p.2 with regs := [(1, 12288)] }) p.1).isSome = true := by decide

theorem test_no_room : (opTile 0).sramOk 12288 16 = false ∧ (opTile 0).sramOk (16 * 768) 64 = false := by decide

theorem test_fires_sync : ∀ p ∈ [(0x26, opWord 0x26 0 0 0 0 0 0 0 1), (0x27, opWord 0x27 0 0 0 1 0 0 0 0), (0x28, opWord 0x28 0 0 0 0 0 0 0 5),
    (0x28, opWord 0x28 1 0 0 0 0 0 0 5), (0x29, opWord 0x29 0 0 0 7 0 0 0 3), (0x2E, opWord 0x2E 0 0 0 7 1 0 0 1), (0x2E, opWord 0x2E 1 0 0 7 0 0 0 0),
    (0x2E, opWord 0x2E 1 9 0 7 0 0 0 0)], (firing (opState p.2) p.1).isSome = true := by decide

theorem test_token_forms : tokenForm (opWord 0x2E 0 0 0 7 1 0 0 1) = 0 ∧ tokenForm (opWord 0x2E 1 0 0 7 0 0 0 0) = 1 ∧
    tokenForm (opWord 0x2E 1 9 0 7 0 0 0 0) = 2 := by decide

theorem test_cnt_steps_down : ∃ f, Fires (clusterIn { st := .run, cntVal := [(0, 2)], tiles := [(0, opTile (opWord 0x29 0 0 0 7 0 0 0 3))] }) 0x29 0 0 0 f ∧
    1 < (f.x.cntV 0).toNat := ⟨_, fires_of rfl, by decide⟩

/-- Whether the steering operation `o` of `opState` issues under a step without a routing error. -/
def steers (o : BitVec 64) : Bool :=
  (opState o).mayFire 0 0 0 &&
    (steerStep o ((((opState o).cl 0).tile 0).tokenQ.headD 0)).any fun st => !st.error

theorem test_steers : steers (opWord 0x2A 7 1 8 1 0 0 0 0) = true ∧ steers (opWord 0x2B 7 1 8 0 0 0 0 0) = true ∧
    steers (opWord 0x2C 7 1 8 0 0 0 0 0) = true ∧ steers (opWord 0x2D 7 1 8 0 0 0 0 0) = true := by decide +kernel

theorem test_watchdog : ∃ (s : State) (x : Cluster), x = s.cl 0 ∧ x.working = true ∧ x.idle = false ∧ s.canProgress 0 = false ∧ s.watchHeld 0 = false :=
  ⟨tileIn { queues := [(0, [1])] }, _, rfl, by decide +kernel⟩

theorem test_watchdog_off : (State.reset.cl 0).working = false ∧ ((tileIn {}).cl 0).idle = true ∧ hopState.canProgress 1 = false ∧
    hopState.canProgress 0 = true ∧ ({ clusterIn { st := .run } with flt := { halted := true } } : State).watchHeld 0 = true := by decide +kernel

theorem test_sheet_end : ∃ (s : State) (im : Image), im = s.image 1 ∧ im.kind ≠ 1 ∧ im.sheet.active = true ∧ im.map.all Option.isSome = true ∧
    s.routesFree im = true ∧ ∀ d ∈ im.clusters, (s.cl d).st = .run ∧ (s.cl d).cfg.started = false ∧ (s.cl d).dataFree = true ∧ (s.cl d).sourcesDone = true :=
  ⟨{ imageState with images := [(1, { map := [some 0], vw := 1, vh := 1, sheet := { active := true } })] }, _, rfl, by decide⟩

theorem test_quiescent : ∃ s : State, s.quiescent 1 = true :=
  ⟨{ clusterIn { st := .drain, regs := { handle := 1 } } with images := [(1, { map := [some 0] })] }, by decide⟩

theorem test_quiescent_dandy : ∃ s : State, s.quiescent 0 = true := ⟨{ fab := { clusters := [(880, { st := .drain })] } }, by decide +kernel⟩

theorem test_overrun : ∃ (s : State) (x : Cluster), x = s.cl 0 ∧ x.st = .drain ∧ (s.drainView 0).dataFree = true ∧ x.tiles.any (fun p => p.2.holdsPack) = false ∧
    x.tiles.findSome? (fun p => p.2.liveToken.map fun k => (p.1, tokCount k)) = some (3, 2) :=
  ⟨clusterIn { st := .drain, tiles := [(3, { tokenQ := [2] })] }, _, rfl, by decide⟩

theorem test_drained : ∃ (s : State) (x : Cluster), x = s.cl 0 ∧ x.st = .drain ∧ x.empty = true := ⟨clusterIn { st := .drain }, _, rfl, by decide⟩

theorem test_clc_loaded : ∃ s : State, s.flt.halted = false ∧ s.loaded (s.cl 0).regs.handle.toNat = true := ⟨imageState, by decide⟩

theorem test_clc_unloaded : ∀ st ∈ [CState.run, CState.config], let s := clusterIn { st := st }
    s.flt.halted = false ∧ s.loaded (s.cl 0).regs.handle.toNat = false ∧ (s.cl 0).st = st := by decide

theorem test_config_fetch : ∃ (s : State) (x : Cluster), x = s.cl 0 ∧ x.cfg.fetching = true ∧ 0 < x.cfg.entriesLeft ∧
    x.cfg.queue.length + min 4 x.cfg.entriesLeft ≤ 64 ∧ s.flt.halted = false ∧ s.configBad 0 x.cfg.line = false :=
  ⟨clusterIn { cfg := { fetching := true, entriesLeft := 3 } }, _, rfl, by decide⟩

theorem test_config_delivery : ∀ k ∈ [0, 2, 3, 4, 5], ∀ b ∈ [false, true],
    let s := clusterIn { st := .idle, cfg := { started := b, queue := [BitVec.ofNat 128 (k * 2 ^ 124)] } }
    (s.cl 0).cfg.queue = [BitVec.ofNat 128 (k * 2 ^ 124)] ∧ (s.cl 0).canDeliver = true ∧ s.clocked 0 = true ∧ (s.cl 0).cfg.started = b ∧
      entryKind (BitVec.ofNat 128 (k * 2 ^ 124)) = k := by decide

theorem test_config_payload : let s := clusterIn { st := .run, cfg := { started := true, queue := [0], asm := { active := true, head := BitVec.ofNat 128 (4 * 2 ^ 124 + 2 ^ 107) } } }
    (s.cl 0).canDeliver = true ∧ s.clocked 0 = true ∧ (s.cl 0).cfg.asm.payload.length + 1 = headPayload (s.cl 0).cfg.asm.head := by decide +kernel

theorem test_restore : ∃ (s : State) (x : Cluster), x = s.cl 0 ∧ x.cfg.restore = true ∧ x.st = .idle ∧ s.clocked 0 = true ∧
    ∀ k < ceilDiv x.cfg.entriesLeft 4, s.configBad 0 (x.cfg.line + k) = false :=
  ⟨clusterIn { st := .idle, cfg := { restore := true, entriesLeft := 1 } }, _, rfl, by decide⟩

theorem test_wire : ((State.reset.bridge 0).planned 0).retired.contains 5 = false ∧ SMap.get none ((State.reset.bridge 0).planned 0).wires 5 = none ∧
    gddrState.frameBoundary = false ∧ ({ gddr := { aligned := true } } : State).frameBoundary = true := by decide

theorem test_wire_again : ∀ n ∈ [0, 1, 2], let s : State := { fab := { bridges := [(0, { waiting := [(2, 5, 3)], retired := (List.range n).map (· + 90) })] } }
    ((s.bridge 0).planned 0).retired.contains 5 = false ∧ SMap.get none ((s.bridge 0).planned 0).wires 5 = some 3 ∧
      ((s.bridge 0).planned 0).retired.length = n := by decide

theorem test_pll : ∀ lost ∈ [false, true], ∀ sp ∈ [false, true], let s : State := { fab := { dies := if lost || sp then [(0, { pllLost := lost, spareInUse := sp })] else [] } }
    (s.die 0).pllLost = lost ∧ (s.die 0).spareInUse = sp := by decide

/-- A read of class TRIG and of FAR of line 0 ask, and a write of a whole group and one of its lines of class TRIG. -/
def askState : State :=
  { gddrState with gddr := { gddrState.gddr with
      gcal := SMap.set 0 gddrState.gddr.gcal 4 (BitVec.ofNat 16 (3 * 4096 + 2048))
      reqs := [{ cls := 3, line := 0, n := 1 }, { cls := 3, write := true, line := 0, n := 15 }, { cls := 3, write := true, line := 330, n := 1 },
        { cls := 5, line := 0, n := 1 }] } }

theorem test_burst_ready : ∀ high ∈ [false, true], let s := askState.noteHalf (burstOf 3 false 0 false)
    s.ready 3 false 0 = some (.run 0) ∧ s.slotServes 0 3 0 = true ∧ s.halfDue (burstOf 3 false 0 high) = true ∧ s.slotWrites 0 = false ∧
      (s.quarter 0).physical (lineChannel 0) = some 0 ∧ (s.quarter 0).repeats.count (burstOf 3 false 0 high) < 4 := by decide +kernel

theorem test_burst_write : ∀ high ∈ [false, true], let s := askState.noteHalf (burstOf 3 true 0 false)
    s.ready 3 true 0 = some (.run 1) ∧ s.slotServes 4 3 0 = true ∧ s.halfDue (burstOf 3 true 0 high) = true ∧ s.slotWrites 4 = true ∧
      s.eccReady 3 0 = true ∧ s.eccReady 3 330 = false := by decide +kernel

theorem test_burst_far : (askState.sendFar 0 0 12).ready 5 false 0 = some (.run 3) ∧ (askState.sendFar 0 0 12).slotServes 1 5 0 = true ∧
    askState.slotServes 0 5 0 = false ∧ askState.ready 4 false 0 = none ∧ askState.halfDue (burstOf 3 false 0 true) = false := by decide +kernel

theorem test_ecc_wanted : ∀ high ∈ [false, true], let s := askState.noteHalf (burstOf 19 false 330 false)
    s.slotServes 0 3 330 = true ∧ s.slotWrites 0 = false ∧ s.eccWanted 3 330 = true ∧ s.halfDue (burstOf 19 false (groupStart 330) high) = true := by
  decide +kernel

theorem test_ecc_unwanted : askState.eccWanted 3 0 = false ∧ askState.halfDue (burstOf 19 false 330 true) = false := by decide +kernel

theorem test_burst_ecc : ∀ high ∈ [false, true], let s := (State.oweEcc { askState with gddr := { askState.gddr with reqs := [] } } 3 0 true).noteHalf (burstOf 19 true 0 false);
    s.ready 3 true 0 = some .ecc ∧ s.slotServes 4 3 0 = true ∧ s.slotWrites 4 = true ∧ s.halfDue (burstOf 19 true 0 high) = true := by decide +kernel

theorem test_edc_ecc : askState.burstAt 3 false 330 false = some (burstOf 19 false 330 false, none) ∧ askState.slotServes 0 3 330 = true ∧
    askState.halfDue (burstOf 19 false 330 false) = true := by decide +kernel

theorem test_edc_patrol : askState.burstAt 9 false 0 false = some (burstOf 9 false 0 false, none) ∧ askState.slotServes 3 9 0 = true ∧
    askState.slotWrites 3 = false ∧ (askState.quarter 0).patrols = true := by decide +kernel

theorem test_edc_last : let s := [1, 2, 3, 4].foldl (fun s _ => s.setQuarter 0 { s.quarter 0 with repeats := (s.quarter 0).repeats ++ [burstOf 3 false 0 false] }) askState
    s.burstAt 3 (s.slotWrites 0) 0 false = some (burstOf 3 false 0 false, some (.run 0)) ∧ s.slotServes 0 3 0 = true ∧ 4 ≤ (s.quarter 0).repeats.count (burstOf 3 false 0 false) := by decide +kernel

theorem test_refresh_slot : gddrState.slotClass 2 = 2 ∧ gddrState.gddrRuns = true := by decide

theorem test_patrol_slot : (gddrState.quarter 0).copy.active = false ∧ (gddrState.quarter 0).withdrawn = false ∧
    ((gddrState.quarter 0).physical 0).isSome = true ∧ gddrState.copySlot 3 0 = true := by decide

/-- An aligned device whose quarter 0 is given. -/
def quarterIn (q : Quarter) : State := { pwr := { st := .run }, gddr := { gddrState.gddr with aligned := true, quarters := [(0, q)] } }

theorem test_copy_start : ∀ sp ∈ [false, true], let s := quarterIn { wanted := [3], devs := if sp then [] else [(11, { st := .lost })] }
    (s.quarter 0).wanted.contains 3 = true ∧ (s.quarter 0).copy.active = false ∧ s.frameBoundary = true ∧
      (s.quarter 0).spare = if sp then some 11 else none := by decide

theorem test_copy_group : let s := quarterIn { copy := { active := true } }
    (s.quarter 0).copy.active = true ∧ (s.quarter 0).copy.init = false ∧ (s.quarter 0).copy.ptrA < channelGroups ∧
      s.copySlot 3 (s.quarter 0).copy.ptrA = true := by decide

theorem test_switch : let s := quarterIn { copy := { active := true, ptrA := channelGroups, ptrB := channelGroups } }
    (s.quarter 0).copy.active = true ∧ (s.quarter 0).copy.init = false ∧ (s.quarter 0).copy.ptrA = channelGroups ∧
      (s.quarter 0).copy.ptrB = channelGroups ∧ s.frameBoundary = true := by decide

theorem test_lost_states : ∀ st ∈ [DevState.lost, .spare, .retired, .copyDst, .inService], ∀ w ∈ [false, true],
    let s := quarterIn { devs := [(4, { st, logical := 4 })], withdrawn := w, copy := { active := true, init := true } }
    ((s.quarter 0).endCopy.dev 4).st = st ∧ (s.quarter 0).endCopy.withdrawn = w := by decide

theorem test_lost_spare : ∀ sp ∈ [false, true], let s := quarterIn { devs := if sp then [] else [(11, { st := .retired })] }
    (((s.setQuarter 0 { (s.quarter 0).endCopy.setDev 4 { st := .lost } with wanted := [] }).noteRepair 5 (deviceLoc 0 4)).quarter 0).spare =
      if sp then some 11 else none := by decide

theorem test_spare_init : let s := quarterIn { copy := { active := true, init := true } }
    (s.quarter 0).copy.active = true ∧ (s.quarter 0).copy.init = true ∧ (s.quarter 0).withdrawn = false ∧ s.frameBoundary = true := by decide

theorem test_spare_bist : ∃ (s : State) (b : Bist), s.svc.bist.find? (fun b => b.spare == 40) = some b ∧ b.owner = none :=
  ⟨{ svc := { bist := [{ spare := 40, failed := 3 }] } }, _, rfl, rfl⟩

theorem test_fuse_burn : ∀ n ∈ [511, 512], let s : State := { flt := { unburned := [(1, 5)], fuses := n } }
    s.flt.unburned = [(1, 5)] ∧ s.flt.fuses = n := by decide
/-- A cluster with an image handle whose move is due. -/
def moveState (h : BitVec 16) : State :=
  { (clusterIn { st := .idle, regs := { handle := h } }) with images := [(1, { map := [some 0] })], svc := { moves := [0] } }

theorem test_move_unowned : (moveState 0).svc.moves.contains 0 = true ∧ (moveState 0).svc.bist.any (fun b => b.failed == 0) = false ∧
    (moveState 0).loaded ((moveState 0).cl 0).regs.handle.toNat = false ∧ (moveState 0).moveReady 1 0 = true := by decide +kernel

theorem test_move_owned : (moveState 1).svc.moves.contains 0 = true ∧ (moveState 1).svc.bist.any (fun b => b.failed == 0) = false ∧
    (moveState 1).loaded ((moveState 1).cl 0).regs.handle.toNat = true ∧ (moveState 1).moveReady 1 0 = true := by decide +kernel

theorem test_core_active : State.reset.core 0 = .active ∧ State.reset.core (State.reset.roleCore 1) = .active ∧ State.reset.core 2 = .spare := by decide

theorem test_lane_states : ∀ st ∈ [GState.off, .fail, .active, .eidle, .detect, .baseAcq, .baseLink], ∀ b ∈ [false, true],
    let s := groupIn { st := st, lanes := [(1, { los := b, lock := b })] }
    (s.group 0).st = st ∧ s.flt.halted = false ∧ ((s.group 0).lane 1).los = b ∧ ((s.group 0).lane 1).lock = b ∧ (s.group 0).rate = 0 ∧
      1 < groupLanes 0 ∧ 1 ≠ clockOf 0 := by decide

theorem test_base_timeout : ((groupIn { st := .baseAcq }).group 0).repair 0 (·.lock) = none ∧
    (((groupIn { st := .baseAcq, lanes := (List.range 4).map fun k => (k, { lock := true }) }).group 0).repair 0 (·.lock)).isSome = true := by decide

theorem test_training_states : ∀ st ∈ [GState.baseLink, .negotiate, .step, .blockHunt, .eq], ∀ b ∈ [false, true],
    let s := groupIn { st := st, rate := 2, offer := 3, lanes := [(0, { lock := true, fresh := b })], joined := b }
    (s.group 0).st = st ∧ (s.group 0).joined = b ∧ (s.group 0).rate ≠ 0 ∧ (2 : Fin 8).val ≤ (s.group 0).offer.toNat ∧
      ((s.group 0).lane 0).lock = true ∧ ((s.group 0).lane 0).fresh = b ∧ ((s.group 0).lane 1).lock = false ∧ 1 < groupLanes 0 ∧ 1 ≠ clockOf 0 := by decide

theorem test_block_lock : lockRest (List.replicate 64 (1, 0)) = some [] ∧ lockRest [(1, 0)] = none := by decide +kernel

theorem test_block_loss : (∀ k ≤ [((1 : BitVec 2), (0 : Fin 5))].length, (([((1 : BitVec 2), (0 : Fin 5))].drop k).take 64).countP headBad < 16) ∧
    16 ≤ (((List.replicate 16 ((0 : BitVec 2), (0 : Fin 5))).drop 0).take 64).countP headBad := by decide

theorem test_active_lane : let s := groupIn { st := .active, rate := 1, lanes := [(0, { bad := true, lock := true })] }
    (s.group 0).st = .active ∧ ((s.group 0).lane 0).bad = true ∧ (s.group 0).spareUsed = false ∧ (s.group 0).phase = .none ∧
      0 < groupLanes 0 ∧ (s.group 0).rate ≠ 0 ∧ ((s.group 0).lane 0).lock = true := by decide

theorem test_spare_phases : ∀ p ∈ [SparePhase.requested, .acknowledged], ∀ b ∈ [false, true],
    let s := groupIn { st := .active, phase := p, lanes := [(spareOf 0, { bad := b })] }
    (s.group 0).st = .active ∧ (s.group 0).phase = p ∧ (s.group 0).spareLane.toNat = 0 ∧ ((s.group 0).lane (spareOf 0)).bad = b ∧
      (s.group 0).frame = (s.group 0).spareFrame ∧ (s.group 0).reachedF = true := by decide

theorem test_spare_early : ((groupIn { st := .active, phase := .requested, spareFrame := 9 }).group 0).reachedF = false := by decide

theorem test_peer_abandons : let s := groupIn { txPending := some 3, txFrame := 9, txSpare := some 0 }
    (s.group 0).txPending.isSome = true ∧ (s.group 0).txSpare = some 0 ∧ (s.group 0).st ≠ .active ∧ (s.group 0).spareOutstanding = false := by decide

theorem test_base_unit : let s := groupIn { st := .baseLink, lanes := [(0, { lock := true })] }
    (s.group 0).st ≠ .off ∧ (s.group 0).rate = 0 ∧ ((s.group 0).lane 0).lock = true := by decide

theorem test_burst : ∀ b ∈ [false, true], let s := groupIn { st := .eidle, lanes := (List.range 4).map fun k => (k, { lock := b, desk := true, fresh := k == 0 }) }
    let y := (s.group 0).dropFirst 0
    (s.group 0).st = .eidle ∧ ((s.group 0).inUse 0).filter (fun k => ((s.group 0).lane k).lock && ((s.group 0).lane k).fresh) = (if b then [0] else []) ∧
      (if b then [0] else []) ≠ (s.group 0).inUse 0 ∧ ((∀ k ∈ (s.group 0).inUse 0, (y.lane k).lock = true ∧ (y.lane k).desk = true) ↔ b = true) := by decide

theorem test_servo : ∃ (s : State) (m : Nat × Int), s.timeOff = false ∧ s.tb.due.find? (fun m => m.1 == (2 : Fin 4).val) = some m ∧ s.tb.st = .invalid :=
  ⟨{ tb := { due := [(2, 5)] } }, (2, 5), by decide⟩

theorem test_servo_none : State.reset.timeOff = false ∧ ∀ m ∈ State.reset.tb.due, m.1 ≠ 0 := by decide

theorem test_announce : ∃ (s : State) (x : Domain), x = SMap.get {} s.tb.domains 0 ∧ x.en = true ∧ s.timeOff = false :=
  ⟨{ tb := { domains := [(0, { en := true })] } }, _, rfl, rfl, by decide⟩

theorem test_pps_in : (false = State.reset.tb.ctrl.falling) ∧ ∀ c ∈ [compare 0 1, compare 1 1, compare 1 0],
    ∃ v ∈ [1, 5 * 10 ^ 8 * 2 ^ 32, 6 * 10 ^ 8 * 2 ^ 32], let s : State := { tb := { value := v } }
      s.timeOff = false ∧ compare (2 * (s.markTime { phase := 0 } % second)) second = c := by decide +kernel

theorem test_tbs_lock : ∀ b : Bool, ({ tb := { ctrl := { lock := b } } } : State).tb.ctrl.lock = b := fun _ => rfl

/-- Trackers of domain 0 and of domain 9, the first as MASTER of the default profile where it is one. -/
def trackState (m : Bool) : State :=
  { tb := { domains := [(0, { en := true, profile := m, pstate := if m then 4 else 0 }), (1, { en := true, domain := 9 })] } }

theorem test_ptp_heard : ∀ k ∈ [PtpKind.sync, .other], (trackState false).timeOff = false ∧
    (List.range 2).filter (fun d => (SMap.get ({} : Domain) (trackState false).tb.domains d).follows 0 (ptpFrame k)) = [0] ∧
      (ptpFrame k).isPtp = true ∧ (ptpFrame k).fcsOk = true ∧ (ptpFrame k).tags ≤ 1 ∧ ptpInterval false (ptpFrame k) = true := by decide

theorem test_ptp_interval : ptpInterval false { ptpFrame .sync with logInterval := 5 } = false := by decide

theorem test_ptp_sent : ∀ k ∈ [PtpKind.sync, .other],
    (List.range 2).filter (fun d => (SMap.get ({} : Domain) (trackState true).tb.domains d).follows 0 (ptpFrame k) &&
      (SMap.get ({} : Domain) (trackState true).tb.domains d).sends (ptpFrame k).kind) = (if k = .sync then [0] else []) ∧
      (ptpFrame k).twoStep = false ∧ (ptpFrame k).tags = 0 ∧ ptpInterval true (ptpFrame k) = true := by decide

theorem test_ptp_discard : ∀ k < 2, (SMap.get ({} : Domain) State.reset.tb.domains k).follows 0 (ptpFrame .sync) = false := by decide

theorem test_pps_wanted : ∀ l ∈ [[7], []], ∀ e ∈ [0, 10 ^ 15], ∃ (s : State) (p : PpsPin), p = SMap.get {} s.tb.pps 0 ∧ p.mode ≠ 0 ∧ s.flt.halted = false ∧
    p.want = l ∧ s.tb.st ≠ .invalid ∧ p.lastEnd = e ∧ s.timeOff = false := fun l _ e _ =>
  ⟨{ tb := { st := .locked, pps := [(0, { mode := 2, want := l, lastEnd := e })] } }, _, rfl, by simp [SMap.get], rfl, rfl, nofun, rfl, rfl⟩

theorem test_pps_edge : ∃ (s : State) (p : PpsPin), p = SMap.get {} s.tb.pps 0 ∧ p.mode ≠ 0 ∧ p.want = [] ∧ (p.lastEdge s.now).isSome = true ∧ p.edge = none :=
  ⟨{ tb := { value := 10 ^ 10 * 2 ^ 32, pps := [(0, { mode := 1 })] } }, _, rfl, by decide +kernel⟩

theorem test_hello : let s := stockState .baseLink
    (s.group 0).st = .baseLink ∧ s.headboxOff = false ∧ (s.partner 0).pid = 0 := by decide

theorem test_sjoin : let s := stockState .active
    (s.group 0).st = .active ∧ s.headboxOff = false ∧ s.heldSid 0 5 = none ∧ s.freeSids 0 = (List.range 64).tail.tail.map (· + 0) ∧
      loadExceeds (s.groupLoad 0 + ({ st := .joined, lsn := 5, fmt := 1, fcode := 0, rate := 1000 } : Stream).load) (s.group 0).rate.toNat = false := by
  decide +kernel

theorem test_sleave : let s := stockState .active
    s.heldSid 0 1 = some 0 ∧ (s.stream 0).st = .joined ∧ s.heldSid 0 2 = some 1 ∧ (s.stream 1).st = .suspended ∧
      (s.partner 0).present = true ∧ s.heldSid 0 9 ≠ some 0 := by decide +kernel

theorem test_frame : let s := (stockState .active).unheard 0
    ((stockState .active).group 0).st = .active ∧ (s.stream 0).identity 0 stockFrame = true ∧ frameStructured stockFrame (s.stream 0) = true ∧
      frameCrc { stockFrame with crc := frameCrc stockFrame } = frameCrc stockFrame ∧
      frameCredit (s.stream 0).fcode.toNat 1 ≤ (s.stream 0).creditAt (s.markRun stockFrame.mark) := by decide +kernel

theorem test_frame_bad : let s := (stockState .active).unheard 0
    (s.stream 1).identity 0 stockFrame = false ∧ frameStructured { stockFrame with stray := true } (s.stream 0) = false := by decide +kernel

theorem test_frame_poor : ({ ((stockState .active).unheard 0).stream 0 with credit := 0 } : Stream).creditAt 0 < frameCredit 0 1 := by decide +kernel

theorem test_frame_admitted : let y : Stream := { ((stockState .active).unheard 0).stream 0 with st := .admitted, seqSet := true, seq := 65535 }
    y.admitT ≤ 0 ∧ y.ahead stockFrame = 1 ∧ { y with seq := 1 }.ahead stockFrame = 65535 := by decide +kernel

theorem test_join_wrong : ((stockState .active).group 0).inBlocks = true ∧ ((stockState .baseLink).group 0).atBase = true := by decide

theorem test_join_copies : ∀ n ∈ [0, 2], ∀ type ∈ [0x60, 0x62, 0x65, 0x67],
    let s := ((stockState .active).setPartner 0 { present := true, heard := (type, []), copies := n }).hearJoin 0 type []
    s.1 = decide (n = 2) := by decide +kernel

theorem test_frame_crc : frameCrc stockFrame ≠ stockFrame.crc := by decide +kernel

theorem test_load : (match loadState.fwHead 1 with
    | none => false
    | some (w, s1) => match s1.resolve 0 (fieldAt w.bytes 0x18 8) (fieldAt w.bytes 0x20 4), s1.fetchImage 0 0 192 with
      | .ok _, .ok b => match loadState.load 0 b with
        | .ok (j, _) => decide (j.handle = 1) && s1.fieldUp w.bytes 8 && s1.fieldUp w.bytes 0x18 && loadState.hif.load.isNone
        | .error _ => false
      | _, _ => false) = true := by decide +kernel

theorem mesh_self : meshPath (edgePos 0) (edgePos 0) = [] := by unfold meshPath; split <;> decide

theorem admission_ok (s : State) (pg : RecProg) (base entry : Nat) (hst : (s.stream 0).st = .joined)
    (hp : s.admitProg 0 .none (s.stream 0).fmt.toNat 4096 = .ok pg) (hq : s.bufferQuarter 0 = some 0)
    (hc : ¬ 15 * quarterRate < 16 * (s.quarterCharge 0 + (s.stream 0).byteRate))
    (hb : s.fitIn 0 (bufferLines (s.stream 0).fmt.toNat 4096) = some base) (he : s.freeEntry = some entry) :
    ∃ a, s.admission 0 0 4096 0 0 .none = .ok a := by
  have hq' : s.bufferQuarter (sidGroup 0 / 4) = some 0 := hq
  have hm : meshPath (edgePos (sidGroup 0 / 4)) (edgePos 0) = [] := mesh_self
  unfold State.admission State.placeBuffer
  simp [hst, hp, hq', hm, hc, hb, he]

theorem test_admit : ∃ w s1, admitState.fwHead 5 = some (w, s1) ∧ w.prog = .none ∧ ∃ a, s1.admission 0 0 4096 0 0 w.prog = .ok a :=
  ⟨_, _, rfl, rfl, admission_ok _ _ _ _ rfl rfl (by decide +kernel) (by decide +kernel) rfl rfl⟩

theorem test_due : ∀ o ∈ [none, some (false, 0)], let s : State := { tb := { value := 2 ^ 33, tsu := [(0, { armed := true, passed := o })] } }
    s.tsuDue 0 = true ∧ (s.tsu 0).passed = o := by decide

theorem test_restart : let s := trigState .halted
    let q := s.pipe 0
    let im := s.image q.handle.toNat
    let lat := pipeTiming s.stepA1 im.routes im.segs q.index.toNat
    q.st = .halted ∧ q.starting = false ∧ s.causeOver 0 = true ∧ s.flt.halted = false ∧ im.sheet.draining = false ∧
      im.whole = true ∧ lat.2.1 = false ∧ lat.1 ≤ q.deckle.toNat := by decide +kernel

theorem test_restart_stops : ({ map := [none] } : Image).whole = false := by decide

theorem test_reallocate : let s : State := { hbx := { streams := [(0, { st := .admitted, fmt := 1, buf := { rgt := 4, depth := 4096, lost := true } })] } }
    let u := s.setStream 0 { s.stream 0 with mesh := [], buf := { (s.stream 0).buf with quarter := 4 } }
    (s.stream 0).buf.lost = true ∧ (s.stream 0).st = .admitted ∧ u.bufferQuarter 0 = some 0 ∧ meshPath (edgePos 0) (edgePos 0) = [] ∧
      (u.fitIn 0 (bufferLines 1 4096)).isSome = true ∧ ¬ 15 * quarterRate < 16 * (u.quarterCharge 0 + (u.stream 0).byteRate) := by
  refine ⟨by decide, by decide, by decide +kernel, mesh_self, by decide +kernel, by decide +kernel⟩

theorem test_delivery : let s := trigState .live
    let f := liveFrame
    let x := s.stream f.sid.toNat
    s.headboxOff = false ∧ x.st = .admitted ∧ x.admitT ≤ s.markRun f.mark ∧ (s.group (sidGroup f.sid.toNat)).st = .active ∧
      x.identity (sidGroup f.sid.toNat) f = true ∧ x.ahead f = 0 ∧ x.identity (sidGroup f.sid.toNat) { f with nsamp := 3 } = false ∧
      frameSamples x.fcode.toNat ≤ 4 * 1023 ∧ s.boundPipes f.sid.toNat = [0] := by decide +kernel

theorem test_in_transit : let s : State := { trigState .live with tb := {} }
    s.tb.st = .invalid := by decide

theorem test_placement : let s := trigState .live
    let q := s.pipe 0
    (q.ports.find? fun t => t.num == 1 && t.started).isSome = true ∧ (q.inq.find? fun b => b.port == 1).isSome = true ∧ q.st = .live ∧
      (s.image q.handle.toNat).clusterOf 0 0 = some 0 ∧ ((s.cl 0).tile 0).room 5 = true ∧
      10 ≤ s.pinCycleOf 0 0 + tIn s.stepA1 ∧ s.pinCycleOf 0 0 + tIn s.stepA1 < 1000 ∧ (s.image 9).clusterOf 0 0 = none := by decide +kernel

theorem test_taken : ∀ st ∈ [PState.warm, .live], let s := trigState st
    let q := s.pipe 0
    (s.image q.handle.toNat).clusterOf q.decVx q.decVy = some 0 ∧ ((s.cl 0).tile q.decTile).queue 5 = [5] ∧ q.st = st ∧
      q.sets[q.unit.length]? = some { got := 1 } ∧ 0 ≤ (s.deckle 0).cycle := by decide +kernel

theorem test_judged : ∀ late ∈ [false, true], ∀ st ∈ [PState.warm, .live], let s0 := trigState st
    let s : State := { s0 with trp := { s0.trp with clocks := [(0, { arith := 45000 })] } }
    let v := (s.setPipe 0 { s.pipe 0 with unit := [(5, if late then 8000 else 300)] }).takeDecision 0 9500
    (v.pipe 0).sets = [{ got := 1 }] ∧ (v.pipe 0).unit = [(5, if late then 8000 else 300)] ∧ (v.pipe 0).ports.length ≤ 1 ∧ (v.pipe 0).st = st ∧
      0 + (v.pipe 0).deckle.toNat ≤ (s.deckle 0).cycle ∧ (decide (0 + (v.pipe 0).deckle.toNat < if late then 8000 else 300)) = late := by decide +kernel

theorem test_not_due : let s := (trigState .live).setPipe 0 { (trigState .live).pipe 0 with unit := [(5, 300)] }
    (s.deckle 0).cycle < 0 + ((s.takeDecision 0 9500).pipe 0).deckle.toNat ∧ (((trigState .idle).takeDecision 0 0).pipe 0).unit = [] := by decide +kernel

theorem test_messages : let s : State := { trp := { msgs := [{ pipe := 3 }], lines := [(0, { mode := 1, sched := [{ due := 65536 }] }),
      (1, { mode := 1, sched := [{ due := 65536 }], lastEnd := 2 ^ 40 }), (2, { mode := 2 })], inbox := [(1, [{ pipe := 3 }])] } }
    s.flt.halted = false ∧ (s.trp.msgs.find? fun m => m.pipe.toNat == 3 && decide (m.due ≤ s.now)).isSome = true ∧
      (s.line 0).lastEnd = 0 ∧ (65536 + 120 * 65536 - lineDelay (s.line 1).dly.toNat) / 1024 * 1024 <
        (s.line 1).lastEnd + (s.line 1).width.toNat * 65536 ∧ (s.line 2).mode = 2 ∧ (SMap.get [] s.trp.inbox 1).length = 1 ∧ s.headboxOff = false := by decide +kernel

theorem test_detector_states : (State.reset.pipe 0).st = .idle ∧ ((trigState .live).pipe 0).st = .live := by decide

theorem test_line_holders : let s : State := { hif := { own := { holder := [(3 * 64 + 1, some 5)] } } }
    (s.holder 3 1).isSome = true ∧ (s.holder 3 2).isNone = true := by decide

theorem test_lines_idle : let s : State := { trp := { lines := [(0, { mode := 2, sched := [{}] })] } }
    (s.line 0).mode ≠ 1 ∧ (s.line 0).sched = [{}] ∧ (s.line 1).sched = [] ∧ (s.line 1).mode ≠ 2 ∧ (∀ m ∈ s.trp.msgs, m.pipe.toNat = 0 → ¬ m.due ≤ s.now) ∧
      SMap.get [] s.trp.inbox 0 = [] := by decide

theorem test_complete : let x : Stream := { st := .admitted, rate := 1000, buf := { w := 10, depth := 16, anchors := [{}] }, recs := {
      openRecs := [{ nt := some 2, lo := 1, hi := 4 }] } }
    x.recs.openRecs.filter x.complete ≠ [] := by decide

theorem test_handoff : let s := recordState 1
    let x := s.stream 0
    ∃ r, x.recs.waiting = [r] ∧ x.recs.busy.contains x.recs.nextSlot = false ∧ x.overrun r = false ∧ s.badLine x r = none ∧
      s.areaGone x = false ∧ x.prog.destHost = true ∧ s.hostUp = true ∧ (s.ring x.ring.toNat).st = .active ∧ s.flt.halted = false :=
  ⟨{ kind := 1, lo := 0, hi := 2, nt := some 1 }, by decide +kernel⟩

theorem test_lost : let s := recordState 40
    let x := s.stream 0
    (x.recs.waiting.find? fun r => x.overrun r || (s.badLine x r).isSome || s.areaGone x).isSome = true := by decide +kernel

theorem test_headboxes_off : ({ flt := { halted := true } } : State).headboxOff = true ∧ ({ pwr := { st := .run } } : State).headboxOff = false := by decide +kernel

theorem test_sweep_refusals : let s : State := { pcx := { cfg := { busMaster := true } } }
    let z : Sweep := { op := 3, first := 0, count := 4, report := 64 }
    s.flt.halted = false ∧ s.vat.busy = false ∧ s.sweepRefused z = none ∧ s.sweepRefused { z with tpl := some 2 } = none ∧
      s.sweepRefused { z with count := 0 } = some (outFormat, 0x70) := by decide +kernel

theorem test_arm_refused : ({ bytes := natLe 8 0 } : Work).sweep.count = 0 ∧
    State.reset.sweepRefused { ({ bytes := natLe 4 0 ++ natLe 4 (16 * 2 ^ 16) } : Work).sweep with tpl := some 0 } =
      some (outFormat, 0x70) := by decide +kernel

theorem test_sweep_taken : let s : State := { hif := { vatIn := [{ bytes := natLe 8 0 }] } }
    s.enterTaken.vat.queue = [({ bytes := natLe 8 0 } : Work).sweep] ∧ ({} : State).enterTaken.vat.queue = [] ∧
      s.vatReach 64 = false ∧ vatAddr 64 = true := by decide +kernel

theorem test_sweep_host : let s : State := {}
    let z : Sweep := { op := 3, first := 0, count := 4, report := 64 }
    s.pcx.cfg.busMaster = false ∧ (s.sweepRanges z).any (fun p => onHost p.1) = true := by decide +kernel

theorem test_fetch : let s : State := { pwr := { st := .run }, vat := { busy := true, run := { sweep := { op := 3, count := 1 } } } }
    s.gddrRuns = true ∧ s.fetchReach = true ∧ s.nextPlace 0 = some (0, some 0) ∧ s.nextPlace 1 = none ∧
      (s.fetchContext 0 none (some 0)).isSome = true := by decide +kernel

theorem test_writeback : let l : List (Nat × Bool) := [(4, false), (8, true)]
    l[l.findIdx fun p => p.2]? = some (8, true) := by decide

theorem test_commit : let s : State := {
      fab := { clusters := [(0, { tiles := [(2, { queues := [(5, [7])] })] })] }
      vat := { busy := true, run := { models := [{ outB := 1, ports := [{ outTile := 2 }] }], delivered := [(0, { ctxs := [{}] })] } } }
    (s.vat.run.delivered.find? fun p => p.1 == 0) = some (0, { ctxs := [{}] }) ∧ xyCluster 0 = some 0 ∧
      (popUpTo ((s.cl 0).tile 2) 5 15).2.length = 1 ∧ (popUpTo ((s.cl 0).tile 2) 5 1).2.length = 1 := by decide +kernel

theorem test_sweep_done : let s : State := { vat := { busy := true, run := { sweep := { op := 3, report := 2 ^ 63 } } } }
    s.sweepDone = true ∧ s.vatReach s.vat.run.sweep.report = true ∧ s.vat.run.sweep.stat = 0 := by decide +kernel

theorem test_fetch_waits : let s : State := { pwr := { st := .watch }, vat := { busy := true, run := { sweep := { op := 3, count := 1 } } } }
    s.vat.busy = true ∧ s.gddrRuns = false ∧ (s.modelTable s.vat.run.sweep.handle.toNat).isNone ∧ s.sweepDone = false ∧
      (∀ p ∈ SMap.get [] s.vat.cache 0, p.2 = false) := by decide +kernel

theorem test_link_hypotheses : let s := hostState
    s.pcieOn = true ∧ s.linkUp = true ∧ s.configUp = true ∧ s.pcx.perstLow = false ∧ (State.reset.setD3 true).pcx.cfg.d3hot = true ∧
      ((hostState.setD3 true).configUp = true) := by decide

theorem test_link_waits : State.reset.pcieOn = false ∧ State.reset.linkUp = false ∧ State.reset.configUp = false ∧
    State.reset.pcx.cfg.d3hot = false := by decide

theorem test_host_reachable : hostState.barsUp = true ∧ hostState.flt.halted = false ∧ hostState.linkUp = true ∧
    hostState.bru.stage = .ready ∧ hostState.gddrRuns = true ∧ (hostState.ring 0).st = .active ∧
    bellIndex 1 < ringSize (hostState.ring 0).sqLog.toNat ∧ ringSize (hostState.ring 0).sqLog.toNat ≤ bellIndex 0x7FFF ∧
    (1 + ringSize 6 - 0) % ringSize 6 ≤ (hostState.ring 0).written.length := by decide

theorem test_host_bells_held : let s := { hostState with bru := { hostState.bru with stage := .compute } }
    s.barsUp = true ∧ s.bru.stage ≠ .ready := by decide

theorem test_host_bar4 : (linesOf 64 64).all hostState.bar4Line = true ∧ (linesOf (2 ^ 29) 64).all hostState.bar4Line = false ∧
    (linesOf 64 64).find? hostState.lineBad = none := by decide

theorem test_host_channel : (hostState.chan 0).st ≠ .idle ∧ (hostState.chan 0).src.isHost = true ∧ (hostState.chan 0).outcome = 0 ∧
    (hostState.chan 0).moved < (hostState.chan 0).total := by decide

theorem test_host_unreached : State.reset.barsUp = false ∧ State.reset.linkUp = false ∧
    ({ hostState with pcx := { hostState.pcx with cfg := { d3hot := true } } } : State).linkUp = true ∧
    ({ hostState with pcx := { hostState.pcx with cfg := { d3hot := true } } } : State).barsUp = false ∧ (0xD0000C : BitVec 28).toNat % 4 = 0 ∧
    (hostState.ring 5).st ≠ .active ∧ (State.reset.chan 0).st = .idle := by decide

theorem test_host_bar4_bad : let s := { hostState with gddr := { hostState.gddr with bad := [(1, true)] } }
    (linesOf 64 64).all s.bar4Line = true ∧ (linesOf 64 64).find? s.lineBad = some 1 := by decide

theorem test_doe : let o : List Byte := natLe 4 0x10001 ++ natLe 4 3 ++ [0x10, 0x84, 0, 0]
    hostState.configUp = true ∧ hostState.spdmUp = true ∧ hostState.pcx.doeBusy = none ∧ o.length ≤ maxDoe ∧ fieldAt o 0 2 = 1 ∧
      bitsOf (fieldAt o 4 4) 0 18 * 4 = o.length ∧ spdmCodes.contains (fieldAt (o.drop 8) 1 1) = true ∧ spdmCodes.contains 0x66 = false := by
  decide

theorem test_spdm : let v : SpdmReq := { smbus := true, body := [0x10, 0x84, 0, 0] }
    let q := fun (c : Byte) => ({ smbus := true, body := [0x13, c, 0, 0xFF] ++ List.replicate 60 0 } : SpdmReq)
    hostState.spdmHas v 0x84 = true ∧ ([0xE1, 0xE3, 0x81, 0x82, 0x83, 0xE0].all fun c => hostState.spdmHas (q (BitVec.ofNat 8 c)) c) = true ∧
      (hostState.setSpdm true { version := true }).spdmHas (q 0xE1) 0xE1 = true := by decide

theorem test_spdm_chain (s : State) : s.spdmChain.drop 0 ≠ [] := by
  intro h; exact absurd (congrArg List.length h) (by simp [State.spdmChain, natLe])

theorem test_spdm_not_held : State.reset.configUp = false ∧ State.reset.spdmHas { smbus := true, body := [0x10, 0x84, 0, 0] } 0x84 = false ∧
    (measAll.filter (· == 12)) = [] ∧ (measAll.filter (· == 11)) = [11] := by decide

theorem test_rings_reachable : hostState.writable = true ∧ (hostState.ring 1).enable = false ∧ bitAt (0x80000000 : Word).toNat 31 = true ∧
    (hostState.ring 0).enable = true ∧ hostState.hif.rgc.evt.enable = false ∧ hostState.hif.rgc.ream.enable = false := by decide

theorem test_ring_disable : let g := ringWith []
    g.enable = true ∧ g.fields 0x33000000 = g ∧ bitAt (0x33000000 : Word).toNat 31 = false := by decide

theorem test_ring_drained : let s : State := { hif := { rings := [(2, { st := .draining })] } }
    (s.ring 2).st = .draining ∧ (s.ring 2).taken = [] := by decide

theorem test_take : let s := { hostState with hif := { rings := [(0, { ringWith [] with sqTail := 1 })] } }
    s.mayTake 0 = true ∧ descRefused (s.headDesc 0) = some (outFormat, 0x80) := by decide

theorem test_take_fence : let s := { hostState with
        hif := { rings := [(0, { ringWith [] with sqTail := 1 })] }, host := Mem.writeBytes [] 0 [8] }
    s.mayTake 0 = true ∧ descRefused (s.headDesc 0) = none ∧ (s.accept 0 (s.headDesc 0)).isSome = true := by decide

theorem test_seal : let q : List Taken := [{ opcode := 8 }, { opcode := 7, bytes := natLe 8 7 ++ natLe 8 64 }]
    q[q.findIdx fun t => t.opcode == 7]? = some { opcode := 7, bytes := natLe 8 7 ++ natLe 8 64 } ∧
      (match hostState.resolve 0 64 8 with
        | .ok (.host a) => a == 64 && hostState.reaches (.host a)
        | _ => false) = true := by decide

theorem test_completion : let g := ringWith [{ opcode := 8 }]
    g.st = .active ∧ hostState.hostUp = true ∧ g.written.length < ringSize g.cqLog.toNat := by decide

theorem test_rings_wait : State.reset.writable = false ∧ State.reset.mayTake 0 = false ∧ (State.reset.ring 0).waiting = [] ∧
    (State.reset.ring 0).taken = [] ∧ (State.reset.ring 0).st ≠ .draining ∧
    ({ hostState with hif := { rgc := { evt := { enable := true }, ream := { enable := true } } } } : State).hif.rgc.ream.enable = true ∧
    (ringWith []).fields 0x80000000 ≠ ringWith [] := by decide

theorem test_take_full : let s := { hostState with
        hif := { rings := [(0, { ringWith [] with sqTail := 1, taken := [{ opcode := 3 }] })] }, host := Mem.writeBytes [] 0 [8] }
    s.mayTake 0 = true ∧ descRefused (s.headDesc 0) = none ∧ (s.accept 0 (s.headDesc 0)).isNone = true := by decide

theorem test_seal_fails : (match hostState.resolve 0 (2 ^ 63) 8 with
        | .ok _ => false
        | .error _ => true) = true ∧ ({ hostState with pcx := { hostState.pcx with regs := {} } } : State).reaches (.host 64) = false ∧
    ({ hostState with gddr := { hostState.gddr with bad := [(1, true)] } } : State).partBad 64 8 = true := by decide

theorem test_fw_run : let s := { fwState (natLe 4 2 ++ natLe 12 1) with
        images := [(1, { map := [some 0], cfgs := [{}] })], fab := { clusters := [(0, { st := .idle })] } }
    (s.fwHead 2).isSome = true ∧ s.runRefused 0 1 0 = none ∧ s.loaded 1 = true ∧ (s.image 1).whole = true ∧
      (s.image 1).ring.toNat = 0 := by decide +kernel

theorem test_fw_time : let s := { (fwState (natLe 4 6 ++ natLe 4 0x100)) with
        hif := { (fwState (natLe 4 6 ++ natLe 4 0x100)).hif with own := { holder := [(64 + 1, some 0), (128 + 1, some 0)] } } }
    (s.timeHead 0).isSome = true ∧ (timeOfWord 0).isSome = true ∧ s.ringHolds 0 1 1 = true ∧ s.ringHolds 0 2 1 = true ∧
      s.targetRefused 0 0 0 = none := by decide +kernel

theorem test_fw_claim : let b : List Byte := natLe 8 9 ++ natLe 8 1 ++ natLe 4 15
    (match State.reset.placeClaim b with
      | .ok _ => true
      | .error _ => false) = true ∧ State.reset.freeEntry.isSome = true ∧ ((fwState b).fwHead 9).isSome = true := by decide +kernel

theorem test_fw_resource : let s : State := { hif := { own := { holder := [(64 + 1, some 3)] } } }
    s.holder 1 2 = none ∧ s.holder 1 1 = some 3 ∧ (3 : BitVec 12) ≠ 0 ∧ s.ringHolds 3 1 1 = true := by decide

theorem test_fw_release : let s : State := {
      images := [(1, { map := [some 0] })], hbx := { streams := [(0, { st := .admitted })] }
      gddr := { rgt := [(4, { lines := 15, valid := true, host := true, name := 7 })] } }
    s.loaded 1 = true ∧ (s.image 1).releasing = none ∧ s.holdsAdmission 0 0 = true ∧
      (s.namedRegion 0 7 = some 4 ∧ s.regionBusy 4 = false) := by decide +kernel

theorem test_fw_none : (State.reset.fwHead 2).isNone ∧ (State.reset.timeHead 0).isNone ∧ (timeOfWord (10 ^ 9 * 2 ^ 16)).isNone ∧
    State.reset.loaded 1 = false ∧ State.reset.runRefused 0 1 0 = some badState ∧ State.reset.ringHolds 0 1 1 = false ∧
    State.reset.targetRefused 0 2 0 = some notHeld ∧ (State.reset.namedRegion 0 7).isNone ∧ State.reset.holdsAdmission 0 0 = false ∧
    (match State.reset.placeClaim (natLe 4 9 ++ natLe 4 (2 * 2 ^ 16) ++ natLe 8 1 ++ natLe 4 15) with
      | .ok _ => true
      | .error _ => false) = true := by decide +kernel

theorem test_fw_rehome : let s : State := { images := [(1, { map := [none], cfgs := [{}] })] }
    (s.image 1).whole = false ∧ s.bistOf 1 = false := by decide +kernel

theorem test_copy_moves : let s := hostState
    let x := s.chan 0
    x.st = .copy ∧ x.moved < x.total ∧ x.outcome = 0 ∧ s.reaches x.src = true ∧ s.reaches x.dst = true ∧
      (s.devRead (x.src.plus x.moved) x.piece).isSome = true ∧ (s.copyWrite (x.src.plus x.moved) (x.dst.plus x.moved) [1]).2 = false := by decide

theorem test_copy_fails : let s := { hostState with gddr := { hostState.gddr with bad := [(1, true)] } }
    (s.devRead (.gddr 64) 64).isNone = true ∧ (s.copyWrite (.host 0) (.gddr 64) [1]).2 = true ∧ (s.chan 9).st = .idle ∧
      (s.chan 9).queue = [] := by decide

theorem test_copy_paced : let s := { hostState with hif := { dma := [(1, { st := .pacedActive, total := 8 }), (2, { st := .pacedIdle, total := 8 }),
        (3, { queue := [{ bytes := natLe 8 3 }] }), (4, { queue := [{ bytes := natLe 8 (3 + 2 ^ 32) }] }), (5, { st := .copy, total := 4, moved := 4 }),
        (6, { st := .copy, outcome := 14 })] } }
    (s.devRead (.gddr (s.chan 1).header) 64).isSome = true ∧ (s.chan 2).pollFrame ≠ some s.xms.regs.frame.toNat ∧
      ((s.chan 3).queue.map fun w => bitAt (fieldAt w.bytes 4 1) 0) = [false] ∧
      ((s.chan 4).queue.map fun w => bitAt (fieldAt w.bytes 4 1) 0) = [true] ∧ (s.chan 5).total ≤ (s.chan 5).moved ∧
      (s.chan 6).outcome ≠ 0 ∧ s.reaches (s.chan 1).src = true := by decide +kernel

theorem test_xomos_port : let s := portState .flooded
    s.portOpen 0 = true ∧ packetClass 3 = true ∧ ((s.xport 0).clsOf 3).rxSeq = 0 ∧ (1 : BitVec 12) ≠ 0 ∧
      ((s.xport 0).clsOf 3).ackDue = true ∧ ((s.xport 0).clsOf 3).store.length = 1 ∧ s.xms.st.placed = true ∧
      (7 : BitVec 15) ≠ s.xms.regs.rank ∧ (s.xms.map.any fun r => r.1 == 7) = false := by decide

theorem test_packet_sound : let k : XPkt := { seq := 0, cls := 3, dst := 0, src := 1, kind := 0, tag := 0, len := 1, data := [5], tailSeq := 0,
                                                crc := packetCrc (headFields 0 3 1 0 1 0 0) [5] }
    packetSound k = true ∧ packetSound { k with crc := k.crc + 1 } = false ∧ packetSound { k with tailSeq := 1 } = false ∧
      packetSound { k with len := 2 } = false := by decide +kernel

theorem test_xomos_route : let s := portState .confirmed
    s.xms.dirty = true ∧ s.xms.goSeen = true ∧ s.flt.halted = false ∧ s.xms.st.placed = true := by decide

theorem test_xomos_trigger : let s : State := { xms := { arrived := [(2, { data := [0, 0, 0] })] } }
    (s.xms.arrived.find? fun a => a.1 == 2 && a.2.tag.setWidth 6 == 0 &&
      (a.2.data == (List.range 3).map fun k => BitVec.ofNat 96 (bitsOf 0 (96 * k) 96))).isSome = true ∧
      s.now ≤ (TrigMsg.remote 0).due + hundredMicros ∧ (s.xms.keys.filter fun k => decide (s.runNow < k.seen + hundredMicros)) = [] := by decide +kernel

theorem test_xomos_closed : State.reset.portOpen 0 = false ∧ packetClass 4 = false ∧ State.reset.xms.dirty = false ∧
    (State.reset.xms.arrived.find? fun _ => true).isNone ∧ (((portState .flooded).xport 0).clsOf 6).store = [] ∧
    (((portState .flooded).xport 0).clsOf 6).ackDue = false := by decide

theorem test_xomos_stale : (TrigMsg.remote 0).due + hundredMicros < 2 * hundredMicros := by decide

theorem test_system_ports : let s := portState .ports
    s.flt.halted = false ∧ s.portActive 0 = true ∧ s.portOpen 0 = true ∧ s.xms.st ≠ .alone ∧ s.xms.st ≠ .duplicate ∧ s.xms.st.placed = false ∧
      s.xms.started = true ∧ s.xms.regs.origin = true ∧ s.placeTaken 0 9 (1, 0, 0) = false := by decide

theorem test_system_states : (portState .flooded).portOpen 0 = true ∧ (portState .confirmed).portOpen 0 = true ∧
    (portState .aligned).bru.stage = .ready ∧ (portState .confirmed).xms.regs.frame.toNat % 65536 = 0 ∧ (portState .confirmed).gddr.aligned = true ∧
    ((portState .confirmed).xport 0).tsync = some (1, 0) ∧ ((portState .confirmed).xport 0).t2 = some 0 ∧ ((portState .confirmed).xport 0).t4 = some 0 ∧
    (portState .confirmed).xms.late = false ∧ (portState .confirmed).xms.na = none ∧ (portState .confirmed).xms.regs.parent.toNat = 0 ∧
    { portState .confirmed with xms := { (portState .confirmed).xms with goSeen := false } }.xms.goSeen = false := by decide

theorem test_system_waits : State.reset.portOpen 0 = false ∧ State.reset.xms.started = false ∧ State.reset.gddr.aligned = false ∧
    (portState .alone).portOpen 0 = true ∧ ((portState .flooded).xport 1).tsync = none ∧ (portState .flooded).xms.regs.originId = 0 ∧
    ((portState .flooded).xport 0).t2 = some 0 := by decide

theorem test_system_coord : let s := portState .flooded
    let m : CoordMsg := { origin := 0, x := 0, y := 0, z := 0, dx := 3, dy := 0, dz := 0, skip := false, epoch := 0, parent := 1, hops := 0,
                          late := false }
    s.xms.st.placed = true ∧ m.origin = s.xms.regs.originId ∧ impliedPlace 6 m = (1, 0, 0) ∧ s.xms.place = (0, 0, 0) ∧
      impliedPlace 2 { m with x := 1 } = s.xms.place := by decide

theorem test_coll : let s := collState
    let im := s.image 1
    let q := CollReq.ofBytes (s.lineBytes (s.requestLine im 0))
    im.collNext = 0 ∧ s.collServes 1 = true ∧ 0 < s.collProd im ∧ s.collPollDue im = true ∧ s.lineBad (s.collLine im 0) = false ∧
      ((s.collPoll 1).image 1).collSeen = s.collProd im ∧ (s.collPoll 1).collPollDue ((s.collPoll 1).image 1) = false ∧
      s.lineBad (s.requestLine im 0) = false ∧
      s.lineBad (s.collLine im (1 + q.group)) = false ∧ s.membersOf im q = [0] ∧ s.xms.regs.rank = 0 ∧ s.collRange im q 1 = false ∧
      [0].find? s.rankLost = none ∧ s.collPeers q 1 [0] = some [] := by decide +kernel

theorem test_coll_other : let s := { collState with xms := { collState.xms with regs := { collState.xms.regs with rank := 3 } } }
    s.collServes 1 = true ∧ (s.membersOf (s.image 1) (CollReq.ofBytes (s.lineBytes (s.requestLine (s.image 1) 0)))).contains 3 = false := by
  decide +kernel

theorem test_member_lost : let s := collState
    (5 : BitVec 15) ≠ s.xms.regs.rank ∧ s.xms.st.placed = true ∧ s.flt.halted = false ∧ s.loaded 1 = true ∧
      bitAt (s.image 1).granted.toNat 6 = true ∧ (s.image 1).sheet.active = true ∧ s.xms.dirty = false := by decide

theorem test_coll_idle : State.reset.collServes 0 = false ∧ State.reset.loaded 0 = false ∧ State.reset.xms.st.placed = false ∧
    (let s := { collState with gddr := { collState.gddr with bad := [(15, true)] } }
     s.collServes 1 = true ∧ s.collPollDue (s.image 1) = true ∧ s.lineBad (s.collLine (s.image 1) 0) = true) ∧
    (let s := { collState with gddr := { collState.gddr with bad := [(collState.requestLine (collState.image 1) 0, true)] } }
     s.collServes 1 = true ∧ s.lineBad (s.collLine (s.image 1) 0) = false ∧
       (s.collPoll 1).lineBad ((s.collPoll 1).requestLine ((s.collPoll 1).image 1) 0) = true) := by decide +kernel

theorem test_coll_lines : let s := collState
    let im := s.image 1
    let q := CollReq.ofBytes (s.lineBytes (s.requestLine im 0))
    (s.imageLines im 0 q.src q.srcBytes).isSome = true ∧ (s.imageLines im 1 q.dst (q.dstBytes 1)).isSome = true := by decide +kernel

theorem test_power_run : hostState.writable = true ∧ hostState.pwr.st = .run ∧ hostState.awake = true ∧ (hostState.gpio 0).func ≠ 1 ∧
    (hostState.holder 4 0).isNone = true ∧ hostState.bru.held = false ∧ hostState.flt.halted = false ∧ hostState.watchRefusal ≠ 0 ∧
    (SMap.get {} hostState.pwr.therm 0 : Therm).emerg = false ∧ 95 < (100 : BitVec 8).toInt ∧ 105 ≤ (110 : BitVec 8).toInt := by decide +kernel

theorem test_power_trim : let s := { hostState with pwr := { st := .trim }, hif := { own := { holder := [(256, some 0)] } } }
    s.writable = true ∧ s.pwr.st = .trim ∧ (s.holder 4 0).isSome = true ∧ (s.gpio 0).func ≠ 1 := by decide

theorem test_power_emergency : let s := { hostState with pwr := { st := .run, therm := [(3, { emerg := true })] } }
    s.awake = true ∧ s.bru.held = false ∧ s.reports 3 = true ∧ s.emergency = true ∧ ((s.readTemps [(3, 60)]).pwr.therm.any fun p => decide (92 ≤ p.2.tj.toInt)) = false := by decide +kernel

theorem test_power_watch : let s : State := { bru := { held := false, stage := .ready }, pwr := { st := .watch, wakeEn := 0xFF } }
    s.wakeSource 2 = true ∧ bitAt s.pwr.wakeEn.toNat 2 = true ∧ s.smbusUp = true ∧ bitAt s.pwr.wakeEn.toNat 7 = true := by decide

theorem test_gpio_pulses : let s : State := { pwr := { gpio := [(0, { func := 1, want := [4096] }), (1, { func := 1, want := [4096], lastEnd := 9999 })] } }
    (s.gpio 0).want = [4096] ∧ (s.gpio 0).lastEnd = 0 ∧ (s.gpio 0).func = 1 ∧ (s.gpio 1).func = 1 ∧
      4096 / 1024 * 1024 < (s.gpio 1).lastEnd + (s.gpio 1).width.toNat * 65536 := by decide

theorem test_power_waits : State.reset.writable = false ∧ State.reset.awake = false ∧ State.reset.bru.held = true ∧ State.reset.pwr.st ≠ .watch ∧
    (State.reset.gpio 0).want = [] ∧ (let s : State := { pwr := { st := .watch, wakeEn := 0xFF, sinceWait := 24 } }
      20 ≤ s.pwr.sinceWait ∧ s.pwr.sinceWait < 80 ∧ s.pwr.st = .watch ∧ bitAt s.pwr.wakeEn.toNat 7 = true) := by decide

theorem test_gpio_armed : let s : State := {
      pwr := { gpio := [(2, { func := 1 })] }
      hif := { own := { holder := [(258, some 0)] } }
      tb := { tsu := [(0, { armed := true, target := 6, tparam := 2 })] } }
    (s.holder 4 2).isSome = true ∧ (s.gpio 2).func = 1 ∧ s.pulseArmed 2 = true := by decide

theorem test_dandy_load : let s := { hostState with dnd := { changed := true } }
    s.awake = true ∧ s.dnd.changed = true ∧ s.dandyLoaded = none ∧ sleepState.awake = true ∧ sleepState.dnd.changed = true ∧
      sleepState.dandyLoaded.isSome = true := by decide +kernel

theorem test_watch_granted : sleepState.writable = true ∧ sleepState.watchRefusal = 0 ∧ sleepState.dandyLoaded.isSome = true ∧
    sleepState.sec.ustate ≠ 1 ∧ (let s := { sleepState with sec := { ustate := 1, job := some (0, 64) } }; s.writable = true ∧ s.watchRefusal = 0) := by decide +kernel

theorem test_dandy_frame : let s := dandyState
    s.dandyRuns = true ∧ s.dnd.win.active = true ∧ s.dnd.win.bad = false ∧ (s.group s.dnd.group.toNat).st = .active ∧
      s.dnd.win.frames < atLeastOne s.dnd.nfr.toNat ∧ (s.watchedJoin.filter (framePasses dandyTestFrame)).isSome = true ∧
      dandyTestFrame.sid = s.dnd.sid := by decide +kernel

theorem test_dandy_decision : let s : State := { dandyState with
      dnd := { dandyState.dnd with win := { active := true, frames := 5 } }
      fab := { clusters := [(880, { st := .drain, tiles := [(0, { queues := [(5, [9])] })] })] } }
    let x := s.cl 880
    let y := x.tile s.dnd.otile.toNat
    s.dandyRuns = true ∧ atLeastOne s.dnd.nfr.toNat ≤ s.dnd.win.frames ∧ x.working = true ∧ x.st = .drain ∧
      (x.setTile s.dnd.otile.toNat y.l1Taken).empty = true ∧ y.queue 5 ++ (y.chest.filter fun p => p.1 == 5).map (·.2) = [9] := by decide +kernel

theorem test_dandy_waits : State.reset.awake = false ∧ State.reset.dandyRuns = false ∧ State.reset.dnd.win.active = false ∧
    State.reset.watchedJoin.isNone = true ∧ (State.reset.cl 880).working = false := by decide

theorem test_start_supplies : let s : State := { State.reset with enables := 3 }
    s.bru.held = true ∧ s.enables = 3 ∧ s.enables.getLsbD 0 = true ∧ s.pwr.st ≠ .watch := by decide

theorem test_start_run : hostState.bru.held = false ∧ hostState.bru.stage ≠ .dead ∧ hostState.pwr.st ≠ .watch ∧ hostState.barsUp = true ∧
    (0x5753 : Word).toNat % 2 ^ 16 = 0x5753 ∧ ({ pwr := { st := .watch, waking := true }, enables := 3 } : State).pwr.waking = true := by decide

theorem test_start_edge : let s : State := { bru := { stage := .edge, edgeUp := 1 } }
    bitAt s.bru.edgeUp.toNat 3 = false ∧ s.bru.edgeUp ||| BitVec.ofNat 4 (2 ^ 3) ≠ 0xF := by decide

theorem test_start_compute : let s : State := { bru := { stage := .compute, edgeUp := 0xF, cdDone := 0xFFFFE }, gddr := { aligned := true } }
    s.dieWaits 0 = true ∧ ({ s with bru := { s.bru with cdOut := 1 } } : State).readyNow = true := by decide

theorem test_start_waits : State.reset.enables ≠ 3 ∧ State.reset.bru.stage ≠ .rootFw ∧ State.reset.bru.stage ≠ .edge ∧ State.reset.readyNow = false ∧
    State.reset.dieWaits 0 = false ∧ State.reset.barsUp = false ∧ State.reset.enables.getLsbD 0 = false ∧
    (let s : State := { bru := { stage := .edge, edgeUp := 0xE } }
     bitAt s.bru.edgeUp.toNat 0 = false ∧ s.bru.edgeUp ||| BitVec.ofNat 4 (2 ^ 0) = 0xF) := by decide

theorem test_update_refused : hostState.writable = true ∧ hostState.sec.ustate ≠ 1 ∧ hostState.stagedSet 0 0 = none ∧ hostState.smbusUp = true ∧
    ({ hostState with sec := { ustate := 1 } } : State).writable = true := by decide

theorem test_update_codes : let s := { sleepState with sec := { ustate := 1, job := some (0, 192), flash := flashWrite [] 0 ({} : Pointer).bytes } }
    s.sec.job = some (0, 192) ∧ s.flt.halted = false ∧ ((s.stagedSet 0 192).map fun b => (s.verifySet b b.length).1) = some 1 ∧ (s.pointer.map (·.2)) = some 0 := by decide +kernel

theorem test_smbus_dead : let s : State := { bru := { stage := .dead, held := false }, pwr := { st := .run } }
    s.smbusUp = true ∧ s.bru.stage = .dead := by decide

theorem test_update_waits : State.reset.writable = false ∧ State.reset.smbusUp = false ∧ State.reset.bru.stage ≠ .dead ∧ State.reset.pointer.isNone = true ∧
    (let s := { sleepState with sec := { ustate := 1, job := some (0, 192) }, pwr := { sleepState.pwr with watchAsked := true } }
     (s.stagedSet 0 192).isSome = true ∧ s.pointer.isNone = true ∧ (s.stage 0 192).pwr.watchAsked = true ∧ sleepState.sec.job = none) := by decide +kernel

theorem test_ldi_register_zero : (firing (opState (opWord 0x22 0 0 0 0 0 0 0 5)) 0x22).isSome = true ∧
    opDst (opWord 0x22 0 0 0 0 0 0 0 5) = 0 := by decide

theorem test_st_stores : (firing (opState (opWord 0x20 1 0 0 1 0 2 0 0)) 0x20).isSome = true ∧ (opTile 0).sramOk 64 16 = true := by decide

theorem test_results_fire : ∀ p ∈ [(0x1F, opWord 0x1F 7 0 0 1 1 2 0 1), (0x0E, opWord 0x0E 1 2 0 1 0 2 0 0), (0x07, opWord 0x07 1 2 0 1 0 1 0 0)],
    (firing (opState p.2) p.1).isSome = true := by decide

theorem test_chest_refill : exec (.chestRefill 0 0 1) (tileIn { chest := [(1, 5)], spill := 2 }) =
    .next (tileIn { queues := [(1, [5])] }) := rfl

theorem test_bar4_line : exec (.bar4Write 3 [7, 8] false) hostState = .next (((hostState.gddrWrite 3 [7, 8]).asks classDma true 3 2).asks classDma false 0 64) ∧
    hostState.barsUp = true ∧ hostState.gddrRuns = true ∧ hostState.bar4Line 0 = true ∧ hostState.lineBad 0 = false :=
  ⟨rfl, by decide⟩

theorem test_fatal_halt : ({ State.reset with flt := { halted := true } } : State).flt.halted = true := by decide

theorem test_unoccupied_offset : (0x600000 : BitVec 28).toNat % 4 = 0 ∧
    (0x600000 : BitVec 28).toNat / 0x10000 ∉ [0x40, 0x50, 0x70, 0x71, 0x72, 0x73, 0x78, 0x80, 0x88, 0x90, 0xA0, 0xB0, 0xC0, 0xD0] := by decide

end Sys2Proof.Tests
end

section
/-!
PROOFS. Bridges and PLLs (R20–R26, R35, R36, R604): what a wire to replace asks for, case by case; the loss of a PLL; and obligation O20.
-/
namespace Sys2Proof.Machine

/-! ### A wire to replace -/

theorem State.replaced_not (s : State) (sudden : Bool) (r : FaultRec) :
    s.replaced (!sudden) r = if sudden then s else s.faultRecord r := by
  cases sudden <;> rfl

section Wire
variable {s : State} {b d g w k : Nat} {sudden : Bool} {y : BridgeDir} (hk : k = 2 * b + d) (hy : y = (s.bridge k).planned k)
include hk hy

theorem State.replaceWire_of_settled (h : y.retired.contains g = true ∨ SMap.get none y.wires g = some w) :
    s.replaceWire b d g w sudden = s := by
  subst hk hy
  exact if_pos h

theorem State.replaceWire_first (hr : y.retired.contains g = false) (hw : SMap.get none y.wires g = none) :
    s.replaceWire b d g w sudden =
      if w = 16 then s.setBridge k { s.bridge k with wires := SMap.set none (s.bridge k).wires g (some 16) }
      else if sudden then s.setBridge k { s.bridge k with waiting := (s.bridge k).waiting ++ [(2, g, w)] }
      else (s.setBridge k { s.bridge k with waiting := (s.bridge k).waiting ++ [(2, g, w)] }).faultRecord
        { kind := 2, cls := 0, action := 2, loc := wireLoc b d g w, spare := wireLoc b d g 16 } := by
  subst hk hy
  by_cases h16 : w = 16
  · subst h16
    simp [State.replaceWire, -List.contains_eq_mem, hr, hw]
  · simp [State.replaceWire, -List.contains_eq_mem, hr, hw, h16, State.replaced_not]

/-- The wire comes after one that the spare wire of its group replaces: the group itself goes (R23). -/
theorem State.replaceWire_retires {v : Nat} (hr : y.retired.contains g = false) (hv : SMap.get none y.wires g = some v)
    (hne : v ≠ w) (hlen : y.retired.length < 2) :
    s.replaceWire b d g w sudden =
      if sudden then s.setBridge k { s.bridge k with waiting := (s.bridge k).waiting ++ [(3, g, 0)] }
      else (s.setBridge k { s.bridge k with waiting := (s.bridge k).waiting ++ [(3, g, 0)] }).faultRecord
        { kind := 3, cls := 0, action := 2, loc := wireLoc b d g 0
          spare := match (y.retire k g).2 with
            | some j => wireLoc b d j 0
            | none => 0xFFFFFFFF } := by
  subst hk hy
  have hsettled : ¬ (((s.bridge (2 * b + d)).planned (2 * b + d)).retired.contains g = true ∨
      SMap.get none ((s.bridge (2 * b + d)).planned (2 * b + d)).wires g = some w) := by
    simp [-List.contains_eq_mem, hr, hv, hne]
  have hfirst : ¬ SMap.get none ((s.bridge (2 * b + d)).planned (2 * b + d)).wires g = none := by simp [hv]
  exact (if_neg hsettled).trans ((if_neg hfirst).trans ((if_pos hlen).trans (State.replaced_not _ _ _)))

theorem State.replaceWire_exhausted {v : Nat} (hr : y.retired.contains g = false) (hv : SMap.get none y.wires g = some v)
    (hne : v ≠ w) (hlen : 2 ≤ y.retired.length) :
    s.replaceWire b d g w sudden =
      if sudden then s.deviceFatal 1 3 (wireLoc b d g 0) else s.spareLow 1 ((k * 96 + g) * 17 + w) 0 (wireLoc b d g w) := by
  subst hk hy
  simp [State.replaceWire, -List.contains_eq_mem, hr, hv, hne, Nat.not_lt.mpr hlen]

end Wire

/-! ### The commands of a bridge direction -/

theorem exec_bridgeWireFailure (b : Fin 40) (d : Fin 2) (g : Fin 96) (w : Fin 17) (s : State) :
    exec (.bridgeWireFailure b d g w) s = .next (s.replaceWire b d g w true) := rfl

section Retransmit
variable {s u : State} {b : Fin 40} {d : Fin 2} (g : Fin 96) {k : Nat} (hk : k = 2 * b + d)
  (hu : u = s.setBridge k { s.bridge k with retransmits := (s.bridge k).retransmits + 1 })
include hk hu

theorem exec_flitRetransmit_unlocated : exec (.flitRetransmit b d g none) s = .next u := by
  subst hk hu
  rfl

theorem exec_flitRetransmit_located (w : Fin 17) :
    exec (.flitRetransmit b d g (some w)) s = .next
      (if (u.addBucket 1 ((k * 96 + g) * 17 + w) 1).2 then
        (u.addBucket 1 ((k * 96 + g) * 17 + w) 1).1.replaceWire b d g w false
      else (u.addBucket 1 ((k * 96 + g) * 17 + w) 1).1) := by
  subst hk hu
  rfl

end Retransmit

theorem exec_bridgeSubstitution (b : Fin 40) (d : Fin 2) (s : State) :
    exec (.bridgeSubstitution b d) s = execBridgeSubstitution b d s := rfl

theorem exec_bridgeSubstitution_of_boundary (b : Fin 40) (d : Fin 2) {s : State} (h : s.frameBoundary = true) :
    exec (.bridgeSubstitution b d) s = .next ((s.bridge (2 * b + d)).waiting.foldl
      (fun s r => s.noteRepair r.1 (wireLoc b d r.2.1 r.2.2))
      (s.setBridge (2 * b + d) ((s.bridge (2 * b + d)).planned (2 * b + d)))) := by
  simp [exec_bridgeSubstitution, execBridgeSubstitution, h]

theorem exec_bridgeSubstitution_of_not_boundary (b : Fin 40) (d : Fin 2) {s : State} (h : s.frameBoundary = false) :
    exec (.bridgeSubstitution b d) s = .next s := by
  simp [exec_bridgeSubstitution, execBridgeSubstitution, h]

/-! ### The PLLs of a compute die -/

theorem exec_pllLockLoss (k : Fin 20) (s : State) : exec (.pllLockLoss k) s = execPllLockLoss k s := rfl

theorem exec_pllSwitchComplete (k : Fin 20) (s : State) : exec (.pllSwitchComplete k) s = execPllSwitchComplete k s := rfl

/-- The pipelines that the trigger clusters on a die serve. -/
def State.pipesOnDie (s : State) (k : Nat) : List Nat :=
  ((s.imagesOn k).filter fun h => (s.image h).kind == 1).flatMap fun h =>
    ((s.image h).clusters.filter fun c => c / 44 == k).flatMap (s.pipesServed h)

section Die
variable {s : State} {k : Fin 20}

theorem exec_pllLockLoss_of_no_pll (hl : (s.die k).pllLost = true) (hu : (s.die k).spareInUse = true) :
    exec (.pllLockLoss k) s = .next s := by
  simp [exec_pllLockLoss, execPllLockLoss, hl, hu]

/-- The spare PLL, in use or being switched to, is the die's last one: without it the die is fenced (R36). -/
theorem exec_pllLockLoss_of_last (h : (s.die k).pllLost ≠ (s.die k).spareInUse) :
    exec (.pllLockLoss k) s = .next
      ((((s.setDie k { pllLost := true, spareInUse := true }).faultRecord
        { kind := 7, cls := 1, action := 1, loc := pllLoc k true }).noteRepair 7 (pllLoc k true)).fenceAll (dieClusters k) 6 0) := by
  have hnot : ((s.die k).pllLost && (s.die k).spareInUse) = false := by
    revert h; cases (s.die k).pllLost <;> simp
  have hone : ((s.die k).pllLost || (s.die k).spareInUse) = true := by
    revert h; cases (s.die k).pllLost <;> simp
  simp only [exec_pllLockLoss, execPllLockLoss, hnot, hone, Bool.false_eq_true, if_false, if_true]

theorem exec_pllLockLoss_of_first {u : State} (hl : (s.die k).pllLost = false) (hu : (s.die k).spareInUse = false)
    (h : u = ((s.setDie k { pllLost := true }).faultRecord
      { kind := 7, cls := 1, action := 2, loc := pllLoc k false, spare := pllLoc k true }).noteRepair 7 (pllLoc k false)) :
    exec (.pllLockLoss k) s = .next ((u.pipesOnDie k).eraseDups.foldl (fun s p => s.haltPipe p 1) u) := by
  subst h
  simp only [exec_pllLockLoss, execPllLockLoss, hl, hu, Bool.or_self, Bool.and_self, Bool.false_eq_true, if_false, State.pipesOnDie]

theorem exec_pllSwitchComplete_of_stopped {u : State} (hl : (s.die k).pllLost = true) (hu : (s.die k).spareInUse = false)
    (h : u = s.setDie k { pllLost := false, spareInUse := true }) :
    exec (.pllSwitchComplete k) s =
      (let hs := (u.imagesOn k).filter fun h => (u.image h).kind != 1 && (u.image h).sheet.active
       .next (hs.foldl State.recover (hs.foldl State.interruptSheet u))) := by
  subst h
  simp only [exec_pllSwitchComplete, execPllSwitchComplete, hl, hu, Bool.not_true, Bool.or_self, Bool.false_eq_true, if_false]

end Die

/-! ### The PLL of an edge die -/

/-- A lane group leaves ACTIVE for DETECT; in another state it stays. -/
def State.detectGroup (s : State) (g : Nat) : State :=
  if (s.group g).st = .active then s.moveGroup g 3 { s.group g with st := .detect } else s

/-- The stock groups and the Xomos groups of an edge die. -/
def edgeGroups (e : Nat) : List Nat := [4 * e, 4 * e + 1, 4 * e + 2, 4 * e + 3, 16 + 2 * e, 17 + 2 * e]

theorem exec_mcPllLoss (e : Fin 4) (s : State) :
    exec (.mcPllLoss e) s = .next ((edgeGroups e).foldl State.detectGroup
      (if (s.quarter e).withdrawn then s else (s.withdraw e 8 (BitVec.ofNat 32 e)).noteRepair 8 (BitVec.ofNat 32 e))) := rfl

end Sys2Proof.Machine

namespace Sys2Proof.Proofs
open Sys2Proof.Machine

/-- Settles O20: each clause is one of the cases of the wire, the PLL or the quarter above. -/
theorem bridgesAndPlls : Obligations.BridgesAndPlls := by
  unfold Obligations.BridgesAndPlls
  intro s
  refine ⟨?wires, ?dies, ?edge⟩
  case wires =>
    intro b d g w k x sudden y hk hx hy
    subst hx
    refine ⟨State.replaceWire_of_settled hk hy, State.replaceWire_first hk hy,
      fun v hr hv hne => ⟨State.replaceWire_retires hk hy hr hv hne, State.replaceWire_exhausted hk hy hr hv hne⟩,
      exec_bridgeWireFailure b d g w s, ?retransmit, ?boundary, ?elsewhere⟩
    case retransmit =>
      exact fun u hu => ⟨exec_flitRetransmit_unlocated g hk hu, exec_flitRetransmit_located g hk hu w⟩
    case boundary =>
      subst hk
      exact exec_bridgeSubstitution_of_boundary b d
    case elsewhere => exact exec_bridgeSubstitution_of_not_boundary b d
  case dies =>
    intro k
    refine ⟨exec_pllLockLoss_of_no_pll, exec_pllLockLoss_of_last, ?first, ?switch⟩
    case first =>
      rintro u ps hl hu h rfl
      exact exec_pllLockLoss_of_first hl hu h
    case switch =>
      rintro u hs hl hu h rfl
      exact exec_pllSwitchComplete_of_stopped hl hu h
  case edge =>
    intro e
    rw [exec_mcPllLoss, apply_ite (List.foldl State.detectGroup · (edgeGroups e))]
    rfl

end Sys2Proof.Proofs
end

section
/-!
PROOFS. One firing of a tile operation (R60–R65): what a command answers where the operation fires, and what the firing leaves unchanged.
-/
namespace Sys2Proof
open Machine

section Firing
variable {s : State} {opc c t i : Nat} {f : Fire}

theorem Fires.taken (h : Fires s opc c t i f) : (s.cl c).take t i = .ok f := by
  obtain ⟨-, -, htake⟩ := h
  exact htake

theorem Fires.place (h : Fires s opc c t i f) : f.t = t := ((s.cl c).keeps_take t i f h.taken).1

/-- What taking the inputs leaves: every register but the pointer of an SRAM stream, and all that a result does not change (R63). -/
theorem Fires.keeps (h : Fires s opc c t i f) :
    f.x.Keeps (s.cl c) t fun n => n = opSrc f.o → opStreams f.o = false := ((s.cl c).keeps_take t i f h.taken).2

theorem Fires.next_of_ok (h : Fires s opc c t i f) {body : Fire → Except ClEvent Cluster} {x : Cluster} (hb : body f = .ok x) :
    (.next (s.fireOp opc body c t i) : Result) = .next (s.setCl c x) := by
  obtain ⟨hopc, hmay, htake⟩ := h
  simp [State.fireOp, hopc, hmay, htake, Except.bind, hb]

theorem Fires.next_of_error (h : Fires s opc c t i f) {body : Fire → Except ClEvent Cluster} {ev : ClEvent}
    (hb : body f = .error ev) : (.next (s.fireOp opc body c t i) : Result) = .next (s.clusterEvent c ev) := by
  obtain ⟨hopc, hmay, htake⟩ := h
  simp [State.fireOp, hopc, hmay, htake, Except.bind, hb]

theorem Fires.next_of_form (h : Fires s opc c t i f) {form : BitVec 64 → Bool} {body : Fire → Except ClEvent Cluster} {x : Cluster}
    (hf : form (((s.cl c).tile t).op i) = true) (hb : body f = .ok x) :
    (.next (s.fireForm opc form body c t i) : Result) = .next (s.setCl c x) := by
  rw [State.fireForm, if_pos hf]
  exact h.next_of_ok hb

/-- An operation whose result keeps what a result may not change answers a state that does. -/
theorem Fires.next_keeps (h : Fires s opc c t i f) {body : Fire → Except ClEvent Cluster} {x : Cluster} (hb : body f = .ok x)
    (hk : ∀ k, x.Keeps f.x f.t k) :
    ∃ z : Cluster, (.next (s.fireOp opc body c t i) : Result) = .next (s.setCl c z) ∧
      z.Keeps (s.cl c) t fun n => n = opSrc f.o → opStreams f.o = false :=
  ⟨x, h.next_of_ok hb, (h.place ▸ hk _).trans h.keeps⟩

end Firing
end Sys2Proof

namespace Sys2Proof.Machine

section Keeps
variable {x z : Cluster} {t : Nat} {k : Nat → Prop} (h : x.Keeps z t k)
include h

theorem Cluster.Keeps.other {u : Nat} (hu : u ≠ t) : x.tile u = z.tile u := by
  obtain ⟨hothers, -, -, -⟩ := h
  exact hothers u hu

theorem Cluster.Keeps.sram : (x.tile t).sram = (z.tile t).sram := by
  obtain ⟨-, htile, -, -⟩ := h
  exact (congrArg Tile.sram htile :)

theorem Cluster.Keeps.reg {n : Nat} (hn : k n) : (x.tile t).reg n = (z.tile t).reg n := by
  obtain ⟨-, -, hregs, -⟩ := h
  exact hregs n hn

end Keeps

@[simp] theorem Fire.withTile_tile_same (f : Fire) (y : Tile) : (f.withTile y).x.tile f.t = y := tile_setTile_same _ _ _

theorem Fire.withTile_tile_other (f : Fire) (y : Tile) {u : Nat} (h : u ≠ f.t) : (f.withTile y).x.tile u = f.x.tile u :=
  tile_setTile_other _ _ _ _ h.symm

/-! ### Registers (R41) -/

@[simp] theorem Tile.reg_zero (y : Tile) : y.reg 0 = 0 := rfl

@[simp] theorem Tile.setReg_zero (y : Tile) (v : BitVec 32) : y.setReg 0 v = y := rfl

theorem Tile.reg_setReg_same (y : Tile) {n : Nat} (v : BitVec 32) (h : n ≠ 0) : (y.setReg n v).reg n = v := by
  simp [Tile.setReg, Tile.reg, h]

end Sys2Proof.Machine

namespace Sys2Proof.Proofs
open Sys2Proof.Machine

/-- Settles O49: writing G0 is no change, so an LDI to it leaves the tile as it was once the inputs were taken. -/
theorem registerZeroReadsAsZero : Obligations.RegisterZeroReadsAsZero := by
  unfold Obligations.RegisterZeroReadsAsZero
  refine ⟨fun y v => ⟨y.reg_zero, y.setReg_zero v⟩, ?_⟩
  intro s c t ix f hdst h
  refine ⟨_, h.next_of_ok (body := ldiBody) rfl, fun n => ?_⟩
  rw [State.cl_setCl_same, Fire.withTile_tile_same, hdst, Tile.setReg_zero]

end Sys2Proof.Proofs
end

section
/-!
PROOFS. The memory and far operations of a tile (R73, R74, R85, R141–R144): below the chest and past it; and obligations O14, O15, O52.
-/
namespace Sys2Proof.Machine

/-! ### Bytes of a tile's SRAM -/

theorem Mem.readLe_writeBytes_natLe (m : Mem) (a n x : Nat) : (m.writeBytes a (natLe n x)).readLe a n = x % 2 ^ (8 * n) := by
  have h := Mem.readBytes_writeBytes m a (natLe n x)
  rw [natLe_length] at h
  rw [Mem.readLe, h, leNat_natLe, Nat.pow_mul]

@[simp] theorem Tile.sramWrite_sram (y : Tile) (a : Nat) (bs : List Byte) : (y.sramWrite a bs).sram = y.sram.writeBytes a bs := rfl

@[simp] theorem Tile.sramWrite_reg (y : Tile) (a n : Nat) (bs : List Byte) : (y.sramWrite a bs).reg n = y.reg n := rfl

/-! ### Each operation below the chest and past it (R85) -/

section Bodies
variable {f : Fire} {p n : Nat}

theorem stBody_below (hp : p = (f.tile.reg (opDst f.o)).toNat) (hok : f.tile.sramOk p 16 = true) :
    stBody f = .ok (f.withTile ((f.tile.sramWrite p (natLe 16 f.a)).setReg (opDst f.o) (BitVec.ofNat 32 (p + 16)))).x := by
  subst hp
  simp [stBody, hok]

theorem stBody_past (hp : p = (f.tile.reg (opDst f.o)).toNat) (hok : f.tile.sramOk p 16 = false) :
    stBody f = .error (sramRange f.t p) := by
  subst hp
  simp [stBody, hok]

theorem tblLdBody_below {target : Nat} (htarget : target = bitsOf (opSel f.o) 0 4) (hp : p = (f.tile.reg (opSrc f.o)).toNat)
    (hn : n = if target < 4 then 512 else 16 * bookEntries (f.tile.sram.readLe p 16)) (hhead : f.tile.sramOk p 16 = true)
    (hok : f.tile.sramOk p n = true) :
    tblLdBody f = .ok (f.withTile ((if target < 4 then f.tile.loadTable target p else f.tile.loadBook (target - 4) p).setReg
      (opSrc f.o) (BitVec.ofNat 32 (p + n)))).x := by
  subst htarget hp hn
  simp only [tblLdBody, hhead, hok, Bool.not_true, Bool.false_eq_true, if_false]

theorem tblLdBody_past (hp : p = (f.tile.reg (opSrc f.o)).toNat) (hok : f.tile.sramOk p 16 = false) :
    tblLdBody f = .error (sramRange f.t p) := by
  subst hp
  simp [tblLdBody, hok]

theorem farBody_below (w : Bool) (hp : p = 16 * bitsOf (opImm f.o) 0 10) (hn : n = bitsOf (opImm f.o) 16 8) (hpos : 0 < n)
    (hok : f.tile.sramOk p (64 * n) = true) :
    farBody w f = .ok (f.withTile { f.tile with farJobs := f.tile.farJobs ++
      [{ write := w, line := (f.tile.reg (opSrc f.o)).toNat, left := n, sram := p
         flagMode := bitsOf (opSel f.o) 6 2, flag := bitsOf (opSel f.o) 0 6 }] }).x := by
  subst hp hn
  simp [farBody, hok, Nat.pos_iff_ne_zero.mp hpos]

theorem farBody_past (w : Bool) (hp : p = 16 * bitsOf (opImm f.o) 0 10)
    (hok : f.tile.sramOk p (64 * bitsOf (opImm f.o) 16 8) = false) : farBody w f = .error (sramRange f.t p) := by
  subst hp
  simp [farBody, hok]

end Bodies
end Sys2Proof.Machine

namespace Sys2Proof.Proofs
open Sys2Proof.Machine

/-- Settles O14: each body below the chest, as the operation fires. -/
theorem tileMemoryAndFarJobs : Obligations.TileMemoryAndFarJobs := by
  unfold Obligations.TileMemoryAndFarJobs
  intro s c t ix f p target n htarget
  refine ⟨fun h => h.next_of_ok (body := ldBody) rfl, fun hp hok h => h.next_of_ok (stBody_below hp hok),
    fun h => h.next_of_ok (body := ldiBody) rfl,
    fun hp hn hhead hok h => h.next_of_ok (tblLdBody_below htarget hp hn hhead hok), ?far⟩
  case far =>
    intro w hp hn hpos hok h
    cases w with
    | false => exact h.next_of_ok (farBody_below false hp hn hpos hok)
    | true => exact h.next_of_ok (farBody_below true hp hn hpos hok)

/-- Settles O15: past the chest each body ends in the event of R85. -/
theorem accessPastTheChestIsSramRange : Obligations.AccessPastTheChestIsSramRange := by
  unfold Obligations.AccessPastTheChestIsSramRange
  intro s c t ix f p
  exact ⟨fun hp hok h => h.next_of_error (stBody_past hp hok), fun hp hok h => h.next_of_error (tblLdBody_past hp hok),
    fun hp hok => ⟨fun h => h.next_of_error (farBody_past false hp hok), fun h => h.next_of_error (farBody_past true hp hok)⟩⟩

/-- Settles O52: the 16 bytes and DST are what ST wrote; all else is as the taking of its inputs left it. -/
theorem storesWriteSixteenBytes : Obligations.StoresWriteSixteenBytes := by
  unfold Obligations.StoresWriteSixteenBytes
  intro s c t ix f p hp hok h
  refine ⟨_, h.next_of_ok (stBody_below hp hok), ?bytes, ?pointer, ?otherBytes, ?otherRegs, ?otherTiles, ?otherClusters, rfl⟩
  case bytes =>
    rw [← h.place, Fire.withTile_tile_same, setReg_sram, Tile.sramWrite_sram, Mem.readLe_writeBytes_natLe]
  case pointer =>
    intro hdst
    rw [← h.place, Fire.withTile_tile_same, Tile.reg_setReg_same _ _ hdst]
  case otherBytes =>
    intro a ha
    have houtside : a < p ∨ p + (natLe 16 f.a).length ≤ a := by rwa [natLe_length]
    rw [← h.keeps.sram, ← h.place, Fire.withTile_tile_same, setReg_sram, Tile.sramWrite_sram,
      Mem.read_writeBytes_other _ _ _ _ houtside]
    rfl
  case otherRegs =>
    intro n hdst hsrc
    rw [← h.keeps.reg hsrc, ← h.place, Fire.withTile_tile_same, setReg_other _ _ _ _ hdst, Tile.sramWrite_reg]
    rfl
  case otherTiles =>
    intro u hu
    rw [Fire.withTile_tile_other _ _ (h.place ▸ hu), h.keeps.other hu]
  case otherClusters => exact fun d hd => State.cl_setCl_other s _ hd.symm

end Sys2Proof.Proofs
end

section
/-!
PROOFS. The results of the multiply array and the vector unit (R44, R45, R129, R147–R162) by format, and what they leave unchanged; and
obligations O7, O8, O9, O53.
-/
namespace Sys2Proof.Machine

section Accumulators
variable {f : Fire}

theorem Fire.accumulate_replace_int (h : opFmt f.o < 2) :
    f.accumulate false = f.withTile ((f.tile.setAccs (f.intProducts.map fun p =>
        (p.1, BitVec.ofInt 40 (clampInt accMin accMax p.2)))).countSat
      (countTrue (f.intProducts.map fun p => decide (p.2 < accMin) || decide (accMax < p.2))) 0) := by
  simp only [Fire.accumulate, h, if_true, Bool.false_eq_true, if_false, List.map_map, Function.comp_def]

theorem Fire.accumulate_add_int (h : opFmt f.o < 2) :
    f.accumulate true = f.withTile ((f.tile.setAccs (f.intProducts.map fun p =>
        (p.1, BitVec.ofInt 40 (clampInt accMin accMax ((f.tile.acc p.1).toInt + p.2))))).countSat
      (countTrue (f.intProducts.map fun p =>
        decide ((f.tile.acc p.1).toInt + p.2 < accMin) || decide (accMax < (f.tile.acc p.1).toInt + p.2))) 0) := by
  simp only [Fire.accumulate, h, if_true, List.map_map, Function.comp_def]

variable {g : Fire} (hg : g = f.accumulate true)
include hg

theorem macrBody_counts (h : SMap.get 0 g.tile.macrCnt g.i + 1 ≠ opImm g.o) :
    macrBody f = .ok (g.withTile { g.tile with
      macrCnt := SMap.set 0 g.tile.macrCnt g.i (SMap.get 0 g.tile.macrCnt g.i + 1) }).x := by
  subst hg
  exact if_neg h

theorem macrBody_reads_out (h : SMap.get 0 g.tile.macrCnt g.i + 1 = opImm g.o) :
    macrBody f = .ok (((g.readout 0).2.withTile { (g.readout 0).2.tile.clearAccs with
      macrCnt := SMap.set 0 g.tile.macrCnt g.i 0 }).emitAll 0 (g.readout 0).1) := by
  subst hg
  exact if_pos h

end Accumulators

/-! ### Lanes and reductions by format -/

section Formats
variable {f : Fire} {fmt : Nat} (hfmt : fmt = opFmt f.o)
include hfmt

theorem Fire.lanewise_int (h : fmt < 2) (onInt : Int → Int → Int) (onF : FVal → FVal → FVal) :
    f.lanewise onInt onF =
      f.emitInts fmt ((List.range (laneCount fmt)).map fun k => onInt (laneInt fmt f.a k) (laneInt fmt f.b k)) := by
  subst hfmt
  exact if_pos h

theorem Fire.lanewise_float (h : 2 ≤ fmt) (onInt : Int → Int → Int) (onF : FVal → FVal → FVal) :
    f.lanewise onInt onF =
      f.emitFloats fmt ((List.range (laneCount fmt)).map fun k => onF (laneF fmt f.a k) (laneF fmt f.b k)) := by
  subst hfmt
  exact if_neg (Nat.not_lt.mpr h)

theorem reduceAddBody_int (h : fmt < 2) :
    reduceAddBody f = .ok (f.emitScalar (unsignedOf 32 (((List.range (laneCount fmt)).map (laneInt fmt f.a)).sum))) := by
  subst hfmt
  exact if_pos h

theorem reduceAddBody_float (h : 2 ≤ fmt) {r : Nat × Bool}
    (hr : r = (((List.range (laneCount fmt)).tail.map (laneF fmt f.a)).foldl FVal.add (laneF fmt f.a 0)).round
      (fmtFloat fmt) .nearest) :
    reduceAddBody f = .ok ((f.withTile (f.tile.countSat 0 (countTrue [r.2]))).emitScalar r.1) := by
  subst hfmt hr
  exact if_neg (Nat.not_lt.mpr h)

theorem reduceMaxBody_int (h : fmt < 2) :
    reduceMaxBody f = .ok (f.emitScalar
      (unsignedOf 32 (((List.range (laneCount fmt)).tail.map (laneInt fmt f.a)).foldl max (laneInt fmt f.a 0)))) := by
  subst hfmt
  exact if_pos h

theorem reduceMaxBody_float (h : 2 ≤ fmt) :
    reduceMaxBody f = .ok (f.emitScalar
      ((((List.range (laneCount fmt)).tail.map (laneF fmt f.a)).foldl FVal.maximum (laneF fmt f.a 0)).toBits (fmtFloat fmt))) := by
  subst hfmt
  exact if_neg (Nat.not_lt.mpr h)

end Formats
end Sys2Proof.Machine

namespace Sys2Proof.Proofs
open Sys2Proof.Machine

/-- Settles O7: the accumulators by format, MACR by its count. -/
theorem multiplyArrayResults : Obligations.MultiplyArrayResults := by
  unfold Obligations.MultiplyArrayResults
  intro s c t ix f
  refine ⟨?mulInt, ?macInt, fun h _ => h.next_of_ok (body := mulBody) rfl, fun h _ => h.next_of_ok (body := macBody) rfl, ?macr,
    fun h => h.next_of_ok (body := accRdBody) rfl, fun h => h.next_of_ok (body := accClrBody) rfl, ?fma⟩
  case mulInt =>
    intro h hfmt
    rw [← Fire.accumulate_replace_int hfmt]
    exact h.next_of_ok (body := mulBody) rfl
  case macInt =>
    intro h hfmt
    rw [← Fire.accumulate_add_int hfmt]
    exact h.next_of_ok (body := macBody) rfl
  case macr =>
    exact fun g hg h => ⟨fun hn => h.next_of_ok (macrBody_counts hg hn), fun hn => h.next_of_ok (macrBody_reads_out hg hn)⟩
  case fma =>
    rintro g l rfl rfl h
    exact h.next_of_ok (body := fmaBody) rfl

/-- Settles O8: the integer lanes and the floating-point lanes of each operation. -/
theorem laneArithmeticResults : Obligations.LaneArithmeticResults := by
  unfold Obligations.LaneArithmeticResults
  rintro s c t ix f fmt ks hfmt rfl
  refine ⟨?ints, ?floats, ?scale, ?shift⟩
  case ints =>
    intro hi
    have hlanes := Fire.lanewise_int hfmt hi
    exact ⟨fun h => h.next_of_ok (congrArg Except.ok (hlanes (· + ·) FVal.add)),
      fun h => h.next_of_ok (congrArg Except.ok (hlanes (· - ·) FVal.sub)),
      fun h => h.next_of_ok (congrArg Except.ok (hlanes max FVal.maximum)),
      fun h => h.next_of_ok (congrArg Except.ok (hlanes min FVal.minimum))⟩
  case floats =>
    intro hf
    have hlanes := Fire.lanewise_float hfmt hf
    exact ⟨fun h => h.next_of_ok (congrArg Except.ok (hlanes (· + ·) FVal.add)),
      fun h => h.next_of_ok (congrArg Except.ok (hlanes (· - ·) FVal.sub)),
      fun h => h.next_of_ok (congrArg Except.ok (hlanes max FVal.maximum)),
      fun h => h.next_of_ok (congrArg Except.ok (hlanes min FVal.minimum))⟩
  case scale =>
    subst hfmt
    exact fun h => h.next_of_ok (body := scaleBody) rfl
  case shift =>
    subst hfmt
    exact fun h => h.next_of_ok (body := shiftBody) rfl

/-- Settles O9: the entry each operation sends, and the reductions by format. -/
theorem bitwiseAndComparedLanes : Obligations.BitwiseAndComparedLanes := by
  unfold Obligations.BitwiseAndComparedLanes
  intro s c t ix f fmt hfmt
  refine ⟨fun h => h.next_of_ok (body := andBody) rfl, fun h => h.next_of_ok (body := orBody) rfl,
    fun h => h.next_of_ok (body := xorBody) rfl, fun h => h.next_of_ok (body := movBody) rfl, ?cmp, ?select,
    fun hi h => h.next_of_ok (reduceAddBody_int hfmt hi), fun hi h => h.next_of_ok (reduceMaxBody_int hfmt hi),
    fun hf h => h.next_of_ok (reduceMaxBody_float hfmt hf), fun r hr hf h => h.next_of_ok (reduceAddBody_float hfmt hf hr)⟩
  case cmp =>
    subst hfmt
    exact fun h => h.next_of_ok (body := cmpBody) rfl
  case select =>
    subst hfmt
    exact fun h => h.next_of_ok (body := selectBody) rfl

/-- Settles O53: each of these operations ends in the sending of a vector result, after a count of clamped lanes at most. -/
theorem resultsKeepMemoryAndRegisters : Obligations.ResultsKeepMemoryAndRegisters := by
  unfold Obligations.ResultsKeepMemoryAndRegisters
  intro s c t ix f p hp h
  suffices hkeeps : ∃ x : Cluster, exec p.2 s = .next (s.setCl c x) ∧
      x.Keeps (s.cl c) t fun n => n = opSrc f.o → opStreams f.o = false by
    obtain ⟨x, hx, hothers, htile, hregs, hcluster⟩ := hkeeps
    exact ⟨x, hx, hothers, fun y hy => hy ▸ htile, hregs, hcluster⟩
  revert p
  simp only [List.forall_mem_cons, List.not_mem_nil, false_implies, implies_true, and_true]
  exact ⟨fun h => h.next_keeps (body := ldBody) rfl (f.keeps_emit _), fun h => h.next_keeps (body := addBody) rfl (f.keeps_lanewise _ _),
    fun h => h.next_keeps (body := subBody) rfl (f.keeps_lanewise _ _), fun h => h.next_keeps (body := maxBody) rfl (f.keeps_lanewise _ _),
    fun h => h.next_keeps (body := minBody) rfl (f.keeps_lanewise _ _), fun h => h.next_keeps (body := scaleBody) rfl (f.keeps_emitFloats _ _),
    fun h => h.next_keeps (body := andBody) rfl (f.keeps_emit _), fun h => h.next_keeps (body := orBody) rfl (f.keeps_emit _),
    fun h => h.next_keeps (body := xorBody) rfl (f.keeps_emit _), fun h => h.next_keeps (body := shiftBody) rfl (f.keeps_emitInts _ _),
    fun h => h.next_keeps (body := cmpBody) rfl (f.keeps_emit _), fun h => h.next_keeps (body := selectBody) rfl (f.keeps_emit _),
    fun h => h.next_keeps (body := movBody) rfl (f.keeps_emit _)⟩

end Sys2Proof.Proofs
end

section
/-!
PROOFS. The lanes of a 128-bit entry (R44): packing lanes and slicing them out again are inverse to each other; and obligation O50.
-/
namespace Sys2Proof.Machine

theorem packLanes_lt (w : Nat) (l : List Nat) : packLanes w l < 2 ^ (w * l.length) := by
  induction l with
  | nil => simp [packLanes]
  | cons x xs ih =>
    have hlow : x % 2 ^ w < 2 ^ w := Nat.mod_lt _ (Nat.two_pow_pos w)
    have hhigh : 2 ^ w * (packLanes w xs + 1) ≤ 2 ^ w * 2 ^ (w * xs.length) := Nat.mul_le_mul_left _ ih
    rw [List.length_cons, Nat.mul_succ, Nat.add_comm, Nat.pow_add, packLanes]
    rw [Nat.mul_add] at hhigh
    omega

/-- The part of a packing above its first lane is the packing of the other lanes. -/
theorem packLanes_cons_shiftRight (w x : Nat) (xs : List Nat) : packLanes w (x :: xs) >>> w = packLanes w xs := by
  have hlow : x % 2 ^ w < 2 ^ w := Nat.mod_lt _ (Nat.two_pow_pos w)
  rw [packLanes, Nat.shiftRight_eq_div_pow, Nat.add_mul_div_left _ _ (Nat.two_pow_pos w), Nat.div_eq_of_lt hlow, Nat.zero_add]

theorem bitsOf_packLanes (w : Nat) (l : List Nat) (k : Nat) (hk : k < l.length) :
    bitsOf (packLanes w l) (w * k) w = l[k] % 2 ^ w := by
  induction l generalizing k with
  | nil => simp at hk
  | cons x xs ih =>
    cases k with
    | zero => simp [bitsOf, packLanes]
    | succ k =>
      have hk' : k < xs.length := by simpa using hk
      rw [List.getElem_cons_succ, ← ih k hk']
      rw [bitsOf, bitsOf, Nat.mul_succ, Nat.add_comm, Nat.shiftRight_add, packLanes_cons_shiftRight]

/-- Lanes sliced out of a number from the lowest upward pack into its low bits again. -/
theorem packLanes_map_bitsOf (w n x : Nat) :
    packLanes w ((List.range n).map fun k => bitsOf x (w * k) w) = x % 2 ^ (w * n) := by
  induction n generalizing x with
  | zero => simp [packLanes, Nat.mod_one]
  | succ n ih =>
    have htail : ∀ k, bitsOf x (w * (k + 1)) w = bitsOf (x >>> w) (w * k) w := fun k => by
      rw [bitsOf, bitsOf, Nat.mul_succ, Nat.add_comm, Nat.shiftRight_add]
    rw [List.range_succ_eq_map, List.map_cons, List.map_map, packLanes]
    simp only [Function.comp_def, Nat.succ_eq_add_one, htail, ih]
    rw [Nat.mul_succ, Nat.add_comm (w * n), Nat.pow_add, Nat.mod_mul, Nat.shiftRight_eq_div_pow]
    simp [bitsOf]

theorem laneBits_mul_laneCount {fmt : Nat} (h : fmt < 4) : laneBits fmt * laneCount fmt = 128 := by
  interval_cases fmt <;> rfl

theorem lane_zero (fmt x : Nat) : lane fmt x 0 = x % 2 ^ laneBits fmt := rfl

theorem buildLanes_lt {fmt : Nat} (h : fmt < 4) (g : Nat → Nat) : buildLanes fmt g < 2 ^ 128 := by
  have hlt := packLanes_lt (laneBits fmt) ((List.range (laneCount fmt)).map g)
  rwa [List.length_map, List.length_range, laneBits_mul_laneCount h] at hlt

theorem lane_buildLanes (fmt : Nat) (g : Nat → Nat) {k : Nat} (hk : k < laneCount fmt) :
    lane fmt (buildLanes fmt g) k = g k % 2 ^ laneBits fmt := by
  rw [lane, buildLanes, bitsOf_packLanes _ _ k (by simpa using hk), List.getElem_map, List.getElem_range]

theorem buildLanes_lane {fmt x : Nat} (h : fmt < 4) (hx : x < 2 ^ 128) : buildLanes fmt (lane fmt x) = x := by
  have hpack := packLanes_map_bitsOf (laneBits fmt) (laneCount fmt) x
  rwa [laneBits_mul_laneCount h, Nat.mod_eq_of_lt hx] at hpack

end Sys2Proof.Machine

namespace Sys2Proof.Proofs
open Sys2Proof.Machine

/-- Settles O50: packing and slicing are inverse, and the lanes of a format fill the entry. -/
theorem entriesHoldLanes : Obligations.EntriesHoldLanes := by
  unfold Obligations.EntriesHoldLanes
  refine ⟨rfl, rfl, rfl, rfl, fun fmt x g h => ?_⟩
  exact ⟨laneBits_mul_laneCount h, lane_zero fmt x, buildLanes_lt h g, fun _ hk => lane_buildLanes fmt g hk, buildLanes_lane h⟩

end Sys2Proof.Proofs
end

section
/-!
PROOFS. Queues and the chest (R58, R60, R86–R88): the line that a queue and its chest entries form, and what an arrival, a taking and a
refill do to it; and obligation O54.
-/
namespace Sys2Proof.Machine

/-! ### Taking the first element that satisfies a predicate -/

theorem filter_removeFirst {α : Type} (p : α → Bool) (l : List α) : (removeFirst p l).filter p = (l.filter p).tail := by
  induction l with
  | nil => rfl
  | cons a l ih => by_cases h : p a <;> simp [removeFirst, h, ih]

theorem filter_eq_cons_of_find? {α : Type} {p : α → Bool} {l : List α} {a : α} (h : l.find? p = some a) :
    l.filter p = a :: (removeFirst p l).filter p := by
  rw [filter_removeFirst]
  exact List.eq_cons_of_mem_head? (by rw [List.head?_filter, h]; rfl)

/-! ### Arrivals and takings -/

section Queue
variable (y : Tile) {q : Nat} (e : Entry)

@[simp] theorem Tile.enqueue_chest : (y.enqueue q e).chest = y.chest := by
  unfold Tile.enqueue; split <;> rfl

@[simp] theorem Tile.enqueue_spill : (y.enqueue q e).spill = y.spill := by
  unfold Tile.enqueue; split <;> rfl

theorem Tile.enqueue_queue (h : q ≠ 6) : (y.enqueue q e).queue q = y.queue q ++ [e] := by
  simp [Tile.enqueue, h, Tile.queue]

@[simp] theorem Tile.pop_chest : (y.pop q).chest = y.chest := by
  unfold Tile.pop; split <;> rfl

@[simp] theorem Tile.pop_spill : (y.pop q).spill = y.spill := by
  unfold Tile.pop; split <;> rfl

theorem Tile.pop_queue (h : q ≠ 6) : (y.pop q).queue q = (y.queue q).tail := by
  simp [Tile.pop, h, Tile.queue]

end Queue

/-- Whether a chest entry is one of queue `q`. -/
def ofQueue (q : Nat) (p : Nat × Entry) : Bool := p.1 == q

/-- The entries of a queue and then its entries in the chest, oldest first. -/
def Tile.line (y : Tile) (q : Nat) : List Entry := y.queue q ++ (y.chest.filter (ofQueue q)).map (·.2)

/-- A queue has entries in the chest only while it is in spill. -/
def Tile.Orderly (y : Tile) (q : Nat) : Prop := y.inSpill q = true ∨ y.chest.filter (ofQueue q) = []

theorem Cluster.push_of_spill (x : Cluster) (t q : Nat) (e : Entry) (h : (x.tile t).inSpill q = true) :
    (x.push t q e).tile t = { x.tile t with chest := (x.tile t).chest ++ [(q, e)] } := by
  simp only [Cluster.push, h, if_true]
  exact tile_setTile_same _ _ _

theorem Cluster.push_of_no_spill (x : Cluster) (t q : Nat) (e : Entry) (h : (x.tile t).inSpill q = false) :
    (x.push t q e).tile t = (x.tile t).enqueue q e := by
  simp [Cluster.push, h]

/-- An arrival joins the end of the line: at the chest's tail in spill, else at the queue's, with none of the queue's entries in the chest. -/
theorem Cluster.push_line (x : Cluster) (t : Nat) {q : Nat} (e : Entry) (hq : q ≠ 6) (ho : (x.tile t).Orderly q) :
    ((x.push t q e).tile t).line q = (x.tile t).line q ++ [e] ∧ ((x.push t q e).tile t).Orderly q := by
  cases hs : (x.tile t).inSpill q with
  | true =>
    rw [x.push_of_spill t q e hs]
    refine ⟨?_, Or.inl hs⟩
    simp [Tile.line, Tile.queue, ofQueue]
  | false =>
    have hchest : (x.tile t).chest.filter (ofQueue q) = [] := ho.resolve_left (by simp [hs])
    rw [x.push_of_no_spill t q e hs]
    refine ⟨?_, Or.inr (by rw [Tile.enqueue_chest, hchest])⟩
    simp [Tile.line, Tile.enqueue_queue _ _ hq, hchest]

theorem Tile.pop_line (y : Tile) {q : Nat} (hq : q ≠ 6) (h : y.queue q ≠ []) : (y.pop q).line q = (y.line q).tail := by
  rw [Tile.line, Tile.line, Tile.pop_queue _ hq, Tile.pop_chest, List.tail_append_of_ne_nil h]

theorem Tile.pop_orderly (y : Tile) (q : Nat) (h : y.Orderly q) : (y.pop q).Orderly q := by
  simpa [Tile.Orderly, Tile.inSpill] using h

theorem popUpTo_eq (y : Tile) {q : Nat} (hq : q ≠ 6) (n : Nat) :
    (popUpTo y q n).2 = (y.queue q).take n ∧ (popUpTo y q n).1.queue q = (y.queue q).drop n := by
  induction n generalizing y with
  | zero => exact ⟨rfl, rfl⟩
  | succ n ih =>
    unfold popUpTo
    cases h : y.queue q with
    | nil => exact ⟨rfl, h⟩
    | cons e es =>
      obtain ⟨htaken, hleft⟩ := ih (y.pop q)
      have hpop : (y.pop q).queue q = es := by rw [Tile.pop_queue _ hq, h, List.tail_cons]
      simp [htaken, hleft, hpop]

/-! ### A refill from the chest (R88) -/

/-- A tile whose oldest chest entry `e` of queue `q` has entered the queue, which leaves spill with its last. -/
def Tile.refilled (y : Tile) (q : Nat) (e : Entry) : Tile :=
  { y.enqueue q e with
    chest := removeFirst (ofQueue q) y.chest
    spill := if (removeFirst (ofQueue q) y.chest).any (ofQueue q) then y.spill else y.spill &&& ~~~(BitVec.ofNat 7 (2 ^ q)) }

theorem Tile.refilled_eq_ite (y : Tile) (q : Nat) (e : Entry) :
    y.refilled q e = if (removeFirst (ofQueue q) y.chest).any (ofQueue q) then
        { y.enqueue q e with chest := removeFirst (ofQueue q) y.chest }
      else { y.enqueue q e with
        chest := removeFirst (ofQueue q) y.chest, spill := (y.enqueue q e).spill &&& ~~~(BitVec.ofNat 7 (2 ^ q)) } := by
  rw [Tile.refilled, ← y.enqueue_spill e]
  split <;> rfl

/-- CHEST_REFILL moves the oldest chest entry of the queue, or changes nothing. -/
theorem exec_chestRefill (s : State) (c : ClusterId) (t : TileId) (q : Fin 7) :
    exec (.chestRefill c t q) s = .next (match ((s.cl c).tile t).chest.find? (ofQueue q) with
      | none => s
      | some p => if ((s.cl c).tile t).queueLen q < queueDepth q ∧ s.clocked c = true then
          s.setCl c ((s.cl c).setTile t (((s.cl c).tile t).refilled q p.2)) else s) := by
  simp only [Tile.refilled_eq_ite]
  change (match ((s.cl c).tile t).chest.find? (ofQueue q) with | none => _ | some p => _) = _
  cases ((s.cl c).tile t).chest.find? (ofQueue q) with
  | none => rfl
  | some p => exact (apply_ite Host.Outcome.next _ _ _).symm

theorem exec_chestRefill_of_room {s : State} {c : ClusterId} {t : TileId} {q : Fin 7} {p : Nat × Entry}
    (hp : ((s.cl c).tile t).chest.find? (ofQueue q) = some p) (hroom : ((s.cl c).tile t).queueLen q < queueDepth q)
    (hclock : s.clocked c = true) :
    exec (.chestRefill c t q) s = .next (s.setCl c ((s.cl c).setTile t (((s.cl c).tile t).refilled q p.2))) := by
  simp [exec_chestRefill, hp, hroom, hclock]

section Refilled
variable {y : Tile} {q : Nat} {p : Nat × Entry} (hq : q ≠ 6) (hp : y.chest.find? (ofQueue q) = some p)
include hp

theorem Tile.refilled_orderly (ho : y.Orderly q) : (y.refilled q p.2).Orderly q := by
  by_cases hmore : (removeFirst (ofQueue q) y.chest).any (ofQueue q) = true
  · have hs : y.inSpill q = true := ho.resolve_right (by simp [filter_eq_cons_of_find? hp])
    exact Or.inl (by simpa [Tile.refilled, hmore, Tile.inSpill] using hs)
  · exact Or.inr (by simpa [Tile.refilled] using hmore)

include hq

/-- The chest's oldest entry of the queue is the one that follows the queue in its line. -/
theorem Tile.refilled_line : (y.refilled q p.2).line q = y.line q := by
  have hqueue : (y.refilled q p.2).queue q = y.queue q ++ [p.2] := Tile.enqueue_queue y p.2 hq
  rw [Tile.line, Tile.line, hqueue, filter_eq_cons_of_find? hp]
  simp [Tile.refilled]

end Refilled
end Sys2Proof.Machine

namespace Sys2Proof.Proofs
open Sys2Proof.Machine

/-- Settles O54: what each operation does to the line of a queue, and that a queue stays orderly. -/
theorem spilledQueuesKeepOrder : Obligations.SpilledQueuesKeepOrder := by
  unfold Obligations.SpilledQueuesKeepOrder
  intro q line orderly hq6 hline horderly
  have hq : q ≠ 6 := Nat.ne_of_lt hq6
  obtain rfl : line = fun y => y.line q := funext hline
  obtain rfl : orderly = fun y => y.Orderly q := funext horderly
  refine ⟨fun x t e ho => x.push_line t e hq ho, fun y h => ⟨y.pop_line hq h, y.pop_orderly q⟩, fun y n => popUpTo_eq y hq n, ?refill⟩
  case refill =>
    rintro s s' c t k rfl h
    rw [exec_chestRefill] at h
    injection h with h
    subst h
    cases hp : ((s.cl c).tile t).chest.find? (ofQueue k) with
    | none => exact ⟨rfl, id⟩
    | some p =>
      dsimp only
      split
      · rw [State.cl_setCl_same, tile_setTile_same]
        exact ⟨Tile.refilled_line hq hp, Tile.refilled_orderly hp⟩
      · exact ⟨rfl, id⟩

end Sys2Proof.Proofs
end

section
/-!
PROOFS. Flags, loop counters and tokens (R80–R84, R103–R110): each synchronising operation case by case; and obligation O16.
-/
namespace Sys2Proof.Machine

section Bodies
variable {f : Fire} {n k : Nat}

theorem flagIncBody_fits (hn : n = bitsOf (opSel f.o) 0 6) (h : (f.x.flag n).toNat + bitsOf (opImm f.o) 0 16 ≤ 65535) :
    flagIncBody f = .ok { f.x with
      flags := SMap.set 0 f.x.flags n (BitVec.ofNat 16 ((f.x.flag n).toNat + bitsOf (opImm f.o) 0 16)) } := by
  subst hn
  simp [flagIncBody, Cluster.flagAdd, Nat.not_lt.mpr h, Cluster.setFlag]

theorem flagIncBody_overflows (hn : n = bitsOf (opSel f.o) 0 6) (h : ¬ (f.x.flag n).toNat + bitsOf (opImm f.o) 0 16 ≤ 65535) :
    flagIncBody f = .error (flagOverflow f.t n) := by
  subst hn
  simp [flagIncBody, Cluster.flagAdd, Nat.not_le.mp h]

variable {v : BitVec 24} (hk : k = bitsOf (opSel f.o) 0 4) (hv : v = f.x.cntV k)
include hk hv

/-- A wrap always sends the token of its bits (R110). -/
theorem cntStepBody_wraps (h : v.toNat ≤ 1) :
    cntStepBody f = .ok ({ f with x := { f.x with cntVal := SMap.set 0 f.x.cntVal k (f.x.cntL k) } }.emitToken
      (mkToken (bitsOf (opImm f.o) 14 5) (bitsOf (opImm f.o) 0 13))) := by
  subst hk hv
  simp [cntStepBody, h]

theorem cntStepBody_steps (h : 1 < v.toNat) :
    cntStepBody f = .ok (if bitAt (opImm f.o) 13 then { f.x with cntVal := SMap.set 0 f.x.cntVal k (v - 1) }
      else { f with x := { f.x with cntVal := SMap.set 0 f.x.cntVal k (v - 1) } }.emitToken
        (mkToken (bitsOf (opImm f.o) 19 5) (bitsOf (opImm f.o) 0 13))) := by
  subst hk hv
  rw [apply_ite Except.ok]
  simp [cntStepBody, Nat.not_le.mpr h]

end Bodies
end Sys2Proof.Machine

namespace Sys2Proof.Proofs
open Sys2Proof.Machine

/-- Settles O16: FLAG_INC by its sum, CNT_STEP by its VALUE, TOKEN by its form. -/
theorem flagsCountersAndTokens : Obligations.FlagsCountersAndTokens := by
  unfold Obligations.FlagsCountersAndTokens
  rintro s c t ix f n k o hn hk rfl
  refine ⟨?flagInc, ?waitFlag, ?cntSet, fun v hv h1 h => h.next_of_ok (cntStepBody_wraps hk hv h1),
    fun v hv h1 h => h.next_of_ok (cntStepBody_steps hk hv h1),
    fun hform h => h.next_of_form (body := tokenGenBody) (by simpa using hform) rfl,
    fun hform h => h.next_of_form (body := tokenRelayBody) (by simpa using hform) rfl,
    fun hform h => h.next_of_form (body := tokenTestBody) (by simpa using hform) rfl⟩
  case flagInc =>
    intro h
    split
    · exact h.next_of_ok (flagIncBody_fits hn ‹_›)
    · exact h.next_of_error (flagIncBody_overflows hn ‹_›)
  case waitFlag =>
    subst hn
    exact fun h => h.next_of_ok (body := waitFlagBody) rfl
  case cntSet =>
    subst hk
    rintro v rfl h
    exact h.next_of_ok (body := cntSetBody) rfl

end Sys2Proof.Proofs
end

section
/-!
PROOFS. One hop of an entry (R49–R57, R89, R126, R737), by where it goes; and obligation O5.
-/
namespace Sys2Proof.Machine

section Hop
variable {s : State} {h : Hop} {e : Entry} {gen : Bool}

theorem exec_linkHop (hclock : s.clocked (hopAt h) = true) : exec (.linkHop h) s = .next ((s.hopTo h).getD s) :=
  congrArg Host.Outcome.next (if_pos hclock)

theorem exec_linkHop_moves {u : State} (hclock : s.clocked (hopAt h) = true) (hhop : s.hopTo h = some u) :
    exec (.linkHop h) s = .next u := by
  rw [exec_linkHop hclock, hhop, Option.getD_some]

theorem exec_linkHop_waits (hclock : s.clocked (hopAt h) = true) (hhop : s.hopTo h = none) : exec (.linkHop h) s = .next s := by
  rw [exec_linkHop hclock, hhop, Option.getD_none]

theorem State.hopTo_of_empty (hsrc : s.hopSource h = none) : s.hopTo h = none := by
  simp [State.hopTo, hsrc]

theorem State.hopTo_of_nowhere (hsrc : s.hopSource h = some (e, gen, .nowhere)) : s.hopTo h = some (s.hopLost h) := by
  simp [State.hopTo, hsrc]

theorem State.hopTo_of_pass {l : PLink} (hsrc : s.hopSource h = some (e, gen, .pass l)) :
    s.hopTo h = if (s.link l.key).pass = none then
      some ((s.hopLeave h).setLink l.key { (s.hopLeave h).link l.key with pass := some (gen, e) }) else none := by
  simp [State.hopTo, hsrc]

theorem State.hopTo_of_cross {l : PLink} (hsrc : s.hopSource h = some (e, gen, .cross l)) :
    s.hopTo h = if (s.link l.key).cross.length < 8 then
      some ((s.hopLeave h).setLink l.key { (s.hopLeave h).link l.key with
        cross := ((s.hopLeave h).link l.key).cross ++ [(gen, e)] }) else none := by
  simp only [State.hopTo, hsrc]
  rfl

theorem State.hopTo_of_sink {c t d : Nat} {k : Option Nat} (hsrc : s.hopSource h = some (e, gen, .sink c t d k)) :
    s.hopTo h = s.hopSink h e gen c t d k := by
  simp [State.hopTo, hsrc]

end Hop

/-! ### Into the sink of a tile of the same cluster -/

section Inside
variable {s : State} {h : Hop} {e : Entry} {gen : Bool} {c t d : Nat}

theorem State.hopSink_inside_of_chestTaken (hc : s.chestTaken c t d = true) : s.hopSink h e gen c t d none = none := by
  simp [State.hopSink, hc]

theorem State.hopSink_inside_of_held (ha : ((s.hopLeave h).cl c).arrive t d e = .error none) :
    s.hopSink h e gen c t d none = none := by
  simp [State.hopSink, ha]

theorem State.hopSink_inside_of_event {ev : ClEvent} (hc : s.chestTaken c t d = false)
    (ha : ((s.hopLeave h).cl c).arrive t d e = .error (some ev)) :
    s.hopSink h e gen c t d none = some ((s.hopLeave h).clusterEvent c ev) := by
  simp [State.hopSink, hc, ha]

theorem State.hopSink_inside_of_taken {x : Cluster} (hc : s.chestTaken c t d = false)
    (ha : ((s.hopLeave h).cl c).arrive t d e = .ok x) : s.hopSink h e gen c t d none = some ((s.hopLeave h).setCl c x) := by
  simp [State.hopSink, hc, ha]

end Inside

/-! ### Into the sink of an attached tile of another cluster (R126, R737) -/

section Outside
variable {s : State} {h : Hop} {e : Entry} {gen : Bool} {c t d k : Nat}

theorem State.hopSink_outside_of_unconfigured (hlost : s.service c = .fenced ∨ ((s.cl c).takes = false ∧ s.willTake c = false)) :
    s.hopSink h e gen c t d (some k) = some (s.hopLost h) := by
  rcases hlost with hf | ⟨ht, hw⟩
  · simp [State.hopSink, hf]
  · simp [State.hopSink, ht, hw]

theorem State.hopSink_outside_of_awaited (hs : s.service c ≠ .fenced) (ht : (s.cl c).takes = false) (hw : s.willTake c = true) :
    s.hopSink h e gen c t d (some k) = none := by
  simp [State.hopSink, hs, ht, hw]

variable {side : Nat × Bool} (hside : side = (s.cl c).sideTile d k) (hs : s.service c ≠ .fenced) (ht : (s.cl c).takes = true)
include hside hs ht

theorem State.hopSink_outside_of_wait (hwait : gen ≠ (s.cl c).regs.gen ∨ s.chestTaken c side.1 d = true ∨
      (side.2 = true ∧ (k == 1) ≠ ((s.cl c).tile side.1).inTurn)) :
    s.hopSink h e gen c t d (some k) = none := by
  subst hside
  rcases hwait with hg | hc | ⟨hb, hturn⟩
  · simp [State.hopSink, hs, ht, hg]
  · simp [State.hopSink, hs, ht, hc]
  · simp [State.hopSink, hs, ht, hb, hturn]

theorem State.hopSink_outside_of_taken {x : Cluster} (hg : gen = (s.cl c).regs.gen)
    (hturn : side.2 = false ∨ (k == 1) = ((s.cl c).tile side.1).inTurn) (hc : s.chestTaken c side.1 d = false)
    (ha : ((s.hopLeave h).cl c).arrive side.1 d e = .ok x) :
    s.hopSink h e gen c t d (some k) = some ((s.hopLeave h).setCl c
      (if side.2 then x.setTile side.1 { x.tile side.1 with inTurn := !(x.tile side.1).inTurn } else x)) := by
  subst hside hg
  rcases hturn with hb | hturn
  · simp [State.hopSink, hs, ht, hb, hc, ha]
  · simp [State.hopSink, hs, ht, hturn, hc, ha]

end Outside
end Sys2Proof.Machine

namespace Sys2Proof.Proofs
open Sys2Proof.Machine

/-- Settles O5, by the place that the entry goes to. -/
theorem linkHopMovesOneEntry : Obligations.LinkHopMovesOneEntry := by
  unfold Obligations.LinkHopMovesOneEntry
  intro s h hclock
  refine ⟨fun hsrc => exec_linkHop_waits hclock (State.hopTo_of_empty hsrc),
    fun e gen hsrc => exec_linkHop_moves hclock (State.hopTo_of_nowhere hsrc), ?inside, ?fromOutside, ?pass, ?cross⟩
  case inside =>
    intro e gen c t d hsrc
    have hto := State.hopTo_of_sink hsrc
    exact ⟨fun hc => exec_linkHop_waits hclock (hto.trans (State.hopSink_inside_of_chestTaken hc)),
      fun hc x ha => exec_linkHop_moves hclock (hto.trans (State.hopSink_inside_of_taken hc ha)),
      fun ha => exec_linkHop_waits hclock (hto.trans (State.hopSink_inside_of_held ha)),
      fun hc ev ha => exec_linkHop_moves hclock (hto.trans (State.hopSink_inside_of_event hc ha))⟩
  case fromOutside =>
    intro e gen c t d k side hsrc hside
    have hto := State.hopTo_of_sink hsrc
    exact ⟨fun hlost => exec_linkHop_moves hclock (hto.trans (State.hopSink_outside_of_unconfigured hlost)),
      fun hs ht hw => exec_linkHop_waits hclock (hto.trans (State.hopSink_outside_of_awaited hs ht hw)),
      fun hs ht => ⟨fun hwait => exec_linkHop_waits hclock (hto.trans (State.hopSink_outside_of_wait hside hs ht hwait)),
        fun hg hturn hc x ha => exec_linkHop_moves hclock (hto.trans (State.hopSink_outside_of_taken hside hs ht hg hturn hc ha))⟩⟩
  case pass =>
    intro e gen l hsrc
    rw [exec_linkHop hclock, State.hopTo_of_pass hsrc]
    split <;> rfl
  case cross =>
    intro e gen l hsrc
    rw [exec_linkHop hclock, State.hopTo_of_cross hsrc]
    split <;> rfl

end Sys2Proof.Proofs
end

section
/-!
PROOFS. Multi-entry results, far lines, tokens of COUNT 0 and the chest (R74–R78, R87–R93, R114, R155, R215): each command of a clocked
cluster case by case; and obligation O6.
-/
namespace Sys2Proof.Machine

section Clocked
variable {s : State} {c : ClusterId} {t : TileId} (hclock : s.clocked c = true)

/-! ### The next entry of a result (R155) -/

theorem Cluster.emitNext_of_room {x : Cluster} {t u i : Nat} {e : Entry} {rest : List (Nat × Entry)}
    (he : (SMap.get {} (x.tile t).emit u).entries = (i, e) :: rest) (hout : (x.tile t).outsFree (outMask ((x.tile t).op i)) = true)
    (hroom : (x.tile t).destRoom (localDest ((x.tile t).op i)) none = true) :
    x.emitNext t u = (x.setTile t { x.tile t with emit := SMap.set {} (x.tile t).emit u { entries := rest } }).send t
      (outMask ((x.tile t).op i)) (localDest ((x.tile t).op i)) e := by
  simp [Cluster.emitNext, he, hout, hroom]

include hclock in
theorem exec_readoutEntryEmit_of_served {u : EmitUnit} {i : Nat} {e : Entry} {rest : List (Nat × Entry)}
    (he : (SMap.get {} ((s.cl c).tile t).emit (EmitKey u)).entries = (i, e) :: rest)
    (hserved : s.served c t (localDest (((s.cl c).tile t).op i)) = true) :
    exec (.readoutEntryEmit c t u) s = .next (s.setCl c ((s.cl c).emitNext t (EmitKey u))) := by
  change execReadoutEntryEmit c t u s = _
  simp [execReadoutEntryEmit, hclock, he, hserved]

/-! ### Far requests (R74–R78, R215) -/

include hclock in
theorem exec_farRequestEntry : exec (.farRequestEntry c t) s = .next (s.farRequest c t) :=
  congrArg Host.Outcome.next (if_pos hclock)

section Job
variable {s : State} {c t : Nat} {x : Cluster} {y : Tile} {j : FarJob} {rest : List FarJob} (hx : x = s.cl c) (hy : y = x.tile t)
  (hj : y.farJobs = j :: rest) (hroom : x.farRoom j.write = true)
include hx hy hj hroom

theorem State.farRequest_of_line {l : Nat} (hl : x.regs.translate j.write j.line = some l) :
    s.farRequest c t = s.setCl c { x.setTile t { y with farJobs :=
          if j.left ≤ 1 then rest else { j with line := j.line + 1, left := j.left - 1, sram := j.sram + 64 } :: rest } with
      farQ := x.farQ ++ [{ tile := t, write := j.write, line := l, sram := j.sram
                           data := if j.write then y.sram.readBytes j.sram 64 else []
                           inc := j.flagMode == 2 || (j.flagMode == 1 && j.left == 1), flag := j.flag }] } := by
  subst hx hy
  simp only [State.farRequest, hj, hroom, hl, Bool.not_true, Bool.false_eq_true, if_false]

theorem State.farRequest_of_no_window (hl : x.regs.translate j.write j.line = none) :
    s.farRequest c t = s.clusterEvent c { code := .farRange, detail := j.line % 2 ^ 32 + t * 2 ^ 32 } := by
  subst hx hy
  simp only [State.farRequest, hj, hroom, hl, Bool.not_true, Bool.false_eq_true, if_false]

end Job

/-! ### Far lines (R76, R77, R84, R590) -/

section Line
variable {s : State} {c t : Nat} {x w : Cluster} {q : FarReq} (hx : x = s.cl c)
  (hq : x.farQ.find? (fun r => r.tile == t) = some q) (hw : w = { x with farQ := removeFirst (fun r => r.tile == t) x.farQ })
include hx hq hw

theorem State.farComplete_of_ok (hok : q.served = .ok) :
    s.farComplete c t q.write =
      (s.setCl c (if q.write then w else w.setTile t ((w.tile t).sramWrite q.sram q.data))).farFlag c t q := by
  subst hx hw
  simp [State.farComplete, hq, hok]

theorem State.farComplete_of_bad (hbad : q.served = .bad) :
    s.farComplete c t q.write =
      ((s.setCl c w).lineFault q.line x.regs.handle.toNat).abortFor x.regs.handle.toNat c outFatal 0xA5 0 := by
  subst hx hw
  simp [State.farComplete, hq, hbad]

end Line

theorem State.farFlag_eq (s : State) (c t : Nat) (q : FarReq) :
    s.farFlag c t q = if q.inc then match (s.cl c).flagAdd q.flag 1 with
        | some z => s.setCl c z
        | none => s.clusterEvent c { code := .flagOverflow, detail := q.flag + t * 2 ^ 32 }
      else s := by
  unfold State.farFlag
  cases q.inc with
  | false => rfl
  | true => cases (s.cl c).flagAdd q.flag 1 <;> rfl

/-! ### Tokens of COUNT 0 (R114) -/

include hclock in
theorem exec_tokenZeroLeave_of_zero {k : BitVec 32} {rest : List (BitVec 32)} (hk : ((s.cl c).tile t).tokenQ = k :: rest)
    (hzero : tokCount k = 0) (hdrops : ((s.cl c).tile t).dropsZero = true) :
    exec (.tokenZeroLeave c t) s = .next (s.setCl c ((s.cl c).setTile t { (s.cl c).tile t with tokenQ := rest })) := by
  change execTokenZeroLeave c t s = _
  simp [execTokenZeroLeave, hk, hzero, hdrops, hclock, Tile.pop]

/-! ### A queue goes into spill (R87–R93) -/

section Spill
variable {q : Fin 7} (hwork : (s.cl c).working = true)
include hclock hwork

theorem exec_chestSpillBegin_of_trigger (htrig : (s.cl c).regs.trigger = true) (hdue : s.spillDue c t q = true) :
    exec (.chestSpillBegin c t q) s = .next (s.stall c 2) := by
  change execChestSpillBegin c t q s = _
  simp [execChestSpillBegin, hclock, hwork, htrig, hdue]

variable (htrig : (s.cl c).regs.trigger = false)
include htrig

theorem exec_chestSpillBegin_of_full (hshort : s.chestShort c t q = true) (hevent : (s.cl c).regs.event.getLsbD 7 = false) :
    exec (.chestSpillBegin c t q) s = .next (s.setCl c { s.cl c with regs := (s.cl c).regs.setEvent 7 }) := by
  change execChestSpillBegin c t q s = _
  simp only [execChestSpillBegin, hclock, hwork, htrig, hshort, hevent, Bool.not_true, Bool.or_self, Bool.false_eq_true, if_false, if_true]

/-- The queue enters spill, and the entry that a neighbour holds for an input queue hops. -/
theorem exec_chestSpillBegin_of_due {u : State} (hshort : s.chestShort c t q = false) (hdue : s.spillDue c t q = true)
    (hfirst : s.chestFirst c t q = true)
    (hu : u = s.setCl c { (s.cl c).setTile t { (s.cl c).tile t with
      spill := ((s.cl c).tile t).spill ||| BitVec.ofNat 7 (2 ^ q.val) } with regs := (s.cl c).regs.setEvent 1 }) :
    exec (.chestSpillBegin c t q) s = .next (match s.sender c t q with
      | none => u
      | some h => if q.val < 4 then u.hop h else u) := by
  subst hu
  change execChestSpillBegin c t q s = _
  simp only [execChestSpillBegin, hclock, hwork, htrig, hshort, hdue, hfirst, Bool.not_true, Bool.or_self, Bool.false_eq_true, if_false]
  cases s.sender c t q <;> rfl

end Spill
end Clocked
end Sys2Proof.Machine

namespace Sys2Proof.Proofs
open Sys2Proof.Machine

/-- Settles O6, each command by its cases. -/
theorem farLinesAndEmissionsComplete : Obligations.FarLinesAndEmissionsComplete := by
  unfold Obligations.FarLinesAndEmissionsComplete
  rintro s c t x y hx hy hclock
  refine ⟨?emit, ?request, ?line, ?token, ?spill, ?refill⟩
  case emit =>
    subst hx hy
    intro u ix e rest he hout hroom hserved
    rw [exec_readoutEntryEmit_of_served hclock he hserved, Cluster.emitNext_of_room he hout hroom]
  case request =>
    intro j rest hj hroom
    rw [exec_farRequestEntry hclock]
    exact ⟨fun l hl => congrArg Host.Outcome.next (State.farRequest_of_line hx hy hj hroom hl),
      fun hl => congrArg Host.Outcome.next (State.farRequest_of_no_window hx hy hj hroom hl)⟩
  case line =>
    rintro q w u hq hw rfl r hr
    suffices hdone : s.farComplete c t q.write = r from
      ⟨fun hread => congrArg Host.Outcome.next (hread ▸ hdone), fun hwrite => congrArg Host.Outcome.next (hwrite ▸ hdone)⟩
    rcases hr with ⟨hok, rfl⟩ | ⟨hbad, rfl⟩
    · exact (State.farComplete_of_ok hx hq hw hok).trans (State.farFlag_eq _ _ _ _)
    · exact State.farComplete_of_bad hx hq hw hbad
  case token =>
    subst hx hy
    exact fun k rest hk hzero hdrops => exec_tokenZeroLeave_of_zero hclock hk hzero hdrops
  case spill =>
    subst hx hy
    intro q u hwork
    refine ⟨fun htrig hdue => exec_chestSpillBegin_of_trigger hclock hwork htrig hdue,
      fun htrig hshort hevent => exec_chestSpillBegin_of_full hclock hwork htrig hshort hevent, ?due⟩
    intro htrig hshort hdue hfirst hu
    rw [exec_chestSpillBegin_of_due hclock hwork htrig hshort hdue hfirst hu]
    refine ⟨fun h4 => ?ownQueue, fun h4 => ?input⟩
    case ownQueue => cases s.sender c t q <;> simp [Nat.not_lt.mpr h4]
    case input => cases s.sender c t q <;> simp [h4]
  case refill =>
    subst hx hy
    exact fun q e hfind hroom => exec_chestRefill_of_room hfind hroom hclock

end Sys2Proof.Proofs
end

section
/-!
PROOFS. The end of a sheet in its clusters (R90–R99, R119, R165, R499, R500, R732, R735): watchdog, drain and abort; and obligation O18.
-/
namespace Sys2Proof.Machine

variable {s : State} {c : ClusterId} {h : BitVec 16}

/-! ### The watchdog (R90–R92, R732) -/

theorem exec_watchdogExpiry_of_stuck (hwork : (s.cl c).working = true) (hidle : (s.cl c).idle = false)
    (hmove : s.canProgress c = false) (hheld : s.watchHeld c = false) :
    exec (.watchdogExpiry c) s = .next (s.stall c
      (if s.chestExhausted c then 0 else if (s.cl c).waitedFlags ≠ [] then 1 else if (s.cl c).st = .drain then 3 else 4)) := by
  change execWatchdogExpiry c s = _
  simp only [execWatchdogExpiry, hwork, hidle, hmove, hheld, Bool.not_true, Bool.or_self, Bool.false_eq_true, if_false]

theorem exec_watchdogExpiry_of_calm
    (hcalm : (s.cl c).working = false ∨ (s.cl c).idle = true ∨ s.canProgress c = true ∨ s.watchHeld c = true) :
    exec (.watchdogExpiry c) s = .next s := by
  refine if_pos ?_
  rcases hcalm with hc | hc | hc | hc <;> simp [hc]

/-! ### The end of the sheet and the packs (R165, R735) -/

theorem exec_sheetEnd_of_done (hkind : (s.image h.toNat).kind ≠ 1) (hactive : (s.image h.toNat).sheet.active = true)
    (hmap : (s.image h.toNat).map.all Option.isSome = true) (hroutes : s.routesFree (s.image h.toNat) = true)
    (hdone : ∀ d ∈ (s.image h.toNat).clusters,
      (s.cl d).st = .run ∧ (s.cl d).cfg.started = false ∧ (s.cl d).dataFree = true ∧ (s.cl d).sourcesDone = true) :
    exec (.sheetEnd h) s = .next (s.requestDrain h.toNat) := by
  refine if_pos ⟨hkind, hactive, hmap, List.all_eq_true.mpr fun d hd => ?_, hroutes⟩
  obtain ⟨hrun, hcfg, hfree, hsources⟩ := hdone d hd
  simp [hrun, hcfg, hfree, hsources]

theorem exec_partialPackEmit_of_quiescent (hq : s.quiescent h.toNat = true) :
    exec (.partialPackEmit h) s = .next ((s.drainClusters h.toNat).foldl (fun s d =>
      s.setCl d ((s.cl d).tiles.foldl (fun z p => z.emitPacks p.1) (s.cl d))) s) := if_pos hq

/-! ### The drain of a cluster (R98, R119) -/

theorem exec_tokenOverrun_of_live {t n : Nat} (hst : (s.cl c).st = .drain) (hfree : (s.drainView c).dataFree = true)
    (hpack : (s.cl c).tiles.any (fun p => p.2.holdsPack) = false)
    (hlive : (s.cl c).tiles.findSome? (fun p => p.2.liveToken.map fun k => (p.1, tokCount k)) = some (t, n)) :
    exec (.tokenOverrun c) s = .next ((s.setCl c { s.cl c with regs := { (s.cl c).regs with
        overrun := BitVec.ofNat 32 (2 ^ 31 + t % 8 * 2 ^ 28 + t / 8 * 2 ^ 25 + n % 2 ^ 24) } }).clusterEvent c
      { code := .tokenOverrun, detail := n + t * 2 ^ 32 }) := by
  change execTokenOverrun c s = _
  have hgo : ¬ ((s.cl c).st ≠ .drain ∨ (!(s.drainView c).dataFree) = true ∨ (s.cl c).tiles.any (fun p => p.2.holdsPack) = true) := by
    rw [hst, hfree, hpack]
    simp
  rw [execTokenOverrun]
  simp only [if_neg hgo, hlive]

theorem exec_clusterDrained_of_empty (hd : ((s.cl c).st = .drain ∨ (s.cl c).st = .drained) ∧ (s.cl c).empty = true) :
    exec (.clusterDrained c) s = .next ((s.setCl c { s.cl c with st := .drained }).drainedCheck (s.cl c).regs.handle.toNat) := if_pos hd

theorem exec_clusterDrained_of_not_empty (hd : ¬ (((s.cl c).st = .drain ∨ (s.cl c).st = .drained) ∧ (s.cl c).empty = true)) :
    exec (.clusterDrained c) s = .next s := if_neg hd

/-! ### CLC_DRAIN and CLC_ABORT (R96, R97) -/

section Loaded
variable (hrun : s.flt.halted = false) (hload : s.loaded (s.cl c).regs.handle.toNat = true)
include hrun hload

theorem exec_clcDrain_of_loaded : exec (.clcDrain c) s = .next (s.requestDrain (s.cl c).regs.handle.toNat) := by
  change execClcDrain c s = _
  simp [execClcDrain, hrun, hload]

theorem exec_clcAbort_of_loaded :
    exec (.clcAbort c) s = .next ((s.abortSheet (s.cl c).regs.handle.toNat outAborted 0xA2 0).abortCluster c) := by
  change execClcAbort c s = _
  simp [execClcAbort, hrun, hload]

end Loaded

section Unloaded
variable (hrun : s.flt.halted = false) (hload : s.loaded (s.cl c).regs.handle.toNat = false)
include hrun hload

theorem exec_clcDrain_of_unloaded :
    exec (.clcDrain c) s = .next (if (s.cl c).st = .run then s.setCl c { s.cl c with st := .drain }
      else if (s.cl c).st = .config then s.setCl c { s.cl c with drainHeld := true } else s) := by
  change execClcDrain c s = _
  simp only [execClcDrain, hrun, hload, Bool.false_eq_true, if_false]
  split
  · rfl
  · split <;> rfl

theorem exec_clcAbort_of_unloaded : exec (.clcAbort c) s = .next (s.abortCluster c) := by
  change execClcAbort c s = _
  simp [execClcAbort, hrun, hload]

end Unloaded
end Sys2Proof.Machine

namespace Sys2Proof.Proofs
open Sys2Proof.Machine

/-- Settles O18, each command by its cases. -/
theorem sheetEndsAndDrains : Obligations.SheetEndsAndDrains := by
  unfold Obligations.SheetEndsAndDrains
  rintro s c h x im rfl rfl
  refine ⟨exec_watchdogExpiry_of_stuck, exec_watchdogExpiry_of_calm, exec_sheetEnd_of_done, exec_partialPackEmit_of_quiescent,
    fun t n => exec_tokenOverrun_of_live, ⟨exec_clusterDrained_of_empty, exec_clusterDrained_of_not_empty⟩,
    fun hrun hload => ⟨exec_clcDrain_of_loaded hrun hload, exec_clcAbort_of_loaded hrun hload⟩, fun hrun hload => ?unloaded⟩
  case unloaded =>
    rw [exec_clcDrain_of_unloaded hrun hload]
    refine ⟨fun hst => ?_, fun hst => ?_, fun hr hc => ?_, exec_clcAbort_of_unloaded hrun hload⟩
    · rw [if_pos hst]
    · simp [hst]
    · rw [if_neg hr, if_neg hc]

end Sys2Proof.Proofs
end

section
/-!
PROOFS. Steering (R112–R115): a firing of SWITCH, MERGE, REPEAT or DROP under the step of its head token; and obligation O17.
-/
namespace Sys2Proof.Machine

/-- Only a word of SWITCH, MERGE, REPEAT or DROP has a step. -/
theorem opOpc_of_steerStep {o : BitVec 64} {k : BitVec 32} {st : SteerStep} (h : steerStep o k = some st) :
    opOpc o = 0x2A ∨ opOpc o = 0x2B ∨ opOpc o = 0x2C ∨ opOpc o = 0x2D := by
  unfold steerStep at h
  split at h
  · exact .inl ‹_›
  · exact .inr (.inl ‹_›)
  · exact .inr (.inr (.inl ‹_›))
  · exact .inr (.inr (.inr ‹_›))
  · cases h

/-- The head token gives up a count and the data queue its head; the step says whether, and where to, that head is sent. -/
theorem Cluster.steer_of_step {x : Cluster} {t i : Nat} {st : SteerStep} {z : Tile}
    (hstep : steerStep ((x.tile t).op i) ((x.tile t).tokenQ.headD 0) = some st) (hroute : st.error = false)
    (hz : z = if st.popData then ((x.tile t).countFire i).takeCount.pop st.queue else ((x.tile t).countFire i).takeCount) :
    x.steer t i = .ok (if st.emit then
        (x.setTile t z).send t st.mask (if st.toDst then dstQueue ((x.tile t).op i) else none) (((x.tile t).queue st.queue).headD 0)
      else x.setTile t z) := by
  subst hz
  simp only [Cluster.steer, hstep, hroute, Bool.false_eq_true, if_false]

theorem State.fireSteer_of_ok {s : State} {opc c t i : Nat} {x : Cluster} (hopc : opOpc (((s.cl c).tile t).op i) = opc)
    (hfire : s.mayFire c t i = true) (hx : (s.cl c).steer t i = .ok x) : s.fireSteer opc c t i = s.setCl c x := by
  simp [State.fireSteer, hopc, hfire, hx]

end Sys2Proof.Machine

namespace Sys2Proof.Proofs
open Sys2Proof.Machine

/-- Settles O17: a word with a step is one of the four operations, and each of them fires by its step. -/
theorem steeringFollowsTheHeadToken : Obligations.SteeringFollowsTheHeadToken := by
  unfold Obligations.SteeringFollowsTheHeadToken
  rintro s c t ix x y z st rfl rfl hfire hstep hroute hz
  rw [← State.fireSteer_of_ok rfl hfire (Cluster.steer_of_step hstep hroute hz)]
  rcases opOpc_of_steerStep hstep with hopc | hopc | hopc | hopc <;> (rw [hopc]; rfl)

end Sys2Proof.Proofs
end

section
/-!
PROOFS. The delivery of a configuration (R120–R128, R598): a line fetched, an entry delivered, a sheet restored; and obligation O19.
-/
namespace Sys2Proof.Machine

/-! ### A line of the stream is fetched (R120) -/

theorem CfgUnit.canFetch_of_room {u : CfgUnit} (hfetch : u.fetching = true) (hleft : 0 < u.entriesLeft)
    (hroom : u.queue.length + min 4 u.entriesLeft ≤ 64) : u.canFetch = true := by
  simp [CfgUnit.canFetch, hfetch, Nat.ne_of_gt hleft, hroom]

theorem exec_configFetch_of_good {s : State} {c : ClusterId} {n : Nat} (hn : n = min 4 (s.cl c).cfg.entriesLeft)
    (hfetch : (s.cl c).cfg.canFetch = true) (hrun : s.flt.halted = false) (hgood : s.configBad c (s.cl c).cfg.line = false) :
    exec (.configFetch c) s = .next
      ((if c.val = 880 then s else s.asks classFar false (64 * (s.cl c).cfg.line) 64).setCl c { s.cl c with cfg := { (s.cl c).cfg with
        queue := (s.cl c).cfg.queue ++ (List.range n).map fun k =>
          BitVec.ofNat 128 (leNat (((s.configBytes c (s.cl c).cfg.line 64).drop (16 * k)).take 16))
        line := (s.cl c).cfg.line + 1, linesLeft := (s.cl c).cfg.linesLeft - 1
        entriesLeft := (s.cl c).cfg.entriesLeft - n } }) := by
  subst hn
  change execConfigFetch c s = _
  simp only [execConfigFetch, hfetch, hrun, hgood, Bool.not_true, Bool.or_self, Bool.false_eq_true, if_false]

/-! ### An entry is delivered (R121–R125) -/

theorem Cluster.deliver_eq_ite (x : Cluster) (e : Entry) :
    x.deliver e =
      if entryKind e = 2 then
        { x with cfg := { x.cfg with flags := SMap.set 0 x.cfg.flags (bitsOf e.toNat 118 6) (BitVec.ofNat 16 (bitsOf e.toNat 0 16)) } }
      else if entryKind e = 3 then
        { x with cfg := { x.cfg with cnts := SMap.set 0 x.cfg.cnts (bitsOf e.toNat 120 4) (BitVec.ofNat 48 (bitsOf e.toNat 0 48)) } }
      else if entryKind e = 4 then
        if headPayload e = 0 then x.applyGroup e [] else { x with cfg := { x.cfg with asm := { active := true, head := e } } }
      else if entryKind e = 5 then x.endStream else x := by
  unfold Cluster.deliver
  split
  case h_5 h2 h3 h4 h5 => rw [if_neg h2, if_neg h3, if_neg h4, if_neg h5]
  all_goals simp [‹entryKind e = _›]

/-- An entry outside a tile group takes effect by its KIND; inside one it joins the payload, and the last applies the group (R123). -/
def Cluster.takeEntry (x : Cluster) (e : Entry) : Cluster :=
  if x.cfg.asm.active then
    if x.cfg.asm.payload.length + 1 = headPayload x.cfg.asm.head then x.applyGroup x.cfg.asm.head (x.cfg.asm.payload ++ [e])
    else { x with cfg := { x.cfg with asm := { x.cfg.asm with payload := x.cfg.asm.payload ++ [e] } } }
  else x.deliver e

/-- The entry is taken by the cluster as it is once the stream has begun (R96, R97, R598). -/
theorem exec_configEntryDelivery_of_deliverable {s u : State} {c : ClusterId} {e : Entry} {rest : List Entry} {x : Cluster}
    (hq : (s.cl c).cfg.queue = e :: rest) (hdel : (s.cl c).canDeliver = true) (hclock : s.clocked c = true)
    (hu : u = if (s.cl c).cfg.started then s else s.snapshot c)
    (hx : x = { u.cl c with
      st := if (u.cl c).cfg.started then (u.cl c).st else .config
      drainHeld := (u.cl c).drainHeld || (!(u.cl c).cfg.started && s.drainAsked c)
      cfg := { (u.cl c).cfg with queue := rest, started := true } }) :
    exec (.configEntryDelivery c) s = .next ((u.setCl c (x.takeEntry e)).checkWarm (u.cl c).regs.handle.toNat) := by
  subst hu hx
  change execConfigEntryDelivery c s = _
  simp only [execConfigEntryDelivery, hq, hdel, hclock, Bool.not_true, Bool.or_self, Bool.false_eq_true, if_false, Cluster.takeEntry,
    List.length_append, List.length_singleton]

/-! ### A sheet is restored (R128) -/

/-- A drain that the cluster holds takes it on to DRAIN at once (R97). -/
theorem Cluster.enterRun_eq (x : Cluster) :
    x.enterRun = { x with st := if x.drainHeld then .drain else .run, drainHeld := false } := by
  cases hheld : x.drainHeld <;> simp [Cluster.enterRun, hheld]

theorem exec_sheetRestore_of_good {s u : State} {c : ClusterId} {es : List Entry} {z : Cluster}
    (hrestore : (s.cl c).cfg.restore = true) (hst : (s.cl c).st = .idle ∨ (s.cl c).st = .drained) (hclock : s.clocked c = true)
    (hgood : ∀ k < ceilDiv (s.cl c).cfg.entriesLeft 4, s.configBad c ((s.cl c).cfg.line + k) = false)
    (hes : es = (List.range (s.cl c).cfg.entriesLeft).map fun k => BitVec.ofNat 128
      (leNat (((s.configBytes c (s.cl c).cfg.line (16 * (s.cl c).cfg.entriesLeft)).drop (16 * k)).take 16)))
    (hu : u = if c.val = 880 then s.snapshot c
      else (s.snapshot c).asks classFar false (64 * (s.cl c).cfg.line) (16 * (s.cl c).cfg.entriesLeft))
    (hz : z = (({ (s.snapshot c).cl c with cfg := { (s.cl c).cfg with flags := [], cnts := [] } } : Cluster).restoreFrom
      (s.cl c).cfg.entriesLeft es).initials) :
    exec (.sheetRestore c) s = .next ((u.setCl c { z with
      st := if s.drainAsked c then .drain else .run, drainHeld := false
      cfg := { gen := (s.cl c).regs.gen } }).checkWarm (s.cl c).regs.handle.toNat) := by
  subst hes hu hz
  have hready : (!(s.cl c).cfg.restore || ((s.cl c).st != .idle && (s.cl c).st != .drained) || !s.clocked c) = false := by
    rcases hst with hst | hst <;> simp [hrestore, hst, hclock]
  have hlines : (List.range (ceilDiv (s.cl c).cfg.entriesLeft 4)).find?
      (fun k => s.configBad c ((s.cl c).cfg.line + k)) = none := by
    simpa using hgood
  change execSheetRestore c s = _
  simp only [execSheetRestore, hready, hlines, Bool.false_eq_true, if_false, Cluster.enterRun_eq]

end Sys2Proof.Machine

namespace Sys2Proof.Proofs
open Sys2Proof.Machine

/-- Settles O19: the line, the entry and the restored sheet, an entry outside a group by its KIND. -/
theorem configurationDelivery : Obligations.ConfigurationDelivery := by
  unfold Obligations.ConfigurationDelivery
  rintro s c x rfl
  refine ⟨?fetch, ?deliver, fun es u z => exec_sheetRestore_of_good⟩
  case fetch =>
    intro n hn hfetch hleft hroom hrun hgood
    exact exec_configFetch_of_good hn (CfgUnit.canFetch_of_room hfetch hleft (hn ▸ hroom)) hrun hgood
  case deliver =>
    intro e rest u x1 hq hdel hclock hu hx
    rw [exec_configEntryDelivery_of_deliverable hq hdel hclock hu hx, Cluster.takeEntry, Cluster.deliver_eq_ite]

end Sys2Proof.Proofs
end

section
/-!
PROOFS. The integer square root (R175), bit by bit from the highest; and obligation O57.
-/
namespace Sys2Proof.Machine

/-- A bit is kept only where the square stays within `n`. -/
theorem isqrtFrom_sq_le (b n : Nat) {acc : Nat} (h : acc * acc ≤ n) : isqrtFrom b n acc * isqrtFrom b n acc ≤ n := by
  induction b generalizing acc with
  | zero =>
    rw [isqrtFrom]
    split
    · assumption
    · exact h
  | succ b ih =>
    rw [isqrtFrom]
    apply ih
    split
    · assumption
    · exact h

/-- What the bits still to come can add, and one more, takes the square past `n`. -/
theorem lt_isqrtFrom_succ_sq (b n : Nat) {acc : Nat} (h : n < (acc + 2 ^ (b + 1)) * (acc + 2 ^ (b + 1))) :
    n < (isqrtFrom b n acc + 1) * (isqrtFrom b n acc + 1) := by
  induction b generalizing acc with
  | zero =>
    rw [isqrtFrom]
    split
    · exact h
    · omega
  | succ b ih =>
    rw [isqrtFrom]
    apply ih
    split
    · rwa [Nat.add_assoc, ← Nat.two_mul, ← Nat.pow_succ']
    · omega

/-- The first bit tried is high enough. -/
theorem lt_sq_of_log2 (n : Nat) : n < 2 ^ (Nat.log2 n / 2 + 1) * 2 ^ (Nat.log2 n / 2 + 1) := by
  rw [← Nat.pow_add]
  exact Nat.lt_log2_self.trans_le (Nat.pow_le_pow_right Nat.two_pos (by omega))

end Sys2Proof.Machine

namespace Sys2Proof.Proofs
open Sys2Proof.Machine

/-- Settles O57: both bounds hold before the first bit and each bit keeps them. -/
theorem squareRootIsFloor : Obligations.SquareRootIsFloor := by
  unfold Obligations.SquareRootIsFloor
  intro n
  have hfirst : n < (0 + 2 ^ (Nat.log2 n / 2 + 1)) * (0 + 2 ^ (Nat.log2 n / 2 + 1)) := by simpa using lt_sq_of_log2 n
  exact ⟨isqrtFrom_sq_le _ n (Nat.zero_le n), lt_isqrtFrom_succ_sq _ n hfirst⟩

end Sys2Proof.Proofs
end

section
/-!
PROOFS. Special functions and piecewise tables (R139, R175, R176), conversions and draws (R163–R173), and the ZERO code of a codebook
(R136); and obligations O10, O11, O12, O51.
-/
namespace Sys2Proof.Machine

/-! ### A lane to which R176 gives its result -/

/-- Such a lane is the encoding of that result, and no overflow is counted. -/
theorem Sfu.lane_of_special {g : Sfu} {fmt b : Nat} {x v : FVal} (hb : FVal.ofBits (fmtFloat fmt) b = x) (hv : g.special x = some v) :
    g.lane fmt b = (v.toBits (fmtFloat fmt), false) := by
  subst hb
  simp only [Sfu.lane, hv]

theorem Sfu.lane_of_special_nan {g : Sfu} {fmt b : Nat} {x : FVal} (hb : FVal.ofBits (fmtFloat fmt) b = x)
    (hv : g.special x = some .nan) : g.lane fmt b = ((fmtFloat fmt).nanBits, false) := Sfu.lane_of_special hb hv

/-- The encoding of +0 is 0. -/
theorem Sfu.lane_of_special_zero {g : Sfu} {fmt b : Nat} {x : FVal} (hb : FVal.ofBits (fmtFloat fmt) b = x)
    (hv : g.special x = some (.fin false 0 0)) : g.lane fmt b = (0, false) := Sfu.lane_of_special hb hv

/-- The encoding of −0 is the sign bit alone. -/
theorem Sfu.lane_of_special_minus_zero {g : Sfu} {fmt b : Nat} {x : FVal} (hb : FVal.ofBits (fmtFloat fmt) b = x)
    (hv : g.special x = some (.fin true 0 0)) : g.lane fmt b = ((fmtFloat fmt).signBit, false) := Sfu.lane_of_special hb hv

/-- LOG and RSQRT are not defined below 0. -/
theorem Sfu.special_of_negative {g : Sfu} {m : Nat} (hm : m ≠ 0) (e : Int) (hg : g = .log ∨ g = .rsqrt) :
    g.special (.fin true m e) = some .nan := by
  rcases hg with rfl | rfl <;> simp [Sfu.special, hm]

/-! ### Conversions (R163–R165) -/

section Convert
variable {f g : Fire} {src dst filled : Nat} {l : List (Nat × Bool × Bool)} {p : Pack} (hsrc : src = opFmt f.o)
  (hdst : dst = bitsOf (opSel f.o) 0 2) (hdraw : ¬(src = 3 ∧ dst = 2))
  (hl : l = (List.range (laneCount src)).map fun k => cvtLane src dst .nearest (lane src f.a k))
  (hg : g = f.withTile (f.tile.countSat (countTrue (l.map (·.2.1))) (countTrue (l.map (·.2.2)))))
include hsrc hdst hdraw hl hg

/-- A conversion other than F32 to W16 takes no draw (R166, R168); its lanes fill whole entries where the target's are no narrower. -/
theorem cvtBody_splits (h : laneCount dst ≤ laneCount src) :
    cvtBody f = .ok (g.emitAll 1 ((List.range (laneCount src / laneCount dst)).map fun e =>
      packLanes (laneBits dst) (((l.map (·.1)).drop (laneCount dst * e)).take (laneCount dst)))) := by
  subst hsrc hdst hl hg
  simp only [cvtBody, if_neg hdraw, drawMode, if_pos h]

variable (hp : p = SMap.get {} g.tile.packs g.i)
  (hfilled : filled = p.entry.toNat + packLanes (laneBits dst) (l.map (·.1)) * 2 ^ (laneBits dst * laneCount src * p.pos))
  (h : laneCount src < laneCount dst)
include hp hfilled h

theorem cvtBody_fills_pack (hlast : p.pos + 1 = laneCount dst / laneCount src) :
    cvtBody f = .ok ((g.withTile { g.tile with packs := SMap.set {} g.tile.packs g.i {} }).emit filled) := by
  subst hsrc hdst hl hg hp hfilled
  simp only [cvtBody, if_neg hdraw, drawMode, if_neg (Nat.not_le.mpr h), if_pos hlast]

theorem cvtBody_adds_to_pack (hmore : p.pos + 1 ≠ laneCount dst / laneCount src) :
    cvtBody f = .ok (g.withTile { g.tile with
      packs := SMap.set {} g.tile.packs g.i { pos := p.pos + 1, entry := BitVec.ofNat 128 filled } }).x := by
  subst hsrc hdst hl hg hp hfilled
  simp only [cvtBody, if_neg hdraw, drawMode, if_neg (Nat.not_le.mpr h), if_neg hmore]

end Convert

/-- RNG draws from the stream of kind 0, whose place is its identity (R169, R173). -/
theorem rngBody_eq (f : Fire) :
    rngBody f = .ok ((f.withTile { f.tile with
        draws := SMap.set 0 f.tile.draws (opSel f.o) (SMap.get 0 f.tile.draws (opSel f.o) + 1) }).emit
      (rngDraw f.x.regs.seed (rngCounter f.x.regs f.t 0 (opSel f.o) (SMap.get 0 f.tile.draws (opSel f.o)))).toNat) := by
  simp only [rngBody, Fire.draw, Nat.mul_zero, Nat.zero_add]

/-! ### The ZERO code (R136) -/

@[simp] theorem Codebook.value_zero_code (b : Codebook) : b.value b.zero.toNat = 0 := if_pos rfl

/-- A value stored for the ZERO code is never read. -/
theorem Codebook.value_set_zero_code (b : Codebook) (v : BitVec 12) (code : Nat) :
    ({ b with vals := SMap.set 0 b.vals b.zero.toNat v } : Codebook).value code = b.value code := by
  by_cases hcode : code = b.zero.toNat
  · simp [Codebook.value, hcode]
  · simp [Codebook.value, SMap.get_set_other _ _ _ (Ne.symm hcode)]

end Sys2Proof.Machine

namespace Sys2Proof.Proofs
open Sys2Proof.Machine

/-- Settles O10: each of the six is the firing of its function, PWL its own body. -/
theorem specialFunctionResults : Obligations.SpecialFunctionResults := by
  unfold Obligations.SpecialFunctionResults
  rintro s c t ix f fmt rfl
  refine ⟨?functions, ?table⟩
  case functions =>
    rintro g l rfl h
    have hfire := h.next_of_ok (body := g.fire) rfl
    cases g <;> exact hfire
  case table =>
    rintro l rfl h
    exact h.next_of_ok (body := pwlBody) rfl

/-- Settles O11: in each case R176 gives the function's result. -/
theorem specialFunctionLanes : Obligations.SpecialFunctionLanes := by
  unfold Obligations.SpecialFunctionLanes
  rintro fmt b g - rfl
  refine ⟨?nan, ?zero, ?negative, ?infinity, ?minusInfinity⟩
  case nan => exact fun hb h => Sfu.lane_of_special_nan hb rfl
  case zero =>
    intro n e hb
    refine ⟨?_, ?_, ?_, ?_, ?_, ?_⟩ <;> exact Sfu.lane_of_special hb rfl
  case negative =>
    intro m e hb hm
    exact ⟨Sfu.lane_of_special_nan hb (Sfu.special_of_negative hm e (.inl rfl)),
      Sfu.lane_of_special_nan hb (Sfu.special_of_negative hm e (.inr rfl))⟩
  case infinity =>
    intro hb
    exact ⟨Sfu.lane_of_special hb rfl, Sfu.lane_of_special hb rfl, Sfu.lane_of_special_zero hb rfl, Sfu.lane_of_special hb rfl,
      Sfu.lane_of_special hb rfl⟩
  case minusInfinity =>
    intro hb
    exact ⟨Sfu.lane_of_special_zero hb rfl, Sfu.lane_of_special_nan hb rfl, Sfu.lane_of_special_minus_zero hb rfl,
      Sfu.lane_of_special hb rfl, Sfu.lane_of_special_zero hb rfl⟩

/-- Settles O12: the three ends of a conversion, and the draw. -/
theorem conversionsAndDraws : Obligations.ConversionsAndDraws := by
  unfold Obligations.ConversionsAndDraws
  intro s c t ix f
  refine ⟨?convert, fun h => h.next_of_ok (rngBody_eq f)⟩
  case convert =>
    intro src dst l g p filled hsrc hdst hdraw hl hg hp hfilled h
    exact ⟨fun hsplit => h.next_of_ok (cvtBody_splits hsrc hdst hdraw hl hg hsplit),
      fun hwide hlast => h.next_of_ok (cvtBody_fills_pack hsrc hdst hdraw hl hg hp hfilled hwide hlast),
      fun hwide hmore => h.next_of_ok (cvtBody_adds_to_pack hsrc hdst hdraw hl hg hp hfilled hwide hmore)⟩

/-- Settles O51: the ZERO code is answered before the stored values are read. -/
theorem zeroCodeDecodesToZero : Obligations.ZeroCodeDecodesToZero := by
  unfold Obligations.ZeroCodeDecodesToZero
  exact fun b v code => ⟨b.value_zero_code, b.value_set_zero_code v code⟩

end Sys2Proof.Proofs
end

section
/-!
PROOFS. The registers of BAR0 in the state after reset (R688–R691, R695): the block each offset falls in, then the blocks, whose
pipelines, lines, pins, groups and clusters all read alike there; and obligation O60.
-/
namespace Sys2Proof.Machine

/-! ### The block an offset falls in (R691) -/

section Blocks
variable (s : State) {off o : Nat}

theorem State.readBar0_trp (ho : o < 0x10000) (hoff : off = 0x500000 + o) : s.readBar0 off = s.trpReg o := by
  have hblock : off / 0x10000 = 0x50 ∧ off % 0x10000 = o := by omega
  rw [State.readBar0, if_pos (by omega)]
  simp only [State.rootReg, hblock]

theorem State.readBar0_pwr (ho : o < 0x10000) (hoff : off = 0xA00000 + o) : s.readBar0 off = s.pwrReg o := by
  have hblock : off / 0x10000 = 0xA0 ∧ off % 0x10000 = o := by omega
  rw [State.readBar0, if_pos (by omega)]
  simp only [State.rootReg, hblock]

/-- The training groups of an edge die are its four stock groups and its two Xomos ports (R275). -/
theorem State.readBar0_lnp {e g : Nat} (he : e < 4) (hg : g < 6) (ho : o < 0x1000)
    (hoff : off = 0x1200000 + 0x1000000 * e + 0x1000 * g + o) :
    s.readBar0 off = s.lnpReg (if g < 4 then 4 * e + g else 16 + 2 * e + g - 4) o := by
  obtain ⟨hdie, hin⟩ : off / 0x1000000 - 1 = e ∧ off % 0x1000000 = 0x200000 + 0x1000 * g + o := by omega
  obtain ⟨hgroup, hreg⟩ : (0x200000 + 0x1000 * g + o - 0x200000) / 0x1000 = g ∧ (0x200000 + 0x1000 * g + o) % 0x1000 = o := by omega
  rw [State.readBar0, if_neg (by omega), if_pos (by omega), hdie, hin]
  rw [State.edgeReg, if_neg (by omega), if_neg (by omega), if_pos (by omega), hgroup, hreg]

theorem State.readBar0_clc {k c : Nat} (hk : k < 20) (hc : c < 44) (ho : o < 0x10000)
    (hoff : off = 0x8000000 + 0x400000 * k + 0x10000 * c + o) : s.readBar0 off = s.clcReg (44 * k + c) o := by
  have hdie : (off - 0x8000000) / 0x400000 = k ∧ off % 0x400000 = 0x10000 * c + o := by omega
  have hcluster : (0x10000 * c + o) / 0x10000 = c ∧ (0x10000 * c + o) % 0x10000 = o := by omega
  have hwindow : 0x10000 * c + o < 0x2C0000 := by omega
  rw [State.readBar0, if_neg (by omega), if_neg (by omega), if_neg (by omega), if_pos (by omega)]
  simp only [hdie, hwindow, hcluster, if_true]

end Blocks

/-! ### The registers of each block after reset -/

@[simp] theorem State.reset_pipe (p : Nat) : State.reset.pipe p = {} := rfl

@[simp] theorem State.reset_group (g : Nat) : State.reset.group g = {} := rfl

@[simp] theorem State.reset_cl (c : Nat) : State.reset.cl c = {} := rfl

/-- Every pipeline reads as the first one. -/
theorem State.reset_trpReg_pipe {p o : Nat} (hp : p < 64) (ho : o < 0x20) :
    State.reset.trpReg (o + 0x20 * p) = State.reset.trpReg o := by
  have hoff : (o + 0x20 * p) % 0x20 = o % 0x20 := by omega
  have hlow : o + 0x20 * p < 0x800 ∧ o < 0x800 := by omega
  simp only [State.trpReg, State.reset_pipe, hoff, hlow, if_true]

/-- LCTRL of a trigger line: a pulse of 100 ns. -/
theorem State.reset_trpReg_lctrl {n : Nat} (hn : n < 8) : State.reset.trpReg (0x800 + 0x10 * n) = 0xC800 := by
  have hline : SMap.get ({} : TrigLine) State.reset.trp.lines ((0x800 + 0x10 * n - 0x800) / 0x10) = {} := rfl
  have hoff : (0x800 + 0x10 * n) % 0x10 = 0 := by omega
  rw [State.trpReg, if_neg (by omega), if_pos (by omega)]
  simp only [hline, hoff]
  decide

/-- A GPIO pin: a pulse of 100 ns. -/
theorem State.reset_pwrReg_gpio {n : Nat} (hn : n < 16) : State.reset.pwrReg (0x200 + 4 * n) = 0x3200000 := by
  have hpin : SMap.get ({} : Gpio) State.reset.pwr.gpio ((0x200 + 4 * n - 0x200) / 4) = {} := rfl
  simp (disch := omega) only [State.pwrReg, if_neg, if_pos, hpin]
  decide

/-- GCTRL and LSTAT0 of a group of an edge die: every rate allowed, loss of signal on the lane. -/
theorem State.reset_lnpReg {g : Nat} (hg : g < 24) :
    State.reset.lnpReg g 0 = 0x3C000000 ∧ State.reset.lnpReg g 0x100 = 0x80000000 := by
  have hlane : ¬(0x100 < 0x100 ∨ groupLanes g ≤ (0x100 - 0x100) / 0x20) := by
    unfold groupLanes
    split <;> omega
  refine ⟨?gctrl, ?lstat⟩
  case gctrl =>
    simp only [State.lnpReg, State.reset_group, hg, if_true]
    decide
  case lstat =>
    rw [State.lnpReg, if_neg (by decide), if_neg (by decide), if_neg hlane]
    simp only [State.reset_group]
    decide

/-- WDOG and IMAGE of a cluster: the index names no configuration (R227). -/
theorem State.reset_clcReg (c : Nat) : State.reset.clcReg c 0xC = 0x10000 ∧ State.reset.clcReg c 0x60 = 0xFFFF := by
  simp only [State.clcReg, State.clcLow, State.reset_cl]
  decide

end Sys2Proof.Machine

namespace Sys2Proof.Proofs
open Sys2Proof.Machine

/-- Settles O60: each offset falls in its block, and what the state after reset does not list is at its default. -/
theorem resetLeavesTheStatedValues : Obligations.ResetLeavesTheStatedValues := by
  unfold Obligations.ResetLeavesTheStatedValues
  refine ⟨?single, ?pipes, ?lines, ?pins, ?groups, ?clusters, fun a => ⟨rfl, rfl⟩, fun h => rfl, fun n => rfl, fun r => rfl,
    fun c t k => rfl, rfl⟩
  case single => decide
  case pipes =>
    intro p hp
    have hread {off o : Nat} (ho : o < 0x20) (hoff : off = 0x500000 + (o + 0x20 * p)) :
        State.reset.readBar0 off = State.reset.trpReg o := by
      rw [State.readBar0_trp _ (by omega) hoff, State.reset_trpReg_pipe hp ho]
    exact ⟨hread (o := 0x8) (by decide) (by omega), hread (o := 0xC) (by decide) (by omega),
      hread (o := 0x14) (by decide) (by omega)⟩
  case lines =>
    intro n hn
    rw [State.readBar0_trp (o := 0x800 + 0x10 * n) _ (by omega) (by omega), State.reset_trpReg_lctrl hn]
  case pins =>
    intro n hn
    rw [State.readBar0_pwr (o := 0x200 + 4 * n) _ (by omega) (by omega), State.reset_pwrReg_gpio hn]
  case groups =>
    intro e he g hg
    have hgroup : (if g < 4 then 4 * e + g else 16 + 2 * e + g - 4) < 24 := by split <;> omega
    rw [State.readBar0_lnp (o := 0) _ he hg (by decide) (by omega), State.readBar0_lnp (o := 0x100) _ he hg (by decide) (by omega)]
    exact State.reset_lnpReg hgroup
  case clusters =>
    intro k hk c hc
    rw [State.readBar0_clc (o := 0xC) _ hk hc (by decide) (by omega), State.readBar0_clc (o := 0x60) _ hk hc (by decide) (by omega)]
    exact State.reset_clcReg (44 * k + c)

end Sys2Proof.Proofs
end

section
/-!
PROOFS. The sizing unit (R180–R203): QUANT by the place of its firing in the pack, DEQUANT where no record is invalid, and STATS by its mode;
and obligation O13.
-/
namespace Sys2Proof
open Machine

/-- QUANT and DEQUANT also post the guards of the firing (R198). -/
theorem Fires.next_of_siz {s : State} {opc c t i : Nat} {f : Fire} (h : Fires s opc c t i f)
    {body : Fire → Except ClEvent (Cluster × List Guard)} {x : Cluster} {posts : List Guard} (hb : body f = .ok (x, posts)) :
    (.next (s.fireSiz opc body c t i) : Result) = .next ((s.setCl c x).postGuards c posts) := by
  obtain ⟨hopc, hmay, htake⟩ := h
  simp [State.fireSiz, hopc, hmay, htake, Except.bind, hb]

end Sys2Proof

namespace Sys2Proof.Machine

/-! ### Quantising a firing (R180, R181, R187) -/

section Quant
variable {f g h : Fire} {fmt code filled : Nat} {p : Pack} {l : List Nat} {posts : List Guard} (hload : f.loadHeld = .ok g)
  (hfmt : opFmt g.o = fmt) (hcode : sizCode g.o = code) (hp : p = SMap.get {} g.tile.packs g.i)
  (hels : g.quantElements ((g.tile.book (sizSlot g.o)).candidates code) []
    ((List.range (laneCount fmt)).map fun k => ((p.pos * laneCount fmt + k) % sizChannels g.o, laneF fmt g.a k)) = (l, h, posts))
  (hfilled : filled = p.entry.toNat + packLanes (laneBits code) l * 2 ^ (laneBits code * laneCount fmt * p.pos))
include hload hfmt hcode hp hels hfilled

theorem quantBody_fills_pack (hlast : p.pos + 1 = laneCount code / laneCount fmt) :
    quantBody f = .ok ((h.withTile { h.tile with packs := SMap.set {} h.tile.packs h.i {} }).emit filled, posts) := by
  subst hfmt hcode hp hfilled
  simp only [quantBody, hload, hels, if_pos hlast]

theorem quantBody_adds_to_pack (hmore : p.pos + 1 ≠ laneCount code / laneCount fmt) :
    quantBody f = .ok ((h.withTile { h.tile with
      packs := SMap.set {} h.tile.packs h.i { pos := p.pos + 1, entry := BitVec.ofNat 128 filled } }).x, posts) := by
  subst hfmt hcode hp hfilled
  simp only [quantBody, hload, hels, if_neg hmore]

end Quant

/-! ### Dequantising an entry (R194, R195) -/

/-- Only an invalid record posts BAD_SCALE. -/
theorem Fire.postGuard_foldl_of_valid {recs : List ChanRec} {n : Nat} (p : Fire × List Guard)
    (hvalid : ∀ k < n, (recs.getD k {}).valid = true) :
    (List.range n).foldl (fun p k => if (recs.getD k {}).valid then p else p.1.postGuard p.2 k 2 {}) p = p :=
  List.foldlRecOn (motive := (· = p)) _ _ rfl fun q hq k hk => by
    rw [if_pos (hvalid k (List.mem_range.mp hk)), hq]

theorem dequantBody_of_valid {f g : Fire} {fmt n code : Nat} {b : Codebook} {recs : List ChanRec} {l : List (Nat × Bool)}
    (hload : f.loadHeld = .ok g) (hfmt : opFmt g.o = fmt) (hcode : sizCode g.o = code) (hn : sizChannels g.o = n)
    (hb : b = g.tile.book (sizSlot g.o)) (hrecs : recs = (g.tile.held g.i).recs.map ChanRec.ofEntry)
    (hvalid : ∀ k < min (laneCount code) n, (recs.getD k {}).valid = true)
    (hl : l = (List.range (laneCount code)).map fun e =>
      dequantElement b (b.candidates code) fmt (recs.getD (e % n) {}) (lane code g.a e)) :
    dequantBody f = .ok ((g.withTile (g.tile.countSat 0 (countTrue (l.map (·.2))))).emitAll 2
      ((List.range (laneCount code / laneCount fmt)).map fun e =>
        packLanes (laneBits fmt) (((l.map (·.1)).drop (laneCount fmt * e)).take (laneCount fmt))), []) := by
  subst hfmt hcode hn hb hrecs hl
  simp only [dequantBody, hload, Fire.postGuard_foldl_of_valid _ hvalid]

end Sys2Proof.Machine

namespace Sys2Proof.Proofs
open Sys2Proof.Machine

/-- Settles O13: QUANT by the place of its firing in the pack, DEQUANT without a guard to post, and each mode of STATS. -/
theorem sizingResults : Obligations.SizingResults := by
  unfold Obligations.SizingResults
  intro s c t ix f fmt n code hfmt hn hcode
  refine ⟨?quant, ?dequant, ?accumulate, ?emit, ?derive, ?clear⟩
  case quant =>
    intro g p l h posts filled hload hgfmt hgcode hp hels hfilled hfires
    exact ⟨fun hlast => hfires.next_of_siz (quantBody_fills_pack hload hgfmt hgcode hp hels hfilled hlast),
      fun hmore => hfires.next_of_siz (quantBody_adds_to_pack hload hgfmt hgcode hp hels hfilled hmore)⟩
  case dequant =>
    intro g b recs l hload hgfmt hgcode hgn hb hrecs hvalid hl h
    exact h.next_of_siz (dequantBody_of_valid hload hgfmt hgcode hgn hb hrecs hvalid hl)
  case accumulate =>
    subst hfmt hn hcode
    rintro p q y rfl rfl rfl hmode h
    exact h.next_of_form (body := statsAddBody) (by simpa using hmode) rfl
  case emit =>
    subst hn
    exact fun hmode h => h.next_of_form (body := statsEmitBody) (by simpa using hmode) rfl
  case derive =>
    subst hn hcode
    rintro l rfl hmode h
    exact h.next_of_form (body := statsDeriveBody) (by simpa using hmode) rfl
  case clear =>
    exact fun hmode h => h.next_of_form (body := statsClearBody) (by simpa using hmode) rfl

end Sys2Proof.Proofs
end

section
/-!
PROOFS. Loads (R225, R226), admissions (R353), firings of timed-start units (R324, R325), restarts of pipelines (R387, R390) and
replaced buffers (R419): each command by the ends it can have; and obligation O30.
-/
namespace Sys2Proof.Machine

/-! ### LOAD_IMAGE -/

section Load
variable {s s1 : State} {w : Work} {e : Refuse} (hw : s.fwHead 1 = some (w, s1))
include hw

theorem exec_loadImage_of_out_of_reach
    (hout : s1.fieldUp w.bytes 0x18 = false ∨ (s.hif.load = none ∧ s1.fieldUp w.bytes 8 = false)) :
    exec .loadImage s = .next s := by
  change execLoadImage s = _
  rcases hout with hrep | ⟨hfree, himg⟩
  · simp [execLoadImage, hw, hrep]
  · simp [execLoadImage, hw, hfree, himg]

/-- Steps 6 to 9 of R225: they follow once a load has claimed. -/
theorem exec_loadImage_of_claimed {j : LoadJob} (hclaimed : s.hif.load = some j) (hrepUp : s1.fieldUp w.bytes 0x18 = true) :
    exec .loadImage s = .next (({ s1 with hif := { s1.hif with load := none } } : State).finishLoad w j) := by
  change execLoadImage s = _
  simp [execLoadImage, hw, hclaimed, hrepUp]

section Claiming
variable (hfree : s.hif.load = none) (himgUp : s1.fieldUp w.bytes 8 = true) (hrepUp : s1.fieldUp w.bytes 0x18 = true)
include hfree himgUp hrepUp

theorem exec_loadImage_of_bad_report
    (hrep : s1.resolve w.ring.toNat (fieldAt w.bytes 0x18 8) (fieldAt w.bytes 0x20 4) = .error e) :
    exec .loadImage s = .next (s1.finish w.ring.toNat w.seqNo e.1 e.2 0) := by
  change execLoadImage s = _
  simp [execLoadImage, hw, hfree, himgUp, hrepUp, hrep]

section Report
variable {rep : Loc} (hrep : s1.resolve w.ring.toNat (fieldAt w.bytes 0x18 8) (fieldAt w.bytes 0x20 4) = .ok rep)
include hrep

theorem exec_loadImage_of_unfetched
    (himg : s1.fetchImage w.ring.toNat (fieldAt w.bytes 8 8) (fieldAt w.bytes 0x10 8) = .error (e, false)) :
    exec .loadImage s = .next (s1.finish w.ring.toNat w.seqNo e.1 e.2 0) := by
  change execLoadImage s = _
  simp [execLoadImage, hw, hfree, himgUp, hrepUp, hrep, himg]

theorem exec_loadImage_of_bad_length
    (himg : s1.fetchImage w.ring.toNat (fieldAt w.bytes 8 8) (fieldAt w.bytes 0x10 8) = .error (e, true)) :
    exec .loadImage s = .next (s1.endLoad w rep
      ((reportHead { outcome := e.1, check := e.2 } 0 0 0 0).take (fieldAt w.bytes 0x20 4)) e.1 e.2 0) := by
  change execLoadImage s = _
  simp [execLoadImage, hw, hfree, himgUp, hrepUp, hrep, himg]

variable {b : List Byte} (himg : s1.fetchImage w.ring.toNat (fieldAt w.bytes 8 8) (fieldAt w.bytes 0x10 8) = .ok b)
include himg

theorem exec_loadImage_of_failed_check {x : LoadErr} (hload : s.load w.ring.toNat b = .error x) :
    exec .loadImage s =
      .next (s1.endLoad w rep ((reportHead x 0 0 0 0).take (fieldAt w.bytes 0x20 4)) x.outcome x.check 0) := by
  change execLoadImage s = _
  simp [execLoadImage, hw, hfree, himgUp, hrepUp, hrep, himg, hload]

theorem exec_loadImage_claims {j : LoadJob} {s2 : State} (hload : s.load w.ring.toNat b = .ok (j, s2)) :
    exec .loadImage s = .next ((s2.askImage w.ring.toNat (fieldAt w.bytes 8 8) b.length).startLoad j) := by
  change execLoadImage s = _
  simp [execLoadImage, hw, hfree, himgUp, hrepUp, hrep, himg, hload]

end Report
end Claiming
end Load

section Claimed
variable {u : State} {w : Work} {j : LoadJob}

theorem State.finishLoad_of_bad_report {e : Refuse}
    (hrep : u.resolve w.ring.toNat (fieldAt w.bytes 0x18 8) (fieldAt w.bytes 0x20 4) = .error e) :
    u.finishLoad w j = (u.dropLoad j).finish w.ring.toNat w.seqNo e.1 e.2 0 := by
  simp [State.finishLoad, hrep]

variable {rep : Loc} {l : Loaded} {bs : List Byte}
  (hrep : u.resolve w.ring.toNat (fieldAt w.bytes 0x18 8) (fieldAt w.bytes 0x20 4) = .ok rep)
  (hl : l = j.loaded (u.image j.handle).granted.toNat)
  (hbs : bs = ((u.loadPlace j l).loadReport j.handle).take (fieldAt w.bytes 0x20 4))
include hrep hl hbs

theorem State.finishLoad_of_no_fault (hfault : u.loadFault j l rep bs.length = none) :
    u.finishLoad w j = (u.loadPlace j l).endLoad w rep bs outDone 0 j.handle := by
  subst hl hbs
  simp only [State.finishLoad, hrep, hfault]

theorem State.finishLoad_of_fault {f : BitVec 8} (hfault : u.loadFault j l rep bs.length = some f) :
    u.finishLoad w j = (u.dropLoad j).endLoad w rep
      ((reportHead { outcome := f, check := Config.loadCheck f.toNat } 0 0 0 0).take (fieldAt w.bytes 0x20 4))
      f (Config.loadCheck f.toNat) 0 := by
  subst hl hbs
  simp only [State.finishLoad, hrep, hfault]

end Claimed

/-! ### ADMIT -/

section Admit
variable {s s1 : State} {w : Work} (hw : s.fwHead 5 = some (w, s1))
include hw

theorem exec_admitPipe_of_refused {e : Refuse} (hrefused : s1.admission w.ring.toNat (bitsOf (fieldAt w.bytes 4 4) 0 10)
      (fieldAt w.bytes 8 4) (fieldAt w.bytes 0x0C 2) (fieldAt w.bytes 0x0E 2) w.prog = .error e) :
    exec .admitPipe s = .next (s1.finish w.ring.toNat w.seqNo e.1 e.2 (refuseInfo w.bytes)) := by
  change execAdmitPipe s = _
  simp only [execAdmitPipe, hw, hrefused]

theorem exec_admitPipe_of_admitted {a : Admission} (hok : s1.admission w.ring.toNat (bitsOf (fieldAt w.bytes 4 4) 0 10)
      (fieldAt w.bytes 8 4) (fieldAt w.bytes 0x0C 2) (fieldAt w.bytes 0x0E 2) w.prog = .ok a) :
    exec .admitPipe s = .next ((s1.admitStream w.ring.toNat (bitsOf (fieldAt w.bytes 4 4) 0 10) (fieldAt w.bytes 2 2)
        (bitsOf (fieldAt w.bytes 4 4) 16 13) (fieldAt w.bytes 8 4) (fieldAt w.bytes 0x0C 2) (fieldAt w.bytes 0x0E 2) a).finish
      w.ring.toNat w.seqNo outDone 0 (bitsOf (fieldAt w.bytes 4 4) 0 10 + 2 ^ 16 * a.entry)) := by
  change execAdmitPipe s = _
  simp only [execAdmitPipe, hw, hok]

end Admit

/-! ### Timed-start units -/

theorem exec_timedStartFire_of_due {s : State} {u : Fin 32} (hdue : s.tsuDue u = true) :
    exec (.timedStartFire u) s = .next (s.fireUnit u) :=
  congrArg Host.Outcome.next (if_pos hdue)

theorem State.fireUnit_of_on_time {s : State} {u : Nat} (hpassed : (s.tsu u).passed = none) :
    s.fireUnit u = ((s.setTsu u (s.tsu u).fire).fireTarget u (s.tsu u) (s.tsu u).start false).pulsePins u (s.tsu u)
      (s.tsu u).start := by
  simp [State.fireUnit, hpassed]

theorem State.fireUnit_of_late {s v : State} {u : Nat} (hpassed : (s.tsu u).passed.isSome = true)
    (hv : v = s.setTsu u (s.tsu u).fire) :
    s.fireUnit u = (({ v with flt := { v.flt with tsuLate := satBump v.flt.tsuLate 1 } } : State).fireTarget u (s.tsu u)
      s.now true).pulsePins u (s.tsu u) s.now := by
  subst hv
  simp [State.fireUnit, hpassed]

/-! ### PIPELINE_RESTART -/

section Pad
variable {s : State} {p : Nat} {q : Pipe} {im : Image} {lat : Nat × Bool × Nat} (hq : q = s.pipe p)
  (him : im = s.image q.handle.toNat) (hlat : lat = pipeTiming s.stepA1 im.routes im.segs q.index.toNat)
include hq him hlat

theorem State.padOf_eq_none (hbad : im.whole = false ∨ lat.2.1 = true ∨ q.deckle.toNat < lat.1) : s.padOf p = none := by
  subst hq him hlat
  rcases hbad with hunmapped | hslack | hdeckle
  · simp [State.padOf, hunmapped]
  · simp [State.padOf, hslack]
  · simp [State.padOf, hdeckle]

theorem State.padOf_eq_some (hwhole : im.whole = true) (hslack : lat.2.1 = false) (hdeckle : lat.1 ≤ q.deckle.toNat) :
    s.padOf p = some (BitVec.ofNat 13 (q.deckle.toNat - lat.1)) := by
  subst hq him hlat
  simp [State.padOf, hwhole, hslack, hdeckle]

end Pad

section Restart
variable {s : State} {p : Fin 64} {q : Pipe} {im : Image} (hq : q = s.pipe p) (him : im = s.image q.handle.toNat)
  (hhalted : q.st = .halted) (hstarting : q.starting = false) (hcause : s.causeOver p = true) (hflt : s.flt.halted = false)
  (hdrain : im.sheet.draining = false)
include hq him hhalted hstarting hcause hflt hdrain

theorem exec_pipelineRestart_of_no_pad (hpad : s.padOf p = none) :
    exec (.pipelineRestart p) s = .next (s.setPipe p { q with st := .stopped }) := by
  subst hq him
  change execPipelineRestart p s = _
  simp [execPipelineRestart, hhalted, hstarting, hcause, hflt, hdrain, hpad]

/-- The GEN of a cluster that runs decides; without one, that of the first cluster or, without clusters, of the image. -/
theorem exec_pipelineRestart_of_pad {pad : BitVec 13} {s1 s2 : State} {cs : List Nat} {gen : Bool} (hpad : s.padOf p = some pad)
    (hs1 : s1 = s.setPipe p { q with pad, starting := true }) (hcs : cs = s1.pipeClusters p)
    (hs2 : s2 = cs.foldl (fun s c => if (s.cl c).st = .aborted then s.setCl c { s.cl c with st := .idle } else s) s1)
    (hgen : gen = match cs.find? fun c => (s2.cl c).st != .idle with
      | some c => (s2.cl c).cfg.gen
      | none => !((cs.head?.map fun c => (s2.cl c).cfg.gen).getD im.gen)) :
    exec (.pipelineRestart p) s = .next (((im.map.mapIdx fun v c => (v, c)).foldl (fun s x => match x.2 with
      | none => s
      | some c => if cs.contains c ∧ (s.cl c).st = .idle then s.beginConfig q.handle.toNat x.1 c 0 gen false
        else s) (s2.setImage q.handle.toNat { im with gen })).checkWarm q.handle.toNat) := by
  have hready : ¬ (q.st ≠ .halted ∨ q.starting ∨ !s.causeOver p ∨ s.flt.halted ∨ im.sheet.draining) := by
    simp [hhalted, hstarting, hcause, hflt, hdrain]
  subst hq him hgen hs2 hcs hs1
  change execPipelineRestart p s = _
  simp only [execPipelineRestart, if_neg hready, hpad] <;> rfl

end Restart

/-! ### BUFFER_REALLOCATE -/

theorem Stream.not_unlost_or_unadmitted {x : Stream} (hlost : x.buf.lost = true) (hst : x.st = .admitted ∨ x.st = .suspended) :
    ¬ (!x.buf.lost ∨ (x.st ≠ .admitted ∧ x.st ≠ .suspended)) := by
  rcases hst with hst | hst <;> simp [hlost, hst]

section Reallocate
variable {s u : State} {sid : Fin 1024} {x : Stream} (hx : x = s.stream sid) (hlost : x.buf.lost = true)
  (hst : x.st = .admitted ∨ x.st = .suspended) (hu : u = s.setStream sid { x with mesh := [], buf := { x.buf with quarter := 4 } })
include hx hlost hst hu

theorem exec_bufferReallocate_of_no_place
    (hplace : ∀ (q : Nat) (mesh : List (Nat × Nat)) (b : Nat), u.placeBuffer sid x.buf.depth ≠ .ok (q, mesh, some b)) :
    exec (.bufferReallocate sid) s = .next s := by
  subst hx hu
  change execBufferReallocate sid s = _
  -- `hplace` shuts out the arm of a found place.
  simp only [execBufferReallocate, if_neg (Stream.not_unlost_or_unadmitted hlost hst)]

theorem exec_bufferReallocate_of_place {n q b : Nat} {mesh : List (Nat × Nat)} {old : Rgt}
    (hn : n = ceilDiv (bufferLines x.fmt.toNat x.buf.depth) 15 * 15) (hold : old = s.region x.buf.rgt)
    (hplace : u.placeBuffer sid x.buf.depth = .ok (q, mesh, some b)) :
    exec (.bufferReallocate sid) s = .next ((((s.gddrZero old.base.toNat old.lines.toNat).gddrZero b n).setRegion x.buf.rgt
      { old with base := BitVec.ofNat 32 b, lines := BitVec.ofNat 32 n, lost := false }).setStream sid { x with
        mesh
        buf := { x.buf with base := b, w := 0, anchors := [], nAnchors := 0, lost := false, quarter := q, gen := x.buf.gen + 1 } }) := by
  subst hx hu hn hold
  change execBufferReallocate sid s = _
  simp only [execBufferReallocate, if_neg (Stream.not_unlost_or_unadmitted hlost hst), hplace]

end Reallocate
end Sys2Proof.Machine

namespace Sys2Proof.Proofs
open Sys2Proof.Machine

/-- Settles O30, each command by the ends it can have. -/
theorem loadAdmitAndRestart : Obligations.LoadAdmitAndRestart := by
  unfold Obligations.LoadAdmitAndRestart
  intro s
  refine ⟨?load, ?admission, ?fire, ?restart, ?reallocate⟩
  case load =>
    rintro w s1 n close hw rfl hclose
    replace hclose : close = fun v rep bs o => v.endLoad w rep bs o.1 o.2.1 o.2.2 := hclose
    subst hclose
    refine ⟨exec_loadImage_of_out_of_reach hw, ?claims, ?claimed⟩
    case claims =>
      intro hfree himgUp hrepUp
      refine ⟨fun e => exec_loadImage_of_bad_report hw hfree himgUp hrepUp,
        fun rep hrep => ⟨fun e => ?_, fun e => ?_, fun b himg => ?_⟩⟩
      · exact exec_loadImage_of_unfetched hw hfree himgUp hrepUp hrep
      · exact exec_loadImage_of_bad_length hw hfree himgUp hrepUp hrep
      · exact ⟨fun e => exec_loadImage_of_failed_check hw hfree himgUp hrepUp hrep himg,
          fun j s2 => exec_loadImage_claims hw hfree himgUp hrepUp hrep himg⟩
    case claimed =>
      rintro j u hclaimed hrepUp rfl
      rw [exec_loadImage_of_claimed hw hclaimed hrepUp]
      refine ⟨fun e hrep => congrArg Host.Outcome.next (State.finishLoad_of_bad_report hrep), ?_⟩
      rintro rep l v bs hrep hl rfl hbs
      refine ⟨fun hfault => congrArg Host.Outcome.next (State.finishLoad_of_no_fault hrep hl hbs hfault), ?_⟩
      rintro f c hfault rfl
      exact congrArg Host.Outcome.next (State.finishLoad_of_fault hrep hl hbs hfault)
  case admission =>
    rintro w s1 sid depth h port hw rfl rfl rfl rfl
    exact ⟨fun e => exec_admitPipe_of_refused hw, fun a => exec_admitPipe_of_admitted hw⟩
  case fire =>
    rintro u x rfl hdue
    rw [exec_timedStartFire_of_due hdue]
    exact ⟨fun hpassed => congrArg Host.Outcome.next (State.fireUnit_of_on_time hpassed),
      fun hpassed => congrArg Host.Outcome.next (State.fireUnit_of_late hpassed rfl)⟩
  case restart =>
    intro p q im lat hq him hhalted hstarting hcause hflt hdrain hlat
    refine ⟨fun hbad => ?stops, fun s1 s2 cs gen hwhole hslack hdeckle hs1 hcs hs2 hgen => ?starts⟩
    case stops =>
      exact exec_pipelineRestart_of_no_pad hq him hhalted hstarting hcause hflt hdrain (State.padOf_eq_none hq him hlat hbad)
    case starts =>
      have hpad := State.padOf_eq_some hq him hlat hwhole hslack hdeckle
      replace hgen : gen = match cs.find? fun c => (s2.cl c).st != .idle with
          | some c => (s2.cl c).cfg.gen
          | none => !((cs.head?.map fun c => (s2.cl c).cfg.gen).getD im.gen) := by
        rw [hgen]
        cases cs <;> rfl
      exact exec_pipelineRestart_of_pad hq him hhalted hstarting hcause hflt hdrain hpad hs1 hcs hs2 hgen
  case reallocate =>
    intro sid x n u hx hlost hst hn hu
    exact ⟨exec_bufferReallocate_of_no_place hx hlost hst hu,
      fun q mesh b old hplace hold => exec_bufferReallocate_of_place hx hlost hst hu hn hold hplace⟩

end Sys2Proof.Proofs
end

section
/-!
PROOFS. Every step keeps host memory, GDDR6 and the boot flash in canonical form: the ways in which a meaning chooses its next state,
one lemma for each command whose branches do not fit on a line of the table of all commands, that table, and obligation O4. The branches
of a proof stand in the order of those of the meaning, and what is said of one follows the operations that it applies.
-/
namespace Sys2Proof.Machine

/-- An outcome that answers a next state whose memories are in canonical form. -/
inductive KeepsWf : Host.Outcome State Fault Refusal → Prop
  | next {t : State} (h : memoriesWf t = true) : KeepsWf (.next t)

theorem KeepsWf.wf_of_eq {r : Host.Outcome State Fault Refusal} {t : State} (h : KeepsWf r) (ht : r = .next t) :
    memoriesWf t = true := by
  subst ht
  cases h
  assumption

theorem KeepsWf.ite {c : Prop} [Decidable c] {a b : Host.Outcome State Fault Refusal} (ha : KeepsWf a) (hb : KeepsWf b) :
    KeepsWf (if c then a else b) := by
  split <;> assumption

theorem wf_ite {c : Prop} [Decidable c] {a b : State} (ha : memoriesWf a = true) (hb : memoriesWf b = true) :
    memoriesWf (if c then a else b) = true := by
  split <;> assumption

theorem wf_then {c : Prop} [Decidable c] {a b : State} (hb : memoriesWf a = true → memoriesWf b = true) (ha : memoriesWf a = true) :
    memoriesWf (if c then b else a) = true :=
  wf_ite (hb ha) ha

theorem wf_else {c : Prop} [Decidable c] {a b : State} (hb : memoriesWf a = true → memoriesWf b = true) (ha : memoriesWf a = true) :
    memoriesWf (if c then a else b) = true :=
  wf_ite ha (hb ha)

/-- A record update that leaves the host's memory, the bytes of GDDR6 and the flash alone. -/
theorem wf_update {s : State} {pending : List Instr} {free : Nat} {out : List Out} {fab : Fabric} {gddr : Gddr}
    {images : SMap Image} {lanes : SMap LnpGroup} {tb : TimeBase} {hbx : Headbox} {trp : Trp} {vat : Vat} {pcx : Pcx} {hif : HostIf}
    {xms : Xms} {flt : Flt} {svc : Svc} {pwr : Pwr} {dnd : Dnd} {sec : Sec} {bru : Bru} {wcap : SMap (Option (BitVec 32))}
    {stepA1 : Bool} {enables : BitVec 2} (h : memoriesWf s = true) (hg : gddr.bytes = s.gddr.bytes) (hf : sec.flash = s.sec.flash) :
    memoriesWf (State.mk pending free out s.host fab gddr images lanes tb hbx trp vat pcx hif xms flt svc pwr dnd sec bru wcap stepA1
      enables) = true := by
  rw [wf_mk, hg, hf]
  exact wf_iff.1 h

section Commands
variable {s : State}

/-! ### Tiles, clusters and configuration -/

theorem execTokenZeroLeave_wf (c : ClusterId) (t : TileId) (h0 : memoriesWf s = true) : KeepsWf (execTokenZeroLeave c t s) := by
  dsimp only [execTokenZeroLeave]
  split
  case h_1 => exact .next h0
  case h_2 => exact .next (wf_ite (State.setCl_wf _ _ _ h0) h0)

theorem execChestSpillBegin_wf (c : ClusterId) (t : TileId) (q : Fin 7) (h0 : memoriesWf s = true) :
    KeepsWf (execChestSpillBegin c t q s) := by
  dsimp only [execChestSpillBegin]
  refine .ite (.next h0) (.ite (.next (wf_ite (State.stall_wf _ _ _ h0) h0)) ?_)
  refine .ite (.next (wf_ite h0 (State.setCl_wf _ _ _ h0))) (.ite (.next h0) ?_)
  split
  case h_1 => exact .next (State.setCl_wf _ _ _ h0)
  case h_2 => exact .next (wf_then (State.hop_wf _ _) (State.setCl_wf _ _ _ h0))

theorem execChestRefill_wf (c : ClusterId) (t : TileId) (q : Fin 7) (h0 : memoriesWf s = true) :
    KeepsWf (execChestRefill c t q s) := by
  dsimp only [execChestRefill]
  split
  case h_1 => exact .next h0
  case h_2 => exact .ite (.next (State.setCl_wf _ _ _ h0)) (.next h0)

theorem execTokenOverrun_wf (c : ClusterId) (h0 : memoriesWf s = true) : KeepsWf (execTokenOverrun c s) := by
  dsimp only [execTokenOverrun]
  refine .ite (.next h0) ?_
  split
  case h_1 => exact .next h0
  case h_2 => exact .next (State.clusterEvent_wf _ _ _ (State.setCl_wf _ _ _ h0))

theorem execClcDrain_wf (c : ClusterId) (h0 : memoriesWf s = true) : KeepsWf (execClcDrain c s) := by
  unfold execClcDrain
  refine .ite (.next h0) ?_
  refine .ite (.next (State.requestDrain_wf _ _ h0)) ?_
  exact .ite (.next (State.setCl_wf _ _ _ h0)) (.ite (.next (State.setCl_wf _ _ _ h0)) (.next h0))

theorem execClcAbort_wf (c : ClusterId) (h0 : memoriesWf s = true) : KeepsWf (execClcAbort c s) := by
  unfold execClcAbort
  exact .next (wf_ite h0 (wf_ite (State.abortCluster_wf _ _ (State.abortSheet_wf _ _ _ _ _ h0)) (State.abortCluster_wf _ _ h0)))

theorem execConfigFetch_wf (c : ClusterId) (h0 : memoriesWf s = true) : KeepsWf (execConfigFetch c s) := by
  unfold execConfigFetch
  refine .ite (.next h0) ?_
  refine .ite (.next (State.abortFor_wf _ _ _ _ _ _ (State.lineFault_wf _ _ _ h0))) ?_
  exact .next (State.setCl_wf _ _ _ (wf_ite h0 (State.asks_wf _ _ _ _ _ h0)))

theorem execConfigEntryDelivery_wf (c : ClusterId) (h0 : memoriesWf s = true) : KeepsWf (execConfigEntryDelivery c s) := by
  dsimp only [execConfigEntryDelivery]
  split
  case h_1 => exact .next h0
  case h_2 =>
    refine .ite (.next h0) ?_
    exact .next (State.checkWarm_wf _ _ (State.setCl_wf _ _ _ (wf_ite h0 (State.snapshot_wf _ _ h0))))

theorem execSheetRestore_wf (c : ClusterId) (h0 : memoriesWf s = true) : KeepsWf (execSheetRestore c s) := by
  dsimp only [execSheetRestore]
  refine .ite (.next h0) ?_
  split
  case h_1 => exact .next (State.abortFor_wf _ _ _ _ _ _ (State.lineFault_wf _ _ _ h0))
  case h_2 =>
    exact .next (State.checkWarm_wf _ _ (State.setCl_wf _ _ _ (wf_else (State.asks_wf _ _ _ _ _) (State.snapshot_wf _ _ h0))))

/-! ### Bridges, PLLs and the loader -/

theorem execBridgeSubstitution_wf (b : Fin 40) (d : Fin 2) (h0 : memoriesWf s = true) :
    KeepsWf (execBridgeSubstitution b d s) := by
  unfold execBridgeSubstitution
  refine .ite (.next h0) ?_
  exact .next (wf_fold _ _ _ (fun s x h => State.noteRepair_wf _ _ _ h) (State.setBridge_wf _ _ _ h0))

theorem execFlitRetransmit_wf (b : Fin 40) (d : Fin 2) (g : Fin 96) (w : Option (Fin 17)) (h0 : memoriesWf s = true) :
    KeepsWf (execFlitRetransmit b d g w s) := by
  dsimp only [execFlitRetransmit]
  split
  case h_1 => exact .next (State.setBridge_wf _ _ _ h0)
  case h_2 =>
    exact .next (wf_then (State.replaceWire_wf _ _ _ _ _ _) (State.addBucket_wf _ _ _ _ (State.setBridge_wf _ _ _ h0)))

theorem execPllLockLoss_wf (k : Fin 20) (h0 : memoriesWf s = true) : KeepsWf (execPllLockLoss k s) := by
  unfold execPllLockLoss
  refine .ite (.next h0) ?_
  refine .ite (.next (State.fenceAll_wf _ _ _ _ (State.noteRepair_wf _ _ _ (State.faultRecord_wf _ _
    (State.setDie_wf _ _ _ h0))))) ?_
  exact .next (wf_fold _ _ _ (fun s x h => State.haltPipe_wf _ _ _ h) (State.noteRepair_wf _ _ _ (State.faultRecord_wf _ _
    (State.setDie_wf _ _ _ h0))))

theorem execPllSwitchComplete_wf (k : Fin 20) (h0 : memoriesWf s = true) : KeepsWf (execPllSwitchComplete k s) := by
  unfold execPllSwitchComplete
  refine .ite (.next h0) ?_
  exact .next (wf_fold _ _ _ (fun s x h => State.recover_wf _ _ h) (wf_fold _ _ _ (fun s x h => State.interruptSheet_wf _ _ h)
    (State.setDie_wf _ _ _ h0)))

theorem execLoadImage_wf (h0 : memoriesWf s = true) : KeepsWf (execLoadImage s) := by
  dsimp only [execLoadImage]
  split
  case h_1 => exact .next h0
  case h_2 he =>
    have hw := State.fwHead_wf he h0
    refine .ite (.next h0) ?_
    split
    case h_1 => exact .next (State.finishLoad_wf _ _ _ (wf_update hw rfl rfl))
    case h_2 =>
      split
      case h_1 => exact .next (State.finish_wf _ _ _ _ _ _ _ hw)
      case h_2 =>
        split
        case h_1 => exact .next (State.finish_wf _ _ _ _ _ _ _ hw)
        case h_2 => exact .next (State.endLoad_wf _ _ _ _ _ _ _ hw)
        case h_3 =>
          split
          case h_1 => exact .next (State.endLoad_wf _ _ _ _ _ _ _ hw)
          case h_2 he4 =>
            have hw4 := State.load_wf he4 h0
            exact .next (State.startLoad_wf _ _ (State.askImage_wf _ _ _ _ hw4))

/-! ### GDDR6 -/

theorem execGddr6Burst_wf (slot : Fin 1024) (cls : Fin 16) (half : HalfLine) (errs : Fin 4) (h0 : memoriesWf s = true) :
    KeepsWf (execGddr6Burst slot cls half errs s) := by
  dsimp only [execGddr6Burst]
  split
  case h_1 => exact .next (wf_ite (State.sendFar_wf _ _ _ _ h0) h0)
  case h_2 =>
    refine .ite (.next (wf_ite (State.sendFar_wf _ _ _ _ h0) h0)) ?_
    exact .next (wf_then (State.lineDone_wf _ _ _ _ _ _) (State.noteHalf_wf _ _ (State.clearRepeats_wf _ _ (wf_ite
      (State.sendFar_wf _ _ _ _ h0) h0))))

theorem execEccLineFetch_wf (slot : Fin 1024) (cls : Fin 16) (half : EccHalf) (h0 : memoriesWf s = true) :
    KeepsWf (execEccLineFetch slot cls half s) := by
  unfold execEccLineFetch
  refine .ite (.next h0) ?_
  refine .ite (.next (State.noteHalf_wf _ _ (State.clearRepeats_wf _ _ h0))) ?_
  exact .next (wf_else (State.setQuarter_wf _ _ _) (State.codeword_wf _ _ _ _ (State.noteHalf_wf _ _
    (State.clearRepeats_wf _ _ h0))))

theorem execEdcRetry_wf (slot : Fin 1024) (cls : Fin 16) (half : HalfLine) (h0 : memoriesWf s = true) :
    KeepsWf (execEdcRetry slot cls half s) := by
  dsimp only [execEdcRetry]
  split
  case h_1 => exact .next h0
  case h_2 =>
    refine .ite (.next h0) (.ite ?_ (.next (State.giveUpBurst_wf _ _ _ _ _ _ h0)))
    split
    case h_1 => exact .next (State.setQuarter_wf _ _ _ h0)
    case h_2 => exact .next (State.deviceError_wf _ _ _ _ (State.chanErr_wf _ _ _ _ (State.setQuarter_wf _ _ _ h0)))

theorem execPatrolRead_wf (e : Fin 4) (ch : Fin 22) (slot : Fin 1024) (errs : Fin 4) (h0 : memoriesWf s = true) :
    KeepsWf (execPatrolRead e ch slot errs s) := by
  unfold execPatrolRead
  refine .ite (.next h0) ?_
  exact .next (wf_else (State.checkLine_wf _ _ _ _ _) (State.patrolTo_wf _ _ _ _ (State.clearRepeats_wf _ _ h0)))

theorem execDeviceCopyStart_wf (e : Fin 4) (m : Fin 12) (h0 : memoriesWf s = true) : KeepsWf (execDeviceCopyStart e m s) := by
  dsimp only [execDeviceCopyStart]
  refine .ite (.next h0) ?_
  split
  case h_1 => exact .next (State.spareLow_wf _ _ _ _ _ (State.setQuarter_wf _ _ _ h0))
  case h_2 => exact .next (State.setQuarter_wf _ _ _ h0)

theorem execDeviceCopyGroup_wf (e : Fin 4) (b : Fin 2) (group : GroupRead) (h0 : memoriesWf s = true) :
    KeepsWf (execDeviceCopyGroup e b group s) := by
  unfold execDeviceCopyGroup
  refine .ite (.next h0) ?_
  exact .next (wf_fold _ _ _ (fun s x h => State.checkLine_wf _ _ _ _ _ h) (State.setQuarter_wf _ _ _ h0))

theorem execDeviceLost_wf (e : Fin 4) (m : Fin 12) (h0 : memoriesWf s = true) : KeepsWf (execDeviceLost e m s) := by
  unfold execDeviceLost
  refine .ite (.next h0) ?_
  refine .ite (.next (State.faultRecord_wf _ _ (State.noteRepair_wf _ _ _ (State.setQuarter_wf _ _ _ h0)))) ?_
  refine .ite (.next (State.withdraw_wf _ _ _ _ (State.noteRepair_wf _ _ _ (State.setQuarter_wf _ _ _ h0)))) ?_
  exact .next (State.loseLogical_wf _ _ _ _ (State.noteRepair_wf _ _ _ (State.setQuarter_wf _ _ _ h0)))

/-! ### Lanes -/

theorem execCharacterLockLoss_wf (g : Fin 26) (l : Fin 18) (errs : Fin 65) (h0 : memoriesWf s = true) :
    KeepsWf (execCharacterLockLoss g l errs s) := by
  unfold execCharacterLockLoss
  refine .ite (.next h0) ?_
  refine .ite (.next (State.lockLost_wf _ _ _ _ _ h0)) ?_
  exact .next (State.laneErrors_wf _ _ _ _ (State.setGroup_wf _ _ _ (State.unheard_wf _ _ h0)))

theorem execBaseAcqTimeout_wf (g : Fin 26) (h0 : memoriesWf s = true) : KeepsWf (execBaseAcqTimeout g s) := by
  dsimp only [execBaseAcqTimeout]
  refine .ite (.next h0) ?_
  split
  case h_1 => exact .next (State.trainTo_wf _ _ _ h0)
  case h_2 => exact .next (State.trainTo_wf _ _ _ h0)

theorem execBlockLockLoss_wf (g : Fin 26) (l : Fin 18) (hs : List (BitVec 2 × Fin 5)) (h0 : memoriesWf s = true) :
    KeepsWf (execBlockLockLoss g l hs s) := by
  unfold execBlockLockLoss
  refine .ite (.next h0) ?_
  refine .ite (.next (State.lockLost_wf _ _ _ _ _ h0)) ?_
  exact .next (State.laneErrors_wf _ _ _ _ (State.setGroup_wf _ _ _ h0))

theorem execAlign_wf (g : Fin 26) (l : Fin 18) (frame : BitVec 16) (skew : Fin 128) (h0 : memoriesWf s = true) :
    KeepsWf (execAlign g l frame skew s) := by
  unfold execAlign
  refine .ite (.next h0) ?_
  exact .ite (.next (State.setGroup_wf _ _ _ (State.unheard_wf _ _ h0))) (.next (State.trainTo_wf _ _ _ h0))

theorem execSpareRequest_wf (g : Fin 26) (l : Fin 18) (peer : Option (BitVec 16)) (h0 : memoriesWf s = true) :
    KeepsWf (execSpareRequest g l peer s) := by
  dsimp only [execSpareRequest]
  refine .ite (.next h0) ?_
  split
  case h_1 => exact .next (State.emit_wf _ _ (State.setGroup_wf _ _ _ (State.unheard_wf _ _ h0)))
  case h_2 => exact .ite (.next h0) (.next (State.emit_wf _ _ (State.setGroup_wf _ _ _ h0)))

theorem execSpareAbandon_wf (g : Fin 26) (l : Fin 18) (peer : Bool) (h0 : memoriesWf s = true) :
    KeepsWf (execSpareAbandon g l peer s) := by
  unfold execSpareAbandon
  refine .ite (.next (State.setGroup_wf _ _ _ (State.unheard_wf _ _ h0))) ?_
  exact .ite (.next (State.emit_wf _ _ (State.setGroup_wf _ _ _ h0))) (.next h0)

theorem execSpareSwitch_wf (g : Fin 26) (h0 : memoriesWf s = true) : KeepsWf (execSpareSwitch g s) := by
  unfold execSpareSwitch
  refine .ite (.next (State.laneReplaced_wf _ _ _ _ (State.setGroup_wf _ _ _ h0))) ?_
  exact .ite (.next (State.setGroup_wf _ _ _ h0)) (.next h0)

theorem execBurst_wf (g : Fin 26) (count : Fin 128) (h0 : memoriesWf s = true) : KeepsWf (execBurst g count s) := by
  unfold execBurst
  refine .ite (.next (State.unheard_wf _ _ h0)) ?_
  refine .ite (.next (State.setGroup_wf _ _ _ (State.unheard_wf _ _ h0))) ?_
  refine .ite (.next (State.trainOn_wf _ _ _ h0)) ?_
  exact .next (State.toDetect_wf _ _ _ (State.setGroup_wf _ _ _ h0))

/-! ### The time base -/

theorem execServoMeasurement_wf (src : Fin 4) (e : Int) (h0 : memoriesWf s = true) :
    KeepsWf (execServoMeasurement src e s) := by
  dsimp only [execServoMeasurement]
  split
  case h_1 => exact .next h0
  case h_2 => exact .ite (.next h0) (.next (State.measured_wf _ _ _ (wf_update h0 rfl rfl)))

theorem execPtpFrameRx_wf (p : Fin 2) (f : PtpFrame) (h0 : memoriesWf s = true) : KeepsWf (execPtpFrameRx p f s) := by
  unfold execPtpFrameRx
  refine .ite (.next h0) ?_
  refine .ite (.next (wf_update h0 rfl rfl)) ?_
  exact .next (wf_ite (wf_fold _ _ _ (fun s x h => State.trackerHears_wf _ _ _ _ _ h) (wf_update h0 rfl rfl))
    (wf_update h0 rfl rfl))

theorem execPpsInEdge_wf (falling : Bool) (phase : Fin 64) (h0 : memoriesWf s = true) :
    KeepsWf (execPpsInEdge falling phase s) := by
  dsimp only [execPpsInEdge]
  have hr : ∀ c : Prop, [Decidable c] → memoriesWf (if c then s.takeFree else (0, s)).2 = true := by
    intro c _
    split
    · exact State.takeFree_wf _ h0
    · exact h0
  exact .ite (.next h0) (.next (State.measureDue_wf _ _ _ (wf_update (hr _) rfl rfl)))

theorem execPpsOutPulse_wf (n : Fin 4) (h0 : memoriesWf s = true) : KeepsWf (execPpsOutPulse n s) := by
  dsimp only [execPpsOutPulse]
  refine .ite (.next h0) ?_
  split
  case h_1 => exact .next (State.ppsPulse_wf _ _ _ _ h0)
  case h_2 =>
    split
    case h_1 => exact .next h0
    case h_2 => exact .next (wf_ite h0 (State.ppsPulse_wf _ _ _ _ h0))

/-! ### Streams, pipelines and trigger lines -/

theorem execHello_wf (g : Fin 16) (pid : BitVec 32) (sources : BitVec 8) (version : BitVec 8) (h0 : memoriesWf s = true) :
    KeepsWf (execHello g pid sources version s) := by
  unfold execHello
  refine .ite (.next h0) ?_
  refine .ite (.next (State.unheard_wf _ _ (State.joinError_wf _ _ h0))) ?_
  refine .ite (.next (State.unheard_wf _ _ h0)) ?_
  refine .ite (.next (State.hearJoin_wf _ _ _ _ h0)) ?_
  exact .next (State.trainTo_wf _ _ _ (State.answerJoin_wf _ _ _ _ (State.setPartner_wf _ _ _ (wf_else (wf_fold _ _ _ (fun s
    x h => wf_ite (State.leave_wf _ _ h) h)) (State.hearJoin_wf _ _ _ _ h0)))))

theorem execSjoin_wf (g : Fin 16) (lsn : BitVec 8) (fmt fcode : BitVec 4) (rate : BitVec 32) (h0 : memoriesWf s = true) :
    KeepsWf (execSjoin g lsn fmt fcode rate s) := by
  unfold execSjoin
  refine .ite (.next h0) ?_
  refine .ite (.next (State.unheard_wf _ _ (State.joinError_wf _ _ h0))) ?_
  exact .ite (.next h0) (.next (wf_then (State.join_wf _ _ _ _ _ _) (State.hearJoin_wf _ _ _ _ h0)))

theorem execSleave_wf (g : Fin 16) (lsn : BitVec 8) (sid : BitVec 10) (h0 : memoriesWf s = true) :
    KeepsWf (execSleave g lsn sid s) := by
  unfold execSleave
  refine .ite (.next h0) ?_
  refine .ite (.next (State.unheard_wf _ _ (State.joinError_wf _ _ h0))) ?_
  refine .ite (.next h0) ?_
  refine .ite (.next (State.hearJoin_wf _ _ _ _ h0)) ?_
  refine .ite (.next (State.joinError_wf _ _ (State.hearJoin_wf _ _ _ _ h0))) ?_
  exact .next (State.answerJoin_wf _ _ _ _ (wf_then (State.leave_wf _ _) (State.hearJoin_wf _ _ _ _ h0)))

theorem execBye_wf (g : Fin 16) (pid : BitVec 32) (h0 : memoriesWf s = true) : KeepsWf (execBye g pid s) := by
  unfold execBye
  refine .ite (.next h0) ?_
  refine .ite (.next (State.unheard_wf _ _ h0)) ?_
  refine .ite (.next (State.hearJoin_wf _ _ _ _ h0)) ?_
  exact .next (State.setPartner_wf _ _ _ (wf_fold _ _ _ (fun s x h => wf_ite (State.leave_wf _ _ h) h)
    (State.hearJoin_wf _ _ _ _ h0)))

theorem execStockFrame_wf {s0 : State} (g : Fin 16) (f : StockFrame) (h0 : memoriesWf s0 = true) :
    KeepsWf (execStockFrame g f s0) := by
  unfold execStockFrame
  refine .ite (.next h0) ?_
  refine .ite (.next (wf_then (fun h => State.discardGap_wf _ _ (State.inputFrame_wf _ _ _ h)) (State.setStream_wf _ _ _
    (State.unheard_wf _ _ h0)))) ?_
  refine .ite (.next (State.badFrame_wf _ _ _ _ (State.unheard_wf _ _ h0))) ?_
  refine .ite (.next (State.badFrame_wf _ _ _ _ (State.unheard_wf _ _ h0))) ?_
  refine .ite (.next (State.badFrame_wf _ _ _ _ (State.setStream_wf _ _ _ (State.unheard_wf _ _ h0)))) ?_
  exact .next (wf_then (State.admittedFrame_wf _ _ _ _ _) (State.setStream_wf _ _ _ (State.unheard_wf _ _ h0)))

theorem execAdmitPipe_wf (h0 : memoriesWf s = true) : KeepsWf (execAdmitPipe s) := by
  dsimp only [execAdmitPipe]
  split
  case h_1 => exact .next h0
  case h_2 he =>
    have hw := State.fwHead_wf he h0
    refine .next ?_
    split
    case h_1 => exact State.finish_wf _ _ _ _ _ _ _ hw
    case h_2 => exact State.finish_wf _ _ _ _ _ _ _ (State.admitStream_wf _ _ _ _ _ _ _ _ _ hw)

theorem execTriggerBlockDelivery_wf (f : StockFrame) (e : Nat) (pin : Mark) (h0 : memoriesWf s = true) :
    KeepsWf (execTriggerBlockDelivery f e pin s) := by
  unfold execTriggerBlockDelivery
  refine .ite (.next h0) ?_
  refine .ite (.next (State.inputFrame_wf _ _ _ h0)) ?_
  exact .ite (.next h0) (.next (wf_fold _ _ _ (fun s x h => wf_ite (State.setPipe_wf _ _ _ h) h) h0))

theorem execIngressPlacement_wf (p : Fin 64) (port : BitVec 16) (now : Nat) (h0 : memoriesWf s = true) :
    KeepsWf (execIngressPlacement p port now s) := by
  dsimp only [execIngressPlacement]
  split
  case h_1 =>
    refine .ite (.next h0) ?_
    split
    case h_1 => exact .next (State.haltPipe_wf _ _ _ h0)
    case h_2 =>
      refine .ite (.next (State.haltPipe_wf _ _ _ h0)) ?_
      exact .next (State.setPipe_wf _ _ _ (State.setCl_wf _ _ _ h0))
  case h_2 => exact .next h0

theorem execDecisionJudge_wf (p : Fin 64) (arrival : Nat) (h0 : memoriesWf s = true) :
    KeepsWf (execDecisionJudge p arrival s) := by
  dsimp only [execDecisionJudge]
  refine .ite (.next h0) ?_
  split
  case h_1 =>
    refine .ite (.next (State.takeDecision_wf _ _ _ h0)) ?_
    exact .next (State.release_wf _ _ _ _ _ (State.takeDecision_wf _ _ _ h0))
  case h_2 => exact .next (State.takeDecision_wf _ _ _ h0)

theorem execTriggerMessageSend_wf (p : Fin 64) (h0 : memoriesWf s = true) : KeepsWf (execTriggerMessageSend p s) := by
  dsimp only [execTriggerMessageSend]
  split
  case h_1 => exact .next h0
  case h_2 =>
    refine .ite (.next h0) ?_
    exact .next (State.postEvent_wf _ _ _ _ _ (wf_then (State.floodPacket_wf _ _ _) (State.toLines_wf _ _
      (State.toHeadboxes_wf _ _ (wf_update h0 rfl rfl)))))

theorem execPipelineRestart_wf (p : Fin 64) (h0 : memoriesWf s = true) : KeepsWf (execPipelineRestart p s) := by
  dsimp only [execPipelineRestart]
  refine .ite (.next h0) ?_
  split
  case h_1 => exact .next (State.setPipe_wf _ _ _ h0)
  case h_2 =>
    refine .next (State.checkWarm_wf _ _ ?_)
    refine wf_fold _ _ _ (fun s x h => ?_) (State.setImage_wf _ _ _ (wf_fold _ _ _ (fun s x h => wf_ite
      (State.setCl_wf _ _ _ h) h) (State.setPipe_wf _ _ _ h0)))
    split
    case h_1 => exact h
    case h_2 => exact wf_ite (State.beginConfig_wf _ _ _ _ _ _ _ h) h

theorem execTrigOutPulse_wf (n : Fin 8) (h0 : memoriesWf s = true) : KeepsWf (execTrigOutPulse n s) := by
  dsimp only [execTrigOutPulse]
  split
  case h_1 => exact .next h0
  case h_2 =>
    refine .ite (.next (State.setLine_wf _ _ _ h0)) ?_
    exact .ite (.next (State.setLine_wf _ _ _ h0)) (.next (State.emit_wf _ _ (State.setLine_wf _ _ _ h0)))

theorem execTrigInEdge_wf (n : Fin 8) (falling : Bool) (mark : Mark) (h0 : memoriesWf s = true) :
    KeepsWf (execTrigInEdge n falling mark s) := by
  unfold execTrigInEdge
  refine .ite (.next h0) ?_
  exact .next (wf_fold _ _ _ (fun s x h => wf_ite h (wf_update (State.setPipe_wf _ _ _ h) rfl rfl)) (State.setLine_wf _ _ _ h0))

theorem execHeadboxTriggerMessage_wf (e : Fin 4) (h0 : memoriesWf s = true) : KeepsWf (execHeadboxTriggerMessage e s) := by
  dsimp only [execHeadboxTriggerMessage]
  refine .ite (.next h0) ?_
  split
  case h_1 => exact .next h0
  case h_2 =>
    exact .next (wf_fold _ _ _ (fun s x h => wf_ite (State.setStream_wf _ _ _ h) (wf_ite (State.openRecord_wf _ _ _ h) h))
      (wf_update h0 rfl rfl))

/-! ### Records and stream buffers -/

theorem execRecordLost_wf (sid : Fin 1024) (h0 : memoriesWf s = true) : KeepsWf (execRecordLost sid s) := by
  dsimp only [execRecordLost]
  split
  case h_1 => exact .next h0
  case h_2 =>
    refine .next (State.postEvent_wf _ _ _ _ _ (State.setStream_wf _ _ _ ?_))
    split
    case h_1 => exact h0
    case h_2 => exact State.faultRecord_wf _ _ h0

theorem execBufferReallocate_wf (sid : Fin 1024) (h0 : memoriesWf s = true) : KeepsWf (execBufferReallocate sid s) := by
  dsimp only [execBufferReallocate]
  refine .ite (.next h0) ?_
  split
  case h_1 =>
    exact .next (State.setStream_wf _ _ _ (State.setRegion_wf _ _ _ (State.gddrZero_wf _ _ _ (State.gddrZero_wf _ _ _ h0))))
  case h_2 => exact .next h0

/-! ### The vat -/

theorem execVatArm_wf (h0 : memoriesWf s = true) : KeepsWf (execVatArm s) := by
  dsimp only [execVatArm]
  split
  case h_1 => exact .next h0
  case h_2 he =>
    have hw := State.vatHead_wf he h0
    exact .next (State.enterWork_wf _ _ hw)

theorem execSweepStart_wf (h0 : memoriesWf s = true) : KeepsWf (execSweepStart s) := by
  dsimp only [execSweepStart]
  split
  case h_1 => exact .next (State.enterTaken_wf _ h0)
  case h_2 =>
    refine .ite (.next h0) ?_
    refine .ite (.next (State.endPending_wf _ _ _ _ (wf_update (State.enterTaken_wf _ h0) rfl rfl))) ?_
    split
    case h_1 => exact .next (wf_else (fun h => State.endPending_wf _ _ _ _ (wf_update h rfl rfl)) (State.enterTaken_wf _ h0))
    case h_2 => exact .next (State.startSweep_wf _ _ (wf_update (State.enterTaken_wf _ h0) rfl rfl))

theorem execContextFetch_wf (q : CacheUse) (h0 : memoriesWf s = true) : KeepsWf (execContextFetch q s) := by
  dsimp only [execContextFetch]
  refine .ite (.next h0) ?_
  split
  case h_1 => exact .next (State.modRun_wf _ _ h0)
  case h_2 =>
    split
    case h_1 => exact .next h0
    case h_2 he1 =>
      have hw1 := State.fetchContext_wf he1 (wf_ite (State.asksAt_wf _ _ _ _ _ h0) h0)
      exact .next (wf_then (State.modRun_wf _ _) (State.modRun_wf _ _ hw1))

theorem execBatchDelivery_wf (q : Fin 4) (h0 : memoriesWf s = true) : KeepsWf (execBatchDelivery q s) := by
  unfold execBatchDelivery
  refine .ite (.next (wf_ite (State.rereadModels_wf _ h0) h0)) ?_
  exact .next (State.sendEntry_wf _ _ (wf_then (State.startBatch_wf _ _) (State.rereadModels_wf _ h0)))

theorem execContextCommit_wf (m : Fin 16) (port : Fin 16) (h0 : memoriesWf s = true) :
    KeepsWf (execContextCommit m port s) := by
  dsimp only [execContextCommit]
  refine .ite (.next h0) ?_
  split
  case h_1 => exact .next (wf_then (State.commitBatch_wf _ _ _ _) (State.modRun_wf _ _ (State.setCl_wf _ _ _ h0)))
  case h_2 => exact .next h0

theorem execCacheWriteback_wf (q : CacheUse) (h0 : memoriesWf s = true) : KeepsWf (execCacheWriteback q s) := by
  dsimp only [execCacheWriteback]
  split
  case h_1 => exact .next h0
  case h_2 =>
    refine .ite (.next h0) (.next (State.modRun_wf _ _ ?_))
    split
    case h_1 => exact State.setCache_wf _ _ _ (State.loseDirty_wf _ _ _ h0)
    case h_2 => exact State.setCache_wf _ _ _ (State.writeBack_wf _ _ h0)

/-! ### The host -/

theorem execRegisterWrite_wf (off : BitVec 28) (v : Word) (meets : Bool) (h0 : memoriesWf s = true) :
    KeepsWf (execRegisterWrite off v meets s) := by
  unfold execRegisterWrite
  exact .next (wf_ite h0 (wf_ite (State.aerError_wf _ _ (State.modPcx_wf _ _ h0)) (wf_ite h0 (State.writeBar0_wf _ _ _ _ h0))))

theorem execBar4Read_wf (addr : BitVec 37) (len : Nat) (h0 : memoriesWf s = true) : KeepsWf (execBar4Read addr len s) := by
  dsimp only [execBar4Read]
  refine .ite (.next h0) (.ite (.next (State.emit_wf _ _ h0)) ?_)
  refine .ite (.next (State.emit_wf _ _ (State.bar4Unsupported_wf _ h0))) (.ite (.next h0) ?_)
  split
  case h_1 => exact .next (State.emit_wf _ _ (State.asks_wf _ _ _ _ _ h0))
  case h_2 => exact .next (State.emit_wf _ _ (State.aerError_wf _ _ (State.modPcx_wf _ _ (State.asks_wf _ _ _ _ _ h0))))

theorem execBar4Write_wf (addr : BitVec 37) (data : List Byte) (poisoned : Bool) (h0 : memoriesWf s = true) :
    KeepsWf (execBar4Write addr data poisoned s) := by
  unfold execBar4Write
  refine .ite (.next h0) ?_
  refine .ite (.next (State.aerError_wf _ _ h0)) ?_
  refine .ite (.next (State.bar4Unsupported_wf _ h0)) ?_
  refine .ite (.next h0) ?_
  exact .next (wf_else (fun h => State.aerError_wf _ _ (State.modPcx_wf _ _ h)) (wf_fold _ _ _ (fun s x h =>
    State.asks_wf _ _ _ _ _ h) (State.asks_wf _ _ _ _ _ (State.gddrWrite_wf _ _ _ h0))))

theorem execDoeRequest_wf (object : List Byte) (h0 : memoriesWf s = true) : KeepsWf (execDoeRequest object s) := by
  unfold execDoeRequest
  refine .ite (.next h0) ?_
  refine .ite (.next h0) ?_
  refine .ite (.next (State.doeAnswer_wf _ _ _ h0)) ?_
  exact .ite (.ite (.next (wf_update h0 rfl rfl)) (.next (State.doeAnswer_wf _ _ _ h0))) (.next h0)

theorem execPerst_wf (low : Bool) (h0 : memoriesWf s = true) : KeepsWf (execPerst low s) := by
  unfold execPerst
  refine .ite (.next h0) ?_
  refine .ite (.next (wf_update h0 rfl rfl)) ?_
  exact .next (wf_update (State.modPcx_wf _ _ (State.functionReset_wf _ h0)) rfl rfl)

/-! ### Descriptors, copies and rings -/

theorem execDescriptorTake_wf (r : Fin 4096) (h0 : memoriesWf s = true) : KeepsWf (execDescriptorTake r s) := by
  dsimp only [execDescriptorTake]
  refine .ite (.next h0) ?_
  split
  case h_1 => exact .next (State.finish_wf _ _ _ _ _ _ _ (State.setRing_wf _ _ _ h0))
  case h_2 => exact .next (wf_getD (fun t he => State.accept_wf he h0) h0)

theorem execRunSheet_wf (h0 : memoriesWf s = true) : KeepsWf (execRunSheet s) := by
  dsimp only [execRunSheet]
  split
  case h_1 => exact .next h0
  case h_2 he =>
    have hw := State.fwHead_wf he h0
    refine .ite (.next h0) ?_
    split
    case h_1 => exact .next (State.finish_wf _ _ _ _ _ _ _ hw)
    case h_2 =>
      refine .ite (.next (State.startSheet_wf _ _ _ _ _ hw)) (.ite (.next h0) ?_)
      split
      case h_1 => exact .next (State.finish_wf _ _ _ _ _ _ _ hw)
      case h_2 he2 =>
        have hw2 := State.rehome_wf he2 hw
        exact .next (State.startSheet_wf _ _ _ _ _ hw2)

theorem execDrainSheet_wf (h0 : memoriesWf s = true) : KeepsWf (execDrainSheet s) := by
  dsimp only [execDrainSheet]
  split
  case h_1 => exact .next h0
  case h_2 he =>
    have hw := State.fwHead_wf he h0
    refine .ite (.next h0) ?_
    refine .ite (.next (State.finish_wf _ _ _ _ _ _ _ hw)) ?_
    exact .ite (.next (State.finish_wf _ _ _ _ _ _ _ hw)) (.next (State.drainFor_wf _ _ _ hw))

theorem execDmaCopy_wf (ch : Fin 32) (h0 : memoriesWf s = true) : KeepsWf (execDmaCopy ch s) := by
  dsimp only [execDmaCopy]
  refine .ite (.next h0) ?_
  split
  case h_1 =>
    split
    case h_1 => exact .next h0
    case h_2 => exact .ite (.next h0) (.next (State.startCopy_wf _ _ _ (State.setChan_wf _ _ _ h0)))
  case h_2 =>
    refine .ite (.next h0) ?_
    split
    case h_1 => exact .next (State.memError_wf _ _ h0)
    case h_2 => exact .next (wf_then (State.memError_wf _ _) (State.setChan_wf _ _ _ (State.copyWrite_wf _ _ _ _ h0)))
  case h_3 => exact .next h0

theorem execPacedCopy_wf (ch : Fin 32) (h0 : memoriesWf s = true) : KeepsWf (execPacedCopy ch s) := by
  dsimp only [execPacedCopy]
  refine .ite (.next h0) ?_
  split
  case h_1 =>
    split
    case h_1 => exact .next h0
    case h_2 => exact .ite (.next (State.startPaced_wf _ _ _ (State.setChan_wf _ _ _ h0))) (.next h0)
  case h_2 =>
    refine .ite (.next h0) ?_
    split
    case h_1 => exact .next (State.memError_wf _ _ h0)
    case h_2 =>
      exact .next (wf_ite (State.moveEntry_wf _ _ _ (State.asks_wf _ _ _ _ _ h0)) (State.setChan_wf _ _ _
        (State.asks_wf _ _ _ _ _ h0)))
  case h_3 => exact .next h0

theorem execPacedPoll_wf (ch : Fin 32) (h0 : memoriesWf s = true) : KeepsWf (execPacedPoll ch s) := by
  dsimp only [execPacedPoll]
  refine .ite (.next h0) ?_
  split
  case h_1 => exact .next (State.memError_wf _ _ h0)
  case h_2 => exact .next (State.setChan_wf _ _ _ (State.asks_wf _ _ _ _ _ h0))

theorem execTimeActionArm_wf (h0 : memoriesWf s = true) : KeepsWf (execTimeActionArm s) := by
  dsimp only [execTimeActionArm]
  split
  case h_1 => exact .next h0
  case h_2 he =>
    have hw := State.timeHead_wf he h0
    refine .next ?_
    split
    case h_1 => exact State.finish_wf _ _ _ _ _ _ _ hw
    case h_2 =>
      refine wf_ite (State.finish_wf _ _ _ _ _ _ _ hw) ?_
      split
      case h_1 => exact State.finish_wf _ _ _ _ _ _ _ hw
      case h_2 => exact State.finish_wf _ _ _ _ _ _ _ (State.arm_wf _ _ _ _ _ _ _ hw)

theorem execTimeActionDisarm_wf (h0 : memoriesWf s = true) : KeepsWf (execTimeActionDisarm s) := by
  dsimp only [execTimeActionDisarm]
  split
  case h_1 => exact .next h0
  case h_2 he =>
    have hw := State.timeHead_wf he h0
    refine .next ?_
    split
    case h_1 => exact State.finish_wf _ _ _ _ _ _ _ hw
    case h_2 => exact wf_ite (State.finish_wf _ _ _ _ _ _ _ (State.disarm_wf _ _ hw)) (State.finish_wf _ _ _ _ _ _ _ hw)

theorem execTimeActionPps_wf (h0 : memoriesWf s = true) : KeepsWf (execTimeActionPps s) := by
  dsimp only [execTimeActionPps]
  split
  case h_1 => exact .next h0
  case h_2 he =>
    have hw := State.timeHead_wf he h0
    refine .next ?_
    split
    case h_1 => exact State.finish_wf _ _ _ _ _ _ _ hw
    case h_2 => exact wf_ite (State.finish_wf _ _ _ _ _ _ _ hw) (State.finish_wf _ _ _ _ _ _ _ (wf_update hw rfl rfl))

theorem execSeal_wf (r : Fin 4096) (h0 : memoriesWf s = true) : KeepsWf (execSeal r s) := by
  dsimp only [execSeal]
  split
  case h_1 => exact .next h0
  case h_2 =>
    refine .ite (.next h0) (.ite (.next (State.finish_wf _ _ _ _ _ _ _ h0)) ?_)
    split
    case h_1 => exact .next (State.finish_wf _ _ _ _ _ _ _ h0)
    case h_2 =>
      exact .next (wf_ite h0 (wf_ite (State.finish_wf _ _ _ _ _ _ _ h0) (State.finish_wf _ _ _ _ _ _ _
        (State.devWrite_wf _ _ _ h0))))

theorem execFence_wf (r : Fin 4096) (h0 : memoriesWf s = true) : KeepsWf (execFence r s) := by
  dsimp only [execFence]
  split
  case h_1 => exact .next (wf_ite (State.finish_wf _ _ _ _ _ _ _ h0) h0)
  case h_2 => exact .next h0

theorem execClaimRegion_wf (h0 : memoriesWf s = true) : KeepsWf (execClaimRegion s) := by
  dsimp only [execClaimRegion]
  split
  case h_1 => exact .next h0
  case h_2 he =>
    have hw := State.fwHead_wf he h0
    refine .ite (.next h0) (.next ?_)
    split
    case h_1 => exact State.finish_wf _ _ _ _ _ _ _ hw
    case h_2 => exact State.finish_wf _ _ _ _ _ _ _ hw
    case h_3 => exact State.finish_wf _ _ _ _ _ _ _ (State.setRegion_wf _ _ _ (State.gddrZero_wf _ _ _ hw))

theorem execClaimResource_wf (h0 : memoriesWf s = true) : KeepsWf (execClaimResource s) := by
  dsimp only [execClaimResource]
  split
  case h_1 => exact .next h0
  case h_2 he =>
    have hw := State.fwHead_wf he h0
    refine .ite (.next h0) (.ite (.next (State.finish_wf _ _ _ _ _ _ _ hw)) ?_)
    split
    case h_1 => exact .next (wf_ite (State.finish_wf _ _ _ _ _ _ _ hw) (State.finish_wf _ _ _ _ _ _ _ hw))
    case h_2 => exact .next (State.finish_wf _ _ _ _ _ _ _ (State.setHolder_wf _ _ _ _ hw))

theorem execReleaseResource_wf (h0 : memoriesWf s = true) : KeepsWf (execReleaseResource s) := by
  dsimp only [execReleaseResource]
  split
  case h_1 => exact .next h0
  case h_2 he =>
    have hw := State.fwHead_wf he h0
    refine .ite (.next h0) ?_
    refine .ite ?_ (.ite (.next (State.finish_wf _ _ _ _ _ _ _ (State.setHolder_wf _ _ _ _ (State.freeUnit_wf _ _ _ hw))))
      (.next (State.finish_wf _ _ _ _ _ _ _ hw)))
    split
    case h_1 => exact .next (State.finish_wf _ _ _ _ _ _ _ hw)
    case h_2 =>
      exact .next (wf_ite (State.finish_wf _ _ _ _ _ _ _ hw) (State.finish_wf _ _ _ _ _ _ _ (State.freeRegion_wf _ _ hw)))

theorem execReleaseImage_wf (h0 : memoriesWf s = true) : KeepsWf (execReleaseImage s) := by
  dsimp only [execReleaseImage]
  split
  case h_1 => exact .next h0
  case h_2 he =>
    have hw := State.fwHead_wf he h0
    refine .ite (.next h0) ?_
    refine .ite (.next (State.finish_wf _ _ _ _ _ _ _ hw)) ?_
    exact .next (wf_else (State.drainRelease_wf _ _) (State.setImage_wf _ _ _ (wf_fold _ _ _ (fun s x h =>
      State.endPending_wf _ _ _ _ h) (wf_update (State.enterTaken_wf _ hw) rfl rfl))))

theorem execReleaseAdmission_wf (h0 : memoriesWf s = true) : KeepsWf (execReleaseAdmission s) := by
  dsimp only [execReleaseAdmission]
  split
  case h_1 => exact .next h0
  case h_2 he =>
    have hw := State.fwHead_wf he h0
    refine .ite (.next h0) ?_
    refine .ite (.next (State.finish_wf _ _ _ _ _ _ _ (State.endAdmission_wf _ _ hw))) ?_
    exact .next (State.finish_wf _ _ _ _ _ _ _ hw)

theorem execCompletionWrite_wf (r : Fin 4096) (h0 : memoriesWf s = true) : KeepsWf (execCompletionWrite r s) := by
  dsimp only [execCompletionWrite]
  split
  case h_1 => exact .next h0
  case h_2 =>
    refine .ite (.next h0) (.next (wf_else (State.signal_wf _ _) (State.setRing_wf _ _ _ (State.hostWrite_wf _ _ _ ?_))))
    split
    case h_1 => exact h0
    case h_2 => exact State.clearAborted_wf _ _ h0

/-! ### Xomos and collectives -/

theorem execXomosPacketRx_wf (p : Fin 8) (k : XPkt) (h0 : memoriesWf s = true) : KeepsWf (execXomosPacketRx p k s) := by
  unfold execXomosPacketRx
  refine .ite (.next h0) ?_
  refine .ite (.next (State.sendNak_wf _ _ _ (wf_ite (State.setXport_wf _ _ _ h0) h0))) ?_
  exact .next (State.takePacket_wf _ _ _ (State.setXport_wf _ _ _ h0))

theorem execResendTimeout_wf (p : Fin 8) (cls : BitVec 4) (h0 : memoriesWf s = true) : KeepsWf (execResendTimeout p cls s) := by
  dsimp only [execResendTimeout]
  split
  case h_1 => exact .next h0
  case h_2 => exact .next (wf_ite (State.resend_wf _ _ _ _ h0) h0)

theorem execXomosTriggerPacket_wf (p : Fin 8) (m : BitVec 256) (hops : BitVec 6) (h0 : memoriesWf s = true) :
    KeepsWf (execXomosTriggerPacket p m hops s) := by
  dsimp only [execXomosTriggerPacket]
  split
  case h_1 => exact .next h0
  case h_2 =>
    refine .ite (.next h0) ?_
    refine .ite (.next (wf_update h0 rfl rfl)) ?_
    refine .ite (.next (wf_update h0 rfl rfl)) ?_
    refine .ite (.next (wf_update h0 rfl rfl)) ?_
    exact .next (wf_else (State.floodPacket_wf _ _ _) (State.deliverRemote_wf _ _ (wf_update h0 rfl rfl)))

theorem execTsyncRequestTimer_wf (h0 : memoriesWf s = true) : KeepsWf (execTsyncRequestTimer s) := by
  unfold execTsyncRequestTimer
  refine .ite (.next h0) ?_
  exact .next (wf_fold _ _ _ (fun s x h => State.sendBlock_wf _ _ _ _ (State.setXport_wf _ _ _ (State.takePhase_wf _ h)))
    (wf_update h0 rfl rfl))

theorem execTsync_wf (p : Fin 8) (m : TsyncMsg) (h0 : memoriesWf s = true) : KeepsWf (execTsync p m s) := by
  dsimp only [execTsync]
  refine .ite (.next h0) ?_
  split
  case h_1 =>
    exact .next (State.sendCalign_wf _ _ _ (State.sendBlock_wf _ _ _ _ (State.takePhase_wf _ (State.sendBlock_wf _ _ _ _ h0))))
  case h_2 => exact .next (State.setXport_wf _ _ _ h0)
  case h_3 => exact .next (State.syncDone_wf _ _ _ _ _ _ h0)
  case h_4 => exact .next h0

theorem execCalign_wf (p : Fin 8) (m : CalignMsg) (h0 : memoriesWf s = true) : KeepsWf (execCalign p m s) := by
  unfold execCalign
  refine .ite (.next h0) ?_
  refine .ite (.next (wf_then (State.armAlign_wf _ _ _ _) (State.frameOffset_wf _ _ _ h0))) ?_
  refine .ite (.next h0) ?_
  exact .next (wf_ite (State.armAlign_wf _ _ _ _ (wf_ite (State.floodCalign_wf _ _ _ h0) h0)) (wf_update (wf_ite
    (State.floodCalign_wf _ _ _ h0) h0) rfl rfl))

theorem execDisc_wf (p : Fin 8) (devid : BitVec 32) (port : BitVec 4) (version : BitVec 4) (h0 : memoriesWf s = true) :
    KeepsWf (execDisc p devid port version s) := by
  unfold execDisc
  refine .ite (.next h0) ?_
  exact .next (wf_ite (State.tryConfirm_wf _ (State.setXport_wf _ _ _ h0)) (wf_else (State.sendBlock_wf _ _ _ _)
    (State.setXport_wf _ _ _ h0)))

theorem execCoord_wf (p : Fin 8) (m : CoordMsg) (h0 : memoriesWf s = true) : KeepsWf (execCoord p m s) := by
  unfold execCoord
  refine .ite (.next h0) ?_
  refine .ite (.next (State.displaced_wf _ _ _ _ h0)) ?_
  refine .ite (.next (wf_ite (State.duplicate_wf _ _ h0) (State.joinSystem_wf _ _ _ (State.setXport_wf _ _ _ h0)))) ?_
  refine .ite (.next (State.newEpoch_wf _ _ _ (State.setXport_wf _ _ _ h0))) ?_
  refine .ite (.next (State.sendMap_wf _ _ (State.setXport_wf _ _ _ h0))) ?_
  exact .next (State.tryConfirm_wf _ (State.setXport_wf _ _ _ h0))

theorem execCollRequest_wf (h : BitVec 16) (peers : List CollPeer) (h0 : memoriesWf s = true) :
    KeepsWf (execCollRequest h peers s) := by
  unfold execCollRequest
  refine .ite (.next h0) ?_
  refine .ite (.next (State.collFatal_wf _ _ _ (State.lineFault_wf _ _ _ h0))) ?_
  exact .next (State.takeRequest_wf _ _ _ (State.collPoll_wf _ _ h0))

theorem execMemberLost_wf (rank : BitVec 15) (h0 : memoriesWf s = true) : KeepsWf (execMemberLost rank s) := by
  unfold execMemberLost
  refine .ite (.next h0) ?_
  exact .next (wf_fold _ _ _ (fun s x h => wf_ite h (State.collFatal_wf _ _ _ (State.takeFree_wf _
    (State.loseMember_wf _ _ _ h)))) (wf_update h0 rfl rfl))

theorem execCollReplay_wf (h : BitVec 16) (h0 : memoriesWf s = true) : KeepsWf (execCollReplay h s) := by
  unfold execCollReplay
  refine .ite (.next h0) (.next ?_)
  exact State.recoverWith_wf _ _ _ (fun t ht => State.replay_wf _ _ ht) (wf_else (State.interruptSheet_wf _ _)
    (State.faultRecord_wf _ _ (wf_update (State.takeFree_wf _ h0) rfl rfl)))

/-! ### Spares, power, the dandy and bring-up -/

theorem execSpareBistComplete_wf (c : ClusterId) (pass : Bool) (h0 : memoriesWf s = true) :
    KeepsWf (execSpareBistComplete c pass s) := by
  dsimp only [execSpareBistComplete]
  split
  case h_1 => exact .next h0
  case h_2 =>
    refine .ite (.next ?_) (.next ?_)
    · split
      case h_1 => exact State.faultRecord_wf _ _ (State.setCl_wf _ _ _ (State.setService_wf _ _ _ (wf_update h0 rfl rfl)))
      case h_2 =>
        exact wf_else (State.recover_wf _ _) (State.faultRecord_wf _ _ (State.setCl_wf _ _ _ (State.setService_wf _ _ _
          (wf_update h0 rfl rfl))))
    · split
      case h_1 => exact State.dropBist_wf _ _ (State.noteRepair_wf _ _ _ (State.faultRecord_wf _ _ (State.takeOut_wf _ _ _ h0)))
      case h_2 =>
        exact wf_else (State.recover_wf _ _) (State.dropBist_wf _ _ (State.noteRepair_wf _ _ _ (State.faultRecord_wf _ _
          (State.takeOut_wf _ _ _ h0))))

theorem execFuseBurn_wf (h0 : memoriesWf s = true) : KeepsWf (execFuseBurn s) := by
  dsimp only [execFuseBurn]
  split
  case h_1 => exact .next h0
  case h_2 => exact .ite (.next (wf_update h0 rfl rfl)) (.next (wf_update h0 rfl rfl))

theorem execClusterMove_wf (c : ClusterId) (h0 : memoriesWf s = true) : KeepsWf (execClusterMove c s) := by
  unfold execClusterMove
  refine .ite (.next h0) ?_
  refine .ite (.next (State.fenceUnowned_wf _ _ _ (wf_update h0 rfl rfl))) ?_
  exact .ite (.next (State.moveCluster_wf _ _ _ h0)) (.next h0)

theorem execThrottleUpdate_wf (watts : BitVec 12) (below : Bool) (temps : Vector (BitVec 8) 25) (h0 : memoriesWf s = true) :
    KeepsWf (execThrottleUpdate watts below temps s) := by
  unfold execThrottleUpdate
  refine .ite (.next h0) ?_
  exact .next (State.postCapUnmet_wf _ (State.postThrottle_wf _ (State.reportTemps_wf _ _ (wf_update h0 rfl rfl))))

theorem execThermalEmergencyStart_wf (die : Fin 25) (tj : BitVec 8) (h0 : memoriesWf s = true) :
    KeepsWf (execThermalEmergencyStart die tj s) := by
  unfold execThermalEmergencyStart
  refine .ite (.next h0) ?_
  exact .next (State.thermalEvent_wf _ _ _ _ (wf_else (wf_fold _ _ _ (fun s x h => State.haltPipe_wf _ _ _ h)) (wf_update
    (State.readTemps_wf _ _ h0) rfl rfl)))

theorem execThermalEmergencyEnd_wf (temps : List (Fin 25 × BitVec 8)) (h0 : memoriesWf s = true) :
    KeepsWf (execThermalEmergencyEnd temps s) := by
  unfold execThermalEmergencyEnd
  refine .ite (.next h0) ?_
  exact .next (wf_fold _ _ _ (fun s x h => State.thermalEvent_wf _ _ _ _ h) (wf_update (State.readTemps_wf _ _ h0) rfl rfl))

theorem execDandyFrame_wf (f : StockFrame) (h0 : memoriesWf s = true) : KeepsWf (execDandyFrame f s) := by
  dsimp only [execDandyFrame]
  refine .ite (.next h0) ?_
  split
  case h_1 => exact .next (wf_then (State.endWindow_wf _) (wf_update (State.setCl_wf _ _ _ h0) rfl rfl))
  case h_2 => exact .next (State.endWindow_wf _ (wf_update h0 rfl rfl))

theorem execDandyDecision_wf (h0 : memoriesWf s = true) : KeepsWf (execDandyDecision s) := by
  dsimp only [execDandyDecision]
  refine .ite (.next h0) ?_
  split
  case h_1 =>
    refine .ite (.next (wf_update (State.setCl_wf _ _ _ h0) rfl rfl)) ?_
    exact .next (wf_then (State.dandyHit_wf _) (wf_update (State.setCl_wf _ _ _ h0) rfl rfl))
  case h_2 => exact .next (wf_update (State.setCl_wf _ _ _ h0) rfl rfl)

theorem execGpioPulse_wf (n : Fin 16) (h0 : memoriesWf s = true) : KeepsWf (execGpioPulse n s) := by
  dsimp only [execGpioPulse]
  split
  case h_1 => exact .next h0
  case h_2 =>
    refine .ite (.next (State.setGpio_wf _ _ _ h0)) ?_
    exact .ite (.next (State.setGpio_wf _ _ _ h0)) (.next (State.emit_wf _ _ (State.setGpio_wf _ _ _ h0)))

theorem execResetAssert_wf (h0 : memoriesWf s = true) : KeepsWf (execResetAssert s) := by
  unfold execResetAssert
  exact .next (wf_ite h0 (wf_ite (State.afterReset_wf _ _ _ (wf_update h0 rfl rfl)) (State.afterReset_wf _ _ _ h0)))

theorem execRootFwReport_wf (ms : BitVec 16) (h0 : memoriesWf s = true) : KeepsWf (execRootFwReport ms s) := by
  unfold execRootFwReport
  refine .ite (.next h0) ?_
  exact .next (State.enableGroup_wf _ _ (State.enableGroup_wf _ _ (wf_update (wf_fold _ _ _ (fun s x h =>
    State.fuseCore_wf _ _ h) h0) rfl rfl)))

theorem execEdgeReport_wf (e : Fin 4) (bistFail : BitVec 12) (h0 : memoriesWf s = true) :
    KeepsWf (execEdgeReport e bistFail s) := by
  unfold execEdgeReport
  refine .ite (.next h0) ?_
  exact .next (wf_then (State.edgesUp_wf _) (wf_update (wf_fold _ _ _ (fun s x h => State.enableGroup_wf _ _ h)
    (State.setQuarter_wf _ _ _ (wf_ite h0 (State.testQuarter_wf _ _ _ h0)))) rfl rfl))

theorem execComputeBistDone_wf (k : Fin 20) (fail : BitVec 44) (pllFail : Fin 3) (h0 : memoriesWf s = true) :
    KeepsWf (execComputeBistDone k fail pllFail s) := by
  unfold execComputeBistDone
  refine .ite (.next h0) ?_
  exact .next (State.dieDone_wf _ _ _ (wf_fold _ _ _ (fun s x h => State.setCl_wf _ _ _ h) (wf_ite (wf_fold _ _ _ (fun s x h =>
    State.fenceAtStart_wf _ _ _ h) (State.fenceFused_wf _ _ (State.startPlls_wf _ _ _ h0))) (wf_fold _ _ _ (fun s x h =>
    State.fenceAtStart_wf _ _ _ h) (State.fenceFused_wf _ _ (State.startPlls_wf _ _ _ h0))))))

theorem execDeviceReady_wf (ms : BitVec 16) (h0 : memoriesWf s = true) : KeepsWf (execDeviceReady ms s) := by
  unfold execDeviceReady
  refine .ite (.next h0) ?_
  exact .next (wf_update (wf_fold _ _ _ (fun s x h => State.bell_wf _ _ _ _ h) (State.copyRetained_wf _ (State.blowFuses_wf _
    (wf_update h0 rfl rfl)))) rfl rfl)

theorem execMcPllLoss_wf (e : Fin 4) (h0 : memoriesWf s = true) : KeepsWf (execMcPllLoss e s) := by
  unfold execMcPllLoss
  exact .next (wf_fold _ _ _ (fun s x h => wf_ite (State.moveGroup_wf _ _ _ _ h) h) (wf_ite h0 (State.noteRepair_wf _ _ _
    (State.withdraw_wf _ _ _ _ h0))))

theorem execServiceCoreError_wf (core : Fin 3) (corrected : Bool) (h0 : memoriesWf s = true) :
    KeepsWf (execServiceCoreError core corrected s) := by
  unfold execServiceCoreError
  refine .ite (.next (wf_ite (wf_ite (State.takeOver_wf _ _ _ (State.addBucket_wf _ _ _ _ h0)) (State.spareLow_wf _ _ _ _ _
    (State.addBucket_wf _ _ _ _ h0))) (State.addBucket_wf _ _ _ _ h0))) ?_
  refine .ite (.next (State.takeOver_wf _ _ _ h0)) ?_
  refine .ite (.next (State.noteRepair_wf _ _ _ (State.faultRecord_wf _ _ (State.setCore_wf _ _ _ h0)))) ?_
  exact .next h0

theorem execInvalidHeader_wf (g : Fin 26) (l : Fin 18) (u : LaneUnit) (h0 : memoriesWf s = true) :
    KeepsWf (execInvalidHeader g l u s) := by
  dsimp only [execInvalidHeader]
  refine .ite (.next h0) ?_
  split
  case h_1 => exact .next (wf_ite h0 (State.laneErrors_wf _ _ _ _ (State.setGroup_wf _ _ _ (State.unheard_wf _ _ h0))))
  case h_2 => exact .next (wf_ite h0 (wf_else (State.setGroup_wf _ _ _) (State.unheard_wf _ _ h0)))
  case h_3 =>
    exact .next (wf_ite h0 (State.laneErrors_wf _ _ _ _ (State.setGroup_wf _ _ _ (wf_ite h0 (State.unheard_wf _ _ h0)))))

theorem execDandyLoad_wf (h0 : memoriesWf s = true) : KeepsWf (execDandyLoad s) := by
  dsimp only [execDandyLoad]
  refine .ite (.next h0) ?_
  split
  case h_1 => exact .next (State.loadDandy_wf _ _ h0)
  case h_2 => exact .next (wf_update h0 rfl rfl)

theorem execBar0BadRead_wf (h0 : memoriesWf s = true) : KeepsWf (execBar0BadRead s) := by
  unfold execBar0BadRead
  refine .ite (.next h0) ?_
  refine .ite (.next (State.emit_wf _ _ h0)) ?_
  exact .next (State.emit_wf _ _ (State.aerError_wf _ _ (State.modPcx_wf _ _ h0)))

theorem execSupplyWithinLimits_wf (rail : Fin 4) (h0 : memoriesWf s = true) : KeepsWf (execSupplyWithinLimits rail s) := by
  dsimp only [execSupplyWithinLimits]
  refine .next ?_
  split
  case h_1 => exact wf_ite h0 (wf_update h0 rfl rfl)
  case h_2 => exact wf_ite (wf_update h0 rfl rfl) h0
  case h_3 => exact wf_ite (State.leaveWatch_wf _ h0) h0
  case h_4 => exact h0

/-! ### Every command and every step -/

theorem exec_wf (i : Instr) (h0 : memoriesWf s = true) : KeepsWf (exec i s) := by
  cases i with
  | linkHop => exact .next (wf_ite (State.hop_wf _ _ h0) h0)
  | mulOp | mac | macr | accRd | accClr | fma | addOp | subOp | maxOp | minOp | scale | reduceAdd | reduceMax | andOp | orOp |
      xorOp | shift | cmp | selectOp | cvt | expOp | logOp | rcp | rsqrt | tanh | sigm | pwl | ld | st | mov | ldi | tblLd |
      farRd | farWr | flagInc | waitFlag | cntSet | cntStep | rng =>
      exact .next (State.fireOp_wf _ _ _ _ _ _ h0)
  | readoutEntryEmit => exact .next (wf_ite (State.setCl_wf _ _ _ h0) h0)
  | quant | dequant => exact .next (State.fireSiz_wf _ _ _ _ _ _ h0)
  | statsAccumulate | statsEmit | statsDerive | statsClear | tokenGenerate | tokenRelay | tokenTest =>
      exact .next (State.fireForm_wf _ _ _ _ _ _ _ h0)
  | farRequestEntry => exact .next (wf_ite (State.farRequest_wf _ _ _ h0) h0)
  | farReadLineComplete | farWriteLineComplete => exact .next (State.farComplete_wf _ _ _ _ h0)
  | switchOp | mergeOp | repeatOp | dropOp => exact .next (State.fireSteer_wf _ _ _ _ _ h0)
  | tokenZeroLeave => exact execTokenZeroLeave_wf _ _ h0
  | chestSpillBegin => exact execChestSpillBegin_wf _ _ _ h0
  | chestRefill => exact execChestRefill_wf _ _ _ h0
  | watchdogExpiry => exact .ite (.next h0) (.next (State.stall_wf _ _ _ h0))
  | sheetEnd => exact .ite (.next (State.requestDrain_wf _ _ h0)) (.next h0)
  | partialPackEmit => exact .ite (.next (wf_fold _ _ _ (fun s x h => State.setCl_wf _ _ _ h) h0)) (.next h0)
  | tokenOverrun => exact execTokenOverrun_wf _ h0
  | clusterDrained => exact .ite (.next (State.drainedCheck_wf _ _ (State.setCl_wf _ _ _ h0))) (.next h0)
  | clcDrain => exact execClcDrain_wf _ h0
  | clcAbort => exact execClcAbort_wf _ h0
  | configFetch => exact execConfigFetch_wf _ h0
  | configEntryDelivery => exact execConfigEntryDelivery_wf _ h0
  | sheetRestore => exact execSheetRestore_wf _ h0
  | bridgeWireFailure => exact .next (State.replaceWire_wf _ _ _ _ _ _ h0)
  | bridgeSubstitution => exact execBridgeSubstitution_wf _ _ h0
  | flitRetransmit => exact execFlitRetransmit_wf _ _ _ _ h0
  | pllLockLoss => exact execPllLockLoss_wf _ h0
  | pllSwitchComplete => exact execPllSwitchComplete_wf _ h0
  | loadImage => exact execLoadImage_wf h0
  | gddr6Burst => exact execGddr6Burst_wf _ _ _ _ h0
  | eccLineFetch => exact execEccLineFetch_wf _ _ _ h0
  | edcRetry => exact execEdcRetry_wf _ _ _ h0
  | gddr6Refresh => exact .ite (.next (State.setQuarter_wf _ _ _ h0)) (.next h0)
  | patrolRead => exact execPatrolRead_wf _ _ _ _ h0
  | deviceCopyStart => exact execDeviceCopyStart_wf _ _ h0
  | deviceCopyGroup => exact execDeviceCopyGroup_wf _ _ _ h0
  | deviceSwitch => exact .ite (.next h0) (.next (State.noteRepair_wf _ _ _ (State.setQuarter_wf _ _ _ h0)))
  | deviceLost => exact execDeviceLost_wf _ _ h0
  | spareInitComplete => exact .ite (.next h0) (.next (State.renewContexts_wf _ _ (State.setQuarter_wf _ _ _ h0)))
  | lnpEnable => exact .ite (.next h0) (.ite (.next (State.setGroup_wf _ _ _ h0)) (.next (State.toDetect_wf _ _ _ h0)))
  | lnpDisable => exact .next (wf_ite h0 (wf_then (State.setPartner_wf _ _ _) (State.moveGroup_wf _ _ _ _ h0)))
  | lnpRetrain => exact .next (wf_ite (State.toDetect_wf _ _ _ h0) h0)
  | lnpEidleEnter | lnpEidleExit => exact .next (wf_ite h0 (State.setGroup_wf _ _ _ h0))
  | losAssert => exact .ite (.next h0) (.next (wf_then (State.toDetect_wf _ _ _) (State.setGroup_wf _ _ _ h0)))
  | losDeassert | characterLock =>
      exact .ite (.next h0) (.next (wf_ite (State.trainTo_wf _ _ _ h0) (State.setGroup_wf _ _ _ h0)))
  | characterLockLoss => exact execCharacterLockLoss_wf _ _ _ h0
  | baseAcqTimeout => exact execBaseAcqTimeout_wf _ h0
  | caps | offer => exact .ite (.next (State.unheard_wf _ _ h0)) (.next (State.trainTo_wf _ _ _ h0))
  | step => exact .next (wf_ite (State.trainTo_wf _ _ _ h0) (State.unheard_wf _ _ h0))
  | rateSwitchTimeout | trainingTimeout => exact .next (wf_ite (State.trainTo_wf _ _ _ h0) h0)
  | blockLock => exact .ite (.next h0) (.next (State.trainTo_wf _ _ _ h0))
  | blockLockLoss => exact execBlockLockLoss_wf _ _ _ h0
  | align => exact execAlign_wf _ _ _ _ h0
  | eqSweepComplete => exact .ite (.next h0) (.next (State.trainOn_wf _ _ _ (State.sweepPeak_wf _ _ h0)))
  | ready => exact .ite (.next h0) (.next (State.trainOn_wf _ _ _ h0))
  | spareRequest => exact execSpareRequest_wf _ _ _ h0
  | spareAcknowledge =>
      exact .ite (.next h0) (.next (State.setGroup_wf _ _ _ (State.unheard_wf _ _ (State.sweepPeak_wf _ _ h0))))
  | spareAbandon => exact execSpareAbandon_wf _ _ _ h0
  | spareSwitch => exact execSpareSwitch_wf _ h0
  | eidle => exact .next (wf_ite h0 (wf_ite (State.setGroup_wf _ _ _ (State.unheard_wf _ _ h0)) (State.trainTo_wf _ _ _ h0)))
  | burst => exact execBurst_wf _ _ h0
  | servoMeasurement => exact execServoMeasurement_wf _ _ h0
  | announceTimeout | tbsLock => exact .ite (.next h0) (.next (wf_update h0 rfl rfl))
  | ppsInTimeout => exact .next (wf_ite h0 (State.loseSource_wf _ _ h0))
  | ptpFrameRx => exact execPtpFrameRx_wf _ _ h0
  | ptpFrameTx => exact .ite (.next h0) (.next (State.emit_wf _ _ (wf_update h0 rfl rfl)))
  | ppsInEdge => exact execPpsInEdge_wf _ _ h0
  | ppsOutPulse => exact execPpsOutPulse_wf _ h0
  | timedStartFire => exact .next (wf_ite (State.fireUnit_wf _ _ h0) h0)
  | tbsLatch => exact .next (wf_ite h0 (State.latch_wf _ h0))
  | hello => exact execHello_wf _ _ _ _ h0
  | sjoin => exact execSjoin_wf _ _ _ _ _ h0
  | sleave => exact execSleave_wf _ _ _ h0
  | bye => exact execBye_wf _ _ h0
  | suspendTimeout => exact .next (wf_ite (State.leave_wf _ _ h0) h0)
  | stockFrame => exact execStockFrame_wf _ _ h0
  | admitPipe => exact execAdmitPipe_wf h0
  | triggerBlockDelivery => exact execTriggerBlockDelivery_wf _ _ _ h0
  | ingressPlacement => exact execIngressPlacement_wf _ _ _ h0
  | decisionJudge => exact execDecisionJudge_wf _ _ h0
  | triggerMessageSend => exact execTriggerMessageSend_wf _ h0
  | pipelineRestart => exact execPipelineRestart_wf _ h0
  | trigOutPulse => exact execTrigOutPulse_wf _ h0
  | trigInEdge => exact execTrigInEdge_wf _ _ _ h0
  | trpDetWrite => exact .next (wf_ite h0 (State.writeDet_wf _ _ _ _ h0))
  | trigLineWrite => exact .next (wf_ite h0 (State.writeLine_wf _ _ _ _ h0))
  | headboxTriggerMessage => exact execHeadboxTriggerMessage_wf _ h0
  | recordComplete => exact .next (wf_ite h0 (State.setStream_wf _ _ _ h0))
  | recordHandoff => exact .next (State.handOff_wf _ _ h0)
  | recordLost => exact execRecordLost_wf _ h0
  | bufferReallocate => exact execBufferReallocate_wf _ h0
  | vatRun | vatLoad | vatStore | vatClear => exact .next (State.enterSweep_wf _ _ h0)
  | vatArm => exact execVatArm_wf h0
  | sweepStart => exact execSweepStart_wf h0
  | contextFetch => exact execContextFetch_wf _ h0
  | batchDelivery => exact execBatchDelivery_wf _ h0
  | contextCommit => exact execContextCommit_wf _ _ h0
  | cacheWriteback => exact execCacheWriteback_wf _ h0
  | sweepComplete => exact .ite (.next h0) (.next (wf_then (State.drainRelease_wf _ _) (State.completeSweep_wf _ h0)))
  | pcieLinkUp => exact .ite (.next h0) (.next (wf_then (State.postEvent_wf _ _ _ _ _) (State.modPcx_wf _ _ h0)))
  | registerWrite => exact execRegisterWrite_wf _ _ _ h0
  | doorbellSqTail | doorbellCqHead | doorbellEvtHead | doorbellReamHead => exact .next (State.doorbell_wf _ _ _ _ h0)
  | bar2BadWrite => exact .next (wf_ite (State.aerError_wf _ _ (State.modPcx_wf _ _ h0)) h0)
  | bar4Read => exact execBar4Read_wf _ _ h0
  | bar4Write => exact execBar4Write_wf _ _ _ h0
  | msixUnmask => exact .next (wf_ite (State.setMask_wf _ _ _ h0) h0)
  | completionTimeout => exact .next (wf_ite (State.copyError_wf _ _ _ _ (State.aerError_wf _ _ h0)) h0)
  | doeRequest => exact execDoeRequest_wf _ h0
  | doeAbort => exact .next (wf_ite (State.doeAbort_wf _ h0) h0)
  | getVersion | getCapabilities | negotiateAlgorithms | getDigests | getCertificate | challenge | getMeasurements =>
      exact .next (State.spdmTake_wf _ _ _ h0)
  | perst => exact execPerst_wf _ h0
  | hotReset => exact .next (wf_ite h0 (State.modPcx_wf _ _ (State.functionReset_wf _ h0)))
  | functionLevelReset => exact .next (wf_ite (State.modPcx_wf _ _ (State.functionReset_wf _ h0)) h0)
  | d3hotEntry => exact .next (wf_ite (State.setD3_wf _ _ h0) h0)
  | ringEnable | ringDisable => exact .next (wf_ite (State.writeRingCfg_wf _ _ _ h0) h0)
  | ringDrained => exact .next (wf_ite (State.setRing_wf _ _ _ h0) h0)
  | eventRingEnable => exact .next (wf_ite (State.writeEvtCfg_wf _ _ h0) h0)
  | reamRingEnable => exact .next (wf_ite (State.setReamRing_wf _ _ h0) h0)
  | descriptorTake => exact execDescriptorTake_wf _ h0
  | runSheet => exact execRunSheet_wf h0
  | drainSheet => exact execDrainSheet_wf h0
  | dmaCopy => exact execDmaCopy_wf _ h0
  | dmaCopyComplete => exact .ite (.next h0) (.next (State.finish_wf _ _ _ _ _ _ _ (State.setChan_wf _ _ _ h0)))
  | pacedCopy => exact execPacedCopy_wf _ h0
  | pacedPoll => exact execPacedPoll_wf _ h0
  | timeActionArm => exact execTimeActionArm_wf h0
  | timeActionDisarm => exact execTimeActionDisarm_wf h0
  | timeActionPps => exact execTimeActionPps_wf h0
  | fence => exact execFence_wf _ h0
  | claimRegion => exact execClaimRegion_wf h0
  | claimResource => exact execClaimResource_wf h0
  | releaseResource => exact execReleaseResource_wf h0
  | releaseImage => exact execReleaseImage_wf h0
  | releaseAdmission => exact execReleaseAdmission_wf h0
  | completionWrite => exact execCompletionWrite_wf _ h0
  | xomosPacketRx => exact execXomosPacketRx_wf _ _ h0
  | xomosAck => exact .ite (.next h0) (.next (State.refill_wf _ _ _ _ (State.setXport_wf _ _ _ h0)))
  | xomosNak => exact .next (wf_ite (State.resend_wf _ _ _ _ h0) h0)
  | ackTimer => exact .next (wf_ite (State.sendBlock_wf _ _ _ _ (State.setXport_wf _ _ _ h0)) h0)
  | resendTimeout => exact execResendTimeout_wf _ _ h0
  | ackProgressTimeout => exact .next (wf_ite (State.failPort_wf _ _ _ h0) h0)
  | linkBlock => exact .ite (.next h0) (.next (State.floodBlock_wf _ _ _ _ (wf_update h0 rfl rfl)))
  | routeInstall => exact .ite (.next h0) (.next (State.postEvent_wf _ _ _ _ _ (State.reroute_wf _ (wf_update h0 rfl rfl))))
  | xomosTriggerPacket => exact execXomosTriggerPacket_wf _ _ _ h0
  | tsyncRequestTimer => exact execTsyncRequestTimer_wf h0
  | tsync => exact execTsync_wf _ _ h0
  | calign => exact execCalign_wf _ _ h0
  | disc => exact execDisc_wf _ _ _ _ h0
  | coord => exact execCoord_wf _ _ h0
  | confirm => exact .next (wf_ite (State.tryConfirm_wf _ (State.setXport_wf _ _ _ h0)) h0)
  | go => exact .next (wf_ite (State.confirmedWith_wf _ _ (State.floodBlock_wf _ _ _ _ h0)) h0)
  | xmsStart => exact .next (wf_ite h0 (State.writeSysCfg_wf _ _ h0))
  | xmsLock | pcieOutOfReset => exact .next (wf_ite h0 (wf_update h0 rfl rfl))
  | originFlood => exact .ite (.next h0) (.next (State.tryConfirm_wf _ (State.floodBlock_wf _ _ _ _ (wf_update h0 rfl rfl))))
  | systemReady => exact .ite (.next h0) (.next (State.postEvent_wf _ _ _ _ _ (wf_update h0 rfl rfl)))
  | collRequest => exact execCollRequest_wf _ _ h0
  | collTimeout => exact .ite (.next h0) (.next (State.endRequest_wf _ _ _ _ _ (State.takeFree_wf _ h0)))
  | memberLost => exact execMemberLost_wf _ h0
  | collReplay => exact execCollReplay_wf _ h0
  | bucketLeak => exact .next (wf_update h0 rfl rfl)
  | clusterFence => exact .next (wf_ite h0 (State.fence_wf _ _ _ _ h0))
  | spareBistComplete => exact execSpareBistComplete_wf _ _ h0
  | fuseBurn => exact execFuseBurn_wf h0
  | clusterMove => exact execClusterMove_wf _ h0
  | checkpoint => exact .ite (.next (wf_update h0 rfl rfl)) (.next h0)
  | coreWatchdog => exact .next (wf_ite (State.takeOver_wf _ _ _ h0) h0)
  | deviceFatal => exact .ite (.next h0) (.next (State.deviceFatal_wf _ _ _ _ (State.takeFree_wf _ h0)))
  | trimEnter | trimExit => exact .next (wf_ite (State.writeTrim_wf _ _ h0) h0)
  | pwrCapWrite => exact .next (wf_ite (State.writeCap_wf _ _ h0) h0)
  | throttleUpdate => exact execThrottleUpdate_wf _ _ _ h0
  | thermalEmergencyStart => exact execThermalEmergencyStart_wf _ _ h0
  | thermalEmergencyEnd => exact execThermalEmergencyEnd_wf _ h0
  | thermtrip => exact .next (wf_ite h0 (State.emit_wf _ _ (State.off_wf _ h0)))
  | watch => exact .next (wf_ite (State.requestWatch_wf _ h0) h0)
  | dandyWindowStart => exact .ite (.next h0) (.next (wf_update (wf_ite (State.startDandy_wf _ h0) h0) rfl rfl))
  | dandyFrame => exact execDandyFrame_wf _ h0
  | dandyDecision => exact execDandyDecision_wf h0
  | wake | smbusWake => exact .next (wf_ite (State.wakeBy_wf _ _ h0) h0)
  | gpioWrite => exact .next (wf_ite (State.writeGpio_wf _ _ _ h0) h0)
  | gpioPulse => exact execGpioPulse_wf _ h0
  | updateGo => exact .next (wf_ite (State.updateGo_wf _ h0) h0)
  | identity => exact .next (wf_ite h0 (State.emit_wf _ _ h0))
  | cert | deadReport | reamRead => exact .next (wf_ite (State.emit_wf _ _ h0) h0)
  | resetRelease => exact .next (wf_ite (State.romStage_wf _ (wf_update h0 rfl rfl)) h0)
  | resetAssert => exact execResetAssert_wf h0
  | pwrgoodFall => exact .next (State.off_wf _ h0)
  | rootFwReport => exact execRootFwReport_wf _ h0
  | rootFwTimeout | edgeTimeout => exact .next (wf_ite (State.enterDead_wf _ _ _ _ h0) h0)
  | edgeReport => exact execEdgeReport_wf _ _ h0
  | computeBistDone => exact execComputeBistDone_wf _ _ _ h0
  | computeTimeout =>
      exact .next (wf_ite (State.dieDone_wf _ _ _ (wf_fold _ _ _ (fun s x h => State.fenceAtStart_wf _ _ _ h) h0)) h0)
  | deviceReady => exact execDeviceReady_wf _ h0
  | softwareReset => exact .next (wf_ite (State.writeSwrst_wf _ _ h0) h0)
  | mcPllLoss => exact execMcPllLoss_wf _ h0
  | correctedSramError => exact .next (wf_then (State.requestMove_wf _ _) (State.addBucket_wf _ _ _ _ h0))
  | serviceCoreError => exact execServiceCoreError_wf _ _ h0
  | invalidHeader => exact execInvalidHeader_wf _ _ _ h0
  | d0Entry => exact .next (wf_ite (wf_fold _ _ _ (fun s x h => State.sendPending_wf _ _ h) (State.setD3_wf _ _ h0)) h0)
  | dandyLoad => exact execDandyLoad_wf h0
  | tbsCtrlWrite => exact .next (wf_ite h0 (State.writeTbs_wf _ _ h0))
  | wcntLoRead =>
      exact .ite (.next h0) (.ite (.next (State.emit_wf _ _ h0)) (.next (State.emit_wf _ _ (wf_update h0 rfl rfl))))
  | bar0BadRead => exact execBar0BadRead_wf h0
  | supplyWithinLimits => exact execSupplyWithinLimits_wf _ h0
  -- SEAL, the one command left: its name is a keyword of Lean and cannot stand in this table.
  | _ => exact execSeal_wf _ h0

theorem tick_wf (h0 : memoriesWf s = true) : memoriesWf (tick s) = true :=
  wf_ite h0 (wf_ite (State.watchTick_wf _ h0) (State.updateTick_wf _ (State.laneTick_wf _ (State.frameTick_wf _
    (State.deckleTick_wf _ (wf_update h0 rfl rfl))))))

theorem step_wf (h0 : memoriesWf s = true) : KeepsWf (step s) := by
  unfold step
  split
  case h_1 => exact .next (tick_wf h0)
  case h_2 i _ _ => exact exec_wf i (wf_update h0 rfl rfl)

end Commands
end Sys2Proof.Machine

namespace Sys2Proof.Proofs
open Sys2Proof.Machine

/-- Settles O4: the command at the front of the queue, or the cycle of the time base, keeps the memories canonical. -/
theorem memoriesStayCanonical : Obligations.MemoriesStayCanonical := by
  unfold Obligations.MemoriesStayCanonical
  intro s t h0 hstep
  exact (step_wf h0).wf_of_eq hstep

end Sys2Proof.Proofs
end

section
/-!
PROOFS. Zeroed lines of GDDR6 (R249, R510): the marks of the lines, what stays, and obligation O56.
-/
namespace Sys2Proof.Machine

@[simp] theorem State.asks_bad (s : State) (cls : Nat) (write : Bool) (a n : Nat) :
    (s.asks cls write a n).gddr.bad = s.gddr.bad := by
  unfold State.asks
  split <;> rfl

theorem State.asks_frame (s : State) (cls : Nat) (write : Bool) (a n : Nat) :
    ∃ reqs, s.asks cls write a n = { s with gddr := { s.gddr with reqs := reqs } } := by
  unfold State.asks
  split
  · exact ⟨s.gddr.reqs, rfl⟩
  · exact ⟨_, rfl⟩

theorem State.gddrClear_bad (s : State) (line n l : Nat) :
    SMap.get false (s.gddrClear line n).gddr.bad l =
      (SMap.get false s.gddr.bad l && !(decide (line ≤ l) && decide (l < line + n))) := by
  have hkept : (decide (l < line) || decide (line + n ≤ l)) = !(decide (line ≤ l) && decide (l < line + n)) := by
    rw [Bool.eq_iff_iff]
    simp
  unfold State.gddrClear
  rw [SMap.get_filter_key false s.gddr.bad fun k => decide (k < line) || decide (line + n ≤ k), hkept]
  cases decide (line ≤ l) && decide (l < line + n) <;> simp

theorem State.gddrZero_bad (s : State) (line n l : Nat) :
    SMap.get false (s.gddrZero line n).gddr.bad l =
      (SMap.get false s.gddr.bad l && !(decide (line ≤ l) && decide (l < line + n))) := by
  rw [State.gddrZero, State.asks_bad, State.gddrClear_bad]

theorem State.gddrZero_frame (s : State) (line n : Nat) :
    { s.gddrZero line n with
      gddr := { (s.gddrZero line n).gddr with bytes := s.gddr.bytes, bad := s.gddr.bad, reqs := s.gddr.reqs } } = s := by
  obtain ⟨reqs, hasks⟩ := (s.gddrClear line n).asks_frame classDma true (64 * line) (64 * n)
  rw [State.gddrZero, hasks]
  rfl

end Sys2Proof.Machine

namespace Sys2Proof.Proofs
open Sys2Proof.Machine

/-- Settles O56, a clause each from what the zeroed range reads as, its marks, its frame and its canonical form. -/
theorem zeroedRangesReadZero : Obligations.ZeroedRangesReadZero := by
  unfold Obligations.ZeroedRangesReadZero
  intro s line n
  refine ⟨?inside, ?outside, s.gddrZero_bad line n, s.gddrZero_frame line n, s.gddrZero_wf line n⟩
  case inside =>
    intro a hlow hhigh
    rw [State.gddrZero_read, if_pos ⟨hlow, hhigh⟩]
  case outside =>
    intro a hout
    rw [State.gddrZero_read, if_neg (by omega)]

end Sys2Proof.Proofs
end

section
/-!
PROOFS. Bursts of GDDR6 (R240, R245–R247), ECC lines, retries, refresh and the patrol (R257–R267): each command by the cases in which it
acts and in which the slot stays unused; and obligation O21.
-/
namespace Sys2Proof.Machine

/-! ### GDDR6_BURST -/

/-- The state in which a burst looks for its request: the far requests of the channel have entered its crossing (log entry 34). -/
def State.burstState (s : State) (cls line : Nat) : State :=
  if cls = classFar then s.sendFar (lineQuarter line) (lineChannel line) (crossDepth classFar) else s

theorem State.lineDone_eq (s : State) (t : Target) (cls line errs : Nat) (write : Bool) :
    s.lineDone t cls line errs write =
      if t = .ecc then s.oweEcc cls line false
      else if write = false then ((s.lineRead line errs).serve t cls false line).tellRead t cls line (s.lineBad line || decide (errs < 2))
      else (((s.eccWrite cls line).serve t cls true line).noteWhole cls line (s.inWhole cls line || s.wholeGroup cls line)).oweEcc
        cls line true := by
  unfold State.lineDone
  by_cases hecc : t = .ecc
  · subst hecc
    rfl
  · cases write <;> simp [hecc]

section Burst
variable {s u : State} {slot : Fin 1024} {cls : Fin 16} {line : Nat} {high : Bool} (errs : Fin 4) (hu : u = s.burstState cls line)
include hu

theorem exec_gddr6Burst_of_none (hready : u.ready cls (s.slotWrites slot) line = none) :
    exec (.gddr6Burst slot cls ⟨line, high⟩ errs) s = .next u := by
  subst hu
  change execGddr6Burst slot cls ⟨line, high⟩ errs s = _
  unfold State.burstState at hready
  simp only [execGddr6Burst, hready]
  rfl

theorem exec_gddr6Burst_of_some {t : Target} (hready : u.ready cls (s.slotWrites slot) line = some t) :
    exec (.gddr6Burst slot cls ⟨line, high⟩ errs) s =
      let b := t.burst cls (s.slotWrites slot) line high
      if !u.slotServes slot cls line || !u.halfDue b || (s.slotWrites slot && t != .ecc && !u.eccReady cls line) then .next u
      else .next (if high then ((u.clearRepeats b).noteHalf b).lineDone t cls line errs (s.slotWrites slot)
        else (u.clearRepeats b).noteHalf b) := by
  subst hu
  change execGddr6Burst slot cls ⟨line, high⟩ errs s = _
  unfold State.burstState at hready
  simp only [execGddr6Burst, hready]
  rfl

theorem exec_gddr6Burst_unused (h : u.ready cls (s.slotWrites slot) line = none ∨ u.slotServes slot cls line = false) :
    exec (.gddr6Burst slot cls ⟨line, high⟩ errs) s = .next u := by
  rcases hready : u.ready cls (s.slotWrites slot) line with _ | t
  · exact exec_gddr6Burst_of_none errs hu hready
  · have hslot := h.resolve_left (by simp [hready])
    simp [exec_gddr6Burst_of_some errs hu hready, hslot]

section Ready
variable {t : Target} {b : Beat} {w : Bool} (hw : w = s.slotWrites slot) (hready : u.ready cls w line = some t)
  (hb : b = if t = .ecc then burstOf (16 + cls) w (groupStart line) high else burstOf cls w line high)
include hw hready hb

theorem exec_gddr6Burst_waits (h : u.halfDue b = false ∨ (w = true ∧ t ≠ .ecc ∧ u.eccReady cls line = false)) :
    exec (.gddr6Burst slot cls ⟨line, high⟩ errs) s = .next u := by
  subst hw
  have hbt : t.burst cls (s.slotWrites slot) line high = b := hb.symm
  rw [exec_gddr6Burst_of_some errs hu hready, hbt]
  rcases h with hhalf | ⟨hwrite, hecc, hheld⟩
  · simp [hhalf]
  · simp [hwrite, hecc, hheld]

theorem exec_gddr6Burst_served (hslot : u.slotServes slot cls line = true) (hhalf : u.halfDue b = true)
    (hheld : w = true → t = .ecc ∨ u.eccReady cls line = true) :
    exec (.gddr6Burst slot cls ⟨line, high⟩ errs) s =
      .next (if high = false then (u.clearRepeats b).noteHalf b
        else ((u.clearRepeats b).noteHalf b).lineDone t cls line errs w) := by
  subst hw
  have hbt : t.burst cls (s.slotWrites slot) line high = b := hb.symm
  have hgoes : (s.slotWrites slot && t != .ecc && !u.eccReady cls line) = false := by
    cases hwrite : s.slotWrites slot with
    | false => rfl
    | true => rcases hheld hwrite with h | h <;> simp [h]
  rw [exec_gddr6Burst_of_some errs hu hready, hbt]
  cases high <;> simp [hslot, hhalf, hgoes]

end Ready
end Burst

/-! ### ECC_LINE_FETCH -/

section Ecc
variable {s : State} {slot : Fin 1024} {cls : Fin 16} {line : Nat} {high : Bool} {errs : Fin 4} {b : Beat}
  (hb : b = burstOf (16 + cls) false (groupStart line) high)
include hb

theorem exec_eccLineFetch_unused (h : s.slotServes slot cls line = false ∨ s.slotWrites slot = true ∨
      s.eccWanted cls line = false ∨ s.halfDue b = false) :
    exec (.eccLineFetch slot cls ⟨line, high, errs⟩) s = .next s := by
  subst hb
  change execEccLineFetch slot cls ⟨line, high, errs⟩ s = _
  unfold execEccLineFetch
  exact if_pos (by rcases h with h | h | h | h <;> simp [eccBurst, h])

theorem exec_eccLineFetch_of_wanted (hslot : s.slotServes slot cls line = true) (hread : s.slotWrites slot = false)
    (hwanted : s.eccWanted cls line = true) (hhalf : s.halfDue b = true) {u v : State} {q : Quarter} {l : List Nat}
    (hu : u = (s.clearRepeats b).noteHalf b) (hv : v = u.codeword (lineQuarter line) (lineChannel line) errs)
    (hq : q = v.quarter (lineQuarter line))
    (hl : l = (SMap.get [] q.eccBuf (eccKey (lineChannel line) cls)).filter (· != lineH line) ++ [lineH line]) :
    exec (.eccLineFetch slot cls ⟨line, high, errs⟩) s = .next (if high = false then u else if 2 ≤ errs.val then v
      else v.setQuarter (lineQuarter line) { q with
        eccBuf := SMap.set [] q.eccBuf (eccKey (lineChannel line) cls) (l.drop (l.length - 16)) }) := by
  subst hl hq hv hu hb
  change execEccLineFetch slot cls ⟨line, high, errs⟩ s = _
  have hgo : (!s.slotServes slot cls line || s.slotWrites slot || !s.eccWanted cls line ||
      !s.halfDue (eccBurst cls false line high)) = false := by
    simp [eccBurst, hslot, hread, hwanted, hhalf]
  unfold execEccLineFetch
  simp only [hgo]
  cases high <;> rfl

end Ecc

/-! ### EDC_RETRY -/

theorem State.retry_goes {s : State} {slot cls line : Nat} {b : Beat} (hslot : s.slotServes slot cls line = true)
    (hdue : cls = 9 ∨ s.halfDue b = true) : (!s.slotServes slot cls line || (cls != 9 && !s.halfDue b)) = false := by
  rw [hslot]
  rcases hdue with h | h <;> simp [h]

section Retry
variable {s : State} {slot : Fin 1024} {cls : Fin 16} {line : Nat} {high w : Bool} {b : Beat} {t : Option Target} {q : Quarter}
  (hw : w = s.slotWrites slot) (hburst : s.burstAt cls w line high = some (b, t)) (hslot : s.slotServes slot cls line = true)
  (hdue : cls.val = 9 ∨ s.halfDue b = true) (hq : q = s.quarter (lineQuarter line))
include hw hburst hslot hdue hq

theorem exec_edcRetry_repeated (hfew : q.repeats.count b < 4) {p : Nat} (hp : q.physical (lineChannel line) = some p) :
    exec (.edcRetry slot cls ⟨line, high⟩) s = .next
      (((s.setQuarter (lineQuarter line) { q with repeats := q.repeats ++ [b] }).chanErr (lineQuarter line) p
        fun x => { x with retry := satBump x.retry 1 }).deviceError (lineQuarter line) (p / 2) 1) := by
  subst hw hq
  change execEdcRetry slot cls ⟨line, high⟩ s = _
  simp only [execEdcRetry, hburst, State.retry_goes hslot hdue, hfew, hp]
  rfl

theorem exec_edcRetry_given_up (hmany : 4 ≤ q.repeats.count b) :
    exec (.edcRetry slot cls ⟨line, high⟩) s = .next (s.giveUpBurst cls w line b t) := by
  subst hw hq
  change execEdcRetry slot cls ⟨line, high⟩ s = _
  simp only [execEdcRetry, hburst, State.retry_goes hslot hdue, Nat.not_lt.mpr hmany]
  rfl

end Retry

section GiveUp
variable {s u : State} {cls line : Nat} {w : Bool} {b : Beat}
  (hu : u = if b.high then (s.clearRepeats b).noteHalf b else s.clearRepeats b)
include hu

theorem State.giveUpBurst_of_request {r : Target} (hr : r ≠ .ecc) :
    s.giveUpBurst cls w line b (some r) = ((u.lineRead line 2).serveBad r cls line).tellRead r cls line (w || s.lineBad line) := by
  subst hu
  cases r with
  | far | run => rfl
  | ecc => exact absurd rfl hr

theorem State.giveUpBurst_of_ecc_write :
    s.giveUpBurst cls w line b (some .ecc) = (u.codeword (lineQuarter line) (lineChannel line) 2).oweEcc cls line false := by
  subst hu
  rfl

theorem State.giveUpBurst_of_ecc_read (hcls : cls ≠ 9) :
    s.giveUpBurst cls w line b none = u.codeword (lineQuarter line) (lineChannel line) 2 := by
  subst hu
  exact if_pos hcls

end GiveUp

/-- The burst was the patrol's, or a copy's, whose pointer only the end of a group moves (R267, R268). -/
theorem State.giveUpBurst_of_copy {s : State} {line a : Nat} {w : Bool} {b : Beat} {q : Quarter} (hq : q = s.quarter (lineQuarter line))
    (ha : a = SMap.get 0 q.patrol (lineChannel line)) :
    s.giveUpBurst 9 w line b none =
      if q.patrols then ((s.clearRepeats b).checkLine (lineQuarter line) (lineChannel line) a 2).patrolTo (lineQuarter line)
        (lineChannel line) (a - a % 64 + 64)
      else (s.clearRepeats b).lineRead line 2 := by
  subst ha hq
  rfl

/-! ### Refresh and the patrol -/

theorem exec_gddr6Refresh_of_running {s : State} (e : Fin 4) (ch : Fin 24) (slot : Fin 1024) (hslot : s.slotClass slot = 2)
    (hruns : s.gddrRuns = true) :
    exec (.gddr6Refresh e ch slot) s = .next (s.setQuarter e { s.quarter e with
      refreshed := SMap.modify 0 (s.quarter e).refreshed (4 * ch + slot / 16 % 4) (· + 1) }) :=
  if_pos ⟨hslot, hruns⟩

/-- Line 15 of a group is its ECC line (R243, R244). -/
theorem State.checkLine_eq (s : State) (e ch a errs : Nat) :
    s.checkLine e ch a errs =
      if a % 1024 / 64 = 15 then s.codeword e ch errs else s.lineRead (lineAt e ch (a / 1024) (a % 1024 / 64)) errs := by
  unfold State.checkLine patrolLine
  by_cases h : a % 1024 / 64 = 15 <;> simp [h]

theorem Quarter.patrols_of_no_copy {q : Quarter} (hcopy : q.copy.active = false ∨ q.copy.init = true) (hkept : q.withdrawn = false) :
    q.patrols = true := by
  unfold Quarter.patrols
  rcases hcopy with h | h <;> simp [h, hkept]

theorem exec_patrolRead_of_patrol {s : State} {e : Fin 4} {ch : Fin 22} {slot : Fin 1024} (errs : Fin 4) {a : Nat}
    (ha : a = SMap.get 0 (s.quarter e).patrol ch) (hpatrols : (s.quarter e).patrols = true)
    (hserved : ((s.quarter e).physical ch).isSome = true) (hslot : s.copySlot slot (a / 1024) = true) :
    exec (.patrolRead e ch slot errs) s =
      let u := (s.clearRepeats (copyBurst e ch a)).patrolTo e ch (a + 32)
      .next (if a % 64 = 0 then u else u.checkLine e ch a errs) := by
  subst ha
  refine if_neg ?_
  simp [hpatrols, hslot, Option.isSome_iff_ne_none.mp hserved]

end Sys2Proof.Machine

namespace Sys2Proof.Proofs
open Sys2Proof.Machine

/-- Settles O21: each clause is one of the cases of its command above. -/
theorem gddr6BurstsAndLines : Obligations.Gddr6BurstsAndLines := by
  unfold Obligations.Gddr6BurstsAndLines
  intro s slot
  refine ⟨?burst, ?ecc, ?retry, fun e ch => exec_gddr6Refresh_of_running e ch slot, ?patrol⟩
  case burst =>
    intro cls line high errs w u hw hu
    refine ⟨fun h => exec_gddr6Burst_unused errs hu (hw ▸ h), fun t b v hready hslot hb hv => ⟨?waits, ?served⟩⟩
    case waits => exact exec_gddr6Burst_waits errs hu hw hready hb
    case served =>
      intro hhalf hheld
      rw [exec_gddr6Burst_served errs hu hw hready hb hslot hhalf hheld, ← hv, State.lineDone_eq]
  case ecc =>
    intro cls line high errs b hb
    exact ⟨fun hslot hread hwanted hhalf u v q l => exec_eccLineFetch_of_wanted hb hslot hread hwanted hhalf,
      exec_eccLineFetch_unused hb⟩
  case retry =>
    intro cls line high w b t q hw hburst hslot hdue hq
    refine ⟨fun hfew p => exec_edcRetry_repeated hw hburst hslot hdue hq hfew, fun hmany u hu => ?_⟩
    rw [exec_edcRetry_given_up hw hburst hslot hdue hq hmany]
    refine ⟨?request, ?eccWrite, ?eccRead, ?copy⟩
    case request =>
      rintro r rfl hr
      rw [State.giveUpBurst_of_request hu hr]
    case eccWrite =>
      rintro rfl
      rw [State.giveUpBurst_of_ecc_write hu]
    case eccRead =>
      rintro rfl hcls
      rw [State.giveUpBurst_of_ecc_read hu hcls]
    case copy =>
      rintro a ha rfl hcls
      rw [hcls, State.giveUpBurst_of_copy hq ha]
  case patrol =>
    rintro e ch errs a v u ha hcopy hkept hserved hslot rfl rfl
    rw [exec_patrolRead_of_patrol errs ha (Quarter.patrols_of_no_copy hcopy hkept) hserved hslot]
    dsimp only
    rw [State.checkLine_eq]
    rfl

end Sys2Proof.Proofs
end

section
/-!
PROOFS. Copies, losses and initialisations of GDDR6 devices (R268–R274): each command by the cases in which it acts; and obligation O22.
-/
namespace Sys2Proof.Machine

/-! ### A copy from its start to its switch -/

section Start
variable {s : State} {e : Fin 4} {m : Fin 12} {q q1 : Quarter} (hq : q = s.quarter e) (hwanted : q.wanted.contains m.val = true)
  (hidle : q.copy.active = false) (hframe : s.frameBoundary = true) (hq1 : q1 = { q with wanted := q.wanted.filter (· != m.val) })
include hq hwanted hidle hframe hq1

theorem exec_deviceCopyStart_of_wanted :
    exec (.deviceCopyStart e m) s = match q.spare with
      | none => .next ((s.setQuarter e q1).spareLow 3 (12 * e + m) 0 (deviceLoc e m))
      | some d => .next (s.setQuarter e { (q1.setDev m { q1.dev m with st := .copySrc }).setDev d { st := .copyDst } with
          copy := { active := true, src := BitVec.ofNat 4 m, dst := BitVec.ofNat 4 d } }) := by
  subst hq1 hq
  exact if_neg (by simp only [hwanted, hidle, hframe]; decide)

theorem exec_deviceCopyStart_to_spare {d : Nat} (hd : q.spare = some d) :
    exec (.deviceCopyStart e m) s = .next (s.setQuarter e
      { (q1.setDev m { q1.dev m with st := .copySrc }).setDev d { st := .copyDst } with
        copy := { active := true, src := BitVec.ofNat 4 m, dst := BitVec.ofNat 4 d } }) := by
  rw [exec_deviceCopyStart_of_wanted hq hwanted hidle hframe hq1, hd]

theorem exec_deviceCopyStart_without_spare (hd : q.spare = none) :
    exec (.deviceCopyStart e m) s = .next ((s.setQuarter e q1).spareLow 3 (12 * e + m) 0 (deviceLoc e m)) := by
  rw [exec_deviceCopyStart_of_wanted hq hwanted hidle hframe hq1, hd]

end Start

/-- The erroneous bytes that a group's read names for a line: none where it names none. -/
theorem GroupRead.errs_getD (group : GroupRead) (i : Nat) :
    ((group.errs.find? fun x => x.1.val == i).map fun x => x.2.val).getD 0 =
      match group.errs.find? (fun x => x.1.val == i) with
      | some x => x.2.val
      | none => 0 := by
  cases group.errs.find? fun x => x.1.val == i <;> rfl

theorem exec_deviceCopyGroup_of_due {s u : State} {e : Fin 4} {b : Fin 2} {group : GroupRead} {q : Quarter} {p ch : Nat}
    (hq : q = s.quarter e) (hp : p = if b.val = 0 then q.copy.ptrA else q.copy.ptrB)
    (hch : ch = 2 * (q.dev q.copy.src.toNat).logical + b) (hactive : q.copy.active = true) (hcopy : q.copy.init = false)
    (hleft : p < channelGroups) (hslot : s.copySlot group.slot p = true)
    (hu : u = s.setQuarter e { q with
      copy := if b.val = 0 then { q.copy with ptrA := p + 1 } else { q.copy with ptrB := p + 1 }
      repeats := q.repeats.filter fun r => !((r.cls == 9 || r.cls == 25) && r.line / 15 == lineAt e ch p 0 / 15) }) :
    exec (.deviceCopyGroup e b group) s = .next ((List.range 16).foldl (fun v i =>
      v.checkLine e ch (1024 * p + 64 * i) (match group.errs.find? (fun x => x.1.val == i) with
        | some x => x.2.val
        | none => 0)) u) := by
  subst hu hch hp hq
  change execDeviceCopyGroup e b group s = _
  have hcopies : (s.quarter e).copies b = true := by
    simp only [Quarter.copies, CopySt.ptr, hactive, hcopy, hleft]
    decide
  replace hslot : s.copySlot group.slot ((s.quarter e).copy.ptr b) = true := hslot
  refine (if_neg ?due).trans ?checks
  case due => simp [hcopies, hslot]
  case checks =>
    simp only [← GroupRead.errs_getD]
    rfl

theorem exec_deviceSwitch_of_copied {s : State} {e : Fin 4} {q : Quarter} (hq : q = s.quarter e) (hactive : q.copy.active = true)
    (hcopy : q.copy.init = false) (hA : q.copy.ptrA = channelGroups) (hB : q.copy.ptrB = channelGroups)
    (hframe : s.frameBoundary = true) :
    exec (.deviceSwitch e) s = .next ((s.setQuarter e
      { (q.setDev q.copy.dst.toNat { st := .inService, logical := (q.dev q.copy.src.toNat).logical }).setDev q.copy.src.toNat
          { st := .retired } with copy := { q.copy with active := false } }).noteRepair 5 (deviceLoc e q.copy.src.toNat)) := by
  subst hq
  exact if_neg (by simp [hactive, hcopy, hA, hB, hframe])

/-! ### A lost position -/

section Lost
variable {s u : State} {e : Fin 4} {m : Fin 12} {q1 : Quarter} {d : DevPos} (hq1 : q1 = (s.quarter e).endCopy) (hd : d = q1.dev m)
include hq1 hd

theorem exec_deviceLost_of_lost (h : d.st = .lost) : exec (.deviceLost e m) s = .next s := by
  subst hd hq1
  exact if_pos h

variable (hu : u = (s.setQuarter e { q1.setDev m { st := .lost } with wanted := q1.wanted.filter (· != m.val) }).noteRepair 5
  (deviceLoc e m))
include hu

theorem exec_deviceLost_of_serving_none (h : d.st = .spare ∨ d.st = .retired ∨ (d.st ≠ .lost ∧ q1.withdrawn = true)) :
    exec (.deviceLost e m) s = .next (u.faultRecord { kind := 5, cls := 1, action := 0, loc := deviceLoc e m }) := by
  subst hu hd hq1
  have hnew : ((s.quarter e).endCopy.dev m).st ≠ .lost := by
    rcases h with h | h | h
    · simp [h]
    · simp [h]
    · exact h.1
  refine (if_neg hnew).trans (if_pos ?_)
  tauto

variable (hkept : q1.withdrawn = false)
include hkept

theorem exec_deviceLost_of_initialised (h : d.st = .copyDst) :
    exec (.deviceLost e m) s = .next (u.withdraw e 5 (deviceLoc e m)) := by
  subst hu hd hq1
  exact (if_neg (by simp [h])).trans ((if_neg (by simp [h, hkept])).trans (if_pos h))

theorem exec_deviceLost_of_serving (h : d.st = .inService ∨ d.st = .copySrc) :
    exec (.deviceLost e m) s = .next (u.loseLogical e m d.logical) := by
  subst hu hd hq1
  have hst : ∀ st : DevState, st = .lost ∨ st = .spare ∨ st = .retired ∨ st = .copyDst → ((s.quarter e).endCopy.dev m).st ≠ st := by
    rintro st (rfl | rfl | rfl | rfl) <;> rcases h with h | h <;> simp [h]
  refine (if_neg (hst _ (by simp))).trans ((if_neg ?_).trans (if_neg (hst _ (by simp))))
  simp [hkept, hst]

end Lost

theorem State.loseLogical_without_spare {u : State} {e m k : Nat} (h : (u.quarter e).spare = none) :
    u.loseLogical e m k = u.withdraw e 5 (deviceLoc e m) := by
  simp only [State.loseLogical, h]

theorem State.loseLogical_to_spare {u : State} {e m k r : Nat} (h : (u.quarter e).spare = some r) :
    u.loseLogical e m k = (((u.setQuarter e { (u.quarter e).setDev r { st := .copyDst } with
      copy := { active := true, init := true, src := BitVec.ofNat 4 m, dst := BitVec.ofNat 4 r, logical := k } }).blankDevice e
        k).faultRecord { kind := 5, cls := 1, action := 2, loc := deviceLoc e m, spare := deviceLoc e r }).loseRanges 5
          (deviceLoc e m).toNat (onDevice e k) := by
  simp only [State.loseLogical, h]

theorem exec_spareInitComplete_of_due {s : State} {e : Fin 4} {q : Quarter} (hq : q = s.quarter e) (hactive : q.copy.active = true)
    (hinit : q.copy.init = true) (hkept : q.withdrawn = false) (hframe : s.frameBoundary = true) :
    exec (.spareInitComplete e) s = .next ((s.setQuarter e
      { q.setDev q.copy.dst.toNat { st := .inService, logical := q.copy.logical } with
        copy := { q.copy with active := false } }).renewContexts e) := by
  subst hq
  exact if_neg (by simp [hactive, hinit, hkept, hframe])

end Sys2Proof.Machine

namespace Sys2Proof.Proofs
open Sys2Proof.Machine

/-- Settles O22: each clause is one of the cases of its command above. -/
theorem gddr6DevicesCopyAndFail : Obligations.Gddr6DevicesCopyAndFail := by
  unfold Obligations.Gddr6DevicesCopyAndFail
  intro s e q hq
  refine ⟨?start, ?group, exec_deviceSwitch_of_copied hq, ?lost, exec_spareInitComplete_of_due hq⟩
  case start =>
    intro m q1 hwanted hidle hframe hq1
    exact ⟨fun d => exec_deviceCopyStart_to_spare hq hwanted hidle hframe hq1,
      exec_deviceCopyStart_without_spare hq hwanted hidle hframe hq1⟩
  case group =>
    intro b group p ch u hp hch hactive hcopy hleft hslot hu
    exact exec_deviceCopyGroup_of_due hq hp hch hactive hcopy hleft hslot hu
  case lost =>
    intro m q1 d u hq1 hd hu
    subst hq
    refine ⟨exec_deviceLost_of_lost hq1 hd, exec_deviceLost_of_serving_none hq1 hd hu, exec_deviceLost_of_initialised hq1 hd hu, ?_⟩
    intro hkept hserves
    rw [exec_deviceLost_of_serving hq1 hd hu hkept hserves]
    exact ⟨fun h => congrArg Host.Outcome.next (State.loseLogical_without_spare h),
      fun r h => congrArg Host.Outcome.next (State.loseLogical_to_spare h)⟩

end Sys2Proof.Proofs
end

section
/-!
PROOFS. Records of a stream (R410–R424): when they complete, when the oldest waiting one goes out, and when one is lost; and obligation
O33.
-/
namespace Sys2Proof.Machine

/-! ### RECORD_COMPLETE -/

section Complete
variable {s : State} {sid : Fin 1024} {x : Stream} (hx : x = s.stream sid)
include hx

theorem exec_recordComplete_of_none (h : x.recs.openRecs.filter x.complete = [] ∨ s.headboxOff = true) :
    exec (.recordComplete sid) s = .next s := by
  subst hx
  refine congrArg Host.Outcome.next (if_pos ?_)
  rwa [List.map_eq_nil_iff]

theorem exec_recordComplete_of_some (hfull : x.recs.openRecs.filter x.complete ≠ []) (hon : s.headboxOff = false) :
    exec (.recordComplete sid) s = .next (s.setStream sid { x with recs := { x.recs with
      openRecs := x.recs.openRecs.filter fun r => !x.complete r
      waiting := x.recs.waiting ++ sortBy ((x.recs.openRecs.filter x.complete).map x.finished) doneOrder } }) := by
  subst hx
  refine congrArg Host.Outcome.next (if_neg ?_)
  rw [List.map_eq_nil_iff, hon]
  simpa using hfull

end Complete

/-! ### RECORD_HANDOFF -/

/-- What keeps a waiting record of a stream from its slot: the slot is busy, the record is lost, or its place cannot be reached. -/
def State.handOffWaits (s : State) (x : Stream) (r : Rec) : Bool :=
  x.recs.busy.contains x.recs.nextSlot || x.overrun r || (s.badLine x r).isSome || s.areaGone x ||
    (x.prog.destHost && (!s.hostUp || (s.ring x.ring.toNat).st != .active)) || s.flt.halted

theorem State.handOffWaits_eq_true {s : State} {x : Stream} {r : Rec} :
    s.handOffWaits x r = true ↔
      x.recs.busy.contains x.recs.nextSlot = true ∨ x.overrun r = true ∨ (s.badLine x r).isSome = true ∨ s.areaGone x = true ∨
        (x.prog.destHost = true ∧ (s.hostUp = false ∨ (s.ring x.ring.toNat).st ≠ .active)) ∨ s.flt.halted = true := by
  simp [State.handOffWaits, or_assoc]

theorem State.handOffWaits_eq_false {s : State} {x : Stream} {r : Rec} (hslot : x.recs.busy.contains x.recs.nextSlot = false)
    (hheld : x.overrun r = false) (hgood : s.badLine x r = none) (harea : s.areaGone x = false)
    (hreach : x.prog.destHost = false ∨ (s.hostUp = true ∧ (s.ring x.ring.toNat).st = .active)) (hruns : s.flt.halted = false) :
    s.handOffWaits x r = false := by
  simp only [State.handOffWaits, hslot, hheld, hgood, harea, hruns]
  rcases hreach with h | ⟨hup, hactive⟩ <;> simp [*]

section HandOff
variable {s : State} {sid : Fin 1024} {x : Stream} (hx : x = s.stream sid)
include hx

theorem exec_recordHandoff_of_none (h : x.recs.waiting = []) : exec (.recordHandoff sid) s = .next s := by
  subst hx
  change Host.Outcome.next (s.handOff sid) = _
  simp only [State.handOff, h]

theorem exec_recordHandoff_waits {r : Rec} {rest : List Rec} (hr : x.recs.waiting = r :: rest) (hwaits : s.handOffWaits x r = true) :
    exec (.recordHandoff sid) s = .next s := by
  subst hx
  change Host.Outcome.next (s.handOff sid) = _
  simp only [State.handOff, hr]
  exact congrArg Host.Outcome.next (if_pos hwaits)

theorem exec_recordHandoff_goes {r : Rec} {rest : List Rec} {b : List Byte × Nat × State} {a : Nat} {s1 : State}
    (hr : x.recs.waiting = r :: rest) (hgoes : s.handOffWaits x r = false) (hb : b = s.buildRecord sid r)
    (ha : a = x.prog.dest + x.recs.nextSlot * x.prog.slot)
    (hs1 : s1 = if x.prog.destHost then (b.2.2.hostWrite (a + 128) (b.1.drop 128)).hostWrite a (b.1.take 128)
      else ((b.2.2.gddrWrite (a + 128) (b.1.drop 128)).gddrWrite a (b.1.take 128)).asks classDma true a b.1.length) :
    exec (.recordHandoff sid) s = .next ((s1.setStream sid { x with recs := { x.recs with
      waiting := rest, nextSlot := (x.recs.nextSlot + 1) % max x.prog.nslot 1, busy := x.recs.busy ++ [x.recs.nextSlot]
      done := x.recs.done + 1, written := if r.kind = 1 then x.recs.written ++ [r] else x.recs.written
      trunc := satBump x.recs.trunc (if b.2.1 % 4 = 0 then 0 else 1), maskf := satBump x.recs.maskf (if bitAt b.2.1 5 then 1 else 0)
      pstate := if bitAt b.2.1 5 && x.prog.maskStop then 2 else x.recs.pstate } }).pushCompletion x.ring.toNat
        { opcode := 0x85, tag := x.tag, record := some (sid.val, x.recs.nextSlot)
          info := BitVec.ofNat 64 (sid.val + 2 ^ 16 * x.recs.nextSlot + 2 ^ 28 * r.kind + 2 ^ 32 * b.1.length) }) := by
  subst hs1 ha hb hx
  change Host.Outcome.next (s.handOff sid) = _
  simp only [State.handOff, hr]
  exact congrArg Host.Outcome.next (if_neg (by rw [← State.handOffWaits, hgoes]; decide))

end HandOff

/-! ### RECORD_LOST -/

section Lost
variable {s : State} {sid : Fin 1024} {x : Stream} (hx : x = s.stream sid) {gone : Rec → Bool}
  (hgone : gone = fun r => x.overrun r || (s.badLine x r).isSome || s.areaGone x)
include hx hgone

theorem exec_recordLost_of_none (h : x.recs.waiting.find? gone = none) : exec (.recordLost sid) s = .next s := by
  subst hgone hx
  change execRecordLost sid s = _
  simp only [execRecordLost, h]

theorem exec_recordLost_of_some {r : Rec} {s1 : State} (h : x.recs.waiting.find? gone = some r)
    (hs1 : s1 = match (if x.overrun r then none else s.badLine x r) with
      | none => s
      | some l => s.faultRecord { kind := 6, cls := 3, action := 8, loc := BitVec.ofNat 32 l, ring := x.ring.setWidth 16 }) :
    exec (.recordLost sid) s = .next ((s1.setStream sid { x with recs := { x.recs with
      waiting := x.recs.waiting.eraseIdx (x.recs.waiting.findIdx gone), lost := satBump x.recs.lost 1 } }).postEvent 0x0009
        x.ring.toNat 0 (sid.val + 2 ^ 16 * (r.pipe % 64) + 2 ^ 32 * r.tseq.toNat + 2 ^ 48 * r.rank.toNat)) := by
  subst hs1 hgone hx
  change execRecordLost sid s = _
  simp only [execRecordLost, h] <;> rfl

end Lost
end Sys2Proof.Machine

namespace Sys2Proof.Proofs
open Sys2Proof.Machine

/-- Settles O33: each clause is one of the cases of its command above. -/
theorem recordsCompleteGoOutOrAreLost : Obligations.RecordsCompleteGoOutOrAreLost := by
  unfold Obligations.RecordsCompleteGoOutOrAreLost
  intro s sid x hx
  refine ⟨exec_recordComplete_of_some hx, exec_recordComplete_of_none hx, ?goes, exec_recordHandoff_of_none hx, ?waits, ?lost⟩
  case goes =>
    intro r rest b a s1 hr hslot hheld hgood harea hreach hruns hb ha hs1
    exact exec_recordHandoff_goes hx hr (State.handOffWaits_eq_false hslot hheld hgood harea hreach hruns) hb ha hs1
  case waits =>
    intro r rest hr hwaits
    exact exec_recordHandoff_waits hx hr (State.handOffWaits_eq_true.2 hwaits)
  case lost =>
    intro gone hgone
    exact ⟨exec_recordLost_of_none hx hgone, fun r s1 h hs1 => exec_recordLost_of_some hx hgone h hs1⟩

end Sys2Proof.Proofs
end

section
/-!
PROOFS. Lane groups at base rate (R277–R279, R295, R296, R300–R305): enabling, idling, signal and character lock; and obligation O24.
-/
namespace Sys2Proof.Machine

/-! ### What a group has, and what a change of one lane keeps -/

@[simp] theorem hasSpare_eq_true {g : Nat} : hasSpare g = true ↔ g < 24 := by simp [hasSpare]

@[simp] theorem hasSpare_eq_false {g : Nat} : hasSpare g = false ↔ 24 ≤ g := by simp [hasSpare]

@[simp] theorem LnpGroup.setLane_st (x : LnpGroup) (l : Nat) (y : Lane) : (x.setLane l y).st = x.st := rfl

@[simp] theorem LnpGroup.setLane_inUse (x : LnpGroup) (l : Nat) (y : Lane) (g : Nat) : (x.setLane l y).inUse g = x.inUse g := rfl

theorem LnpGroup.enterLink_eq (x : LnpGroup) (g : Nat) :
    x.enterLink g = { x with st := if g < 24 then .baseLink else .active, peer := {} } := by
  simp [LnpGroup.enterLink]

/-! ### Enabling, disabling and retraining -/

theorem exec_lnpEnable_of_fabric_off {s : State} {g : Fin 26} (hlo : 16 ≤ g.val) (hhi : g.val < 24) (hxms : s.xms.regs.enable = false) :
    exec (.lnpEnable g) s = .next s :=
  if_pos (.inr ⟨hlo, hhi, by rw [hxms]; rfl⟩)

section Group
variable {s : State} {g : Fin 26} {x : LnpGroup} (hx : x = s.group g) (hon : s.flt.halted = false)

include hx hon

theorem exec_lnpEnable_of_off (hxms : ¬ (16 ≤ g.val ∧ g.val < 24 ∧ s.xms.regs.enable = false)) (hst : x.st = .off) :
    exec (.lnpEnable g) s = .next (s.toDetect g { x with
      enable := true, attempts := 0
      lanes := x.lanes.map fun p => (p.1, { p.2 with hdrErr := 0, codeErr := 0, losEvt := 0, lolEvt := 0, stuffLate := 0, stuffErr := 0 }) }) := by
  subst hx
  exact (if_neg (by simpa [hon] using hxms)).trans (if_neg (not_not.2 hst))

theorem exec_lnpEnable_of_on (hxms : ¬ (16 ≤ g.val ∧ g.val < 24 ∧ s.xms.regs.enable = false)) (hst : x.st ≠ .off) :
    exec (.lnpEnable g) s = .next (s.setGroup g { x with enable := true }) := by
  subst hx
  exact (if_neg (by simpa [hon] using hxms)).trans (if_pos hst)

theorem exec_lnpDisable {u : State}
    (hu : u = s.moveGroup g 3 { x.unlock .off with enable := false, spareUsed := false, spareFor := 0, failed := 0, joined := false }) :
    exec (.lnpDisable g) s = .next (if g.val < 16 then u.setPartner g { u.partner g with present := false } else u) := by
  subst hu hx
  exact congrArg Host.Outcome.next (if_neg (by simp [hon]))

theorem exec_lnpRetrain_of_up (hst : x.st = .fail ∨ x.st = .active) : exec (.lnpRetrain g) s = .next (s.toDetect g x) := by
  subst hx
  exact congrArg Host.Outcome.next (if_pos ⟨hst, by simp [hon]⟩)

/-! ### Electrical idle asked for and ended -/

theorem exec_lnpEidleEnter_of_up (hg : g.val < 24) (hst : x.st = .active ∨ x.st = .eidle) :
    exec (.lnpEidleEnter g) s = .next (s.setGroup g
      (if x.spareOutstanding then { x with eidleReq := true, idleHeld := true } else { x with eidleReq := true, txIdle := true })) := by
  subst hx
  have hup : (hasSpare g && ((s.group g).st == .active || (s.group g).st == .eidle)) = true := by simpa [hg] using hst
  change Host.Outcome.next _ = _
  simp only [hon, hup, Bool.not_true, Bool.false_eq_true, if_false]
  rfl

theorem exec_lnpEidleEnter_of_down (hdown : 24 ≤ g.val ∨ (x.st ≠ .active ∧ x.st ≠ .eidle)) :
    exec (.lnpEidleEnter g) s = .next (s.setGroup g { x with eidleReq := true }) := by
  subst hx
  have hup : (hasSpare g && ((s.group g).st == .active || (s.group g).st == .eidle)) = false := by
    simpa only [Bool.and_eq_false_iff, hasSpare_eq_false, Bool.or_eq_false_iff, beq_eq_false_iff_ne] using hdown
  change Host.Outcome.next _ = _
  simp only [hon, hup, Bool.not_false, Bool.false_eq_true, if_false, if_true]

theorem exec_lnpEidleExit :
    exec (.lnpEidleExit g) s = .next (s.setGroup g (if x.txIdle then
      { x with eidleReq := false, idleHeld := false, txIdle := false, txBits := 0, txBurst := 128 }
      else { x with eidleReq := false, idleHeld := false })) := by
  subst hx
  change execLnpEidleExit g s = _
  simp only [execLnpEidleExit, hon, Bool.false_eq_true, if_false, LnpGroup.leaveIdle]
  split <;> rfl

end Group

/-! ### Signal and character lock of a lane -/

/-- A lock lost in ACTIVE takes the group down for a lane in use only (R296). -/
theorem State.lockLost_eq {s u : State} {g l n : Nat} {x : LnpGroup} {y : Lane} (hx : x = s.group g)
    (hu : u = ((s.unheard g).setGroup g (x.setLane l y)).laneErrors g l n) :
    s.lockLost g l y n = if x.st = .active ∧ l ∈ x.inUse g then u.toDetect g (u.group g) else u := by
  subst hu hx
  exact if_congr (by rw [List.contains_iff_mem]) rfl rfl

section Lane
variable {s : State} {g : Fin 26} {x : LnpGroup} (hx : x = s.group g) {l : Fin 18} {y : Lane} (hy : y = x.lane l)
  (hl : l.val < groupLanes g)
include hx hy hl

theorem exec_losAssert_of_signal {x1 : LnpGroup} (hlos : y.los = false)
    (hx1 : x1 = x.setLane l { y with los := true, losEvt := satBump y.losEvt 1 }) :
    exec (.losAssert g l) s = .next
      (if x.st = .active ∧ (l.val ∈ x.inUse g ∨ (g.val < 24 ∧ l.val = clockOf g)) ∨ x.st = .eidle ∧ g.val < 24 ∧ l.val = clockOf g then
        (s.setGroup g x1).toDetect g x1
      else s.setGroup g x1) := by
  subst hx1 hy hx
  change execLosAssert g l s = _
  have hact : ¬ (((s.group g).lane l).los = true ∨ groupLanes g ≤ l.val) := by simp [hlos, hl]
  simp only [execLosAssert, if_neg hact]
  refine congrArg Host.Outcome.next (if_congr ?_ rfl rfl)
  simp [or_comm]

theorem exec_losDeassert :
    exec (.losDeassert g l) s = .next (if x.st = .detect then s.trainTo g ((x.setLane l { y with los := false }).detect g)
      else s.setGroup g (x.setLane l { y with los := false })) := by
  subst hy hx
  exact if_neg (not_le.2 hl)

theorem exec_characterLock_of_signal {x1 : LnpGroup} (hlos : y.los = false) (hst : x.st ≠ .off) (hrate : x.rate = 0)
    (hclock : 24 ≤ g.val ∨ l.val ≠ clockOf g) (hx1 : x1 = x.setLane l { y with lock := true }) :
    exec (.characterLock g l) s = .next
      (if x.st = .baseAcq ∧ (∀ k ∈ x1.inUse g, (x1.lane k).lock = true) then
        s.trainTo g { x1 with st := if g.val < 24 then .baseLink else .active, peer := {} }
      else s.setGroup g x1) := by
  subst hx1 hy hx
  change execCharacterLock g l s = _
  have hact : ¬ (((s.group g).lane l).los = true ∨ groupLanes g ≤ l.val ∨ (s.group g).st = .off ∨ (s.group g).rate ≠ 0 ∨
      (hasSpare g && l.val == clockOf g) = true) := by
    have hdata : (hasSpare g && l.val == clockOf g) = false := by
      simpa only [Bool.and_eq_false_iff, hasSpare_eq_false, beq_eq_false_iff_ne] using hclock
    simp [hlos, hl, hst, hrate, hdata]
  simp only [execCharacterLock, if_neg hact, LnpGroup.enterLink_eq, List.all_eq_true]

/-- At base rate the errors of CHARACTER_LOCK_LOSS count, and 8 or more of a locked lane lose its lock. -/
theorem exec_characterLockLoss_at_base {errs : Fin 65} (hst : x.st ≠ .off) (hrate : x.rate = 0) :
    exec (.characterLockLoss g l errs) s = if y.lock = true ∧ 8 ≤ errs.val then
        .next (s.lockLost g l { y with codeErr := satBump y.codeErr errs, lock := false, lolEvt := satBump y.lolEvt 1 } errs)
      else .next (((s.unheard g).setGroup g (x.setLane l { y with codeErr := satBump y.codeErr errs })).laneErrors g l errs) := by
  subst hy hx
  exact if_neg (by simp [hl, hst, hrate])

theorem exec_characterLockLoss_of_loss {errs : Fin 65} {y1 : Lane} {u : State} (hst : x.st ≠ .off) (hrate : x.rate = 0)
    (hy1 : y1 = { y with codeErr := satBump y.codeErr errs }) (hlock : y.lock = true) (herrs : 8 ≤ errs.val)
    (hu : u = ((s.unheard g).setGroup g (x.setLane l { y1 with lock := false, lolEvt := satBump y.lolEvt 1 })).laneErrors g l errs) :
    exec (.characterLockLoss g l errs) s = .next (if x.st = .active ∧ l.val ∈ x.inUse g then u.toDetect g (u.group g) else u) := by
  subst hy1
  rw [exec_characterLockLoss_at_base hx hy hl hst hrate, if_pos ⟨hlock, herrs⟩, State.lockLost_eq hx hu]

theorem exec_characterLockLoss_of_kept {errs : Fin 65} {y1 : Lane} (hst : x.st ≠ .off) (hrate : x.rate = 0)
    (hy1 : y1 = { y with codeErr := satBump y.codeErr errs }) (hkept : y.lock = false ∨ errs.val < 8) :
    exec (.characterLockLoss g l errs) s = .next (((s.unheard g).setGroup g (x.setLane l y1)).laneErrors g l errs) := by
  subst hy1
  rw [exec_characterLockLoss_at_base hx hy hl hst hrate, if_neg]
  rcases hkept with h | h <;> simp [h]

end Lane

/-! ### The end of BASE_ACQ -/

section BaseAcq
variable {s : State} {g : Fin 26} {x : LnpGroup} (hx : x = s.group g) (hst : x.st = .baseAcq)
include hx hst

theorem exec_baseAcqTimeout_of_repair {y : LnpGroup} (hy : x.repair g (·.lock) = some y) :
    exec (.baseAcqTimeout g) s = .next (s.trainTo g { y with st := if g.val < 24 then .baseLink else .active, peer := {} }) := by
  subst hx
  change execBaseAcqTimeout g s = _
  simp only [execBaseAcqTimeout, hst, hy, ne_eq, not_true_eq_false, if_false, LnpGroup.enterLink_eq]

theorem exec_baseAcqTimeout_of_none (hnone : x.repair g (·.lock) = none) :
    exec (.baseAcqTimeout g) s = .next (s.trainTo g
      (LnpGroup.detect { x.unlock .detect with attempts := satBump x.attempts 1 } g)) := by
  subst hx
  change execBaseAcqTimeout g s = _
  simp only [execBaseAcqTimeout, hst, hnone, ne_eq, not_true_eq_false, if_false]

end BaseAcq
end Sys2Proof.Machine

namespace Sys2Proof.Proofs
open Sys2Proof.Machine

/-- Settles O24: each clause is one of the cases of its command above. -/
theorem lanesAtBaseRate : Obligations.LanesAtBaseRate := by
  unfold Obligations.LanesAtBaseRate
  intro s g x hx
  refine ⟨?group, ?lane, fun hst => ⟨fun y => exec_baseAcqTimeout_of_repair hx hst, exec_baseAcqTimeout_of_none hx hst⟩⟩
  case group =>
    intro hon
    exact ⟨exec_lnpEnable_of_fabric_off, exec_lnpEnable_of_off hx hon, exec_lnpEnable_of_on hx hon, fun u => exec_lnpDisable hx hon,
      exec_lnpRetrain_of_up hx hon, exec_lnpEidleEnter_of_up hx hon, exec_lnpEidleEnter_of_down hx hon, exec_lnpEidleExit hx hon⟩
  case lane =>
    intro l y hy hl
    refine ⟨fun x1 => exec_losAssert_of_signal hx hy hl, exec_losDeassert hx hy hl, fun x1 => exec_characterLock_of_signal hx hy hl, ?_⟩
    intro errs y1 hst hrate hy1
    exact ⟨fun hlock herrs u => exec_characterLockLoss_of_loss hx hy hl hst hrate hy1 hlock herrs,
      exec_characterLockLoss_of_kept hx hy hl hst hrate hy1⟩

end Sys2Proof.Proofs
end

section
/-!
PROOFS. Lane groups in training (R280–R300): negotiation, the rate switch, block lock, ALIGN and the sweeps; and obligation O25.
-/
namespace Sys2Proof.Machine

/-! ### CAPS and the first offer -/

theorem LnpGroup.negotiate_of_unjoined {x : LnpGroup} {g : Nat} (hg : g < 16) (hj : x.joined = false) : x.negotiate g = x :=
  if_neg (by simp [hj, hg])

/-- A group in BASE_LINK that has joined, or needs no join, offers the highest rate left once it has the peer's CAPS (R297). -/
theorem LnpGroup.negotiate_of_ready {x : LnpGroup} {g : Nat} (hst : x.st = .baseLink) (hseen : x.peer.seen = true)
    (hj : 16 ≤ g ∨ x.joined = true) :
    x.negotiate g = match x.rates with
      | [] => { x with st := .fail }
      | k :: _ => { x with st := .negotiate, offer := BitVec.ofNat 3 k } :=
  if_pos ⟨hst, hseen, hj⟩

section Group
variable {s : State} {g : Fin 26} {x : LnpGroup} (hx : x = s.group g)
include hx

section Caps
variable {m : CapsMsg} {y : LnpGroup} (hst : x.st = .baseLink) (hg : g.val < 24)
  (hy : y = { x with
    peer := { seen := true, role := m.role, rates := m.rates.setWidth 4, lanes := m.lanes, spare := m.spare, failed := m.failed.setWidth 4 }
    txSpare := if bitAt m.spare.toNat 7 then some (bitsOf m.spare.toNat 0 5) else none })
include hst hg hy

theorem exec_caps_in_baseLink : exec (.caps g m) s = .next (s.trainTo g (y.negotiate g)) := by
  subst hy hx
  exact if_neg (by simp [hst, hg])

theorem exec_caps_of_unjoined (hstock : g.val < 16) (hj : x.joined = false) : exec (.caps g m) s = .next (s.trainTo g y) := by
  rw [exec_caps_in_baseLink hx hst hg hy, LnpGroup.negotiate_of_unjoined hstock]
  rw [hy]; exact hj

theorem exec_caps_of_ready (hj : 16 ≤ g.val ∨ x.joined = true) :
    exec (.caps g m) s = .next (s.trainTo g (match y.rates with
      | [] => { y with st := .fail }
      | k :: _ => { y with st := .negotiate, offer := BitVec.ofNat 3 k })) := by
  have hready : y.negotiate g = _ := LnpGroup.negotiate_of_ready (by rw [hy]; exact hst) (by rw [hy]) (by rw [hy]; exact hj)
  exact (exec_caps_in_baseLink hx hst hg hy).trans (congrArg (fun z => Host.Outcome.next (s.trainTo g z)) hready)

end Caps

/-! ### OFFER, STEP and the timeouts -/

theorem exec_offer_of_taken {rate : Fin 8} (hst : x.st = .negotiate) (hpos : 0 < rate.val) (hcode : rate.val ≤ 4)
    (hown : rate.val ≤ x.offer.toNat) :
    exec (.offer g rate) s = .next (s.trainTo g { x with offer := BitVec.ofNat 3 rate, st := .step }) := by
  subst hx
  refine if_neg ?_
  simp only [hst, ne_eq, not_true_eq_false, false_or]
  omega

theorem exec_offer_of_refused {rate : Fin 8} (hbad : rate.val = 0 ∨ 4 < rate.val ∨ x.offer.toNat < rate.val) :
    exec (.offer g rate) s = .next (s.unheard g) := by
  subst hx
  exact if_pos (.inr hbad)

theorem exec_step_in_step (hst : x.st = .step) (rate : Fin 8) (n : Fin 64) :
    exec (.step g rate n) s = .next (if n.val = 0 ∧ rate.val = x.offer.toNat then s.trainTo g x.switchRate else s.unheard g) := by
  subst hx
  exact congrArg Host.Outcome.next (if_congr (and_iff_right hst) rfl rfl)

theorem exec_rateSwitchTimeout_in_step (hst : x.st = .step) : exec (.rateSwitchTimeout g) s = .next (s.trainTo g x.switchRate) := by
  subst hx
  exact congrArg Host.Outcome.next (if_pos hst)

theorem exec_trainingTimeout_in_training (hst : x.st = .step ∨ x.st = .blockHunt ∨ x.st = .eq) :
    exec (.trainingTimeout g) s = .next (s.trainTo g x.fallBack) := by
  subst hx
  exact congrArg Host.Outcome.next (if_pos hst)

/-! ### The sweeps and READY -/

theorem exec_eqSweepComplete_in_eq (hst : x.st = .eq) {l : Fin 18} (good : BitVec 15) (hl : l.val ≤ dataLanes g) :
    exec (.eqSweepComplete g l good) s = .next ((s.sweepPeak good).2.trainOn g
      ((x.setLane l ((x.lane l).afterSweep good (s.sweepPeak good).1)).equalised g)) := by
  subst hx
  exact if_neg (by simp [hst, hl])

theorem exec_ready_in_eq (hst : x.st = .eq) (spare : Bool) (lane : Fin 128) :
    exec (.ready g spare lane) s = .next (s.trainOn g
      (LnpGroup.equalised { x with readySeen := true, txSpare := if spare then some lane.val else x.txSpare } g)) := by
  subst hx
  exact if_neg (not_not.2 hst)

end Group

/-! ### Block lock and ALIGN of a lane -/

section Lane
variable {s : State} {g : Fin 26} {x : LnpGroup} (hx : x = s.group g) {l : Fin 18} {y : Lane} (hy : y = x.lane l)
  (hl : l.val < groupLanes g) (hrate : x.rate ≠ 0)
include hx hy hl hrate

/-- A lane that hunts, its clock lane apart, counts the headers and locks or hunts on. -/
theorem exec_blockLock_of_hunting {hs : List (BitVec 2 × Fin 5)} (hlock : y.lock = false) (hdata : l.val ≠ clockOf g) :
    exec (.blockLock g l hs) s = .next (s.trainTo g ((x.setLane l (match lockRest hs with
      | some rest => { y.countHeads hs with lock := true, fresh := rest.isEmpty, bad := false }
      | none => { y.countHeads hs with bad := y.bad || decide (98 ≤ hs.countP headBad) })).hunted g)) := by
  subst hy hx
  exact if_neg (by simpa [hl, hlock, hdata] using hrate)

theorem exec_blockLock_of_found {hs rest : List (BitVec 2 × Fin 5)} (hlock : y.lock = false) (hdata : l.val ≠ clockOf g)
    (hrest : lockRest hs = some rest) :
    exec (.blockLock g l hs) s = .next (s.trainTo g
      ((x.setLane l { y.countHeads hs with lock := true, fresh := rest.isEmpty, bad := false }).hunted g)) := by
  rw [exec_blockLock_of_hunting hx hy hl hrate hlock hdata, hrest]

theorem exec_blockLock_of_none {hs : List (BitVec 2 × Fin 5)} (hlock : y.lock = false) (hdata : l.val ≠ clockOf g)
    (hrest : lockRest hs = none) :
    exec (.blockLock g l hs) s = .next (s.trainTo g
      ((x.setLane l { y.countHeads hs with bad := y.bad || decide (98 ≤ hs.countP headBad) }).hunted g)) := by
  rw [exec_blockLock_of_hunting hx hy hl hrate hlock hdata, hrest]

/-- A locked lane counts its headers and loses its lock where 16 of 64 in a row are invalid. -/
theorem exec_blockLockLoss_of_locked {hs : List (BitVec 2 × Fin 5)} {y1 : Lane} (hlock : y.lock = true)
    (hy1 : y1 = { y.countHeads hs with fresh := y.fresh && hs.isEmpty }) :
    exec (.blockLockLoss g l hs) s = if ∃ k ≤ hs.length, 16 ≤ ((hs.drop k).take 64).countP headBad then
        .next (s.lockLost g l { y1 with lock := false, fresh := false, lolEvt := satBump y.lolEvt 1 } (hs.countP headBad))
      else .next ((s.setGroup g (x.setLane l y1)).laneErrors g l (hs.countP headBad)) := by
  subst hy1 hy hx
  change execBlockLockLoss g l hs s = _
  have hact : ¬ (groupLanes g ≤ l.val ∨ (s.group g).rate = 0 ∨ (!((s.group g).lane l).lock) = true) := by
    simpa [hl, hlock] using hrate
  simp only [execBlockLockLoss, if_neg hact]
  exact if_congr (by simp) rfl rfl

theorem exec_blockLockLoss_of_kept {hs : List (BitVec 2 × Fin 5)} {y1 : Lane} (hlock : y.lock = true)
    (hy1 : y1 = { y.countHeads hs with fresh := y.fresh && hs.isEmpty })
    (hkept : ∀ k ≤ hs.length, ((hs.drop k).take 64).countP headBad < 16) :
    exec (.blockLockLoss g l hs) s = .next ((s.setGroup g (x.setLane l y1)).laneErrors g l (hs.countP headBad)) := by
  rw [exec_blockLockLoss_of_locked hx hy hl hrate hlock hy1, if_neg]
  rintro ⟨k, hk, h16⟩
  exact absurd (hkept k hk) (not_lt.2 h16)

theorem exec_blockLockLoss_of_loss {hs : List (BitVec 2 × Fin 5)} {y1 : Lane} {k : Nat} {u : State} (hlock : y.lock = true)
    (hy1 : y1 = { y.countHeads hs with fresh := y.fresh && hs.isEmpty }) (hk : k ≤ hs.length)
    (h16 : 16 ≤ ((hs.drop k).take 64).countP headBad)
    (hu : u = ((s.unheard g).setGroup g (x.setLane l { y1 with lock := false, fresh := false, lolEvt := satBump y.lolEvt 1 })).laneErrors g l
      (hs.countP headBad)) :
    exec (.blockLockLoss g l hs) s = .next (if x.st = .active ∧ l.val ∈ x.inUse g then u.toDetect g (u.group g) else u) := by
  rw [exec_blockLockLoss_of_locked hx hy hl hrate hlock hy1, if_pos ⟨k, hk, h16⟩, State.lockLost_eq hx hu]

variable {frame : BitVec 16} {skew : Fin 128} (hlock : y.lock = true)
include hlock

theorem exec_align_of_fresh (hfresh : y.fresh = true) :
    exec (.align g l frame skew) s = .next ((s.unheard g).setGroup g (x.setLane l { y with fresh := false })) := by
  subst hy hx
  refine (if_neg ?_).trans (if_pos hfresh)
  simpa [hl, hlock] using hrate

theorem exec_align_of_taken (hfresh : y.fresh = false) :
    exec (.align g l frame skew) s = .next (s.trainTo g ((LnpGroup.setLane { x with frame } l
      (if x.st ≠ .blockHunt then y else if skew.val ≤ 64 then { y with desk := true, bad := false, skew := BitVec.ofNat 10 skew }
        else { y with desk := false, bad := true })).hunted g)) := by
  subst hy hx
  refine (if_neg ?_).trans (if_neg (by simp [hfresh]))
  simpa [hl, hlock] using hrate

end Lane
end Sys2Proof.Machine

namespace Sys2Proof.Proofs
open Sys2Proof.Machine

/-- Settles O25: each clause is one of the cases of its command above. -/
theorem lanesNegotiateAndTrain : Obligations.LanesNegotiateAndTrain := by
  unfold Obligations.LanesNegotiateAndTrain
  intro s g x hx
  refine ⟨?caps, ?offer, fun hst => ⟨exec_step_in_step hx hst, exec_rateSwitchTimeout_in_step hx hst⟩,
    exec_trainingTimeout_in_training hx, ?lane, fun hst => ⟨fun l => exec_eqSweepComplete_in_eq hx hst, exec_ready_in_eq hx hst⟩⟩
  case caps =>
    intro m y hst hg hy
    exact ⟨exec_caps_of_unjoined hx hst hg hy, exec_caps_of_ready hx hst hg hy⟩
  case offer =>
    intro rate hst
    exact ⟨exec_offer_of_taken hx hst, exec_offer_of_refused hx⟩
  case lane =>
    intro l y hy hl hrate
    refine ⟨?_, ?_, fun frame skew hlock => ⟨exec_align_of_fresh hx hy hl hrate hlock, exec_align_of_taken hx hy hl hrate hlock⟩⟩
    · intro hs hlock hdata
      exact ⟨fun rest => exec_blockLock_of_found hx hy hl hrate hlock hdata, exec_blockLock_of_none hx hy hl hrate hlock hdata⟩
    · intro hs y1 hlock hy1
      exact ⟨exec_blockLockLoss_of_kept hx hy hl hrate hlock hy1, fun k u => exec_blockLockLoss_of_loss hx hy hl hrate hlock hy1⟩

end Sys2Proof.Proofs
end

section
/-!
PROOFS. Lane groups in ACTIVE and EIDLE (R281–R286, R300–R305): spare substitution, electrical idle and what no other command carries; and
obligation O26.
-/
namespace Sys2Proof.Machine

/-! ### Discarding the first block after lock -/

@[simp] theorem LnpGroup.dropFirst_st (x : LnpGroup) (l : Nat) : (x.dropFirst l).st = x.st := rfl

@[simp] theorem LnpGroup.dropFirst_inUse (x : LnpGroup) (l g : Nat) : (x.dropFirst l).inUse g = x.inUse g := rfl

@[simp] theorem LnpGroup.foldl_dropFirst_st (x : LnpGroup) (ls : List Nat) : (ls.foldl LnpGroup.dropFirst x).st = x.st := by
  induction ls generalizing x with
  | nil => rfl
  | cons l ls ih => exact ih (x.dropFirst l)

@[simp] theorem LnpGroup.foldl_dropFirst_inUse (x : LnpGroup) (ls : List Nat) (g : Nat) :
    (ls.foldl LnpGroup.dropFirst x).inUse g = x.inUse g := by
  induction ls generalizing x with
  | nil => rfl
  | cons l ls ih => exact ih (x.dropFirst l)

/-! ### A block that no other command carries -/

/-- A block that a lane takes: one of a TYPE that its group does not take counts in CODE_ERR, the first after lock apart (R284–R286). -/
theorem Lane.takeBlock_eq (y : Lane) (g : Nat) (head : BitVec 2) (payload : BitVec 96) (wrong : Fin 5) {y1 : Lane}
    (hy1 : y1 = { y.countHeads [(head, wrong)] with fresh := false }) :
    y.takeBlock g head payload wrong =
      if y.fresh = false ∧ headBad (head, wrong) = false ∧ head = 2 ∧ takesBlock g (payload.toNat / 2 ^ 88) = false then
        { y1 with codeErr := satBump y1.codeErr 1 } else y1 := by
  subst hy1
  exact if_congr (by simp [and_assoc]) rfl rfl

section Group
variable {s : State} {g : Fin 26} {x : LnpGroup} (hx : x = s.group g)
include hx

/-! ### Spare substitution -/

section Active
variable (hst : x.st = .active) (hg : g.val < 24)

section
include hst hg

theorem exec_spareRequest_of_peer (l : Fin 18) (f : BitVec 16) :
    exec (.spareRequest g l (some f)) s =
      .next (((s.unheard g).setGroup g { x with txSpare := some l.val, txPending := some f }).emit (.spare g 1 l f.toNat)) := by
  subst hx
  exact if_neg (by simp [hst, hg])

theorem exec_spareRequest_of_crossed {l : Fin 18} (hbad : (x.lane l).bad = true) (huse : l.val ∈ x.inUse g)
    (hfree : x.spareUsed = false) (hphase : x.phase = .none) :
    exec (.spareRequest g l none) s =
      .next ((s.setGroup g { x.setLane l { x.lane l with bad := false } with
        phase := .requested, spareLane := BitVec.ofNat 5 l, spareFrame := x.frame + 128 }).emit (.spare g 0 l (x.frame + 128).toNat)) := by
  subst hx
  refine (if_neg (by simp [hst, hg])).trans (if_neg ?_)
  simp [hbad, huse, hfree, hphase]

theorem exec_eidle_in_active {l : Fin 18} (copy : Fin 4) (hl : l.val < groupLanes g) :
    exec (.eidle g l copy) s = .next
      (if (x.lane l).fresh then (s.unheard g).setGroup g (x.setLane l { x.lane l with fresh := false })
        else s.trainTo g { x with st := .eidle }) := by
  subst hx
  exact congrArg Host.Outcome.next (if_neg (by simp [hst, hg, hl]))

end

include hst

theorem exec_spareAcknowledge_of_requested {l : Fin 18} (good : BitVec 15) (hphase : x.phase = .requested)
    (hlane : x.spareLane.toNat = l.val) (hbefore : x.reachedF = false) :
    exec (.spareAcknowledge g l good) s =
      .next (((s.sweepPeak good).2.unheard g).setGroup g
        { x.setLane (spareOf g) ((x.lane (spareOf g)).afterSweep good (s.sweepPeak good).1) with phase := .acknowledged }) := by
  subst hx
  exact if_neg (by simp [hst, hphase, hlane, hbefore])

theorem exec_spareSwitch_of_swept (hphase : x.phase = .acknowledged) (hgood : (x.lane (spareOf g)).bad = false)
    (hframe : x.frame = x.spareFrame) :
    exec (.spareSwitch g) s =
      .next ((s.setGroup g { x with phase := .none, spareUsed := true, spareFor := x.spareLane }).laneReplaced g x.spareLane.toNat 0) := by
  subst hx
  exact if_pos ⟨hst, hphase, by rw [hgood]; rfl, hframe⟩

end Active

theorem exec_spareSwitch_of_passed
    (hnot : ¬ (x.st = .active ∧ x.phase = .acknowledged ∧ (x.lane (spareOf g)).bad = false ∧ x.frame = x.spareFrame))
    (hpeer : x.txPending.isSome = true) (hpassed : x.spareOutstanding = false) :
    exec (.spareSwitch g) s = .next (s.setGroup g
      { x with txPending := none, txIdle := x.txIdle || x.idleHeld, idleHeld := false }) := by
  subst hx
  refine (if_neg ?_).trans (if_pos ⟨hpeer, by rw [hpassed]; rfl⟩)
  simpa using hnot

theorem exec_spareAbandon_of_peer {l : Fin 18} (hcopied : x.txSpare = some l.val) :
    exec (.spareAbandon g l true) s =
      .next ((s.unheard g).setGroup g { x with txSpare := none, txPending := none, txIdle := x.txIdle || x.idleHeld, idleHeld := false }) := by
  subst hx
  exact congrArg (fun y => Host.Outcome.next ((s.unheard g).setGroup g y)) (if_pos hcopied)

theorem exec_spareAbandon_of_own {l : Fin 18} (hlane : x.spareLane.toNat = l.val)
    (hfails : x.phase = .acknowledged ∧ (x.lane (spareOf g)).bad = true ∨ x.phase = .requested ∧ x.reachedF = true) :
    exec (.spareAbandon g l false) s = .next ((s.setGroup g { x with phase := .none }).emit (.spare g 2 l x.spareFrame.toNat)) := by
  subst hx
  exact if_pos ⟨hlane, hfails⟩

/-! ### BURST in EIDLE -/

section Burst
variable (hst : x.st = .eidle) {news : List Nat} (hnews : news = (x.inUse g).filter (fun k => (x.lane k).lock && (x.lane k).fresh))
  {y : LnpGroup} (hy : y = news.foldl (fun z k => z.setLane k { z.lane k with fresh := false }) x)
include hst hnews hy

/-- BURST in EIDLE discards the block of each lane whose first it is; at countdown 0, with a lane that takes it, the group is ACTIVE
again, or goes to DETECT for want of lock or deskew. -/
theorem exec_burst_in_eidle {n : Fin 128} {lacks : List Nat}
    (hlacks : lacks = (y.inUse g).filter (fun k => !((y.lane k).lock && (y.lane k).desk))) {x1 : LnpGroup}
    (hx1 : x1 = lacks.foldl (fun x k => x.setLane k { x.lane k with lock := false, lolEvt := satBump (x.lane k).lolEvt 1 }) y) :
    exec (.burst g n) s = if n.val ≠ 0 ∨ news = x.inUse g then .next ((s.unheard g).setGroup g y)
      else if lacks = [] then .next (s.trainOn g { y with st := .active }) else .next ((s.setGroup g x1).toDetect g x1) := by
  have hfold : y = news.foldl LnpGroup.dropFirst x := hy
  have hyst : y.st = .eidle := by rw [hfold, LnpGroup.foldl_dropFirst_st, hst]
  have huse : x.inUse g = y.inUse g := by rw [hfold, LnpGroup.foldl_dropFirst_inUse]
  rw [huse]
  subst hx1 hlacks hy hnews hx
  refine (if_neg (not_not.2 hyst)).trans (if_congr Iff.rfl rfl ?_)
  exact if_congr List.isEmpty_iff rfl rfl

theorem exec_burst_of_discarded {n : Fin 128} (hn : n.val ≠ 0 ∨ news = x.inUse g) :
    exec (.burst g n) s = .next ((s.unheard g).setGroup g y) := by
  rw [exec_burst_in_eidle hx hst hnews hy rfl rfl, if_pos hn]

theorem exec_burst_of_ended (hsome : news ≠ x.inUse g)
    (hheld : ∀ k ∈ x.inUse g, (y.lane k).lock = true ∧ (y.lane k).desk = true) :
    exec (.burst g 0) s = .next (s.trainOn g { y with st := .active }) := by
  have huse : y.inUse g = x.inUse g := by rw [hy]; exact LnpGroup.foldl_dropFirst_inUse x news g
  rw [exec_burst_in_eidle hx hst hnews hy rfl rfl, if_neg (by simp [hsome]), if_pos]
  rw [huse, List.filter_eq_nil_iff]
  intro k hk
  obtain ⟨hlock, hdesk⟩ := hheld k hk
  simp [hlock, hdesk]

theorem exec_burst_of_lacking (hsome : news ≠ x.inUse g) {lacks : List Nat} {x1 : LnpGroup}
    (hlacks : lacks = (y.inUse g).filter (fun k => !((y.lane k).lock && (y.lane k).desk))) (hne : lacks ≠ [])
    (hx1 : x1 = lacks.foldl (fun x k => x.setLane k { x.lane k with lock := false, lolEvt := satBump (x.lane k).lolEvt 1 }) y) :
    exec (.burst g 0) s = .next ((s.setGroup g x1).toDetect g x1) := by
  rw [exec_burst_in_eidle hx hst hnews hy hlacks hx1, if_neg (by simp [hsome]), if_neg hne]

end Burst

/-! ### INVALID_HEADER -/

section Unit
variable (hst : x.st ≠ .off) {l : Fin 18} (hl : l.val < groupLanes g) {y : Lane} (hy : y = x.lane l)
include hst hl hy

theorem exec_invalidHeader_codeError (hrate : x.rate = 0) :
    exec (.invalidHeader g l .codeError) s =
      .next (((s.unheard g).setGroup g (x.setLane l { y with codeErr := satBump y.codeErr 1 })).laneErrors g l 1) := by
  subst hy hx
  refine (if_neg (by simp [hst, hl])).trans (congrArg Host.Outcome.next (if_neg ?_))
  simp [hrate]

theorem exec_invalidHeader_orderedSet (type : Byte) (hrate : x.rate = 0) (hlock : y.lock = true) (hg : g.val < 24) :
    exec (.invalidHeader g l (.orderedSet type)) s = .next
      (if takesSet g type.toNat then s.unheard g else (s.unheard g).setGroup g (x.setLane l { y with codeErr := satBump y.codeErr 1 })) := by
  subst hy hx
  refine (if_neg (by simp [hst, hl])).trans (congrArg Host.Outcome.next (if_neg ?_))
  simp [hrate, hlock, hg]

theorem exec_invalidHeader_block (head : BitVec 2) (payload : BitVec 96) (wrong : Fin 5) {y1 : Lane} (hrate : x.rate ≠ 0)
    (hlock : y.lock = true) (hy1 : y1 = { y.countHeads [(head, wrong)] with fresh := false }) :
    exec (.invalidHeader g l (.block head payload wrong)) s =
      .next (((if head = 2 ∧ payload.toNat / 2 ^ 88 = 0 then s else s.unheard g).setGroup g (x.setLane l
        (if y.fresh = false ∧ headBad (head, wrong) = false ∧ head = 2 ∧ takesBlock g (payload.toNat / 2 ^ 88) = false then
          { y1 with codeErr := satBump y1.codeErr 1 } else y1))).laneErrors g l (if headBad (head, wrong) then 1 else 0)) := by
  rw [← Lane.takeBlock_eq y g head payload wrong hy1]
  subst hy hx
  refine (if_neg (by simp [hst, hl])).trans (congrArg Host.Outcome.next (if_neg ?_))
  simpa [hlock] using hrate

end Unit
end Group
end Sys2Proof.Machine

namespace Sys2Proof.Proofs
open Sys2Proof.Machine

/-- Settles O26: each clause is one of the cases of its command above. -/
theorem lanesInActive : Obligations.LanesInActive := by
  unfold Obligations.LanesInActive
  intro s g l x hx
  refine ⟨?active, exec_spareSwitch_of_passed hx, exec_spareAbandon_of_peer hx, exec_spareAbandon_of_own hx, ?burst, ?invalid⟩
  case active =>
    intro hst hg
    exact ⟨exec_spareRequest_of_peer hx hst hg l, exec_spareRequest_of_crossed hx hst hg, exec_spareAcknowledge_of_requested hx hst,
      exec_spareSwitch_of_swept hx hst, exec_eidle_in_active hx hst hg⟩
  case burst =>
    intro hst news y hnews hy
    exact ⟨fun n => exec_burst_of_discarded hx hst hnews hy, fun hsome => ⟨exec_burst_of_ended hx hst hnews hy hsome,
      fun lacks x1 => exec_burst_of_lacking hx hst hnews hy hsome⟩⟩
  case invalid =>
    intro hst hl y hy
    exact ⟨exec_invalidHeader_codeError hx hst hl hy, fun type => exec_invalidHeader_orderedSet hx hst hl hy type,
      fun head payload wrong y1 => exec_invalidHeader_block hx hst hl hy head payload wrong⟩

end Sys2Proof.Proofs
end

section
/-!
PROOFS. PTP frames, PPS pulses, the latch and the lock (R308, R317–R320, R329, R330, R693, R696); and obligation O28.
-/
namespace Sys2Proof.Machine

/-! ### Timestamps -/

theorem TimePort.stamp_eq (q : TimePort) (sent : Bool) (f : PtpFrame) (t : Int) :
    q.stamp sent f t = if ptpEvent f.kind then { q with
      events := q.events + 1, stamps := q.stamps ++ [{ sent, kind := ptpCode f.kind, seqNo := f.seq.toNat, time := t }] } else q := rfl

/-- What a message leaves with, as an origin time and a correction by its kind (R320). -/
theorem stampFrame_eq (f : PtpFrame) (t asym : Int) (rx : Option Int) :
    stampFrame f t asym rx = (if f.kind = .sync then t.toNat / 65536 * 65536 else f.origin,
      if f.kind = .sync then f.correction + (t.toNat % 65536 : Nat)
      else if f.kind = .pdelayResp then f.correction + (t - rx.getD t)
      else if f.kind = .delayReq ∨ f.kind = .pdelayReq then f.correction - asym else f.correction) := by
  unfold stampFrame
  cases f.kind <;> simp

/-- The trackers that follow a frame on a port. -/
def State.followers (s : State) (p : Nat) (f : PtpFrame) : List Nat :=
  (List.range 2).filter fun k => (SMap.get {} s.tb.domains k : Domain).follows p f

theorem State.followers_eq_nil {s : State} {p : Nat} {f : PtpFrame} :
    s.followers p f = [] ↔ ∀ k < 2, (SMap.get {} s.tb.domains k : Domain).follows p f = false := by
  simp [State.followers, List.filter_eq_nil_iff]

/-! ### Pulses that a pin is asked for -/

/-- A pulse that a pin is asked for: by a firing, or by the last second boundary not yet dealt with. `p1` is the pin that has dealt
with it (R329). -/
def PpsPin.Asks (p : PpsPin) (now t : TimeVal) (p1 : PpsPin) : Prop :=
  (∃ rest : List TimeVal, p.want = t :: rest ∧ p1 = { p with want := rest }) ∨
    p.want = [] ∧ p.lastEdge now = some t ∧ p.edge ≠ some t ∧ p1 = { p with edge := some t }

/-- What a pin has dealt with changes neither its last pulse nor the form of its pulses. -/
theorem PpsPin.Asks.same {p p1 : PpsPin} {now t : TimeVal} (hasks : p.Asks now t p1) :
    p1.lastEnd = p.lastEnd ∧ p1.width = p.width ∧ p1.pol = p.pol ∧ p1.skipped = p.skipped := by
  rcases hasks with ⟨rest, -, rfl⟩ | ⟨-, -, -, rfl⟩ <;> exact ⟨rfl, rfl, rfl, rfl⟩

/-! ### What no tracker sends -/

theorem exec_ptpFrameTx_of_no_sender {s : State} {p : Fin 2} {f : PtpFrame} {ds : List Nat}
    (hds : ds = (List.range 2).filter (fun k => (SMap.get ({} : Domain) s.tb.domains k).follows p f &&
      (SMap.get ({} : Domain) s.tb.domains k).sends f.kind)) (hnil : ds = []) :
    exec (.ptpFrameTx p f) s = .next s := by
  subst hds
  exact if_pos (.inr (.inl (List.isEmpty_iff.2 hnil)))

section Time
variable {s : State} (htime : s.timeOff = false)
include htime

/-! ### PTP_FRAME_RX -/

section Frame
variable {p : Fin 2} {f : PtpFrame} {q : TimePort} (hq : q = SMap.get {} s.tb.ports p)
include hq

section Received
variable {put : TimePort → State} (hput : put = fun q => { s with tb := { s.tb with ports := SMap.set {} s.tb.ports p q } })
include hput

theorem exec_ptpFrameRx_of_discarded
    (hbad : f.isPtp = false ∨ f.fcsOk = false ∨ 1 < f.tags ∨ ∀ k < 2, (SMap.get ({} : Domain) s.tb.domains k).follows p f = false) :
    exec (.ptpFrameRx p f) s = .next (put { q with discard := satBump q.discard 1 }) := by
  subst hput hq
  refine (if_neg (by simp [htime])).trans (if_pos ?_)
  rw [← State.followers_eq_nil] at hbad
  simpa [State.followers] using hbad

theorem exec_ptpFrameRx_of_followed {t : Int} (ht : t = (s.markTime f.mark : Int) + 64 * 65536 - q.rxLat.toNat * 8192)
    (hptp : f.isPtp = true) (hfcs : f.fcsOk = true) (htags : f.tags ≤ 1) {ds : List Nat} (hds : ds = s.followers p f) (hne : ds ≠ [])
    {u : State} (hu : u = put (if ptpEvent f.kind then { q with
      events := q.events + 1, stamps := q.stamps ++ [{ sent := false, kind := ptpCode f.kind, seqNo := f.seq.toNat, time := t }] } else q)) :
    exec (.ptpFrameRx p f) s =
      .next (if ptpInterval false f then ds.foldl (fun s k => s.trackerHears k t q.delayAsym f) u else u) := by
  rw [← TimePort.stamp_eq] at hu
  have hgood : ¬ ((!f.isPtp) = true ∨ (!f.fcsOk) = true ∨ 1 < f.tags ∨ ds.isEmpty = true) := by simp [hptp, hfcs, htags, hne]
  subst hu ht hput hds hq
  exact (if_neg (by simp [htime])).trans (if_neg hgood)

end Received

/-! ### PTP_FRAME_TX -/

section Sent
variable {ds : List Nat} (hds : ds = (List.range 2).filter (fun k => (SMap.get ({} : Domain) s.tb.domains k).follows p f &&
  (SMap.get ({} : Domain) s.tb.domains k).sends f.kind))
include hds

theorem exec_ptpFrameTx_of_sender {t : Int} (ht : t = (s.markTime f.mark : Int) + 64 * 65536 + q.txLat.toNat * 8192) {rx : Option Int}
    (hrx : rx = (ds.findSome? fun k => (SMap.get ({} : Domain) s.tb.domains k).reqRx.filter fun r => r.1 == f.seq.toNat).map (·.2))
    {q1 : TimePort} (hq1 : q1 = if ptpEvent f.kind then { q with
      events := q.events + 1, stamps := q.stamps ++ [{ sent := true, kind := ptpCode f.kind, seqNo := f.seq.toNat, time := t }] } else q)
    (hne : ds ≠ []) (hone : f.twoStep = false) (htags : f.tags = 0) (hint : ptpInterval true f = true) :
    exec (.ptpFrameTx p f) s = .next (State.emit
      { s with tb := { s.tb with
        ports := SMap.set {} s.tb.ports p q1
        domains := ds.foldl (fun m k => SMap.modify {} m k fun d =>
          if f.kind = .delayReq ∨ f.kind = .pdelayReq then { d with reqTx := some (f.seq.toNat, t) } else d) s.tb.domains } }
      (.ptp p (ptpCode f.kind)
        (if f.kind = .sync then t.toNat / 65536 * 65536 else f.origin)
        (if f.kind = .sync then f.correction + (t.toNat % 65536 : Nat)
          else if f.kind = .pdelayResp then f.correction + (t - rx.getD t)
          else if f.kind = .delayReq ∨ f.kind = .pdelayReq then f.correction - q.delayAsym else f.correction)
        (if f.udp then some 0 else none) true)) := by
  rw [← TimePort.stamp_eq] at hq1
  have hgoes : ¬ (s.timeOff = true ∨ ds.isEmpty = true ∨ f.twoStep = true ∨ f.tags ≠ 0 ∨ (!ptpInterval true f) = true) := by
    simp [htime, hne, hone, htags, hint]
  have hask : (f.kind == .delayReq || f.kind == .pdelayReq) = decide (f.kind = .delayReq ∨ f.kind = .pdelayReq) := by
    simp [Bool.decide_or, beq_eq_decide]
  subst hq1 hrx ht hds hq
  change execPtpFrameTx p f s = _
  simp only [execPtpFrameTx, txStamp, stampFrame_eq, hask, if_neg hgoes, decide_eq_true_eq]

end Sent
end Frame

/-! ### PPS_OUT_PULSE -/

section Pulse
variable {n : Fin 4} {p p1 : PpsPin} {t : TimeVal} (hp : p = SMap.get {} s.tb.pps n) (hmode : p.mode ≠ 0) (hon : s.flt.halted = false)
  (hasks : p.Asks s.now t p1)
include hp hmode hon hasks

theorem exec_ppsOutPulse_of_asked : exec (.ppsOutPulse n) s = .next (s.ppsPulse n p1 t) := by
  subst hp
  have hact : ¬ ((SMap.get ({} : PpsPin) s.tb.pps n).mode = 0 ∨ s.flt.halted = true ∨ s.timeOff = true) := by
    simpa [hon, htime] using hmode
  change execPpsOutPulse n s = _
  rcases hasks with ⟨rest, hwant, rfl⟩ | ⟨hwant, hlast, hnew, rfl⟩
  · simp only [execPpsOutPulse, if_neg hact, hwant]
  · simp only [execPpsOutPulse, if_neg hact, hwant, hlast, if_neg hnew]

theorem exec_ppsOutPulse_of_invalid (hst : s.tb.st = .invalid) :
    exec (.ppsOutPulse n) s = .next { s with tb := { s.tb with pps := SMap.set {} s.tb.pps n p1 } } :=
  (exec_ppsOutPulse_of_asked htime hp hmode hon hasks).trans (congrArg Host.Outcome.next (if_pos hst))

theorem exec_ppsOutPulse_of_early (hst : s.tb.st ≠ .invalid) (hlast : p.lastEnd ≠ 0)
    (hearly : t / 1024 * 1024 < p.lastEnd + p.width * 65536) :
    exec (.ppsOutPulse n) s =
      .next { s with tb := { s.tb with pps := SMap.set {} s.tb.pps n { p1 with skipped := satBump p.skipped 1 } } } := by
  obtain ⟨hend, hwidth, -, hskip⟩ := hasks.same
  rw [exec_ppsOutPulse_of_asked htime hp hmode hon hasks, ← hskip]
  exact congrArg Host.Outcome.next ((if_neg hst).trans (if_pos (by rw [hend, hwidth]; exact ⟨hlast, hearly⟩)))

theorem exec_ppsOutPulse_of_due (hst : s.tb.st ≠ .invalid) (hdue : p.lastEnd = 0 ∨ p.lastEnd + p.width * 65536 ≤ t / 1024 * 1024) :
    exec (.ppsOutPulse n) s = .next (State.emit
      { s with tb := { s.tb with pps := SMap.set {} s.tb.pps n { p1 with lastEnd := t / 1024 * 1024 + p.width * 65536 } } }
      (.pps n (t / 1024 * 1024) p.width p.pol)) := by
  obtain ⟨hend, hwidth, hpol, -⟩ := hasks.same
  rw [exec_ppsOutPulse_of_asked htime hp hmode hon hasks, ← hwidth, ← hpol]
  refine congrArg Host.Outcome.next ((if_neg hst).trans (if_neg ?_))
  rw [hend, hwidth]
  rintro ⟨hlast, hearly⟩
  exact hdue.elim hlast (not_le.2 hearly)

end Pulse

/-! ### The latch and the lock -/

theorem exec_tbsLatch_of_on (hon : s.flt.halted = false) : exec .tbsLatch s = .next { s with tb := { s.tb with
    lt0 := BitVec.ofNat 32 (bitsOf (timeWord s.now) 64 32)
    lt1 := BitVec.ofNat 32 (bitsOf (timeWord s.now) 48 16 * 2 ^ 16 + bitsOf (timeWord s.now) 0 16)
    lt2 := BitVec.ofNat 32 (bitsOf (timeWord s.now) 16 30) } } :=
  congrArg Host.Outcome.next (if_neg (by simp [hon, htime]))

theorem exec_tbsLock_of_on (hon : s.flt.halted = false) :
    exec .tbsLock s = .next { s with tb := { s.tb with ctrl := { s.tb.ctrl with lock := true } } } :=
  if_neg (by simp [hon, htime])

end Time
end Sys2Proof.Machine

namespace Sys2Proof.Proofs
open Sys2Proof.Machine

/-- Settles O28: each clause is one of the cases of its command above. -/
theorem ptpPpsAndLatch : Obligations.PtpPpsAndLatch := by
  unfold Obligations.PtpPpsAndLatch
  intro s htime
  refine ⟨?frames, ?pulses, exec_tbsLatch_of_on htime, exec_tbsLock_of_on htime⟩
  case frames =>
    intro p f q put t hq hput
    refine ⟨exec_ptpFrameRx_of_discarded htime hq hput, ?received, ?sent⟩
    case received =>
      intro ds ht hptp hfcs htags hds hne u hu
      rw [exec_ptpFrameRx_of_followed htime hq hput ht hptp hfcs htags hds hne hu]
      exact ⟨fun h => by rw [if_pos h], fun h => by rw [h]; rfl⟩
    case sent =>
      intro ds rx q1 ht hds hrx hq1
      exact ⟨exec_ptpFrameTx_of_no_sender hds, exec_ptpFrameTx_of_sender htime hq hds ht hrx hq1⟩
  case pulses =>
    intro n p p1 t hp hmode hon hasks
    exact ⟨exec_ppsOutPulse_of_invalid htime hp hmode hon hasks, exec_ppsOutPulse_of_early htime hp hmode hon hasks,
      exec_ppsOutPulse_of_due htime hp hmode hon hasks⟩

end Sys2Proof.Proofs
end

section
/-!
PROOFS. Trigger messages, TRIG lines and the detector's registers (R384–R398, R406, R418); and obligation O32.
-/
namespace Sys2Proof.Machine

section Running
variable {s : State} (hon : s.flt.halted = false)

/-! ### TRIGGER_MESSAGE_SEND -/

section Send
variable {p : Fin 64}

include hon in
theorem exec_triggerMessageSend_of_due {mine : TrigMsg → Bool} (hmine : mine = fun m => m.pipe.toNat == p.val && decide (m.due ≤ s.now))
    {m : TrigMsg} (hm : s.trp.msgs.find? mine = some m) {s2 : State}
    (hs2 : s2 = (({ s with trp := { s.trp with msgs := s.trp.msgs.eraseIdx (s.trp.msgs.findIdx mine) } } : State).toHeadboxes m).toLines m) :
    exec (.triggerMessageSend p) s = .next
      ((if (s.pipe p).ctl.xout then s2.floodPacket none (m.packet s.xms.regs.rank s.xms.regs.radius.toNat) else s2).postEvent
        0x0003 noRing (s.pipe p).handle.toNat m.pack) := by
  subst hs2 hmine
  change execTriggerMessageSend p s = _
  simp only [execTriggerMessageSend, hm, hon, Bool.false_eq_true, if_false]

theorem exec_triggerMessageSend_of_none_due (hnone : ∀ m ∈ s.trp.msgs, m.pipe.toNat = p.val → ¬ m.due ≤ s.now) :
    exec (.triggerMessageSend p) s = .next s := by
  have hfind : s.trp.msgs.find? (fun m => m.pipe.toNat == p.val && decide (m.due ≤ s.now)) = none := by
    simpa [List.find?_eq_none] using hnone
  change execTriggerMessageSend p s = _
  simp only [execTriggerMessageSend, hfind]

end Send

/-! ### TRIG_OUT_PULSE -/

section Line
variable {n : Fin 8} {l : TrigLine} (hl : l = s.line n)

theorem exec_trigOutPulse_of_no_schedule (h : (s.line n).sched = []) : exec (.trigOutPulse n) s = .next s := by
  change execTrigOutPulse n s = _
  simp only [execTrigOutPulse, h]

section Scheduled
variable {m : TrigMsg} {rest : List TrigMsg} (hsched : l.sched = m :: rest)
include hl hsched

/-- The oldest message scheduled on a line, its pulse to begin at `t`: dropped where the mode has changed, merged within the width after
the last pulse, and else sent (R395, R397). -/
theorem exec_trigOutPulse_of_scheduled {t : Nat} (ht : t = (m.due + 120 * 65536 - lineDelay l.dly.toNat) / 1024 * 1024) :
    exec (.trigOutPulse n) s = if l.mode ≠ 1 then .next (s.setLine n { l with sched := rest })
      else if l.lastEnd ≠ 0 ∧ t < l.lastEnd + l.width.toNat * 65536 then
        .next (s.setLine n { l with sched := rest, merged := satBump l.merged 1 })
      else .next ((s.setLine n { l with sched := rest, lastEnd := t + l.width.toNat * 65536, edges := l.edges + 1 }).emit
        (.trig n t l.width.toNat l.pol)) := by
  subst ht hl
  change execTrigOutPulse n s = _
  simp only [execTrigOutPulse, hsched]

theorem exec_trigOutPulse_of_due {t : Nat} (hmode : l.mode = 1) (ht : t = (m.due + 120 * 65536 - lineDelay l.dly.toNat) / 1024 * 1024)
    (hdue : l.lastEnd = 0 ∨ l.lastEnd + l.width.toNat * 65536 ≤ t) :
    exec (.trigOutPulse n) s = .next ((s.setLine n { l with
      sched := rest, lastEnd := t + l.width.toNat * 65536, edges := l.edges + 1 }).emit (.trig n t l.width.toNat l.pol)) := by
  rw [exec_trigOutPulse_of_scheduled hl hsched ht, if_neg (not_not.2 hmode), if_neg]
  rintro ⟨hlast, hearly⟩
  exact hdue.elim hlast (not_le.2 hearly)

theorem exec_trigOutPulse_of_early {t : Nat} (hmode : l.mode = 1) (ht : t = (m.due + 120 * 65536 - lineDelay l.dly.toNat) / 1024 * 1024)
    (hlast : l.lastEnd ≠ 0) (hearly : t < l.lastEnd + l.width.toNat * 65536) :
    exec (.trigOutPulse n) s = .next (s.setLine n { l with sched := rest, merged := satBump l.merged 1 }) := by
  rw [exec_trigOutPulse_of_scheduled hl hsched ht, if_neg (not_not.2 hmode), if_pos ⟨hlast, hearly⟩]

theorem exec_trigOutPulse_of_other_mode (hmode : l.mode ≠ 1) :
    exec (.trigOutPulse n) s = .next (s.setLine n { l with sched := rest }) := by
  rw [exec_trigOutPulse_of_scheduled hl hsched rfl, if_pos hmode]

end Scheduled

/-! ### TRIG_IN_EDGE -/

theorem exec_trigInEdge_of_inactive {falling : Bool} (mark : Mark) (h : (s.line n).mode ≠ 2 ∨ falling ≠ (s.line n).pol) :
    exec (.trigInEdge n falling mark) s = .next s :=
  if_pos (h.imp_right .inl)

include hon hl

theorem exec_trigInEdge_of_active {mark : Mark} {time : TimeVal} (hmode : l.mode = 2) (htime : time = s.markTime mark) :
    exec (.trigInEdge n l.pol mark) s = .next ((List.range 64).foldl (fun s p =>
      if bitAt l.mask.toNat p = true ∧ (s.pipe p).ports.any (·.sid.isSome) = true then
        { s.setPipe p { s.pipe p with triggers := (s.pipe p).triggers + 1 } with
          trp := { (s.setPipe p { s.pipe p with triggers := (s.pipe p).triggers + 1 }).trp with
            msgs := (s.setPipe p { s.pipe p with triggers := (s.pipe p).triggers + 1 }).trp.msgs ++ [
              { tpoint := time - lineDelay l.dly.toNat - if l.subOfs then 120 * 65536 else 0
                due := time, tseq := (s.pipe p).triggers + 1, rank := s.xms.regs.rank
                sid := BitVec.ofNat 10 ((s.pipe p).refSid.getD 0), pipe := BitVec.ofNat 6 p, group := (s.pipe p).ctl.groupOut
                source := 1, line := BitVec.ofNat 3 n, untimed := s.tb.st == .invalid }] } }
      else s) (s.setLine n { l with edges := l.edges + 1 })) := by
  subst htime hl
  refine (if_neg (by simp [hmode, hon])).trans (congrArg Host.Outcome.next (List.foldl_ext _ _ _ fun u p _ => ?_))
  rw [← ite_not]
  exact if_congr (by simp [or_iff_not_imp_left, Option.isSome_iff_ne_none]) rfl rfl

/-! ### The registers of a line -/

theorem exec_trigLineWrite_of_claimed (v : Word) (hclaimed : (s.holder 3 n).isSome = true) :
    exec (.trigLineWrite n 0 v) s = .next (s.setLine n { l with
      mode := BitVec.ofNat 2 (bitsOf v.toNat 30 2), pol := bitAt v.toNat 29, subOfs := bitAt v.toNat 28
      dly := BitVec.ofNat 9 (min 500 (bitsOf v.toNat 19 9)), width := BitVec.ofNat 10 (max 8 (bitsOf v.toNat 9 10)) }) ∧
    exec (.trigLineWrite n 1 v) s = .next (s.setLine n { l with mask := BitVec.ofNat 64 (l.mask.toNat / 2 ^ 32 * 2 ^ 32 + v.toNat) }) ∧
    exec (.trigLineWrite n 2 v) s = .next (s.setLine n { l with mask := BitVec.ofNat 64 (v.toNat * 2 ^ 32 + l.mask.toNat % 2 ^ 32) }) := by
  subst hl
  have hrun : ¬ s.flt.halted = true := by simp [hon]
  have hheld : ¬ (s.holder 3 n).isNone = true := by simpa [Option.isSome_iff_ne_none] using hclaimed
  refine ⟨?_, ?_, ?_⟩ <;> exact congrArg Host.Outcome.next ((if_neg hrun).trans (if_neg hheld))

theorem exec_trigLineWrite_of_unclaimed (v : Word) (r : Fin 3) (hfree : (s.holder 3 n).isNone = true) :
    exec (.trigLineWrite n r v) s = .next
      (({ s with flt := { s.flt with unclWr := satBump s.flt.unclWr 1 } } : State).setLine n { l with unclaimedWr := true }) := by
  subst hl
  exact congrArg Host.Outcome.next ((if_neg (by simp [hon])).trans (if_pos hfree))

end Line

/-! ### The registers of a detector -/

section Detector
variable {p : Fin 64} {q : Pipe} (hq : q = s.pipe p)
include hon hq

theorem exec_trpDetWrite_of_idle (v : Word) (hwarm : q.st ≠ .warm) (hlive : q.st ≠ .live) :
    exec (.trpDetWrite p false v) s = .next (s.setPipe p { q with ctl := { q.ctl with
      thr := BitVec.ofNat 16 (bitsOf v.toNat 16 16), hys := BitVec.ofNat 16 (bitsOf v.toNat 0 16) } }) ∧
    exec (.trpDetWrite p true v) s = .next (s.setPipe p { q with ctl := { q.ctl with
      dir := BitVec.ofNat 2 (bitsOf v.toNat 30 2), single := bitAt v.toNat 29, epochReq := bitAt v.toNat 28
      warm := BitVec.ofNat 12 (bitsOf v.toNat 12 12), holdoff := BitVec.ofNat 12 (bitsOf v.toNat 0 12) } }) := by
  subst hq
  have hrun : ¬ s.flt.halted = true := by simp [hon]
  have hidle : ¬ ((s.pipe p).st = .warm ∨ (s.pipe p).st = .live) := not_or.2 ⟨hwarm, hlive⟩
  constructor <;> exact congrArg Host.Outcome.next ((if_neg hrun).trans (if_neg hidle))

theorem exec_trpDetWrite_of_running (v : Word) (b : Bool) (hst : q.st = .warm ∨ q.st = .live) :
    exec (.trpDetWrite p b v) s = .next
      (({ s with flt := { s.flt with wrIgn := satBump s.flt.wrIgn 1 } } : State).setPipe p { q with wrIgn := true }) := by
  subst hq
  exact congrArg Host.Outcome.next ((if_neg (by simp [hon])).trans (if_pos hst))

end Detector

/-! ### HEADBOX_TRIGGER_MESSAGE -/

theorem exec_headboxTriggerMessage_of_empty {e : Fin 4} (h : SMap.get [] s.trp.inbox e = []) :
    exec (.headboxTriggerMessage e) s = .next s := by
  change execHeadboxTriggerMessage e s = _
  simp only [execHeadboxTriggerMessage, h, ite_self]

theorem exec_headboxTriggerMessage_of_some {e : Fin 4} {m : TrigMsg} {rest : List TrigMsg} (hrun : s.headboxOff = false)
    (h : SMap.get [] s.trp.inbox e = m :: rest) :
    exec (.headboxTriggerMessage e) s = .next (((s.hbx.streams.map (·.1)).filter fun i => sidGroup i / 4 == e.val).foldl (fun s i =>
      if m.bad then s.setStream i ((s.stream i).retract m)
      else if (s.stream i).accepts m then s.openRecord i m.record else s)
      { s with trp := { s.trp with inbox := SMap.set [] s.trp.inbox e rest } }) := by
  change execHeadboxTriggerMessage e s = _
  simp only [execHeadboxTriggerMessage, h, hrun, Bool.false_eq_true, if_false]

end Running
end Sys2Proof.Machine

namespace Sys2Proof.Proofs
open Sys2Proof.Machine

/-- Settles O32: each clause is one of the cases of its command above. -/
theorem triggersAndLines : Obligations.TriggersAndLines := by
  unfold Obligations.TriggersAndLines
  intro s hon
  refine ⟨?send, ?pulse, ?other, fun n falling mark => exec_trigInEdge_of_inactive mark, ?nothing, ?edge, ?detector, ?line, ?headbox⟩
  case send => exact fun p m mine s2 hmine hm hs2 => exec_triggerMessageSend_of_due hon hmine hm hs2
  case pulse =>
    intro n l m rest t hl hmode hsched ht
    exact ⟨exec_trigOutPulse_of_due hl hsched hmode ht, exec_trigOutPulse_of_early hl hsched hmode ht⟩
  case other => exact fun n l m rest hl hmode hsched => exec_trigOutPulse_of_other_mode hl hsched hmode
  case nothing =>
    exact fun p n e => ⟨exec_triggerMessageSend_of_none_due, exec_trigOutPulse_of_no_schedule, exec_headboxTriggerMessage_of_empty⟩
  case edge => exact fun n l mark time hl hmode htime => ⟨_, exec_trigInEdge_of_active hon hl hmode htime, rfl⟩
  case detector =>
    intro p v q hq
    exact ⟨exec_trpDetWrite_of_idle hon hq v, exec_trpDetWrite_of_running hon hq v⟩
  case line =>
    intro n v l hl
    exact ⟨exec_trigLineWrite_of_claimed hon hl v, exec_trigLineWrite_of_unclaimed hon hl v⟩
  case headbox => exact fun e m rest => exec_headboxTriggerMessage_of_some

end Sys2Proof.Proofs
end

section
/-!
PROOFS. One TIME cycle (R252, R308, R368, R533, R639): what each part of the device does in it; and obligation O2.
-/
namespace Sys2Proof.Machine

/-! ### Which cycle it is -/

theorem step_of_idle {s : State} (hidle : s.pending = []) : step s = .next (tick s) := by
  rw [step, hidle]

theorem tick_of_held {s : State} (hheld : s.bru.held = true) : tick s = s := if_pos hheld

section Released
variable {s : State} (hrel : s.bru.held = false)
include hrel

theorem tick_in_watch (hst : s.pwr.st = .watch) : tick s = s.watchTick := (if_neg (by simp [hrel])).trans (if_pos hst)

theorem tick_of_running (hst : s.pwr.st ≠ .watch) :
    tick s = ({ s with tb := s.tb.tick } : State).deckleTick.frameTick.laneTick.updateTick :=
  (if_neg (by simp [hrel])).trans (if_neg hst)

end Released

/-- In Watch the count of the time since W goes on, and the exit begins where a source is recorded and entry is complete (R639). -/
theorem State.watchTick_in_watch {s : State} (hst : s.pwr.st = .watch) :
    s.watchTick = if s.pwr.wake ≠ 0 ∧ s.pwr.entryEnds ≤ s.pwr.sinceWait + 12 then
        { s with pwr := { s.pwr with sinceWait := s.pwr.sinceWait + 12, waking := true }, enables := s.enables ||| 1 }
      else { s with pwr := { s.pwr with sinceWait := s.pwr.sinceWait + 12 } } :=
  if_congr (and_iff_right hst) rfl rfl

/-! ### The parts of a cycle -/

theorem State.frameTick_of_unaligned {s : State} (h : s.gddr.aligned = false) : s.frameTick = s := if_pos (by simp [h])

/-- The device as an aligned calender has moved 3 of its 2,048 parts: at the frame's end XMS.FRAME counts and every deckle clock meets a
boundary (R252, R368). -/
def State.frameMoved (s : State) : State :=
  if s.gddr.frame + 3 < 2048 then { s with gddr := { s.gddr with frame := s.gddr.frame + 3 } }
  else { s with
    gddr := { s.gddr with frame := s.gddr.frame + 3 - 2048 }
    trp := { s.trp with clocks := (List.range 20).foldl (fun m d =>
      SMap.set {} m d ((s.deckle d).boundary s.tb.value (s.gddr.frame + 3 - 2048))) s.trp.clocks }
    xms := { s.xms with regs := { s.xms.regs with frame := s.xms.regs.frame + 1 } } }

@[simp] theorem State.frameMoved_lanes (s : State) : s.frameMoved.lanes = s.lanes := by
  unfold State.frameMoved; split <;> rfl

@[simp] theorem State.frameMoved_sec (s : State) : s.frameMoved.sec = s.sec := by
  unfold State.frameMoved; split <;> rfl

theorem State.frameTick_of_aligned {s : State} (h : s.gddr.aligned = true) :
    s.frameTick = if s.frameMoved.segment = s.segment then s.frameMoved else s.frameMoved.beginSegment := by
  have halign : ¬ (!s.gddr.aligned) = true := by simp [h]
  by_cases hlast : s.gddr.frame + 3 < 2048
  · rw [State.frameMoved, if_pos hlast]
    exact (if_neg halign).trans (if_pos hlast)
  · rw [State.frameMoved, if_neg hlast]
    exact (if_neg halign).trans (if_neg hlast)

theorem State.laneTick_of_silent {s : State} (h : s.lanes.any (·.2.sendsSlots) = false) : s.laneTick = s := if_pos (by simp [h])

theorem State.updateTick_of_no_job {s : State} (h : s.sec.job = none) : s.updateTick = s := by
  rw [State.updateTick, h]

end Sys2Proof.Machine

namespace Sys2Proof.Proofs
open Sys2Proof.Machine

/-- Settles O2: the parts of a cycle follow one another, and each clause drops the parts that have nothing to do. -/
theorem idleStepTicksTheTimeBase : Obligations.IdleStepTicksTheTimeBase := by
  unfold Obligations.IdleStepTicksTheTimeBase
  intro s u hidle
  rw [step_of_idle hidle]
  refine ⟨fun hheld => by rw [tick_of_held hheld],
    fun hrel hst => by rw [tick_in_watch hrel hst, State.watchTick_in_watch hst], ?running⟩
  intro hrel hst hu
  have hclock : u = ({ s with tb := s.tb.tick } : State).deckleTick := hu
  have hgddr : s.gddr = u.gddr := by rw [hu]
  have hxms : s.xms = u.xms := by rw [hu]
  have hlanes : s.lanes = u.lanes := by rw [hu]
  have hsec : s.sec = u.sec := by rw [hu]
  clear hu
  rw [tick_of_running hrel hst, ← hclock, hgddr, hxms, hlanes, hsec]
  refine ⟨rfl, ?unaligned, ?aligned⟩
  case unaligned =>
    intro halign hsilent hjob
    rw [State.frameTick_of_unaligned halign, State.laneTick_of_silent hsilent, State.updateTick_of_no_job hjob]
  case aligned =>
    intro halign hsilent v hv
    have hmoved : v = u.frameMoved := hv
    rw [State.frameTick_of_aligned halign, ← hmoved]
    refine ⟨fun hseg hjob => ?_, fun hseg hquiet => ?_⟩
    · rw [if_pos hseg, State.laneTick_of_silent (by rwa [hmoved, State.frameMoved_lanes]),
        State.updateTick_of_no_job (by rwa [hmoved, State.frameMoved_sec])]
    · rw [if_neg hseg, State.laneTick_of_silent hquiet]

end Sys2Proof.Proofs
end

section
/-!
PROOFS. Measurements and sources of the time base (R309–R316, R325, R328, R330): each command by the ends it can have; and obligation O27.
-/
namespace Sys2Proof.Machine

/-! ### A measurement -/

/-- A measurement that takes the time base out of INVALID marks the starts passed, settles the pins and opens the step gaps (R325, R330). -/
theorem State.measured_eq {s : State} {src : Nat} {e : Int} {t w : TimeBase} (ht : t = s.tb.measure src e)
    (hw : w = if s.tb.st = .invalid ∧ t.st = .locked then { t.markPassed s.now (t.value / 65536) with
      pps := (List.range 4).foldl (fun p n => SMap.modify {} p n fun p => p.settle (t.value / 65536)) t.pps } else t) :
    s.measured src e = { (if s.tb.st = .invalid ∧ t.st = .locked then s.stepGaps else s) with
      tb := if src < 2 then { w with domains := SMap.modify {} w.domains src fun d => if d.pstate = 2 then { d with pstate := 3 } else d }
        else w } := by
  subst hw ht
  have hstep : (s.tb.st == .invalid && (s.tb.measure src e).st == .locked) =
      decide (s.tb.st = .invalid ∧ (s.tb.measure src e).st = .locked) := by
    simp [Bool.decide_and, beq_eq_decide]
  simp only [State.measured, hstep, decide_eq_true_eq, State.now]

theorem exec_servoMeasurement_of_other {s : State} {src : Fin 4} {e : Int}
    (hother : s.tb.due.find? (fun m => m.1 == src.val) ≠ some (src.val, e)) : exec (.servoMeasurement src e) s = .next s := by
  change execServoMeasurement src e s = _
  cases hfind : s.tb.due.find? (fun m => m.1 == src.val) with
  | none => simp only [execServoMeasurement, hfind]
  | some m =>
    have hsrc : m.1 = src.val := by simpa using List.find?_some hfind
    have hne : m.2 ≠ e := fun he => hother (by rw [hfind, ← hsrc, ← he])
    simp only [execServoMeasurement, hfind, if_pos (Or.inr hne)]

/-! ### The distance from a second boundary (R328) -/

theorem fromSecond_of_before {t : TimeVal} (up : Bool) (h : 2 * (t % second) < second) : fromSecond up t = (t % second : Nat) :=
  if_pos (.inl h)

theorem fromSecond_of_after {t : TimeVal} (up : Bool) (h : second < 2 * (t % second)) :
    fromSecond up t = (t % second : Nat) - (second : Int) :=
  if_neg (not_or.2 ⟨h.not_gt, fun ⟨hhalf, _⟩ => h.ne' hhalf⟩)

theorem fromSecond_halfway {t : TimeVal} (up : Bool) (h : 2 * (t % second) = second) :
    fromSecond up t = if up then (t % second : Nat) - (second : Int) else (t % second : Nat) := by
  cases up
  · exact if_pos (.inr ⟨h, rfl⟩)
  · exact if_neg (by simp [h])

theorem exec_ppsInEdge_of_inactive {s : State} {falling : Bool} (phase : Fin 64) (h : falling ≠ s.tb.ctrl.falling) :
    exec (.ppsInEdge falling phase) s = .next s :=
  if_pos (.inl h)

section Time
variable {s : State} (htime : s.timeOff = false)
include htime

theorem exec_servoMeasurement_of_oldest {src : Fin 4} {e : Int} {u : State}
    (hfind : s.tb.due.find? (fun m => m.1 == src.val) = some (src.val, e))
    (hu : u = { s with tb := { s.tb with due := s.tb.due.eraseIdx (s.tb.due.findIdx fun m => m.1 == src.val) } }) :
    exec (.servoMeasurement src e) s = .next (u.measured src e) := by
  subst hu
  have hgoes : ¬ (s.timeOff = true ∨ e ≠ e) := by simp [htime]
  change execServoMeasurement src e s = _
  simp only [execServoMeasurement, hfind, if_neg hgoes]

/-! ### Sources that are lost (R314) -/

theorem exec_announceTimeout_of_enabled {d : Fin 2} {x : Domain} (hx : x = SMap.get {} s.tb.domains d) (hen : x.en = true) :
    exec (.announceTimeout d) s = .next { s with tb := TimeBase.lose { s.tb with
      domains := SMap.set {} s.tb.domains d { x with parent := none, syncRx := none, pstate := if x.slaveOnly then 1 else 4 } } d } := by
  have hgoes : ¬ ((!x.en) = true ∨ s.timeOff = true) := by simp [hen, htime]
  subst hx
  exact if_neg hgoes

theorem exec_ppsInTimeout_of_on : exec .ppsInTimeout s = .next { s with tb := s.tb.lose 2 } :=
  congrArg Host.Outcome.next (if_neg (by simp [htime]))

/-! ### PPS_IN_EDGE -/

section Edge
variable {falling : Bool} {phase : Fin 64} {t : TimeVal} (ht : t = s.markTime { phase }) (hact : falling = s.tb.ctrl.falling)
include ht hact

theorem exec_ppsInEdge_off_halfway (hoff : 2 * (t % second) ≠ second) :
    exec (.ppsInEdge falling phase) s =
      .next (({ s with tb := s.tb.track 2 (fromSecond false t) } : State).measureDue 2 (fromSecond false t)) := by
  subst ht
  refine (if_neg (by simp [htime, hact])).trans ?_
  simp only [if_neg hoff]
  rfl

theorem exec_ppsInEdge_halfway (hhalf : 2 * (t % second) = second) {e : Int} (he : e = fromSecond (s.takeFree.1 % 2 == 1) t) :
    exec (.ppsInEdge falling phase) s =
      .next (({ s.takeFree.2 with tb := s.takeFree.2.tb.track 2 e } : State).measureDue 2 e) := by
  subst ht he
  refine (if_neg (by simp [htime, hact])).trans ?_
  simp only [if_pos hhalf]

end Edge

/-! ### TBS_CTRL_WRITE -/

section Write
variable (hon : s.flt.halted = false) (v : Word)
include hon

theorem exec_tbsCtrlWrite_of_on : exec (.tbsCtrlWrite v) s = .next (s.writeTbs v) :=
  congrArg Host.Outcome.next (if_neg (by simp [hon, htime]))

theorem exec_tbsCtrlWrite_of_locked (hlock : s.tb.ctrl.lock = true) :
    exec (.tbsCtrlWrite v) s = .next { s with tb := s.tb.setCtrl s.tb.ctrl } := by
  have hkept : { s.tb.ctrl with lock := s.tb.ctrl.lock || bitAt v.toNat 31 } = s.tb.ctrl := by
    rw [hlock, Bool.true_or, ← hlock]
  rw [exec_tbsCtrlWrite_of_on htime hon]
  simp only [State.writeTbs, if_pos hlock, hkept]

theorem exec_tbsCtrlWrite_of_unlocked (hlock : s.tb.ctrl.lock = false) :
    exec (.tbsCtrlWrite v) s = .next { s with tb := s.tb.setCtrl { s.tb.ctrl with
      srcEn := BitVec.ofNat 4 (bitsOf v.toNat 24 4), primary := BitVec.ofNat 2 (bitsOf v.toNat 22 2)
      revert := bitAt v.toNat 21, falling := bitAt v.toNat 20, lock := bitAt v.toNat 31 } } := by
  rw [exec_tbsCtrlWrite_of_on htime hon]
  simp only [State.writeTbs, hlock, Bool.false_eq_true, if_false, Bool.false_or]

end Write
end Time
end Sys2Proof.Machine

namespace Sys2Proof.Proofs
open Sys2Proof.Machine

/-- Settles O27: each clause is one of the cases of its command above. -/
theorem servoAndSources : Obligations.ServoAndSources := by
  unfold Obligations.ServoAndSources
  intro s htime
  refine ⟨?oldest, fun src e => exec_servoMeasurement_of_other, fun d x => exec_announceTimeout_of_enabled htime,
    exec_ppsInTimeout_of_on htime, ?edge,
    fun hon v => ⟨exec_tbsCtrlWrite_of_locked htime hon v, exec_tbsCtrlWrite_of_unlocked htime hon v⟩⟩
  case oldest =>
    intro src e u t w hfind hu ht hw
    have hst : s.tb.st = u.tb.st := by rw [hu]
    have hnow : s.now = u.now := by rw [hu]; rfl
    rw [hst, hnow] at hw
    rw [exec_servoMeasurement_of_oldest htime hfind hu, State.measured_eq ht hw, hst]
  case edge =>
    intro falling phase t put ht hput
    subst hput
    refine ⟨exec_ppsInEdge_of_inactive phase, fun hact => ⟨fun hbefore => ?_, fun hafter => ?_, fun hhalf => ?_⟩⟩
    · rw [exec_ppsInEdge_off_halfway htime ht hact hbefore.ne, fromSecond_of_before false hbefore]
      rfl
    · rw [exec_ppsInEdge_off_halfway htime ht hact hafter.ne', fromSecond_of_after false hafter]
      rfl
    · rw [exec_ppsInEdge_halfway htime ht hact hhalf rfl, fromSecond_halfway _ hhalf]
      simp only [beq_iff_eq]
      rfl

end Sys2Proof.Proofs
end

section
/-!
PROOFS. The root firmware at its oldest descriptor (R322, R323, R329, R498–R501, R505–R510): RUN_SHEET, TIME_ACTION, CLAIM and RELEASE by
the ends each can have; and obligation O40.
-/
namespace Sys2Proof.Machine

/-! ### RUN_SHEET -/

section RunSheet
variable {s s1 : State} {w : Work}

theorem exec_runSheet_of_no_head (h : s.fwHead 2 = none) : exec .runSheet s = .next s := by
  change execRunSheet s = _
  rw [execRunSheet, h]

theorem exec_drainSheet_of_no_head (h : s.fwHead 2 = none) : exec .drainSheet s = .next s := by
  change execDrainSheet s = _
  rw [execDrainSheet, h]

variable (hw : s.fwHead 2 = some (w, s1))
include hw

section Start
variable (hmode : bitAt (fieldAt w.bytes 0x10 1) 0 = false)
include hmode

theorem exec_drainSheet_of_start : exec .drainSheet s = .next s := by
  change execDrainSheet s = _
  simp [execDrainSheet, hw, hmode]

theorem exec_runSheet_of_refused {e : Refuse}
    (he : s1.runRefused w.ring.toNat (fieldAt w.bytes 4 2) (fieldAt w.bytes 6 2) = some e) :
    exec .runSheet s = .next (s1.finish w.ring.toNat w.seqNo e.1 e.2 (refuseInfo w.bytes)) := by
  change execRunSheet s = _
  simp [execRunSheet, hw, hmode, he]

variable (hok : s1.runRefused w.ring.toNat (fieldAt w.bytes 4 2) (fieldAt w.bytes 6 2) = none)
include hok

theorem exec_runSheet_of_whole {seed : Option Nat}
    (hseed : seed = if bitAt (fieldAt w.bytes 0x10 1) 1 then some (fieldAt w.bytes 8 8) else none)
    (hwhole : (s1.image (fieldAt w.bytes 4 2)).whole = true) :
    exec .runSheet s = .next (s1.startSheet w (fieldAt w.bytes 4 2) (fieldAt w.bytes 6 2) seed) := by
  subst hseed
  change execRunSheet s = _
  simp [execRunSheet, hw, hmode, hok, hwhole]

variable (hpart : (s1.image (fieldAt w.bytes 4 2)).whole = false)
include hpart

theorem exec_runSheet_of_bist (hbist : s1.bistOf (fieldAt w.bytes 4 2) = true) : exec .runSheet s = .next s := by
  change execRunSheet s = _
  simp [execRunSheet, hw, hmode, hok, hpart, hbist]

variable (hbist : s1.bistOf (fieldAt w.bytes 4 2) = false)
include hbist

theorem exec_runSheet_of_no_home (hhome : s1.rehome (fieldAt w.bytes 4 2) = none) :
    exec .runSheet s = .next (s1.finish w.ring.toNat w.seqNo outFatal 0xA4 (refuseInfo w.bytes)) := by
  change execRunSheet s = _
  simp [execRunSheet, hw, hmode, hok, hpart, hbist, hhome]

theorem exec_runSheet_of_rehomed {seed : Option Nat}
    (hseed : seed = if bitAt (fieldAt w.bytes 0x10 1) 1 then some (fieldAt w.bytes 8 8) else none)
    {s2 : State} (hhome : s1.rehome (fieldAt w.bytes 4 2) = some s2) :
    exec .runSheet s = .next (s2.startSheet w (fieldAt w.bytes 4 2) (fieldAt w.bytes 6 2) seed) := by
  subst hseed
  change execRunSheet s = _
  simp [execRunSheet, hw, hmode, hok, hpart, hbist, hhome]

end Start

section Drain
variable (hmode : bitAt (fieldAt w.bytes 0x10 1) 0 = true)
include hmode

theorem exec_runSheet_of_drain : exec .runSheet s = .next s := by
  change execRunSheet s = _
  simp [execRunSheet, hw, hmode]

theorem exec_drainSheet_of_not_loaded (hload : s1.loaded (fieldAt w.bytes 4 2) = false) :
    exec .drainSheet s = .next (s1.finish w.ring.toNat w.seqNo badState.1 badState.2 (refuseInfo w.bytes)) := by
  change execDrainSheet s = _
  simp [execDrainSheet, hw, hmode, hload]

variable (hload : s1.loaded (fieldAt w.bytes 4 2) = true)
include hload

theorem exec_drainSheet_of_not_held (hring : (s1.image (fieldAt w.bytes 4 2)).ring.toNat ≠ w.ring.toNat) :
    exec .drainSheet s = .next (s1.finish w.ring.toNat w.seqNo notHeld.1 notHeld.2 (refuseInfo w.bytes)) := by
  change execDrainSheet s = _
  simp only [execDrainSheet, hw, hmode, hload, Bool.not_true, Bool.false_eq_true, if_false, if_pos hring]

theorem exec_drainSheet_of_held (hring : (s1.image (fieldAt w.bytes 4 2)).ring.toNat = w.ring.toNat) :
    exec .drainSheet s = .next (s1.drainFor (fieldAt w.bytes 4 2) (w.ring, w.seqNo)) := by
  change execDrainSheet s = _
  simp only [execDrainSheet, hw, hmode, hload, Bool.not_true, Bool.false_eq_true, if_false, hring, ne_eq, not_true_eq_false]

end Drain
end RunSheet

/-! ### TIME_ACTION -/

section TimeAction
variable {s s1 : State} {w : Work}

theorem exec_timeActionArm_of_no_head (h : s.timeHead 0 = none) : exec .timeActionArm s = .next s := by
  change execTimeActionArm s = _
  rw [execTimeActionArm, h]

theorem exec_timeActionDisarm_of_no_head (h : s.timeHead 1 = none) : exec .timeActionDisarm s = .next s := by
  change execTimeActionDisarm s = _
  rw [execTimeActionDisarm, h]

theorem exec_timeActionPps_of_no_head (h : s.timeHead 2 = none) : exec .timeActionPps s = .next s := by
  change execTimeActionPps s = _
  rw [execTimeActionPps, h]

section BadStart
variable (htime : timeOfWord (fieldAt w.bytes 8 12) = none)
include htime

theorem exec_timeActionArm_of_bad_start (hw : s.timeHead 0 = some (w, s1)) :
    exec .timeActionArm s = .next (s1.finish w.ring.toNat w.seqNo outFormat 0x82 (refuseInfo w.bytes)) := by
  change execTimeActionArm s = _
  simp only [execTimeActionArm, hw, htime]

theorem exec_timeActionDisarm_of_bad_start (hw : s.timeHead 1 = some (w, s1)) :
    exec .timeActionDisarm s = .next (s1.finish w.ring.toNat w.seqNo outFormat 0x82 (refuseInfo w.bytes)) := by
  change execTimeActionDisarm s = _
  simp only [execTimeActionDisarm, hw, htime]

theorem exec_timeActionPps_of_bad_start (hw : s.timeHead 2 = some (w, s1)) :
    exec .timeActionPps s = .next (s1.finish w.ring.toNat w.seqNo outFormat 0x82 (refuseInfo w.bytes)) := by
  change execTimeActionPps s = _
  simp only [execTimeActionPps, hw, htime]

end BadStart

variable {start : TimeVal} (htime : timeOfWord (fieldAt w.bytes 8 12) = some start)
include htime

section Arm
variable (hw : s.timeHead 0 = some (w, s1))
include hw

theorem exec_timeActionArm_of_not_held (hheld : s1.ringHolds w.ring.toNat 1 (fieldAt w.bytes 5 1) = false) :
    exec .timeActionArm s = .next (s1.finish w.ring.toNat w.seqNo notHeld.1 notHeld.2 (refuseInfo w.bytes)) := by
  change execTimeActionArm s = _
  simp only [execTimeActionArm, hw, htime, hheld, Bool.not_false, if_true]

variable (hheld : s1.ringHolds w.ring.toNat 1 (fieldAt w.bytes 5 1) = true)
include hheld

theorem exec_timeActionArm_of_bad_target {e : Refuse}
    (he : s1.targetRefused w.ring.toNat (fieldAt w.bytes 6 2) (fieldAt w.bytes 0x20 8) = some e) :
    exec .timeActionArm s = .next (s1.finish w.ring.toNat w.seqNo e.1 e.2 (refuseInfo w.bytes)) := by
  change execTimeActionArm s = _
  simp only [execTimeActionArm, hw, htime, hheld, he, Bool.not_true, Bool.false_eq_true, if_false]

theorem exec_timeActionArm_of_good_target
    (hok : s1.targetRefused w.ring.toNat (fieldAt w.bytes 6 2) (fieldAt w.bytes 0x20 8) = none) :
    exec .timeActionArm s = .next ((s1.arm (fieldAt w.bytes 5 1) (fieldAt w.bytes 6 2) (fieldAt w.bytes 0x20 8) start
      (fieldAt w.bytes 0x18 6) (fieldAt w.bytes 0x1E 2)).finish w.ring.toNat w.seqNo outDone 0 (fieldAt w.bytes 5 1)) := by
  change execTimeActionArm s = _
  simp only [execTimeActionArm, hw, htime, hheld, hok, Bool.not_true, Bool.false_eq_true, if_false]

end Arm

section Disarm
variable (hw : s.timeHead 1 = some (w, s1))
include hw

theorem exec_timeActionDisarm_of_not_held (hheld : s1.ringHolds w.ring.toNat 1 (fieldAt w.bytes 5 1) = false) :
    exec .timeActionDisarm s = .next (s1.finish w.ring.toNat w.seqNo notHeld.1 notHeld.2 (refuseInfo w.bytes)) := by
  change execTimeActionDisarm s = _
  simp only [execTimeActionDisarm, hw, htime, hheld, Bool.false_eq_true, if_false]

theorem exec_timeActionDisarm_of_held (hheld : s1.ringHolds w.ring.toNat 1 (fieldAt w.bytes 5 1) = true) :
    exec .timeActionDisarm s =
      .next ((s1.disarm (fieldAt w.bytes 5 1)).finish w.ring.toNat w.seqNo outDone 0 (fieldAt w.bytes 5 1)) := by
  change execTimeActionDisarm s = _
  simp only [execTimeActionDisarm, hw, htime, hheld, if_true]

end Disarm

section Pps
variable (hw : s.timeHead 2 = some (w, s1))
include hw

theorem exec_timeActionPps_of_not_held (hnot : s1.ringHolds w.ring.toNat 2 (fieldAt w.bytes 5 1) = false ∨
      (fieldAt w.bytes 0x28 1 % 4 = 2 ∧ s1.ringHolds w.ring.toNat 1 (fieldAt w.bytes 0x28 1 / 8) = false)) :
    exec .timeActionPps s = .next (s1.finish w.ring.toNat w.seqNo notHeld.1 notHeld.2 (refuseInfo w.bytes)) := by
  change execTimeActionPps s = _
  simp only [execTimeActionPps, hw, htime, Bool.not_eq_true', if_pos hnot]

theorem exec_timeActionPps_of_held (hpin : s1.ringHolds w.ring.toNat 2 (fieldAt w.bytes 5 1) = true)
    (hunit : fieldAt w.bytes 0x28 1 % 4 ≠ 2 ∨ s1.ringHolds w.ring.toNat 1 (fieldAt w.bytes 0x28 1 / 8) = true)
    {pps : SMap PpsPin} (hpps : pps = SMap.modify {} s1.tb.pps (fieldAt w.bytes 5 1) (fun q : PpsPin =>
      q.program (fieldAt w.bytes 0x28 1 % 4) (bitAt (fieldAt w.bytes 0x28 1) 2) (fieldAt w.bytes 0x28 1 / 8)
        (signedOf 32 (fieldAt w.bytes 0x2C 4)) (fieldAt w.bytes 0x30 4) s1.now)) :
    exec .timeActionPps s = .next
      (({ s1 with tb := { s1.tb with pps } } : State).finish w.ring.toNat w.seqNo outDone 0 (fieldAt w.bytes 5 1)) := by
  have hheld : ¬ (s1.ringHolds w.ring.toNat 2 (fieldAt w.bytes 5 1) = false ∨
      (fieldAt w.bytes 0x28 1 % 4 = 2 ∧ s1.ringHolds w.ring.toNat 1 (fieldAt w.bytes 0x28 1 / 8) = false)) := by
    simpa [hpin, or_iff_not_imp_left] using hunit
  subst hpps
  change execTimeActionPps s = _
  simp only [execTimeActionPps, hw, htime, Bool.not_eq_true', if_neg hheld]

end Pps
end TimeAction

/-! ### CLAIM -/

section Claim
variable {s s1 : State} {w : Work}

theorem exec_claimRegion_of_no_head (h : s.fwHead 9 = none) : exec .claimRegion s = .next s := by
  change execClaimRegion s = _
  rw [execClaimRegion, h]

theorem exec_claimResource_of_no_head (h : s.fwHead 9 = none) : exec .claimResource s = .next s := by
  change execClaimResource s = _
  rw [execClaimResource, h]

variable (hw : s.fwHead 9 = some (w, s1))
include hw

section Region
variable (hkind : fieldAt w.bytes 4 1 = 0)
include hkind

theorem exec_claimResource_of_region : exec .claimResource s = .next s := by
  change execClaimResource s = _
  simp only [execClaimResource, hw, hkind, if_true]

theorem exec_claimRegion_of_no_place {e : Refuse × Nat} (he : s1.placeClaim w.bytes = .error e) :
    exec .claimRegion s = .next (s1.finish w.ring.toNat w.seqNo e.1.1 e.1.2 e.2) := by
  change execClaimRegion s = _
  simp [execClaimRegion, hw, hkind, he]

variable {base : Nat} (hplace : s1.placeClaim w.bytes = .ok base)
include hplace

theorem exec_claimRegion_of_no_entry (hfull : s1.freeEntry = none) :
    exec .claimRegion s = .next (s1.finish w.ring.toNat w.seqNo outFit 0x22 0) := by
  change execClaimRegion s = _
  simp [execClaimRegion, hw, hkind, hplace, hfull]

theorem exec_claimRegion_of_entry {n m : Nat} (hn : s1.freeEntry = some n) (hm : m = ceilDiv (fieldAt w.bytes 0x10 4) 15 * 15) :
    exec .claimRegion s = .next (((s1.gddrZero base m).setRegion n
      { base := BitVec.ofNat 32 base, lines := BitVec.ofNat 32 m, valid := true, host := true, bar4 := bitAt (fieldAt w.bytes 6 2) 0
        ring := w.ring, name := BitVec.ofNat 64 (fieldAt w.bytes 8 8) }).finish w.ring.toNat w.seqNo outDone 0 (n + 2 ^ 32 * base)) := by
  subst hm
  change execClaimRegion s = _
  simp [execClaimRegion, hw, hkind, hplace, hn]

end Region

section Resource
variable (hkind : fieldAt w.bytes 4 1 ≠ 0)
include hkind

theorem exec_claimRegion_of_resource : exec .claimRegion s = .next s := by
  change execClaimRegion s = _
  simp only [execClaimRegion, hw, if_pos hkind]

theorem exec_claimResource_of_reserved (hunit : fieldAt w.bytes 4 1 = 1) (hlast : 30 ≤ fieldAt w.bytes 5 1) :
    exec .claimResource s = .next (s1.finish w.ring.toNat w.seqNo outConflict 0x92 (refuseInfo w.bytes)) := by
  change execClaimResource s = _
  simp only [execClaimResource, hw, if_neg hkind, if_pos (And.intro hunit hlast)]

variable (hopen : fieldAt w.bytes 4 1 ≠ 1 ∨ fieldAt w.bytes 5 1 < 30)
include hopen

theorem exec_claimResource_of_free (hfree : s1.holder (fieldAt w.bytes 4 1) (fieldAt w.bytes 5 1) = none) :
    exec .claimResource s = .next ((s1.setHolder (fieldAt w.bytes 4 1) (fieldAt w.bytes 5 1) (some w.ring)).finish
      w.ring.toNat w.seqNo outDone 0 (fieldAt w.bytes 5 1)) := by
  have hclaims : ¬ (fieldAt w.bytes 4 1 = 1 ∧ 30 ≤ fieldAt w.bytes 5 1) := by omega
  change execClaimResource s = _
  simp only [execClaimResource, hw, if_neg hkind, if_neg hclaims, hfree]

theorem exec_claimResource_of_holder {k : BitVec 12} (hk : s1.holder (fieldAt w.bytes 4 1) (fieldAt w.bytes 5 1) = some k) :
    exec .claimResource s = .next (if k = w.ring then s1.finish w.ring.toNat w.seqNo outConflict 0x91 (refuseInfo w.bytes)
      else s1.finish w.ring.toNat w.seqNo outConflict 0x90 k.toNat) := by
  have hclaims : ¬ (fieldAt w.bytes 4 1 = 1 ∧ 30 ≤ fieldAt w.bytes 5 1) := by omega
  change execClaimResource s = _
  simp only [execClaimResource, hw, if_neg hkind, if_neg hclaims, hk]

end Resource
end Claim

/-! ### RELEASE -/

section Release
variable {s s1 : State} {w : Work}

theorem exec_releaseResource_of_no_head (h : s.fwHead 10 = none) : exec .releaseResource s = .next s := by
  change execReleaseResource s = _
  rw [execReleaseResource, h]

theorem exec_releaseImage_of_no_head (h : s.fwHead 10 = none) : exec .releaseImage s = .next s := by
  change execReleaseImage s = _
  rw [execReleaseImage, h]

theorem exec_releaseAdmission_of_no_head (h : s.fwHead 10 = none) : exec .releaseAdmission s = .next s := by
  change execReleaseAdmission s = _
  rw [execReleaseAdmission, h]

variable (hw : s.fwHead 10 = some (w, s1))
include hw

theorem exec_releaseResource_of_other_kind (hkind : 4 < fieldAt w.bytes 4 1) : exec .releaseResource s = .next s := by
  change execReleaseResource s = _
  simp only [execReleaseResource, hw, if_pos hkind]

theorem exec_releaseImage_of_other_kind (hkind : fieldAt w.bytes 4 1 ≠ 5) : exec .releaseImage s = .next s := by
  change execReleaseImage s = _
  simp only [execReleaseImage, hw, if_pos hkind]

theorem exec_releaseAdmission_of_other_kind (hkind : fieldAt w.bytes 4 1 ≠ 6) : exec .releaseAdmission s = .next s := by
  change execReleaseAdmission s = _
  simp only [execReleaseAdmission, hw, if_pos hkind]

section Region
variable (hkind : fieldAt w.bytes 4 1 = 0)
include hkind

theorem exec_releaseResource_of_unnamed (h : s1.namedRegion w.ring.toNat (BitVec.ofNat 64 (fieldAt w.bytes 8 8)) = none) :
    exec .releaseResource s = .next (s1.finish w.ring.toNat w.seqNo outState 0x95 0) := by
  change execReleaseResource s = _
  simp [execReleaseResource, hw, hkind, h]

theorem exec_releaseResource_of_named {g : Nat}
    (h : s1.namedRegion w.ring.toNat (BitVec.ofNat 64 (fieldAt w.bytes 8 8)) = some g) :
    exec .releaseResource s = .next (if s1.regionBusy g then s1.finish w.ring.toNat w.seqNo outState 0x96 0
      else (s1.freeRegion g).finish w.ring.toNat w.seqNo outDone 0 0) := by
  change execReleaseResource s = _
  simp [execReleaseResource, hw, hkind, h]

end Region

theorem exec_releaseResource_of_unit (hpos : fieldAt w.bytes 4 1 ≠ 0) (hle : fieldAt w.bytes 4 1 ≤ 4) :
    exec .releaseResource s = .next (if s1.ringHolds w.ring.toNat (fieldAt w.bytes 4 1) (fieldAt w.bytes 5 1) then
        ((s1.freeUnit (fieldAt w.bytes 4 1) (fieldAt w.bytes 5 1)).setHolder (fieldAt w.bytes 4 1) (fieldAt w.bytes 5 1) none).finish
          w.ring.toNat w.seqNo outDone 0 0
      else s1.finish w.ring.toNat w.seqNo outState 0x95 0) := by
  change execReleaseResource s = _
  simp only [execReleaseResource, hw, if_neg (Nat.not_lt.2 hle), if_neg hpos]
  exact (apply_ite Host.Outcome.next _ _ _).symm

section Image
variable (hkind : fieldAt w.bytes 4 1 = 5) {im : Image} (him : im = s1.image (fieldAt w.bytes 6 2))
include hkind him

theorem exec_releaseImage_of_not_held
    (hnot : s1.loaded (fieldAt w.bytes 6 2) = false ∨ im.ring.toNat ≠ w.ring.toNat ∨ im.releasing.isSome = true) :
    exec .releaseImage s = .next (s1.finish w.ring.toNat w.seqNo outState 0x95 0) := by
  subst him
  change execReleaseImage s = _
  simp only [execReleaseImage, hw, hkind, ne_eq, not_true_eq_false, if_false, Bool.not_eq_true', if_pos hnot]

/-- The pending sweeps that name the image end, and it drains unless one still runs on it (R97, R449, R510). -/
theorem exec_releaseImage_of_held (hload : s1.loaded (fieldAt w.bytes 6 2) = true) (hring : im.ring.toNat = w.ring.toNat)
    (hfirst : im.releasing = none) {s0 s2 : State} (hs0 : s0 = s1.enterTaken)
    (hs2 : s2 = ((s0.vat.queue.filter fun z => z.handle.toNat == fieldAt w.bytes 6 2 && z.op == 0).foldl
        (fun (s : State) z => s.endPending z outState 0x72)
        { s0 with vat := { s0.vat with queue := s0.vat.queue.filter fun z => !(z.handle.toNat == fieldAt w.bytes 6 2 && z.op == 0) } }).setImage
      (fieldAt w.bytes 6 2) { im with releasing := some (w.ring, w.seqNo) }) :
    exec .releaseImage s =
      .next (if s2.vatNames (fieldAt w.bytes 6 2) then s2 else s2.drainRelease (fieldAt w.bytes 6 2)) := by
  have hheld : ¬ (s1.loaded (fieldAt w.bytes 6 2) = false ∨ im.ring.toNat ≠ w.ring.toNat ∨ im.releasing.isSome = true) := by
    simp [hload, hring, hfirst]
  subst hs2 hs0 him
  change execReleaseImage s = _
  simp only [execReleaseImage, hw, hkind, ne_eq, not_true_eq_false, if_false, Bool.not_eq_true', if_neg hheld]

end Image

theorem exec_releaseAdmission_of_admission (hkind : fieldAt w.bytes 4 1 = 6) :
    exec .releaseAdmission s = .next (if s1.holdsAdmission w.ring.toNat (fieldAt w.bytes 6 2) then
        (s1.endAdmission (fieldAt w.bytes 6 2)).finish w.ring.toNat w.seqNo outDone 0 0
      else s1.finish w.ring.toNat w.seqNo outState 0x95 0) := by
  change execReleaseAdmission s = _
  simp only [execReleaseAdmission, hw, hkind, ne_eq, not_true_eq_false, if_false]
  exact (apply_ite Host.Outcome.next _ _ _).symm

end Release
end Sys2Proof.Machine

namespace Sys2Proof.Proofs
open Sys2Proof.Machine

/-- Settles O40: each clause is one of the cases of its command above. -/
theorem firmwareActsOnDescriptors : Obligations.FirmwareActsOnDescriptors := by
  unfold Obligations.FirmwareActsOnDescriptors
  intro s
  refine ⟨?runSheet, ?timeAction, ?claim, ?release, fun h => ⟨exec_runSheet_of_no_head h, exec_drainSheet_of_no_head h⟩,
    exec_timeActionArm_of_no_head, exec_timeActionDisarm_of_no_head, exec_timeActionPps_of_no_head,
    fun h => ⟨exec_claimRegion_of_no_head h, exec_claimResource_of_no_head h⟩,
    fun h => ⟨exec_releaseResource_of_no_head h, exec_releaseImage_of_no_head h, exec_releaseAdmission_of_no_head h⟩⟩
  case runSheet =>
    rintro w s1 _ _ _ rfl rfl rfl hw
    refine ⟨fun seed hmode hseed => ⟨fun e => exec_runSheet_of_refused hw hmode, fun hok => ?_, exec_drainSheet_of_start hw hmode⟩,
      fun hmode => ⟨exec_drainSheet_of_not_loaded hw hmode, exec_drainSheet_of_not_held hw hmode, exec_drainSheet_of_held hw hmode,
        exec_runSheet_of_drain hw hmode⟩⟩
    exact ⟨exec_runSheet_of_whole hw hmode hok hseed, exec_runSheet_of_bist hw hmode hok, exec_runSheet_of_no_home hw hmode hok,
      fun s2 hpart hbist => exec_runSheet_of_rehomed hw hmode hok hpart hbist hseed⟩
  case timeAction =>
    rintro w s1 _ _ _ rfl rfl rfl
    refine ⟨?badStart, ?goodStart⟩
    case badStart =>
      rintro htime _ rfl
      exact ⟨exec_timeActionArm_of_bad_start htime, exec_timeActionDisarm_of_bad_start htime, exec_timeActionPps_of_bad_start htime⟩
    case goodStart =>
      rintro start _ htime rfl
      exact ⟨fun hw => ⟨exec_timeActionArm_of_not_held htime hw, fun e hheld => exec_timeActionArm_of_bad_target htime hw hheld,
          exec_timeActionArm_of_good_target htime hw⟩,
        fun hw => ⟨exec_timeActionDisarm_of_not_held htime hw, exec_timeActionDisarm_of_held htime hw⟩,
        fun hw => ⟨exec_timeActionPps_of_not_held htime hw, fun hpin hunit pps => exec_timeActionPps_of_held htime hw hpin hunit⟩⟩
  case claim =>
    rintro w s1 _ _ rfl rfl hw
    refine ⟨?region, ?resource⟩
    case region =>
      exact fun hkind => ⟨exec_claimResource_of_region hw hkind, fun e => exec_claimRegion_of_no_place hw hkind,
        fun base => exec_claimRegion_of_no_entry hw hkind, fun base n m hplace => exec_claimRegion_of_entry hw hkind hplace⟩
    case resource =>
      rintro _ _ rfl rfl hkind
      refine ⟨exec_claimRegion_of_resource hw hkind, exec_claimResource_of_reserved hw hkind,
        fun hopen => ⟨exec_claimResource_of_free hw hkind hopen, fun hk => ?own, fun k hk hother => ?other⟩⟩
      case own => rw [exec_claimResource_of_holder hw hkind hopen hk, if_pos rfl]
      case other => rw [exec_claimResource_of_holder hw hkind hopen hk, if_neg hother]
  case release =>
    rintro w s1 _ _ _ rfl rfl hw rfl
    refine ⟨?region, ?unit, ?image, ?admission, exec_releaseResource_of_other_kind hw, exec_releaseImage_of_other_kind hw,
      exec_releaseAdmission_of_other_kind hw⟩
    case region => exact fun hkind => ⟨exec_releaseResource_of_unnamed hw hkind, fun g => exec_releaseResource_of_named hw hkind⟩
    case unit =>
      rintro _ _ rfl rfl hpos hle
      rw [exec_releaseResource_of_unit hw hpos hle]
      exact ⟨fun hheld => by rw [if_pos hheld], fun hnot => by rw [hnot]; rfl⟩
    case image =>
      rintro _ im hkind rfl him
      exact ⟨exec_releaseImage_of_not_held hw hkind him,
        fun s0 s2 hload hring hfirst => exec_releaseImage_of_held hw hkind him hload hring hfirst⟩
    case admission =>
      intro hkind
      rw [exec_releaseAdmission_of_admission hw hkind]
      exact ⟨fun hheld => by rw [if_pos hheld], fun hnot => by rw [hnot]; rfl⟩

end Sys2Proof.Proofs
end

section
/-!
PROOFS. The join messages and the frames of a stock group (R336–R346, R350, R352): each command by the ends it can have; and
obligation O29.
-/
namespace Sys2Proof.Machine

/-! ### The mode of a group -/

theorem LnpGroup.inBlocks_of_baseLink {x : LnpGroup} (hst : x.st = .baseLink) : x.inBlocks = false := by
  simp [LnpGroup.inBlocks, hst]

theorem LnpGroup.atBase_of_active {x : LnpGroup} (hst : x.st = .active) : x.atBase = false := by
  simp [LnpGroup.atBase, hst]

/-! ### A join that the headbox acts on (R339–R341) -/

section Join
variable {u : State} {g : Nat} {lsn : BitVec 8} {fmt fcode : BitVec 4} {rate : BitVec 32}

theorem State.join_of_out_of_range (hout : 5 < fmt.toNat ∨ 8 < fcode.toNat ∨ rate = 0 ∨ 200000000 < rate.toNat) :
    u.join g lsn fmt fcode rate = u.refuseJoin g lsn 1 :=
  if_pos hout

section InRange
variable (hfmt : fmt.toNat ≤ 5) (hfcode : fcode.toNat ≤ 8) (hpos : rate ≠ 0) (hmax : rate.toNat ≤ 200000000)
include hfmt hfcode hpos hmax

theorem not_join_out_of_range : ¬ (5 < fmt.toNat ∨ 8 < fcode.toNat ∨ rate = 0 ∨ 200000000 < rate.toNat) := by
  simpa using ⟨hfmt, hfcode, hpos, hmax⟩

theorem State.join_of_held {i : Nat} (hheld : u.heldSid g lsn = some i) : u.join g lsn fmt fcode rate =
    if (u.stream i).sameJoin fmt fcode rate = false then u.refuseJoin g lsn 2
    else if (u.stream i).st = .suspended then u.rejoin g lsn i else u.acceptJoin g lsn i := by
  simp only [State.join, if_neg (not_join_out_of_range hfmt hfcode hpos hmax), hheld, Bool.not_eq_true']

theorem State.join_of_full (hnew : u.heldSid g lsn = none) (hfull : u.freeSids g = []) :
    u.join g lsn fmt fcode rate = u.refuseJoin g lsn 3 := by
  simp only [State.join, if_neg (not_join_out_of_range hfmt hfcode hpos hmax), hnew, hfull]

theorem State.join_of_free {i : Nat} {rest : List Nat} {y : Stream} (hnew : u.heldSid g lsn = none) (hfree : u.freeSids g = i :: rest)
    (hy : y = { st := .joined, lsn, fmt, fcode, rate, credit := frameCredit fcode.toNat 4, creditT := u.runNow }) :
    u.join g lsn fmt fcode rate =
      if loadExceeds (u.groupLoad g + y.load) (u.group g).rate.toNat then u.refuseJoin g lsn 4
      else ((u.setStream i y).streamEvent 0x0005 i .free).acceptJoin g lsn i := by
  subst hy
  simp only [State.join, if_neg (not_join_out_of_range hfmt hfcode hpos hmax), hnew, hfree]

end InRange
end Join

/-! ### An admitted frame (R350, R352) -/

section Admitted
variable {u : State} {i sof : Nat} {ta : TimeVal} {f : StockFrame} {z : Stream} (hz : z = u.stream i)
include hz

theorem State.admittedFrame_of_old (hold : 32768 ≤ z.ahead f) : u.admittedFrame i sof ta f =
    (u.setStream i { z with err := { z.err with seqOld := satBump z.err.seqOld 1 } }).inputFrame i sof := by
  subst hz
  exact if_pos hold

/-- A frame that is not old: `v` is the state with its SEQ taken, a gap open where the SEQ is ahead. -/
theorem State.admittedFrame_of_new {v : State} {z1 : Stream} {jump : Bool} (hnew : z.ahead f < 32768)
    (hv : v = (if z.ahead f = 0 then u.setStream i { z with
        seq := if z.seqSet then f.seq + 1 else z.seq, err := { z.err with seqGap := satBump z.err.seqGap (z.ahead f) } }
      else ((u.setStream i { z with
        seq := if z.seqSet then f.seq + 1 else z.seq
        err := { z.err with seqGap := satBump z.err.seqGap (z.ahead f) } }).inputFrame i sof).streamGap i 1))
    (hz1 : z1 = v.stream i) (hjump : jump = (u.tb.st != .invalid && z1.seqSet && z.ahead f == 0 && z1.jumps f)) :
    u.admittedFrame i sof ta f =
      if u.tb.st ≠ .invalid ∧ z1.inTransit ta f = false then
        ((v.setStream i { z1 with err := { z1.err with tsRange := satBump z1.err.tsRange 1 } }).inputFrame i sof).discardGap i
      else ((if jump then v.setStream i { z1 with err := { z1.err with tsJump := satBump z1.err.tsJump 1 } }
        else v).writeFrame i f jump).frameEnds i f.seq false := by
  subst hz hjump hz1 hv
  simp only [State.admittedFrame, if_neg hnew.not_ge, bne_iff_ne, Bool.not_eq_true']

end Admitted

section On
variable {s : State} (hon : s.headboxOff = false)
include hon

theorem exec_suspendTimeout_of_suspended {sid : Fin 1024} (hst : (s.stream sid).st = .suspended) :
    exec (.suspendTimeout sid) s = .next (s.leave sid) :=
  congrArg Host.Outcome.next (if_pos ⟨hst, by simp [hon]⟩)

/-! ### BYE -/

theorem exec_bye_of_partner {g : Fin 16} {hear : Bool × State} (hhear : hear = s.hearJoin g 0x67 (pidBytes (s.partner g).pid 0 0))
    (hpresent : (s.partner g).present = true) : exec (.bye g (s.partner g).pid) s =
    if !hear.1 then .next hear.2
    else
      let u := (groupSids g).foldl (fun s i =>
        if (s.stream i).st = .joined ∨ (s.stream i).st = .admitted then s.leave i else s) hear.2
      .next (u.setPartner g { u.partner g with present := false }) := by
  have hgoes : ¬ ((!(s.partner g).present) = true ∨ (s.partner g).pid ≠ (s.partner g).pid) := by simp [hpresent]
  subst hhear
  change execBye g (s.partner g).pid s = _
  simp only [execBye, hon, if_neg hgoes, Bool.false_eq_true, if_false]

section Group
variable {g : Fin 16} {x : LnpGroup} (hx : x = s.group g)
include hx

/-! ### HELLO -/

section Hello
variable {pid : BitVec 32} {src ver : BitVec 8}

theorem exec_hello_in_blocks (hmode : x.inBlocks = true) : exec (.hello g pid src ver) s = .next ((s.joinError g).unheard g) := by
  subst hx
  change execHello g pid src ver s = _
  simp only [execHello, hon, hmode, Bool.false_eq_true, if_false, if_true]

theorem exec_hello_in_range {u : State} (hu : u = (s.hearJoin g 0x60 (pidBytes pid src ver)).2) (hst : x.st = .baseLink)
    (hpos : src ≠ 0) (hmax : src.toNat ≤ 64) (hver : ver = 1) : exec (.hello g pid src ver) s =
    if !(s.hearJoin g 0x60 (pidBytes pid src ver)).1 then .next u
    else
      let w := if (u.partner g).pid = pid then u else
        (groupSids g).foldl (fun s i => if (s.stream i).st = .suspended then s.leave i else s) u
      .next (((w.setPartner g { u.partner g with present := true, pid, sources := src.toNat }).answerJoin g 1
        (joinBytes (BitVec.ofNat 8 g) [BitVec.ofNat 8 (w.freeSids g).length])).trainTo g
          (LnpGroup.negotiate { x with joined := true } g)) := by
  have hgood : ¬ (x.st ≠ .baseLink ∨ ver ≠ 1 ∨ src = 0 ∨ 64 < src.toNat) := by simpa using ⟨hst, hver, hpos, hmax⟩
  subst hx hu
  change execHello g pid src ver s = _
  simp only [execHello, hon, LnpGroup.inBlocks_of_baseLink hst, if_neg hgood, Bool.false_eq_true, if_false]

end Hello

/-! ### SJOIN -/

section Sjoin
variable {lsn : BitVec 8} {fmt fcode : BitVec 4} {rate : BitVec 32}

theorem exec_sjoin_at_base (hmode : x.atBase = true) : exec (.sjoin g lsn fmt fcode rate) s = .next ((s.joinError g).unheard g) := by
  subst hx
  change execSjoin g lsn fmt fcode rate s = _
  simp only [execSjoin, hon, hmode, Bool.false_eq_true, if_false, if_true]

theorem exec_sjoin_in_active {hear : Bool × State}
    (hhear : hear = s.hearJoin g 0x62 (joinBytes lsn (BitVec.ofNat 8 (16 * fmt.toNat + fcode.toNat) :: (natLe 4 rate.toNat).reverse)))
    (hst : x.st = .active) :
    exec (.sjoin g lsn fmt fcode rate) s = .next (if hear.1 then hear.2.join g lsn fmt fcode rate else hear.2) := by
  subst hx hhear
  change execSjoin g lsn fmt fcode rate s = _
  simp only [execSjoin, hon, LnpGroup.atBase_of_active hst, hst, Bool.false_eq_true, ne_eq, not_true_eq_false, if_false]

end Sjoin

/-! ### SLEAVE -/

section Sleave
variable {lsn : BitVec 8} {sid : BitVec 10}

theorem exec_sleave_at_base (hmode : x.atBase = true) : exec (.sleave g lsn sid) s = .next ((s.joinError g).unheard g) := by
  subst hx
  change execSleave g lsn sid s = _
  simp only [execSleave, hon, hmode, Bool.false_eq_true, if_false, if_true]

theorem exec_sleave_in_active {hear : Bool × State} (hhear : hear = s.hearJoin g 0x65 (sidBytes lsn sid.toNat)) (hst : x.st = .active) :
    exec (.sleave g lsn sid) s =
      if !hear.1 then .next hear.2
      else if hear.2.heldSid g lsn ≠ some sid.toNat then .next (hear.2.joinError g)
      else .next ((if (hear.2.stream sid.toNat).st = .joined ∨ (hear.2.stream sid.toNat).st = .admitted then hear.2.leave sid.toNat
        else hear.2).answerJoin g 6 (sidBytes lsn sid.toNat)) := by
  subst hx hhear
  change execSleave g lsn sid s = _
  simp only [execSleave, hon, LnpGroup.atBase_of_active hst, hst, Bool.false_eq_true, ne_eq, not_true_eq_false, if_false]

end Sleave

/-! ### STOCK_FRAME: its checks in the order of R350 -/

section Frame
variable {f : StockFrame} {i sof : Nat} {y : Stream} {r u : State} (hr : r = s.unheard g) (hi : i = f.sid.toNat)
  (hsof : sof = r.markRun f.mark) (hy : y = r.stream i) (hst : x.st = .active)
include hr hi hsof hy hst

theorem exec_stockFrame_in_active : exec (.stockFrame g f) s =
    if !y.identity g f then
      .next (if i / 64 = g then
        ((r.setStream i { y with err := { y.err with frameErr := satBump y.err.frameErr 1 } }).inputFrame i sof).discardGap i
        else r.setStream i { y with err := { y.err with frameErr := satBump y.err.frameErr 1 } })
    else if !frameStructured f y then .next (r.badFrame i f fun e => { e with frameErr := satBump e.frameErr 1 })
    else if frameCrc f ≠ f.crc then .next (r.badFrame i f fun e => { e with crcErr := satBump e.crcErr 1 })
    else
      let u := r.setStream i { y with credit := y.creditAt sof - frameCredit y.fcode.toNat 1, creditT := max y.creditT sof }
      if y.creditAt sof < frameCredit y.fcode.toNat 1 then
        .next (u.badFrame i f fun e => { e with rateExcess := satBump e.rateExcess 1 })
      else .next (if y.st = .admitted ∧ y.admitT ≤ sof then u.admittedFrame i sof (r.markTime f.mark) f else u) := by
  subst hx hi hsof hy hr
  exact if_neg (by simp [hst, hon])

theorem exec_stockFrame_of_other (hid : y.identity g f = false)
    (hu : u = r.setStream i { y with err := { y.err with frameErr := satBump y.err.frameErr 1 } }) :
    exec (.stockFrame g f) s = .next (if i / 64 = g then (u.inputFrame i sof).discardGap i else u) := by
  simp only [exec_stockFrame_in_active hon hx hr hi hsof hy hst, hid, hu, Bool.not_false, if_true]

theorem exec_stockFrame_of_malformed (hid : y.identity g f = true) (hform : frameStructured f y = false) :
    exec (.stockFrame g f) s = .next (r.badFrame i f fun e => { e with frameErr := satBump e.frameErr 1 }) := by
  simp only [exec_stockFrame_in_active hon hx hr hi hsof hy hst, hid, hform, Bool.not_true, Bool.not_false, Bool.false_eq_true, if_true,
    if_false]

theorem exec_stockFrame_of_bad_crc (hid : y.identity g f = true) (hform : frameStructured f y = true) (hcrc : frameCrc f ≠ f.crc) :
    exec (.stockFrame g f) s = .next (r.badFrame i f fun e => { e with crcErr := satBump e.crcErr 1 }) := by
  simp only [exec_stockFrame_in_active hon hx hr hi hsof hy hst, hid, hform, if_pos hcrc, Bool.not_true, Bool.false_eq_true, if_false]

section Sound
variable (hid : y.identity g f = true) (hform : frameStructured f y = true) (hcrc : frameCrc f = f.crc)
  (hu : u = r.setStream i { y with credit := y.creditAt sof - frameCredit y.fcode.toNat 1, creditT := max y.creditT sof })
include hid hform hcrc hu

theorem exec_stockFrame_of_poor (hpoor : y.creditAt sof < frameCredit y.fcode.toNat 1) :
    exec (.stockFrame g f) s = .next (u.badFrame i f fun e => { e with rateExcess := satBump e.rateExcess 1 }) := by
  simp only [exec_stockFrame_in_active hon hx hr hi hsof hy hst, hid, hform, hcrc, hu, if_pos hpoor, Bool.not_true, Bool.false_eq_true,
    ne_eq, not_true_eq_false, if_false]

theorem exec_stockFrame_of_credit (hpaid : frameCredit y.fcode.toNat 1 ≤ y.creditAt sof) :
    exec (.stockFrame g f) s =
      .next (if y.st = .admitted ∧ y.admitT ≤ sof then u.admittedFrame i sof (r.markTime f.mark) f else u) := by
  simp only [exec_stockFrame_in_active hon hx hr hi hsof hy hst, hid, hform, hcrc, hu, if_neg hpaid.not_gt, Bool.not_true,
    Bool.false_eq_true, ne_eq, not_true_eq_false, if_false]

end Sound
end Frame
end Group
end On
end Sys2Proof.Machine

namespace Sys2Proof.Proofs
open Sys2Proof.Machine

/-- Settles O29: each clause is one of the cases of its command above. -/
theorem stocksJoinAndLeave : Obligations.StocksJoinAndLeave := by
  unfold Obligations.StocksJoinAndLeave
  intro s g x hx hon
  refine ⟨?hello, ?sjoin, ?sleave, ?bye, fun sid => exec_suspendTimeout_of_suspended hon, ?frame⟩
  case hello =>
    intro pid src ver u hu
    refine ⟨exec_hello_in_blocks hon hx, fun hst hpos hmax hver => ?_⟩
    rw [exec_hello_in_range hon hx hu hst hpos hmax hver]
    exact ⟨fun hcopy => by rw [hcopy]; rfl, fun w hthird hw => by rw [hthird, hw]; rfl⟩
  case sjoin =>
    intro lsn fmt fcode rate hear hhear
    refine ⟨exec_sjoin_at_base hon hx, fun hst => ?_⟩
    rw [exec_sjoin_in_active hon hx hhear hst]
    refine ⟨fun hcopy => by rw [hcopy]; rfl, ?_⟩
    rintro hthird u rfl
    rw [if_pos hthird]
    refine ⟨fun hout => congrArg _ (State.join_of_out_of_range hout), fun hfmt hfcode hpos hmax => ⟨?held, ?full, ?free⟩⟩
    case held => exact fun i hheld => congrArg _ (State.join_of_held hfmt hfcode hpos hmax hheld)
    case full => exact fun hnew hfull => congrArg _ (State.join_of_full hfmt hfcode hpos hmax hnew hfull)
    case free => exact fun i rest y hnew hfree hy => congrArg _ (State.join_of_free hfmt hfcode hpos hmax hnew hfree hy)
  case sleave =>
    intro lsn sid hear hhear
    refine ⟨exec_sleave_at_base hon hx, fun hst => ?_⟩
    rw [exec_sleave_in_active hon hx hhear hst]
    exact ⟨fun hcopy => by rw [hcopy]; rfl, fun hthird hother => by rw [hthird, if_pos hother]; rfl,
      fun hthird hheld => by rw [hthird, if_neg (not_not.2 hheld)]; rfl⟩
  case bye =>
    intro hear hhear hpresent
    rw [exec_bye_of_partner hon hhear hpresent]
    exact ⟨fun hcopy => by rw [hcopy]; rfl, fun u hthird hu => by rw [hthird, hu]; rfl⟩
  case frame =>
    intro f i sof y r u hr hi hsof hy hst
    refine ⟨exec_stockFrame_of_other hon hx hr hi hsof hy hst, exec_stockFrame_of_malformed hon hx hr hi hsof hy hst,
      exec_stockFrame_of_bad_crc hon hx hr hi hsof hy hst, fun hid hform hcrc hu =>
        ⟨exec_stockFrame_of_poor hon hx hr hi hsof hy hst hid hform hcrc hu, fun hpaid => ?_⟩⟩
    rw [exec_stockFrame_of_credit hon hx hr hi hsof hy hst hid hform hcrc hu hpaid]
    refine ⟨fun hearly => by rw [if_neg (by simpa [imp_iff_not_or] using hearly)], fun z hadm htime hz => ?_⟩
    rw [if_pos ⟨hadm, htime⟩]
    exact ⟨fun hold => congrArg _ (State.admittedFrame_of_old hz hold),
      fun v z1 hnew hv hz1 jump hjump => congrArg _ (State.admittedFrame_of_new hz hnew hv hz1 hjump)⟩

end Sys2Proof.Proofs
end

section
/-!
PROOFS. The samples of a trigger pipeline (R365–R376, R387, R388, R391): their delivery by the headbox, their placement by the ingress
stage, and the judging of decision entries at the release unit; and obligation O31.
-/
namespace Sys2Proof.Machine

theorem State.not_halted_of_headboxOn {s : State} (hon : s.headboxOff = false) : s.flt.halted = false :=
  (Bool.or_eq_false_iff.1 hon).1

/-! ### TRIGGER_BLOCK_DELIVERY -/

section Delivery
variable {s : State} (hon : s.headboxOff = false) {f : StockFrame} {e sof i : Nat} {pin : Mark} {x : Stream} (hi : i = f.sid.toNat)
  (hx : x = s.stream i) (hsof : sof = s.markRun f.mark) (hadm : x.st = .admitted) (htime : x.admitT ≤ sof)
  (hact : (s.group (sidGroup i)).st = .active)
include hon hi hx hsof hadm htime hact

/-- Nothing keeps back a frame of an admitted stream before its checks. -/
theorem not_triggerBlockDelivery_withheld :
    ¬ ((s.stream f.sid.toNat).st ≠ .admitted ∨ s.markRun f.mark < (s.stream f.sid.toNat).admitT ∨
      (s.group (sidGroup f.sid.toNat)).st ≠ .active ∨ s.headboxOff = true) := by
  subst hx hsof hi
  simp [hadm, htime, hact, hon]

theorem exec_triggerBlockDelivery_of_failed (hfail : x.identity (sidGroup i) f = false ∨ x.ahead f ≠ 0 ∨
      (s.tb.st ≠ .invalid ∧ x.inTransit (s.markTime f.mark) f = false)) :
    exec (.triggerBlockDelivery f e pin) s = .next (s.inputFrame i sof) := by
  have hgo := not_triggerBlockDelivery_withheld hon hi hx hsof hadm htime hact
  subst hx hsof hi
  exact (if_neg hgo).trans (if_pos (by simpa only [Bool.not_eq_true'] using hfail))

section Passed
variable (hid : x.identity (sidGroup i) f = true) (hnext : x.ahead f = 0)
  (htransit : s.tb.st = .invalid ∨ x.inTransit (s.markTime f.mark) f = true) {n : Nat} (hn : n = entryLanes x.fmt.toNat)
include hid hnext htransit hn

/-- A frame that passes checks 1, 5 and 6: an entry of it goes to the pipelines that ran before its SOF (R366, R371). -/
theorem exec_triggerBlockDelivery_of_passed {a : Arrival}
    (ha : a = { entry := frameEntry f x.fmt.toNat e, pin := s.markTime pin, at_ := s.markRun pin, ts := frameTime f, seq := f.seq
                first := n * e, untimed := s.tb.st == .invalid }) :
    exec (.triggerBlockDelivery f e pin) s = if frameSamples x.fcode.toNat ≤ n * e then .next s
      else .next ((s.boundPipes i).foldl (fun s p =>
        if ((s.pipe p).st = .warm ∨ (s.pipe p).st = .live) ∧ (s.pipe p).warmAt < sof then
          s.setPipe p ((s.pipe p).deliver i x.rate.toNat a) else s) s) := by
  have hgo := not_triggerBlockDelivery_withheld hon hi hx hsof hadm htime hact
  have hpass : ¬ ((!x.identity (sidGroup i) f) = true ∨ x.ahead f ≠ 0 ∨
      (s.tb.st ≠ .invalid ∧ (!x.inTransit (s.markTime f.mark) f) = true)) := by
    simpa [hid, hnext, or_iff_not_imp_left] using htransit
  subst ha hn hx hsof hi
  exact (if_neg hgo).trans (if_neg hpass)

end Passed
end Delivery

/-! ### INGRESS_PLACEMENT -/

section Placement
variable {s : State} (hon : s.headboxOff = false) {p : Fin 64} {port : BitVec 16} {now : Nat} {q : Pipe} {r : Port} {a : Arrival}
  (hq : q = s.pipe p) (hr : (q.ports.find? fun t => t.num == port && t.started) = some r)
  (ha : (q.inq.find? fun b => b.port == port) = some a) (hst : q.st = .warm ∨ q.st = .live)
include hon hq hr ha hst

theorem exec_ingressPlacement_of_no_cluster (hnone : (s.image q.handle.toNat).clusterOf r.vx r.vy = none) :
    exec (.ingressPlacement p port now) s = .next (s.haltPipe p 4) := by
  subst hq
  have hrun := State.not_halted_of_headboxOn hon
  change execIngressPlacement p port now s = _
  simp only [execIngressPlacement, hr, ha, hnone]
  exact if_neg (by simpa [hrun, imp_iff_not_or] using hst)

theorem exec_ingressPlacement_of_cluster {c : Nat} (hc : (s.image q.handle.toNat).clusterOf r.vx r.vy = some c) :
    exec (.ingressPlacement p port now) s =
      if s.pinCycleOf (c / 44) a.pin + tIn s.stepA1 < now ∨ ((s.cl c).tile r.tile).room 5 = false then .next (s.haltPipe p 4)
      else .next ((s.setCl c ((s.cl c).push r.tile 5 a.entry)).setPipe p
        (({ q with inq := q.inq.eraseIdx (q.inq.findIdx fun b => b.port == port) } : Pipe).placed r a (c / 44)
          (s.pinCycleOf (c / 44) a.pin))) := by
  subst hq
  have hrun := State.not_halted_of_headboxOn hon
  change execIngressPlacement p port now s = _
  simp only [execIngressPlacement, hr, ha, hc, Bool.not_eq_true']
  exact if_neg (by simpa [hrun, imp_iff_not_or] using hst)

end Placement

/-! ### A decision entry taken into the release unit (R372, R374) -/

section Taken
variable {s : State} {p arrival c : Nat} {q : Pipe} {e : Entry} {l : List Entry} (hq : q = s.pipe p)
  (hc : (s.image q.handle.toNat).clusterOf q.decVx q.decVy = some c) (hhead : ((s.cl c).tile q.decTile).queue 5 = e :: l)
include hq hc hhead

theorem State.takeDecision_of_running (hst : q.st = .warm ∨ q.st = .live) {z : EntrySet} (hz : q.sets[q.unit.length]? = some z)
    (hcome : arrival ≤ (s.deckle z.die).cycle) :
    s.takeDecision p arrival = (s.setCl c ((s.cl c).setTile q.decTile (((s.cl c).tile q.decTile).pop 5))).setPipe p
      { q with unit := q.unit ++ [(e, arrival)] } := by
  subst hq
  have hidle : (s.pipe p).st ≠ .idle := by rintro h; simp [h] at hst
  have hrun : ¬ ((s.pipe p).st ≠ .warm ∧ (s.pipe p).st ≠ .live) := by tauto
  simp only [State.takeDecision, hc, hhead, hz, if_neg hidle, if_neg hrun, if_neg hcome.not_gt]

theorem State.takeDecision_of_drain (hidle : q.st = .idle) (hdrain : (s.cl c).st = .drain ∨ (s.cl c).st = .drained) :
    s.takeDecision p arrival = s.setCl c ((s.cl c).setTile q.decTile (((s.cl c).tile q.decTile).pop 5)) := by
  subst hq
  simp only [State.takeDecision, hc, hhead, if_pos hidle, if_pos hdrain]

end Taken

/-! ### The release of an entry set (R375, R387, R391) -/

section Release
variable {v s2 : State} {p came rel : Nat} {q : Pipe} {z : EntrySet} {rest : List EntrySet} {e : Entry} {l : List (Entry × Nat)}
  (hq : q = v.pipe p) (hsets : q.sets = z :: rest) (hunit : q.unit = (e, came) :: l) (hrel : rel = z.pinCycle + q.deckle.toNat)
  (hs2 : s2 = (v.setPipe p { q with sets := rest, unit := l, judged := q.judged + 1 }).noteSlack p rel came)
include hq hsets hunit hrel hs2

theorem State.release_of_late {u : State} (hlate : rel < came)
    (hu : u = s2.openGap p 5 (timeAfter z.ts z.first (v.stream (q.refSid.getD 0)).rate.toNat)) :
    v.release p z e came =
      u.setPipe p { u.pipe p with late := satBump (u.pipe p).late 1, det := { (u.pipe p).det with prev := none } } := by
  subst hu hs2 hrel hq
  simp only [State.release, hsets, hunit, List.tail_cons, if_pos hlate]

theorem State.release_of_warm (htime : came ≤ rel) (hst : q.st = .warm) :
    v.release p z e came = s2.setPipe p { s2.pipe p with
      st := if (s2.pipe p).det.warmLeft - 1 = 0 then .live else .warm
      last := (s2.pipe p).last.orElse fun _ => some (z.ts, z.first)
      det := { (s2.pipe p).det with warmLeft := (s2.pipe p).det.warmLeft - 1 } } := by
  subst hs2 hrel hq
  simp only [State.release, hsets, hunit, List.tail_cons, if_neg htime.not_gt, if_pos hst]

theorem State.release_of_live (htime : came ≤ rel) (hst : q.st = .live) :
    v.release p z e came = if z.at_ < v.tb.stepAt then s2.setPipe p { s2.pipe p with det := { (s2.pipe p).det with prev := none } }
      else s2.judge p z e := by
  have hwarm : q.st ≠ .warm := by simp [hst]
  subst hs2 hrel hq
  simp only [State.release, hsets, hunit, List.tail_cons, if_neg htime.not_gt, if_neg hwarm]

end Release

/-! ### DECISION_JUDGE -/

section Judge
variable {s v : State} (hon : s.headboxOff = false) {p : Fin 64} {arrival : Nat} {q : Pipe} (hv : v = s.takeDecision p arrival)
  (hq : q = v.pipe p)
include hon hv hq

theorem exec_decisionJudge_of_no_pair (hnone : q.sets = [] ∨ q.unit = [] ∨ (q.st ≠ .warm ∧ q.st ≠ .live)) :
    exec (.decisionJudge p arrival) s = .next v := by
  subst hq hv
  refine (if_neg (by simp [State.not_halted_of_headboxOn hon])).trans ?_
  split
  next z rest e came l hsets hunit =>
    have hidle := (hnone.resolve_left (by simp [hsets])).resolve_left (by simp [hunit])
    exact if_pos (.inl hidle)
  next => rfl

theorem exec_decisionJudge_of_pair {z : EntrySet} {rest : List EntrySet} {e : Entry} {came rel : Nat} {l : List (Entry × Nat)}
    (hsets : q.sets = z :: rest) (hunit : q.unit = (e, came) :: l) (hst : q.st = .warm ∨ q.st = .live)
    (hrel : rel = z.pinCycle + q.deckle.toNat) :
    exec (.decisionJudge p arrival) s =
      if z.got < q.ports.length ∨ (s.deckle z.die).cycle < rel then .next v else .next (v.release p z e came) := by
  subst hrel hq hv
  have hrun : ¬ (((s.takeDecision p arrival).pipe p).st ≠ .warm ∧ ((s.takeDecision p arrival).pipe p).st ≠ .live) := by tauto
  refine (if_neg (by simp [State.not_halted_of_headboxOn hon])).trans ?_
  simp only [hsets, hunit, hrun, false_or]

end Judge
end Sys2Proof.Machine

namespace Sys2Proof.Proofs
open Sys2Proof.Machine

/-- Settles O31: each clause is one of the cases of its command above. -/
theorem entriesAreDeliveredPlacedAndJudged : Obligations.EntriesAreDeliveredPlacedAndJudged := by
  unfold Obligations.EntriesAreDeliveredPlacedAndJudged
  intro s hon
  refine ⟨?delivery, ?placement, fun p arrival v hv => ⟨?taken, ?judged⟩⟩
  case delivery =>
    intro f e n sof i pin x a hi hx hsof hadm htime hact
    refine ⟨exec_triggerBlockDelivery_of_failed hon hi hx hsof hadm htime hact, fun hid hnext htransit hn => ?passed⟩
    have hpass {b : Arrival} := exec_triggerBlockDelivery_of_passed (e := e) (pin := pin) (a := b) hon hi hx hsof hadm htime hact hid hnext
      htransit hn
    exact ⟨fun hpast => (hpass rfl).trans (if_pos hpast), fun hin ha => (hpass ha).trans (if_neg hin.not_ge)⟩
  case placement =>
    intro p port now q r a hq hr ha hst
    refine ⟨exec_ingressPlacement_of_no_cluster hon hq hr ha hst, fun c hc => ?_⟩
    rw [exec_ingressPlacement_of_cluster hon hq hr ha hst hc]
    exact ⟨fun htime hroom => if_neg (by simp [htime, hroom]), fun hlate => if_pos hlate⟩
  case taken =>
    intro c q e l z hq hc hhead
    rw [hv]
    exact ⟨fun hst => State.takeDecision_of_running hq hc hhead hst, State.takeDecision_of_drain hq hc hhead⟩
  case judged =>
    intro q hq
    refine ⟨exec_decisionJudge_of_no_pair hon hv hq, fun z rest e came rel l s2 u hsets hunit hst hrel => ?_⟩
    rw [exec_decisionJudge_of_pair hon hv hq hsets hunit hst hrel]
    refine ⟨fun hwait => if_pos hwait, fun hfull hdue hs2 => ?_⟩
    rw [if_neg (not_or.2 ⟨hfull.not_gt, hdue.not_gt⟩)]
    exact ⟨fun htime hwarm => congrArg _ (State.release_of_warm hq hsets hunit hrel hs2 htime hwarm),
      fun htime hlive => congrArg _ (State.release_of_live hq hsets hunit hrel hs2 htime hlive),
      fun hlate hu => congrArg _ (State.release_of_late hq hsets hunit hrel hs2 hlate hu)⟩

end Sys2Proof.Proofs
end

section
/-!
PROOFS. What acts on nothing: a device in FATAL_HALT (R97, R612, R685) and the offsets of BAR0 without a register that the host may
write (R459, R688–R698); the step on a waiting command; and obligations O1, O3, O58 and O59.
-/
namespace Sys2Proof.Machine

/-! ### A device in FATAL_HALT -/

section Halted
variable {s : State} (hhalt : s.flt.halted = true)
include hhalt

theorem State.not_writable_of_halted : s.writable = false := by simp [State.writable, hhalt]

theorem State.not_mayFire_of_halted (c t i : Nat) : s.mayFire c t i = false := by
  simp [State.mayFire, State.fabricRuns, State.clocked, hhalt]

theorem State.fireOp_of_halted (opc : Nat) (body : Fire → Except ClEvent Cluster) (c t i : Nat) : s.fireOp opc body c t i = s :=
  if_neg (by simp [State.not_mayFire_of_halted hhalt])

theorem State.fireForm_of_halted (opc : Nat) (form : BitVec 64 → Bool) (body : Fire → Except ClEvent Cluster) (c t i : Nat) :
    s.fireForm opc form body c t i = s := by
  rw [State.fireForm, State.fireOp_of_halted hhalt, ite_self]

theorem State.fireSiz_of_halted (opc : Nat) (body : Fire → Except ClEvent (Cluster × List Guard)) (c t i : Nat) :
    s.fireSiz opc body c t i = s :=
  if_neg (by simp [State.not_mayFire_of_halted hhalt])

theorem State.fireSteer_of_halted (opc c t i : Nat) : s.fireSteer opc c t i = s :=
  if_neg (by simp [State.not_mayFire_of_halted hhalt])

theorem State.doorbell_of_halted (r off : Nat) (v : BitVec 64) : s.doorbell r off v = s :=
  if_pos (by simp [State.not_writable_of_halted hhalt])

theorem State.not_mayTake_of_halted (r : Nat) : s.mayTake r = false := by simp [State.mayTake, hhalt]

end Halted

/-! ### REGISTER_WRITE -/

section Write
variable {s : State} {off : BitVec 28} (v : Word) (meets : Bool)

theorem exec_registerWrite_of_unreached (hbars : s.barsUp = false) : exec (.registerWrite off v meets) s = .next s :=
  congrArg Host.Outcome.next (if_pos (by simp [hbars]))

theorem exec_registerWrite_of_halted (halign : off.toNat % 4 = 0) (hhalt : s.flt.halted = true) (hoff : off.toNat ≠ 0xD0000C) :
    exec (.registerWrite off v meets) s = .next s := by
  have hstop : s.flt.halted = true ∧ off.toNat ≠ 0xD0000C := ⟨hhalt, hoff⟩
  change Host.Outcome.next (ite _ _ _) = _
  rw [if_neg (not_not.2 halign), if_pos hstop, ite_self]

theorem exec_registerWrite_of_acts (hbars : s.barsUp = true) (halign : off.toNat % 4 = 0)
    (hact : s.flt.halted = false ∨ off.toNat = 0xD0000C) :
    exec (.registerWrite off v meets) s = .next (s.writeBar0 off.toNat v meets) := by
  have hrun : ¬ (s.flt.halted = true ∧ off.toNat ≠ 0xD0000C) := by
    rintro ⟨hhalt, hoff⟩
    exact hact.elim (by simp [hhalt]) hoff
  change Host.Outcome.next (ite _ _ _) = _
  rw [if_neg (by simp [hbars]), if_neg (not_not.2 halign), if_neg hrun]

theorem exec_registerWrite_of_unaligned (hbars : s.barsUp = true) (halign : off.toNat % 4 ≠ 0) :
    exec (.registerWrite off v meets) s = .next ((s.modPcx fun r => { r with bar0Bad := satBump r.bar0Bad 1 }).aerError 20) := by
  change Host.Outcome.next (ite _ _ _) = _
  rw [if_neg (by simp [hbars]), if_pos halign]

end Write

/-! ### Offsets of BAR0 that hold no register to be written, or none at all -/

/-- The blocks of 64 KiB that hold a register the host may write (R688–R698). -/
theorem State.writeBar0_of_other_block (s : State) {off : Nat} (v : Word) (meets : Bool)
    (hblock : off / 0x10000 ∉ [0x40, 0x50, 0x70, 0x71, 0x72, 0x73, 0x78, 0x80, 0x88, 0x90, 0xA0, 0xB0, 0xC0, 0xD0]) :
    s.writeBar0 off v meets = s := by
  have hring : ¬ (0x70 ≤ off / 0x10000 ∧ off / 0x10000 < 0x74) := by
    rintro ⟨hlo, hhi⟩
    interval_cases hk : off / 0x10000 <;> simp at hblock
  unfold State.writeBar0
  split
  case h_11 => exact if_neg hring
  all_goals
    rename_i hk
    simp [hk] at hblock

section Unoccupied
variable (s : State)

theorem State.readBar0_of_no_die {off : Nat} (hoff : (0x5000000 ≤ off ∧ off < 0x8000000) ∨ 0xD000000 ≤ off) : s.readBar0 off = 0 := by
  rcases hoff with ⟨hlo, hhi⟩ | hlo
  · rw [State.readBar0, if_neg (by omega), if_neg (by omega), if_pos hhi]
  · rw [State.readBar0, if_neg (by omega), if_neg (by omega), if_neg (by omega), if_neg (by omega)]

theorem State.readBar0_past_clusters {k o : Nat} (hk : k < 20) (hlo : 0x2C0000 ≤ o) (hhi : o < 0x400000) :
    s.readBar0 (0x8000000 + 0x400000 * k + o) = 0 := by
  have hin : (0x8000000 + 0x400000 * k + o) % 0x400000 = o := by omega
  rw [State.readBar0, if_neg (by omega), if_neg (by omega), if_neg (by omega), if_pos (by omega)]
  simp only [hin]
  exact if_neg hlo.not_gt

end Unoccupied
end Sys2Proof.Machine

namespace Sys2Proof.Proofs
open Sys2Proof.Machine

/-- Settles O1, by the definition of a step. -/
theorem stepRunsTheFrontCommand : Obligations.StepRunsTheFrontCommand := by
  unfold Obligations.StepRunsTheFrontCommand
  intro s i rest hwait
  rw [step, hwait]

/-- Settles O3: the memories of the state at reset list no byte. -/
theorem resetMemoriesAreCanonical : Obligations.ResetMemoriesAreCanonical := by
  unfold Obligations.ResetMemoriesAreCanonical
  decide

/-- Settles O58: no operation may fire, no descriptor may be taken and nothing may be written. -/
theorem haltedDeviceActsOnNothing : Obligations.HaltedDeviceActsOnNothing := by
  unfold Obligations.HaltedDeviceActsOnNothing
  intro s hhalt
  have bell (r off v) : (.next (s.doorbell r off v) : Result) = .next s := congrArg _ (State.doorbell_of_halted hhalt r off v)
  refine ⟨fun r => if_pos (by simp [State.not_mayTake_of_halted hhalt]), fun r v => ⟨bell _ _ _, bell _ _ _⟩,
    fun v => ⟨bell _ _ _, bell _ _ _⟩, fun off v m halign hoff => exec_registerWrite_of_halted v m halign hhalt hoff, fun c t ix => ?ops⟩
  have op (opc body) : (.next (s.fireOp opc body c t ix) : Result) = .next s := congrArg _ (State.fireOp_of_halted hhalt ..)
  have form (opc form body) : (.next (s.fireForm opc form body c t ix) : Result) = .next s := congrArg _ (State.fireForm_of_halted hhalt ..)
  have siz (opc body) : (.next (s.fireSiz opc body c t ix) : Result) = .next s := congrArg _ (State.fireSiz_of_halted hhalt ..)
  have steer (opc) : (.next (s.fireSteer opc c t ix) : Result) = .next s := congrArg _ (State.fireSteer_of_halted hhalt ..)
  simp only [List.forall_mem_cons, List.not_mem_nil, false_imp_iff, implies_true, and_true]
  exact ⟨op _ _, op _ _, op _ _, op _ _, op _ _, op _ _, op _ _, op _ _, op _ _, op _ _, op _ _, op _ _, op _ _, op _ _, op _ _, op _ _,
    op _ _, op _ _, op _ _, op _ _, op _ _, op _ _, op _ _, op _ _, op _ _, op _ _, op _ _, op _ _, op _ _, op _ _, op _ _, op _ _,
    op _ _, op _ _, siz _ _, siz _ _, form _ _ _, form _ _ _, form _ _ _, form _ _ _, op _ _, op _ _, op _ _, op _ _,
    steer _, steer _, steer _, steer _, form _ _ _, form _ _ _, form _ _ _, op _ _⟩

/-- Settles O59: the offset falls in no window or block that holds such a register. -/
theorem unoccupiedOffsetsIgnored : Obligations.UnoccupiedOffsetsIgnored := by
  unfold Obligations.UnoccupiedOffsetsIgnored
  refine fun s => ⟨fun off => s.readBar0_of_no_die, fun k o => s.readBar0_past_clusters, fun off v m halign hblock => ?_⟩
  change Host.Outcome.next (ite _ _ _) = _
  rw [s.writeBar0_of_other_block v m hblock, ite_self, if_neg (not_not.2 halign), ite_self]

end Sys2Proof.Proofs
end

section
/-!
PROOFS. What the host reads and writes (R459–R467, R480–R482, R491, R609, R693): registers, doorbells, BAR4 and the MSI-X mask; that
BAR4 reads back what was written through it (R733); and obligations O37 and O55.
-/
namespace Sys2Proof.Machine

theorem linkUp_of_barsUp {s : State} (hbars : s.barsUp = true) : s.linkUp = true := by
  simp only [State.barsUp, Bool.and_eq_true] at hbars
  obtain ⟨⟨⟨⟨hwidth, hperst⟩, -⟩, -⟩, -⟩ := hbars
  rw [State.linkUp, hwidth, hperst, Bool.and_self]

theorem State.writable_of_run {s : State} (hbars : s.barsUp = true) (hrun : s.flt.halted = false) : s.writable = true := by
  rw [State.writable, hbars, hrun, Bool.not_false, Bool.and_self]

theorem State.not_writable_iff {s : State} : s.writable = false ↔ s.barsUp = false ∨ s.flt.halted = true := by
  rw [State.writable, Bool.and_eq_false_iff, Bool.not_eq_false']

/-! ### Doorbells -/

section Bells
variable {s : State} {r off : Nat} {v : BitVec 64}

theorem State.doorbell_of_not_writable (hoff : s.writable = false) : s.doorbell r off v = s := if_pos (by simp [hoff])

section Writable
variable (hon : s.writable = true)
include hon

theorem State.doorbell_of_ready (hready : s.bru.stage = .ready) : s.doorbell r off v = s.bell r off v := by
  rw [State.doorbell, hon, if_neg (by decide), if_pos hready]

theorem State.doorbell_of_early (hearly : s.bru.stage ≠ .ready) :
    s.doorbell r off v = { s with hif := { s.hif with bells := s.hif.bells ++ [(r, off, v)] } } := by
  rw [State.doorbell, hon, if_neg (by decide), if_neg hearly]

end Writable

theorem State.bellSq_of_inactive (hst : (s.ring r).st ≠ .active) : s.bellSq r v = s.bellIgnored r := if_pos hst

theorem State.bellCq_of_inactive (hst : (s.ring r).st ≠ .active) : s.bellCq r v = s.bellIgnored r := if_pos hst

section Active
variable {g : Ring} (hg : g = s.ring r) (hst : g.st = .active)
include hg hst

theorem State.bellSq_of_index (hix : bellIndex v < ringSize g.sqLog.toNat) :
    s.bellSq r v = s.setRing r { g with sqTail := BitVec.ofNat 15 (bellIndex v) } := by
  subst hg
  exact (if_neg (not_not.2 hst)).trans (if_neg hix.not_ge)

theorem State.bellSq_of_beyond (hix : ringSize g.sqLog.toNat ≤ bellIndex v) : s.bellSq r v = s.ringError r 1 := by
  subst hg
  exact (if_neg (not_not.2 hst)).trans (if_pos hix)

variable {n k : Nat} (hn : n = ringSize g.cqLog.toNat) (hk : k = (bellIndex v + n - g.cqHead.toNat) % n)
include hn hk

theorem State.bellCq_of_index (hix : bellIndex v < n) (hwritten : k ≤ g.written.length) :
    s.bellCq r v = (s.setRing r { g with cqHead := BitVec.ofNat 15 (bellIndex v), written := g.written.drop k }).freeSlots
      (g.written.take k) := by
  subst hg hk hn
  exact (if_neg (not_not.2 hst)).trans (if_neg (not_or.2 ⟨hix.not_ge, hwritten.not_gt⟩))

theorem State.bellCq_of_beyond (hix : n ≤ bellIndex v ∨ g.written.length < k) : s.bellCq r v = s.ringError r 2 := by
  subst hg hk hn
  exact (if_neg (not_not.2 hst)).trans (if_pos hix)

end Active
end Bells

/-! ### The lines of a byte range -/

theorem mem_linesOf {a n l : Nat} (hn : 1 ≤ n) : l ∈ linesOf a n ↔ a / 64 ≤ l ∧ 64 * l < a + n := by
  rw [linesOf, if_neg (by omega)]
  simp only [List.mem_map, List.mem_range]
  refine ⟨fun ⟨k, hk, hl⟩ => by omega, fun ⟨hlo, hhi⟩ => ⟨l - a / 64, by omega, by omega⟩⟩

/-! ### BAR4_READ -/

section Read
variable {s : State} {addr : BitVec 37} {len : Nat}

theorem exec_bar4Read_of_length (hlen : len < 1 ∨ 4096 < len) : exec (.bar4Read addr len) s = .next s := if_pos (by tauto)

theorem exec_bar4Read_of_no_link (hlink : s.linkUp = false) : exec (.bar4Read addr len) s = .next s := if_pos (by simp [hlink])

section Asked
variable (hmin : 1 ≤ len) (hmax : len ≤ 4096) (hlink : s.linkUp = true)
include hmin hmax hlink

theorem not_bar4Read_dropped : ¬ (len < 1 ∨ 4096 < len ∨ (!s.linkUp) = true) := by
  rw [hlink]
  simpa using ⟨by omega, hmax⟩

theorem exec_bar4Read_of_unreached (hbars : s.barsUp = false) : exec (.bar4Read addr len) s = .next (s.emit (.read false [])) :=
  (if_neg (not_bar4Read_dropped hmin hmax hlink)).trans (if_pos (by simp [hbars]))

section Reached
variable (hbars : s.barsUp = true)
include hbars

theorem exec_bar4Read_of_no_region (hline : (linesOf addr.toNat len).all s.bar4Line = false) :
    exec (.bar4Read addr len) s = .next (s.bar4Unsupported.emit (.read false [])) :=
  (if_neg (not_bar4Read_dropped hmin hmax hlink)).trans ((if_neg (by simp [hbars])).trans (if_pos (by rw [hline]; rfl)))

section Region
variable (hline : (linesOf addr.toNat len).all s.bar4Line = true)
include hline

theorem exec_bar4Read_of_no_gddr (hrun : s.gddrRuns = false) : exec (.bar4Read addr len) s = .next s :=
  (if_neg (not_bar4Read_dropped hmin hmax hlink)).trans
    ((if_neg (by simp [hbars])).trans ((if_neg (by simp only [hline]; decide)).trans (if_pos (by simp [hrun]))))

theorem exec_bar4Read_of_sound (hrun : s.gddrRuns = true) (hbad : (linesOf addr.toNat len).find? s.lineBad = none) :
    exec (.bar4Read addr len) s =
      .next ((s.asks classDma false addr.toNat len).emit (.read true (s.gddrRead addr.toNat len))) := by
  change execBar4Read addr len s = _
  simp only [execBar4Read, if_neg (not_bar4Read_dropped hmin hmax hlink), hbars, hline, hrun, hbad, Bool.not_true, if_neg Bool.false_ne_true]

theorem exec_bar4Read_of_bad_line {l : Nat} (hrun : s.gddrRuns = true) (hbad : (linesOf addr.toNat len).find? s.lineBad = some l) :
    exec (.bar4Read addr len) s =
      .next ((((s.asks classDma false addr.toNat len).modPcx fun r => { r with bar4Ca := satBump r.bar4Ca 1 }).aerError 15).emit
        (.read false (s.gddrRead addr.toNat (64 * l - addr.toNat)))) := by
  change execBar4Read addr len s = _
  simp only [execBar4Read, if_neg (not_bar4Read_dropped hmin hmax hlink), hbars, hline, hrun, hbad, Bool.not_true, if_neg Bool.false_ne_true]

end Region
end Reached
end Asked
end Read

/-! ### BAR4_WRITE -/

section Write
variable {s : State} {addr : BitVec 37} {data : List Byte} {poisoned : Bool}

theorem exec_bar4Write_of_length (hlen : data.length < 1 ∨ 512 < data.length) : exec (.bar4Write addr data poisoned) s = .next s :=
  if_pos (by tauto)

theorem exec_bar4Write_of_unreached (hbars : s.barsUp = false) : exec (.bar4Write addr data poisoned) s = .next s :=
  if_pos (by simp [hbars])

section Asked
variable (hmin : 1 ≤ data.length) (hmax : data.length ≤ 512) (hbars : s.barsUp = true)
include hmin hmax hbars

theorem not_bar4Write_dropped : ¬ (data.length < 1 ∨ 512 < data.length ∨ (!s.barsUp) = true) := by
  rw [hbars]
  simpa using ⟨List.length_pos_iff.1 hmin, hmax⟩

theorem exec_bar4Write_of_poisoned : exec (.bar4Write addr data true) s = .next (s.aerError 12) :=
  (if_neg (not_bar4Write_dropped hmin hmax hbars)).trans (if_pos rfl)

theorem exec_bar4Write_of_no_region (hline : (linesOf addr.toNat data.length).all s.bar4Line = false) :
    exec (.bar4Write addr data false) s = .next s.bar4Unsupported :=
  (if_neg (not_bar4Write_dropped hmin hmax hbars)).trans ((if_neg (by decide)).trans (if_pos (by rw [hline]; rfl)))

section Region
variable (hline : (linesOf addr.toNat data.length).all s.bar4Line = true)
include hline

theorem exec_bar4Write_of_no_gddr (hrun : s.gddrRuns = false) : exec (.bar4Write addr data false) s = .next s :=
  (if_neg (not_bar4Write_dropped hmin hmax hbars)).trans
    ((if_neg (by decide)).trans ((if_neg (by simp only [hline]; decide)).trans (if_pos (by simp [hrun]))))

theorem exec_bar4Write_of_region {part : List Nat} {bad : Nat} {t : State} (hrun : s.gddrRuns = true)
    (hpart : part = (linesOf addr.toNat data.length).filter fun l =>
      decide (64 * l < addr.toNat) || decide (addr.toNat + data.length < 64 * l + 64))
    (hbad : bad = part.countP s.lineBad)
    (ht : t = part.foldl (fun s l => s.asks classDma false (64 * l) 64)
      ((s.gddrWrite addr.toNat data).asks classDma true addr.toNat data.length)) :
    exec (.bar4Write addr data false) s =
      .next (if bad = 0 then t else (t.modPcx fun r => { r with bar4Ca := satBump r.bar4Ca bad }).aerError 15) := by
  subst ht hbad hpart
  exact (if_neg (not_bar4Write_dropped hmin hmax hbars)).trans
    ((if_neg (by decide)).trans ((if_neg (by simp only [hline]; decide)).trans (if_neg (by simp [hrun]))))

end Region
end Asked
end Write

/-! ### What was written through BAR4 reads back -/

theorem State.asks_fold_frame (ls : List Nat) (cls : Nat) (write : Bool) (s : State) :
    ∃ reqs, ls.foldl (fun s l => s.asks cls write (64 * l) 64) s = { s with gddr := { s.gddr with reqs := reqs } } := by
  induction ls generalizing s with
  | nil => exact ⟨s.gddr.reqs, rfl⟩
  | cons l ls ih =>
    obtain ⟨reqs, hasks⟩ := s.asks_frame cls write (64 * l) 64
    rw [List.foldl_cons, hasks]
    exact ih _

/-- A write through BAR4 whose lines can all be merged changes bytes, marks and requests for slots alone, and marks no line. -/
theorem exec_bar4Write_of_sound {s : State} {addr : BitVec 37} {data : List Byte} (hmin : 1 ≤ data.length) (hmax : data.length ≤ 512)
    (hbars : s.barsUp = true) (hrun : s.gddrRuns = true)
    (hline : ∀ l ∈ linesOf addr.toNat data.length, s.bar4Line l = true ∧ s.lineBad l = false) :
    ∃ bad reqs, exec (.bar4Write addr data false) s =
        .next { s with gddr := { s.gddr with bytes := s.gddr.bytes.writeBytes addr.toNat data, bad := bad, reqs := reqs } } ∧
      ∀ l, SMap.get false bad l = true → SMap.get false s.gddr.bad l = true := by
  have hregion : (linesOf addr.toNat data.length).all s.bar4Line = true := List.all_eq_true.2 fun l hl => (hline l hl).1
  obtain ⟨bad, hwrite, hmarks⟩ := s.gddrWrite_spec addr.toNat data fun l hlo hhi => (hline l ((mem_linesOf hmin).2 ⟨hlo, hhi⟩)).2
  obtain ⟨reqs, hasks⟩ := (s.gddrWrite addr.toNat data).asks_frame classDma true addr.toNat data.length
  rw [exec_bar4Write_of_region hmin hmax hbars hregion hrun rfl rfl rfl, hasks]
  obtain ⟨reqs', hparts⟩ := State.asks_fold_frame ((linesOf addr.toNat data.length).filter fun l =>
    decide (64 * l < addr.toNat) || decide (addr.toNat + data.length < 64 * l + 64)) classDma false
    { s.gddrWrite addr.toNat data with gddr := { (s.gddrWrite addr.toNat data).gddr with reqs := reqs } }
  refine ⟨bad, reqs', ?_, hmarks⟩
  rw [hparts, hwrite, if_pos]
  rw [List.countP_eq_zero]
  intro l hl
  rw [(hline l (List.mem_of_mem_filter hl)).2]
  exact Bool.false_ne_true

end Sys2Proof.Machine

namespace Sys2Proof.Proofs
open Sys2Proof.Machine

/-- Settles O55: the write changes bytes, marks and requests alone, and the read then finds no bad line. -/
theorem barWritesReadBack : Obligations.BarWritesReadBack := by
  unfold Obligations.BarWritesReadBack
  intro s addr data hmin hmax hbars hrun hline
  obtain ⟨bad, reqs, hwrite, hmarks⟩ := exec_bar4Write_of_sound hmin hmax hbars hrun hline
  obtain ⟨t, ht⟩ : ∃ t : State, t =
      { s with gddr := { s.gddr with bytes := s.gddr.bytes.writeBytes addr.toNat data, bad := bad, reqs := reqs } } := ⟨_, rfl⟩
  have hbars' : t.barsUp = true := by rw [ht]; exact hbars
  have hrun' : t.gddrRuns = true := by rw [ht]; exact hrun
  have hregion : (linesOf addr.toNat data.length).all t.bar4Line = true := by
    rw [ht]
    exact List.all_eq_true.2 fun l hl => (hline l hl).1
  have hsound : (linesOf addr.toNat data.length).find? t.lineBad = none := by
    refine List.find?_eq_none.2 fun l hl => Bool.eq_false_iff.1 ?_
    rw [ht]
    exact State.lineBad_of_bad (m := s.gddr.bytes) (hmarks l) (hline l hl).2
  have hread : t.gddrRead addr.toNat data.length = data := by
    rw [ht]
    exact Mem.readBytes_writeBytes _ _ _
  refine ⟨t, ht ▸ hwrite, ?_, fun b hout => ?_, ht ▸ rfl⟩
  · rw [exec_bar4Read_of_sound hmin (by omega) (linkUp_of_barsUp hbars') hbars' hregion hrun' hsound, hread]
  · rw [ht]
    exact Mem.read_writeBytes_other _ _ _ _ hout

/-- Settles O37: each clause is one of the cases of its command above. -/
theorem hostReadsAndWrites : Obligations.HostReadsAndWrites := by
  unfold Obligations.HostReadsAndWrites
  intro s
  refine ⟨?write, ?sqb, ?bells, ?early, ?bar2, ?reads, ?bar4Read, ?bar4Write, ?unmask, ?timeout, ?dropped, ?silent, ?unsupported, ?down, ?length⟩
  case write =>
    exact fun off v meets hbars => ⟨exec_registerWrite_of_acts v meets hbars, exec_registerWrite_of_halted v meets,
      exec_registerWrite_of_unaligned v meets hbars⟩
  case sqb => exact fun hbars hrun v meets => exec_registerWrite_of_acts v meets hbars (by decide) (.inl hrun)
  case bells =>
    intro hbars hrun hready r v g n k hg hn hk
    have bell (r off) : (.next (s.doorbell r off v) : Result) = .next (s.bell r off v) :=
      congrArg _ (State.doorbell_of_ready (State.writable_of_run hbars hrun) hready)
    refine ⟨fun hst hix => (bell r 0).trans (congrArg _ (State.bellSq_of_index hg hst hix)),
      fun hst hix => (bell r 0).trans (congrArg _ (State.bellSq_of_beyond hg hst hix)),
      fun hst hix hw => (bell r 8).trans (congrArg _ (State.bellCq_of_index hg hst hn hk hix hw)),
      fun hst hix => (bell r 8).trans (congrArg _ (State.bellCq_of_beyond hg hst hn hk hix)),
      fun hst u hu => ?inactive, bell 0 16, bell 0 24⟩
    subst hu hg
    exact ⟨(bell r 0).trans (congrArg _ (State.bellSq_of_inactive hst)), (bell r 8).trans (congrArg _ (State.bellCq_of_inactive hst))⟩
  case early =>
    intro hbars hrun hearly r v hold hh
    have bell (r off) : (.next (s.doorbell r off v) : Result) = .next (hold r off) := by
      rw [State.doorbell_of_early (State.writable_of_run hbars hrun) hearly, hh]
    exact ⟨bell _ _, bell _ _, bell _ _, bell _ _⟩
  case bar2 => exact fun hbars => congrArg _ (if_pos hbars)
  case reads =>
    intro hlink hbars
    exact ⟨(if_neg (by simp [hlink])).trans (if_neg (by simp [hbars])), fun sid => (if_neg (by simp [hlink])).trans (if_neg (by simp [hbars]))⟩
  case bar4Read =>
    intro addr len t hmin hmax hlink hbars ht
    subst ht
    exact ⟨exec_bar4Read_of_sound hmin hmax hlink hbars, fun l hline => exec_bar4Read_of_bad_line hmin hmax hlink hbars hline,
      exec_bar4Read_of_no_gddr hmin hmax hlink hbars, exec_bar4Read_of_no_region hmin hmax hlink hbars⟩
  case bar4Write =>
    intro addr data part bad t hmin hmax hbars hpart hbad ht
    exact ⟨fun hline hrun => exec_bar4Write_of_region hmin hmax hbars hline hrun hpart hbad ht,
      exec_bar4Write_of_no_gddr hmin hmax hbars, exec_bar4Write_of_no_region hmin hmax hbars, exec_bar4Write_of_poisoned hmin hmax hbars⟩
  case unmask =>
    exact fun v => ⟨fun hbars hrun => congrArg _ (if_pos (State.writable_of_run hbars hrun)),
      fun hoff => congrArg _ (if_neg (by simp [State.not_writable_iff.2 hoff]))⟩
  case timeout =>
    intro e x hx
    subst hx
    refine ⟨fun hst hhost hout hleft hrun => congrArg _ (if_pos ⟨hst, hhost, hout, hleft, by simp [hrun]⟩), fun hnone => congrArg _ (if_neg ?_)⟩
    rintro ⟨hst, hhost, hout, hleft, hrun⟩
    rcases hnone with h | h | h | h | h <;> simp_all
    omega
  case dropped =>
    exact fun hbars off v meets poisoned addr data =>
      ⟨exec_registerWrite_of_unreached v meets hbars, congrArg _ (if_neg (by simp [hbars])), exec_bar4Write_of_unreached hbars⟩
  case silent =>
    intro hoff r v
    have bell (r off) : (.next (s.doorbell r off v) : Result) = .next s :=
      congrArg _ (State.doorbell_of_not_writable (State.not_writable_iff.2 hoff))
    exact ⟨bell _ _, bell _ _, bell _ _, bell _ _⟩
  case unsupported =>
    intro hlink hbars sid addr len hmin hmax
    exact ⟨(if_neg (by simp [hlink])).trans (if_pos (by simp [hbars])), (if_neg (by simp [hlink])).trans (if_pos (by simp [hbars])),
      exec_bar4Read_of_unreached hmin hmax hlink hbars⟩
  case down =>
    exact fun hlink sid addr len => ⟨if_pos (by simp [hlink]), if_pos (by simp [hlink]), exec_bar4Read_of_no_link hlink⟩
  case length => exact fun addr len data poisoned => ⟨exec_bar4Read_of_length, exec_bar4Write_of_length⟩

end Sys2Proof.Proofs
end

section
/-!
PROOFS. Sweeps of the vat (R432–R449, R473): how descriptors enter and start, and the walk, delivery, commit, writeback and report of
the one that runs; and obligations O34 and O35.
-/
namespace Sys2Proof.Machine

/-! ### VAT_RUN, VAT_LOAD, VAT_STORE, VAT_CLEAR and VAT_ARM -/

section Enter
variable {s : State} {w : Work} {rest : List Work}

theorem State.vatHead_of_nil {op : Option Nat} (hin : s.hif.vatIn = []) : s.vatHead op = none := by
  simp only [State.vatHead, hin]

theorem State.vatHead_of_other {op : Option Nat} (hin : s.hif.vatIn = w :: rest)
    (hop : (if w.arms then none else some (fieldAt w.bytes 6 1 % 4)) ≠ op) : s.vatHead op = none := by
  simp only [State.vatHead, hin]
  exact if_neg fun h => hop h.1

theorem State.vatHead_of_front {op : Option Nat} (hrun : s.flt.halted = false) (hin : s.hif.vatIn = w :: rest)
    (hop : (if w.arms then none else some (fieldAt w.bytes 6 1 % 4)) = op) :
    s.vatHead op = some (w, { s with hif := { s.hif with vatIn := rest } }) := by
  simp only [State.vatHead, hin]
  exact if_pos ⟨hop, by rw [hrun]; rfl⟩

theorem State.enterSweep_of_nil {op : Nat} (hin : s.hif.vatIn = []) : s.enterSweep op = s := by
  simp only [State.enterSweep, State.vatHead_of_nil hin]

/-- A descriptor that arms a template, or has another OP, is not for the command. -/
theorem State.enterSweep_of_other {op : Nat} (hother : ∀ w ∈ s.hif.vatIn.head?, w.arms = true ∨ fieldAt w.bytes 6 1 % 4 ≠ op) :
    s.enterSweep op = s := by
  cases hin : s.hif.vatIn with
  | nil => exact State.enterSweep_of_nil hin
  | cons w rest =>
    have hop : (if w.arms then none else some (fieldAt w.bytes 6 1 % 4)) ≠ some op := by
      rcases hother w (by rw [hin]; rfl) with harm | hne
      · simp [harm]
      · cases w.arms <;> simp [hne]
    simp only [State.enterSweep, State.vatHead_of_other hin hop]

theorem State.enterSweep_of_front {op : Nat} (hrun : s.flt.halted = false) (hin : s.hif.vatIn = w :: rest) (harms : w.arms = false)
    (hop : fieldAt w.bytes 6 1 % 4 = op) :
    s.enterSweep op = { s with hif := { s.hif with vatIn := rest }, vat := { s.vat with queue := s.vat.queue ++ [w.sweep] } } := by
  have hfront := State.vatHead_of_front (op := some op) hrun hin (by rw [harms, hop]; rfl)
  simp only [State.enterSweep, hfront, State.enterWork, harms, if_neg Bool.false_ne_true]

theorem exec_vatArm_of_other (hother : ∀ w ∈ s.hif.vatIn.head?, w.arms = false) : exec .vatArm s = .next s := by
  have hnone : s.vatHead none = none := by
    cases hin : s.hif.vatIn with
    | nil => exact State.vatHead_of_nil hin
    | cons w rest =>
      have harms : w.arms = false := hother w (by rw [hin]; rfl)
      exact State.vatHead_of_other hin (by simp [harms])
  change execVatArm s = _
  simp only [execVatArm, hnone]

section Arm
variable (hrun : s.flt.halted = false) (hin : s.hif.vatIn = w :: rest) (harms : w.arms = true)
include hrun hin harms

theorem exec_vatArm_of_front : exec .vatArm s = .next (({ s with hif := { s.hif with vatIn := rest } } : State).armSweep w) := by
  have hfront := State.vatHead_of_front (op := none) hrun hin (by rw [harms]; rfl)
  change execVatArm s = _
  simp only [execVatArm, hfront, State.enterWork, harms, if_pos]

end Arm

variable {t : Nat} {z : Sweep} (ht : t = fieldAt w.bytes 7 1 % 16) (hz : z = { w.sweep with tpl := some t })
include ht hz

theorem State.armSweep_of_sound (hsound : s.sweepRefused z = none) :
    s.armSweep w = ({ s with vat := { s.vat with templates := SMap.set {} s.vat.templates t z } } : State).finish w.ring.toNat w.seqNo
      outDone 0 s.vat.seq.toNat := by
  subst hz ht
  simp only [State.armSweep, hsound]

theorem State.armSweep_of_refused {e : Refuse} (hbad : s.sweepRefused z = some e) :
    s.armSweep w = s.finish w.ring.toNat w.seqNo e.1 e.2 s.vat.seq.toNat := by
  subst hz ht
  simp only [State.armSweep, hbad]

end Enter

/-! ### SWEEP_START -/

theorem not_sweepStart_cut {s s1 : State} {z : Sweep}
    (hallow : s.pcx.cfg.busMaster = true ∨ (s1.sweepRanges z).any (fun p => onHost p.1) = false) :
    ¬ ((!s.pcx.cfg.busMaster && (s1.sweepRanges z).any (fun p => onHost p.1)) = true) := by
  rcases hallow with h | h <;> simp [h]

section Start
variable {s s0 s1 : State} (hs0 : s0 = s.enterTaken)
include hs0

theorem exec_sweepStart_of_empty (hq : s0.vat.queue = []) : exec .sweepStart s = .next s0 := by
  subst hs0
  change execSweepStart s = _
  simp only [execSweepStart, hq]

theorem exec_sweepStart_of_busy (hq : s0.vat.queue ≠ []) (hbusy : s.vat.busy = true) : exec .sweepStart s = .next s := by
  subst hs0
  obtain ⟨z, rest, hq⟩ := List.exists_cons_of_ne_nil hq
  change execSweepStart s = _
  simp only [execSweepStart, hq]
  exact if_pos (.inl hbusy)

section Head
variable {z : Sweep} {rest : List Sweep} (hrun : s.flt.halted = false) (hq : s0.vat.queue = z :: rest) (hidle : s.vat.busy = false)
  (hs1 : s1 = { s0 with vat := { s0.vat with queue := rest } })
include hrun hq hidle hs1

theorem exec_sweepStart_of_no_master (hmaster : s.pcx.cfg.busMaster = false)
    (hhost : (s1.sweepRanges z).any (fun p => onHost p.1) = true) :
    exec .sweepStart s = .next (s1.endPending z 0x0E 0xA0) := by
  subst hs1 hs0
  change execSweepStart s = _
  simp only [execSweepStart, hq]
  exact (if_neg (by simp [hidle, hrun])).trans (if_pos (by rw [hmaster]; exact hhost))

section Allowed
variable (hallow : s.pcx.cfg.busMaster = true ∨ (s1.sweepRanges z).any (fun p => onHost p.1) = false)
include hallow

theorem exec_sweepStart_of_sound (hsound : s1.sweepRefused z = none) : exec .sweepStart s = .next (s1.startSweep z) := by
  have hkeep := not_sweepStart_cut hallow
  subst hs1 hs0
  change execSweepStart s = _
  simp only [execSweepStart, hq, hsound]
  exact (if_neg (by simp [hidle, hrun])).trans (if_neg hkeep)

theorem exec_sweepStart_of_refused {e : Refuse} (hbad : s1.sweepRefused z = some e) :
    exec .sweepStart s = .next (if vatAddr z.report && !s.vatReach z.report then s0 else s1.endPending z e.1 e.2) := by
  have hkeep := not_sweepStart_cut hallow
  subst hs1 hs0
  change execSweepStart s = _
  simp only [execSweepStart, hq, hbad]
  exact (if_neg (by simp [hidle, hrun])).trans (if_neg hkeep)

end Allowed
end Head
end Start

/-! ### CONTEXT_FETCH -/

section Fetch
variable {s : State} {q : CacheUse}

theorem exec_contextFetch_of_idle (hoff : s.vat.busy = false ∨ s.vat.run.fault = true ∨ s.vat.run.cut = true ∨ s.gddrRuns = false ∨
    s.fetchReach = false) : exec (.contextFetch q) s = .next s :=
  if_pos (by rcases hoff with h | h | h | h | h <;> simp [h])

section Walks
variable (hrun : s.flt.halted = false) (hbusy : s.vat.busy = true) (hfault : s.vat.run.fault = false) (hcut : s.vat.run.cut = false)
  (hgddr : s.gddrRuns = true) (hreach : s.fetchReach = true)
include hrun hbusy hfault hcut hgddr hreach

theorem not_contextFetch_idle : ¬ ((!s.vat.busy || s.vat.run.fault || s.vat.run.cut || s.flt.halted || !s.gddrRuns || !s.fetchReach) = true) := by
  simp [hrun, hbusy, hfault, hcut, hgddr, hreach]

theorem exec_contextFetch_of_end (hplace : s.nextPlace q.quarter = none) :
    exec (.contextFetch q) s = .next (s.modRun fun r => r.closeAll q.quarter) := by
  have hgo := not_contextFetch_idle hrun hbusy hfault hcut hgddr hreach
  change execContextFetch q s = _
  simp only [execContextFetch, if_neg hgo, hplace]

variable {s0 : State} {i : Nat} {sel : Option Nat} (hplace : s.nextPlace q.quarter = some (i, sel))
  (hs0 : s0 = if s.vat.run.sweep.list then s.asksAt classVat false (vatLoc (s.vat.run.sweep.listA + 4 * i)) 4 else s)
include hplace hs0

theorem exec_contextFetch_of_no_room (hfetch : s0.fetchContext i (q.lost.map Fin.val) sel = none) :
    exec (.contextFetch q) s = .next s := by
  have hgo := not_contextFetch_idle hrun hbusy hfault hcut hgddr hreach
  subst hs0
  change execContextFetch q s = _
  simp only [execContextFetch, if_neg hgo, hplace, hfetch]

theorem exec_contextFetch_of_place {n : Nat} {s1 s2 : State} (hfetch : s0.fetchContext i (q.lost.map Fin.val) sel = some (n, s1))
    (hs2 : s2 = s1.modRun fun r => { r with status := SMap.set 7 r.status i n, next := SMap.set 0 r.next q.quarter (i + 1) }) :
    exec (.contextFetch q) s = .next (if (s2.nextPlace q.quarter).isNone then s2.modRun fun r => r.closeAll q.quarter else s2) := by
  have hgo := not_contextFetch_idle hrun hbusy hfault hcut hgddr hreach
  subst hs2 hs0
  change execContextFetch q s = _
  simp only [execContextFetch, if_neg hgo, hplace, hfetch]

end Walks
end Fetch

/-! ### BATCH_DELIVERY and CONTEXT_COMMIT -/

theorem exec_batchDelivery_of_busy {s u : State} (q : Fin 4) (hrun : s.flt.halted = false) (hbusy : s.vat.busy = true)
    (hu : u = s.rereadModels) :
    exec (.batchDelivery q) s = .next (if u.vat.run.fault then u
      else if (SMap.get (0, []) u.vat.run.sending q).2 = [] then (u.startBatch q).sendEntry q else u.sendEntry q) := by
  subst hu
  change execBatchDelivery q s = _
  simp only [execBatchDelivery, hrun, hbusy, Bool.not_true, Bool.not_false, Bool.false_or, Bool.or_false, Bool.and_true, if_true]
  split
  · rfl
  · split <;> rfl

theorem exec_contextCommit_of_returns {s s1 : State} {m port : Fin 16} {key per need c t : Nat} {model : VatModel} {b : Batch}
    {y : Tile × List Entry} (hrun : s.flt.halted = false) (hbusy : s.vat.busy = true) (hfault : s.vat.run.fault = false)
    (hread : s.vat.run.reread = false) (hkey : key = 16 * m.val + port.val) (hmodel : model = s.vat.run.models.getD m {})
    (hper : per = ctxBytes s.vat.wide / 16 - 2 + model.outB) (hb : (s.vat.run.delivered.find? fun p => p.1 == key) = some (key, b))
    (hc : xyCluster (model.ports.getD port {}).outXy = some c)
    (hneed : need = per * b.ctxs.length - (SMap.get [] s.vat.run.ret key).length) (ht : t = (model.ports.getD port {}).outTile.toNat)
    (hy : y = popUpTo ((s.cl c).tile t) 5 need)
    (hs1 : s1 = (s.setCl c ((s.cl c).setTile t y.1)).modRun fun r =>
      { r with ret := SMap.set [] r.ret key (SMap.get [] s.vat.run.ret key ++ y.2) }) :
    exec (.contextCommit m port) s = .next (if y.2.length = need ∧ (model.outB = 0 ∨ s.vat.run.cut = true ∨
      s.vatReach s.vat.run.sweep.out = true) then s1.commitBatch key per b else s1) := by
  have hgo : ¬ ((!s.vat.busy || s.flt.halted || s.vat.run.fault || s.vat.run.reread) = true) := by simp [hrun, hbusy, hfault, hread]
  subst hs1 hy ht hneed hper hmodel hkey
  change execContextCommit m port s = _
  simp only [execContextCommit, if_neg hgo, hb, hc]

/-! ### CACHE_WRITEBACK -/

section Writeback
variable {s : State} {q : CacheUse} {l : List (Nat × Bool)} {k c : Nat} {d : Bool} (hl : l = SMap.get [] s.vat.cache q.quarter)
include hl

theorem exec_cacheWriteback_of_clean (hclean : (∀ p ∈ l, p.2 = false) ∨ s.gddrRuns = false) : exec (.cacheWriteback q) s = .next s := by
  subst hl
  change execCacheWriteback q s = _
  simp only [execCacheWriteback]
  split
  case h_1 => rfl
  case h_2 p hp =>
    refine if_pos (.inr ?_)
    rcases hclean with hclean | hoff
    · have hend := List.findIdx_eq_length.2 hclean
      rw [hend, List.getElem?_length] at hp
      cases hp
    · simp [hoff]

variable (hk : k = l.findIdx fun p => p.2) (hrun : s.flt.halted = false) (hgddr : s.gddrRuns = true) (hp : l[k]? = some (c, d))
include hk hrun hgddr hp

theorem exec_cacheWriteback_of_sound (hlost : q.lost = none) :
    exec (.cacheWriteback q) s =
      .next (((s.writeBack c).setCache q.quarter (l.set k (c, false))).modRun fun r => { r with tend := s.now }) := by
  have hgo : ¬ (s.flt.halted = true ∨ (!s.gddrRuns) = true) := by simp [hrun, hgddr]
  subst hk hl
  change execCacheWriteback q s = _
  simp only [execCacheWriteback, hp, hlost, if_neg hgo]

theorem exec_cacheWriteback_of_lost {e : Fin 16384} (hlost : q.lost = some e) :
    exec (.cacheWriteback q) s =
      .next (((s.loseDirty c e).setCache q.quarter (l.eraseIdx k)).modRun fun r => { r with tend := s.now }) := by
  have hgo : ¬ (s.flt.halted = true ∨ (!s.gddrRuns) = true) := by simp [hrun, hgddr]
  subst hk hl
  change execCacheWriteback q s = _
  simp only [execCacheWriteback, hp, hlost, if_neg hgo]

end Writeback
end Sys2Proof.Machine

namespace Sys2Proof.Proofs
open Sys2Proof.Machine

/-- Settles O34: each clause is one of the cases of its command above. -/
theorem sweepsEnterStartAndArm : Obligations.SweepsEnterStartAndArm := by
  unfold Obligations.SweepsEnterStartAndArm
  intro s hrun
  refine ⟨?enter, ?arm, ⟨?other, exec_vatArm_of_other, ?empty, exec_sweepStart_of_empty rfl, exec_sweepStart_of_busy rfl⟩, ?start⟩
  case enter =>
    intro w rest hin harms
    have front {op} (hop : fieldAt w.bytes 6 1 % 4 = op) : (.next (s.enterSweep op) : Result) = .next _ :=
      congrArg _ (State.enterSweep_of_front hrun hin harms hop)
    exact ⟨front, front, front, front⟩
  case arm =>
    intro w rest s1 t z hin harms hs1 ht hz
    rw [exec_vatArm_of_front hrun hin harms, ← hs1]
    exact ⟨fun hsound => congrArg _ (State.armSweep_of_sound ht hz hsound), fun e hbad => congrArg _ (State.armSweep_of_refused ht hz hbad)⟩
  case other =>
    intro w hw k hother
    have idle : (.next (s.enterSweep k) : Result) = .next s :=
      congrArg _ (State.enterSweep_of_other fun v hv => by rwa [Option.mem_unique hv hw])
    refine ⟨?_, ?_, ?_, ?_⟩ <;> (rintro rfl; exact idle)
  case empty =>
    intro hin
    have idle (op) : (.next (s.enterSweep op) : Result) = .next s := congrArg _ (State.enterSweep_of_nil hin)
    exact ⟨idle _, idle _, idle _, idle _⟩
  case start =>
    intro s0 s1 z rest hs0 hq hidle hs1
    refine ⟨exec_sweepStart_of_no_master hs0 hrun hq hidle hs1, fun hallow =>
      ⟨exec_sweepStart_of_sound hs0 hrun hq hidle hs1 hallow, fun e hbad => ?refused⟩⟩
    rw [exec_sweepStart_of_refused hs0 hrun hq hidle hs1 hallow hbad]
    refine ⟨fun hreach => congrArg _ (if_neg ?_), fun haddr hreach => congrArg _ (if_pos ?_)⟩
    · rcases hreach with h | h <;> simp [h]
    · simp [haddr, hreach]

/-- Settles O35: each clause is one of the cases of its command above. -/
theorem sweepsFetchDeliverAndCommit : Obligations.SweepsFetchDeliverAndCommit := by
  unfold Obligations.SweepsFetchDeliverAndCommit
  intro s hrun
  refine ⟨?fetch, fun q => exec_contextFetch_of_idle, ?delivery, ?commit,
    ?writeback, fun q => exec_cacheWriteback_of_clean rfl, fun hdone => if_pos (by simp [hdone]), ?complete⟩
  case fetch =>
    intro q s0 hbusy hfault hcut hgddr hreach
    exact ⟨exec_contextFetch_of_end hrun hbusy hfault hcut hgddr hreach, fun i sel hplace hs0 =>
      ⟨exec_contextFetch_of_no_room hrun hbusy hfault hcut hgddr hreach hplace hs0,
        fun n s1 s2 => exec_contextFetch_of_place hrun hbusy hfault hcut hgddr hreach hplace hs0⟩⟩
  case delivery =>
    intro q u hbusy hu
    refine exec_batchDelivery_of_busy q hrun hbusy (hu.trans ?_)
    rw [State.rereadModels]
    cases s.vat.run.reread <;> rfl
  case commit =>
    intro m port key per need c t model b y s1 hbusy hfault hread hkey hmodel hper hb hc hneed ht hy hs1
    rw [exec_contextCommit_of_returns hrun hbusy hfault hread hkey hmodel hper hb hc hneed ht hy hs1]
    refine ⟨fun hall hreach => congrArg _ (if_pos ⟨hall, hreach⟩), fun hwait => congrArg _ (if_neg ?_)⟩
    rintro ⟨hall, hreach⟩
    rcases hwait with hpart | ⟨hout, hcut, hfar⟩
    · exact hpart hall
    · simp [hout, hcut, hfar] at hreach
  case writeback =>
    intro q l k c d hgddr hl hk hp
    refine ⟨exec_cacheWriteback_of_sound hl hk hrun hgddr hp, fun e hlost => ?_⟩
    obtain ⟨n, hentry, rfl⟩ := Option.map_eq_some_iff.1 hlost
    exact exec_cacheWriteback_of_lost hl hk hrun hgddr hp hentry
  case complete =>
    intro z hz hdone hreach
    have hgo : ¬ ((!s.sweepDone || s.flt.halted ||
        !(s.vat.run.cut || (s.vatReach s.vat.run.sweep.report && (s.vat.run.sweep.stat == 0 || s.vatReach s.vat.run.sweep.stat)))) = true) := by
      subst hz
      rcases hreach with hcut | ⟨hreport, hstat⟩
      · simp [hdone, hrun, hcut]
      · simp only [hdone, hrun, hreport, Bool.true_and]
        rcases hstat with hstat | hstat <;> simp [hstat]
    subst hz
    change execSweepComplete s = _
    simp only [execSweepComplete, if_neg hgo]

end Sys2Proof.Proofs
end

section
/-!
PROOFS. The host link and the resets of the function (R451–R455, R472–R476, R695); and obligation O36.
-/
namespace Sys2Proof.Machine

/-- A map over the values of a sparse map, where the default stays. -/
theorem SMap.get_map_value {β : Type} {d : β} {f : β → β} (hd : f d = d) (m : SMap β) (i : Nat) :
    SMap.get d (m.map fun p => (p.1, f p.2)) i = f (SMap.get d m i) := by
  induction m with
  | nil => exact hd.symm
  | cons p m ih =>
    obtain ⟨k, v⟩ := p
    simp only [List.map_cons, SMap.get, ih]
    split <;> rfl

/-! ### PCIE_LINK_UP -/

section LinkUp
variable {s : State} {width : Fin 5} {rate : Fin 6} {flit reversed : Bool}

theorem exec_pcieLinkUp_of_off (hoff : s.pcieOn = false ∨ s.pcx.perstLow = true ∨ (rate.val = 5 ∧ flit = false)) :
    exec (.pcieLinkUp width rate flit reversed) s = .next s := by
  refine if_pos ?_
  rcases hoff with h | h | ⟨hrate, hflit⟩
  · simp [h]
  · simp [h]
  · simp [hrate, hflit]

theorem exec_pcieLinkUp_of_on {s1 : State} (hon : s.pcieOn = true) (hperst : s.pcx.perstLow = false) (hflit : rate.val ≠ 5 ∨ flit = true)
    (hs1 : s1 = s.modPcx fun r => { r with
      width := BitVec.ofNat 5 (2 ^ width.val), rate := BitVec.ofNat 3 (rate.val + 1), flit, reversed
      degraded := decide (width.val < 4) || decide (rate.val < 5)
      changes := satBump r.changes (bitN (r.width != BitVec.ofNat 5 (2 ^ width.val) || r.rate != BitVec.ofNat 3 (rate.val + 1))) }) :
    exec (.pcieLinkUp width rate flit reversed) s =
      .next (if width.val < 4 ∨ rate.val < 5 then s1.postEvent 0x000A noRing 0 (s1.pcxReg 0) else s1) := by
  have hgo : ¬ ((!s.pcieOn || s.pcx.perstLow || (rate.val == 5 && !flit)) = true) := by
    rcases hflit with h | h <;> simp [hon, hperst, h]
  subst hs1
  change execPcieLinkUp width rate flit reversed s = _
  simp only [execPcieLinkUp, if_neg hgo]
  simp only [Bool.or_eq_true, decide_eq_true_eq]

end LinkUp

/-! ### PERST, HOT_RESET, FUNCTION_LEVEL_RESET and the power states -/

section Reset
variable {s : State}

theorem exec_perst_of_same : exec (.perst s.pcx.perstLow) s = .next s := if_pos rfl

theorem exec_perst_of_deasserted (hlow : s.pcx.perstLow = true) :
    exec (.perst false) s = .next { s with pcx := { s.pcx with perstLow := false } } :=
  (if_neg (by simp [hlow])).trans (if_pos rfl)

section Asserted
variable (hhigh : s.pcx.perstLow = false)
include hhigh

theorem exec_perst_of_unpowered (hoff : s.pcieOn = false) : exec (.perst true) s = .next { s with pcx := { s.pcx with perstLow := true } } :=
  (if_neg (by simp [hhigh])).trans (if_pos (by rw [hoff]; rfl))

theorem exec_perst_of_asserted {u : State} (hon : s.pcieOn = true)
    (hu : u = s.functionReset.modPcx fun r => { r.down with perst := satBump r.perst 1 }) :
    exec (.perst true) s = .next { u with pcx := { u.pcx with perstLow := true } } := by
  have hchange : true ≠ s.pcx.perstLow := by simp [hhigh]
  subst hu
  change execPerst true s = _
  simp only [execPerst, if_neg hchange, hon, Bool.not_true, Bool.or_self, if_neg Bool.false_ne_true]

end Asserted

theorem exec_hotReset_of_up (down : Bool) (hup : s.linkUp = true) :
    exec (.hotReset down) s = .next (s.functionReset.modPcx fun r => { r.down with hot := satBump r.hot 1 }) :=
  congrArg Host.Outcome.next (if_neg (by simp [hup]))

theorem exec_hotReset_of_down (down : Bool) (hoff : s.linkUp = false) : exec (.hotReset down) s = .next s :=
  congrArg Host.Outcome.next (if_pos (by simp [hoff]))

end Reset

/-! ### What a function reset leaves -/

theorem Ring.functionReset_default : Ring.functionReset {} = {} := rfl

/-- The completions that stay are those of records and of template sweeps (R474, R695). -/
theorem Ring.stop_waiting_opcode (g : Ring) : ∀ c ∈ g.stop.waiting, c.opcode = 0x84 ∨ c.opcode = 0x85 := by
  intro c hc
  rcases List.mem_append.1 hc with hwritten | hwaits
  · have hrecord := (List.mem_filter.1 hwritten).2
    exact .inr (by simpa using hrecord)
  · have hunasked := (List.mem_filter.1 hwaits).2
    simpa [Compl.unasked] using hunasked

/-- A function reset ends the work that needs the host, and then clears the registers of the state `u` that is left. -/
theorem State.functionReset_eq (s : State) : ∃ u : State, s.functionReset = { u with
    pcx := { u.pcx with cfg := u.pcx.cfg.functionReset, msix := [], doeBusy := none }
    hif := { u.hif with
      rings := u.hif.rings.map fun p => (p.1, p.2.functionReset)
      rgc := { seq := u.hif.rgc.seq, loss := u.hif.rgc.loss, last := u.hif.rgc.last }
      bells := [] } } := by
  unfold State.functionReset
  dsimp only
  generalize (List.range 32).foldl State.cutChannel _ = u
  exact ⟨u, rfl⟩

theorem State.functionReset_leaves (s : State) : s.functionReset.pcx.msix = [] ∧ s.functionReset.hif.bells = [] ∧
    (∀ r, ∃ (k : Nat) (w : List Compl), s.functionReset.ring r = { nextSeq := k, waiting := w } ∧
      ∀ c ∈ w, c.opcode = 0x84 ∨ c.opcode = 0x85) ∧
    ∃ a c f l o, s.functionReset.pcx.cfg = { aer := a, aerCor := c, aerFirst := f, aerLog := l, other := o } := by
  obtain ⟨u, hu⟩ := s.functionReset_eq
  rw [hu]
  exact ⟨rfl, rfl, fun r => ⟨_, _, SMap.get_map_value Ring.functionReset_default _ r, Ring.stop_waiting_opcode _⟩, _, _, _, _, _, rfl⟩

end Sys2Proof.Machine

namespace Sys2Proof.Proofs
open Sys2Proof.Machine

/-- Settles O36: each clause is one of the cases of its command above, or a part of what a function reset leaves. -/
theorem linkAndFunctionResets : Obligations.LinkAndFunctionResets := by
  unfold Obligations.LinkAndFunctionResets
  intro s
  refine ⟨fun width rate flit reversed s1 => exec_pcieLinkUp_of_on, fun width rate flit reversed => exec_pcieLinkUp_of_off,
    exec_perst_of_deasserted, exec_perst_of_same, exec_perst_of_unpowered, fun u hhigh => exec_perst_of_asserted hhigh,
    exec_hotReset_of_up, exec_hotReset_of_down, ?unreached, ?awake, ?flr, ?d3hot, ?d0,
    s.functionReset_leaves⟩
  case unreached =>
    exact fun hoff => ⟨congrArg Host.Outcome.next (if_neg (by simp [hoff])), congrArg Host.Outcome.next (if_neg (by simp [hoff])), congrArg Host.Outcome.next (if_neg (by simp [hoff]))⟩
  case awake => exact fun hawake => congrArg Host.Outcome.next (if_neg (by simp [hawake]))
  case flr => exact fun hup => congrArg Host.Outcome.next (if_pos hup)
  case d3hot => exact fun hup => congrArg Host.Outcome.next (if_pos hup)
  case d0 => exact fun hup hd3 => congrArg Host.Outcome.next (if_pos (by rw [hup, hd3]; rfl))

end Sys2Proof.Proofs
end

section
/-!
PROOFS. The DOE mailbox and the SPDM responder (R470, R471, R668, R669): what a request is checked for before its answer, and the
answers; and obligation O38.
-/
namespace Sys2Proof.Machine

/-! ### DOE_REQUEST -/

section Doe
variable {s : State} {object : List Byte}

theorem exec_doeRequest_of_dropped (hdrop : s.configUp = false ∨ s.spdmUp = false ∨ s.pcx.doeBusy.isSome = true ∨ maxDoe < object.length ∨
    fieldAt object 0 2 ≠ 1 ∨ bitsOf (fieldAt object 4 4) 0 18 * 4 ≠ object.length) : exec (.doeRequest object) s = .next s := by
  change execDoeRequest object s = _
  rw [execDoeRequest]
  by_cases hoff : (!s.configUp || !s.spdmUp || s.pcx.doeBusy.isSome) = true
  · exact if_pos hoff
  · refine (if_neg hoff).trans (if_pos ?_)
    simp only [Bool.or_eq_true, Bool.not_eq_true', not_or] at hoff
    tauto

section Object
variable {body : List Byte} (hconfig : s.configUp = true) (hup : s.spdmUp = true) (hfree : s.pcx.doeBusy = none)
  (hbody : body = object.drop 8) (hmax : object.length ≤ maxDoe) (hvendor : fieldAt object 0 2 = 1)
  (hlen : bitsOf (fieldAt object 4 4) 0 18 * 4 = object.length)
include hconfig hup hfree hbody hmax hvendor hlen

/-- A well-formed object goes by its type. -/
theorem exec_doeRequest_of_object :
    exec (.doeRequest object) s =
      if fieldAt object 2 1 = 0 then .next (s.doeAnswer 0 (if fieldAt body 0 1 = 0 then [1, 0, 0, 1]
        else if fieldAt body 0 1 = 1 then [1, 0, 1, 0] else [0xFF, 0xFF, 0xFF, 0]))
      else if fieldAt object 2 1 = 1 then
        if spdmCodes.contains (fieldAt body 1 1) then .next { s with pcx := { s.pcx with doeBusy := some body } }
        else .next (s.doeAnswer 1 (spdmError 0x13 0x07 (fieldAt body 1 1)))
      else .next s := by
  have hgo : ¬ ((!s.configUp || !s.spdmUp || s.pcx.doeBusy.isSome) = true) := by simp [hconfig, hup, hfree]
  have hform : ¬ (maxDoe < object.length ∨ fieldAt object 0 2 ≠ 1 ∨ bitsOf (fieldAt object 4 4) 0 18 * 4 ≠ object.length) := by
    simp only [not_or, not_not, not_lt]
    exact ⟨hmax, hvendor, hlen⟩
  subst hbody
  exact (if_neg hgo).trans (if_neg hform)

end Object
end Doe

/-! ### What a request is checked for -/

section Reply
variable {s : State} {q : SpdmReq} {size : Nat} {far : Bool} {f : State → State × List Byte}

theorem State.spdmReply_of_version (hver : fieldAt q.body 0 1 ≠ 0x13) :
    s.spdmReply q size far f = s.spdmSend q.smbus (spdmError 0x13 0x41) := if_pos hver

section Version
variable (hver : fieldAt q.body 0 1 = 0x13)
include hver

theorem State.spdmReply_of_early (hfar : far = false) : s.spdmReply q size far f = s.spdmSend q.smbus (spdmError 0x13 0x04) :=
  (if_neg (not_not.2 hver)).trans (if_pos (by simp [hfar]))

variable (hfar : far = true)
include hfar

theorem State.spdmReply_of_short (hlen : q.body.length < size) : s.spdmReply q size far f = s.spdmSend q.smbus (spdmError 0x13 0x01) :=
  (if_neg (not_not.2 hver)).trans ((if_neg (by simp [hfar])).trans (if_pos hlen))

theorem State.spdmReply_of_whole (hlen : size ≤ q.body.length) : s.spdmReply q size far f = (f s).1.spdmSend q.smbus (f s).2 :=
  (if_neg (not_not.2 hver)).trans ((if_neg (by simp [hfar])).trans (if_neg hlen.not_gt))

end Version

/-! ### Requests that are served -/

theorem State.spdmTake_of_absent {code : Nat} (hno : s.spdmHas q code = false) : s.spdmTake q code = s := if_neg (by simp [hno])

theorem State.fieldAt_of_spdmHas {code : Nat} (hhas : s.spdmHas q code = true) : fieldAt q.body 1 1 = code := by
  simp only [State.spdmHas, Bool.and_eq_true, beq_iff_eq] at hhas
  exact hhas.1.2

section Held
variable {code : Nat} {s0 : State} (hs0 : s0 = s.spdmBefore q)
include hs0

/-- A request that is held is answered by its code. -/
theorem State.spdmTake_of_held {u : State} (hhas : s.spdmHas q code = true) (hserve : fieldAt q.body 1 1 = code → s0.spdmServe q = u) :
    s.spdmTake q code = u := by
  subst hs0
  exact (if_pos hhas).trans (hserve (State.fieldAt_of_spdmHas hhas))

variable {b : List Byte} (hb : b = q.body)
include hb

/-- A request whose answer is a reply of version 1.3 is refused where R668 says so. -/
theorem exec_spdm_refusals {i : Instr} (hexec : exec i s = .next (s.spdmTake q code))
    (hserve : fieldAt q.body 1 1 = code → s0.spdmServe q = s0.spdmReply q size far f) :
    (s.spdmHas q code = false → exec i s = .next s) ∧
      (s.spdmHas q code = true → fieldAt b 0 1 ≠ 0x13 → exec i s = .next (s0.spdmSend q.smbus (spdmError 0x13 0x41))) ∧
      (s.spdmHas q code = true → fieldAt b 0 1 = 0x13 → far = false → exec i s = .next (s0.spdmSend q.smbus (spdmError 0x13 0x04))) ∧
      (s.spdmHas q code = true → fieldAt b 0 1 = 0x13 → far = true → b.length < size →
        exec i s = .next (s0.spdmSend q.smbus (spdmError 0x13 0x01))) := by
  subst hb
  rw [hexec]
  refine ⟨fun hno => congrArg Host.Outcome.next (State.spdmTake_of_absent hno), fun hhas hver => congrArg _ ?_, fun hhas hver hfar => congrArg _ ?_,
    fun hhas hver hfar hlen => congrArg _ ?_⟩ <;> rw [State.spdmTake_of_held hs0 hhas hserve]
  · exact State.spdmReply_of_version hver
  · exact State.spdmReply_of_early hver hfar
  · exact State.spdmReply_of_short hver hfar hlen

end Held
end Reply

/-! ### The answer to each code -/

section Serve
variable {s : State} {q : SpdmReq}

theorem State.spdmServe_version (hcode : fieldAt q.body 1 1 = 0x84) : s.spdmServe q = s.answerVersion q := by
  simp only [State.spdmServe, hcode]

theorem State.spdmServe_capabilities (hcode : fieldAt q.body 1 1 = 0xE1) : s.spdmServe q = s.answerCapabilities q := by
  simp only [State.spdmServe, hcode]

theorem State.spdmServe_algorithms (hcode : fieldAt q.body 1 1 = 0xE3) : s.spdmServe q = s.answerAlgorithms q := by
  simp only [State.spdmServe, hcode]

theorem State.spdmServe_digests (hcode : fieldAt q.body 1 1 = 0x81) : s.spdmServe q = s.answerDigests q := by
  simp only [State.spdmServe, hcode]

theorem State.spdmServe_certificate (hcode : fieldAt q.body 1 1 = 0x82) : s.spdmServe q = s.answerCertificate q := by
  simp only [State.spdmServe, hcode]

theorem State.spdmServe_challenge (hcode : fieldAt q.body 1 1 = 0x83) : s.spdmServe q = s.answerChallenge q := by
  simp only [State.spdmServe, hcode]

theorem State.spdmServe_measurements (hcode : fieldAt q.body 1 1 = 0xE0) : s.spdmServe q = s.answerMeasurements q := by
  simp only [State.spdmServe, hcode]

/-- The answer to each request but GET_VERSION is a reply, of a state of the connection and a size of the request. -/
theorem State.answers_reply (s : State) (q : SpdmReq) {c : Spdm} (hc : c = s.spdm q.smbus) :
    (∃ f, s.answerCapabilities q = s.spdmReply q 20 (c.version && !c.caps) f) ∧
      (∃ f, s.answerAlgorithms q = s.spdmReply q 32 (c.caps && !c.algs) f) ∧
      (∃ f, s.answerDigests q = s.spdmReply q 4 c.algs f) ∧ (∃ f, s.answerCertificate q = s.spdmReply q 8 c.algs f) ∧
      (∃ f, s.answerChallenge q = s.spdmReply q 44 c.algs f) ∧
      (∃ f, s.answerMeasurements q = s.spdmReply q (if bitAt (fieldAt q.body 2 1) 0 then 45 else 12) c.algs f) := by
  subst hc
  simp only [State.answerCapabilities, State.answerAlgorithms, State.answerDigests, State.answerCertificate, State.answerChallenge,
    State.answerMeasurements]
  exact ⟨⟨_, rfl⟩, ⟨_, rfl⟩, ⟨_, rfl⟩, ⟨_, rfl⟩, ⟨_, rfl⟩, ⟨_, rfl⟩⟩

end Serve
end Sys2Proof.Machine

namespace Sys2Proof.Proofs
open Sys2Proof.Machine

/-- Settles O38: a request goes through the checks of its object or its message, and then has its answer. -/
theorem spdmRequestsAreAnswered : Obligations.SpdmRequestsAreAnswered := by
  unfold Obligations.SpdmRequestsAreAnswered
  intro s
  refine ⟨?object, fun object => exec_doeRequest_of_dropped, ?abort, fun hoff => congrArg Host.Outcome.next (if_neg (by simp [hoff])), ?spdm⟩
  case object =>
    intro object body hconfig hup hfree hbody hmax hvendor hlen
    rw [exec_doeRequest_of_object hconfig hup hfree hbody hmax hvendor hlen]
    refine ⟨fun htype hix => ?_, fun htype hix => ?_, fun htype hix => ?_, fun htype hknown => ?_, fun htype hknown => ?_, fun htype => ?_⟩
    · rw [if_pos htype, if_pos hix]
    · rw [if_pos htype, if_neg (by omega), if_pos hix]
    · rw [if_pos htype, if_neg (by omega), if_neg (by omega)]
    · rw [if_neg (by omega), if_pos htype, if_pos hknown]
    · rw [if_neg (by omega), if_pos htype, if_neg (by rw [hknown]; decide)]
    · rw [if_neg (by omega), if_neg (by omega)]
  case abort =>
    intro hup u hu
    subst hu
    exact congrArg Host.Outcome.next (if_pos hup)
  case spdm =>
    intro q s0 c b hs0 hc hb
    have hversion (hhas : s.spdmHas q 0x84 = true) : s.spdmTake q 0x84 = s0.answerVersion q :=
      State.spdmTake_of_held hs0 hhas State.spdmServe_version
    refine ⟨fun hno => congrArg Host.Outcome.next (State.spdmTake_of_absent hno), fun hhas hver => ?_, fun r hhas hver hr => ?_, ?refusals, fun hver => ?answers⟩
    · subst hb
      exact congrArg Host.Outcome.next ((hversion hhas).trans (if_pos hver))
    · subst hb hr
      exact congrArg Host.Outcome.next ((hversion hhas).trans (if_neg (not_not.2 hver)))
    case refusals =>
      obtain ⟨⟨_, hcaps⟩, ⟨_, halgs⟩, ⟨_, hdigs⟩, ⟨_, hcert⟩, ⟨_, hchal⟩, ⟨_, hmeas⟩⟩ := s0.answers_reply q hc
      subst hb
      simp only [List.forall_mem_cons, List.not_mem_nil, false_imp_iff, implies_true, and_true]
      exact ⟨exec_spdm_refusals hs0 rfl rfl fun h => (State.spdmServe_capabilities h).trans hcaps,
        exec_spdm_refusals hs0 rfl rfl fun h => (State.spdmServe_algorithms h).trans halgs,
        exec_spdm_refusals hs0 rfl rfl fun h => (State.spdmServe_digests h).trans hdigs,
        exec_spdm_refusals hs0 rfl rfl fun h => (State.spdmServe_certificate h).trans hcert,
        exec_spdm_refusals hs0 rfl rfl fun h => (State.spdmServe_challenge h).trans hchal,
        exec_spdm_refusals hs0 rfl rfl fun h => (State.spdmServe_measurements h).trans hmeas⟩
    case answers =>
      subst hc hb
      refine ⟨fun r hhas hc hcaps hlen hr => ?capabilities, fun r hhas hcaps halgs hlen hr => ?algorithms, fun halgs =>
        ⟨fun r hhas hlen hr => ?digests, fun r part rest hhas hlen hrest hpart hr => ?certificate, fun hhas hlen hslot => ?slot,
          fun r n hhas hlen hslot hn hr => ?challenge, fun ks sign hhas hsign hlen hks => ?measurements⟩⟩
      case capabilities =>
        have hfar : ((s0.spdm q.smbus).version && !(s0.spdm q.smbus).caps) = true := by rw [hc, hcaps]; rfl
        subst hr
        refine congrArg Host.Outcome.next ((State.spdmTake_of_held hs0 hhas State.spdmServe_capabilities).trans ?_)
        simp only [State.answerCapabilities, State.spdmReply_of_whole hver hfar hlen]
      case algorithms =>
        have hfar : ((s0.spdm q.smbus).caps && !(s0.spdm q.smbus).algs) = true := by rw [hcaps, halgs]; rfl
        subst hr
        refine congrArg Host.Outcome.next ((State.spdmTake_of_held hs0 hhas State.spdmServe_algorithms).trans ?_)
        simp only [State.answerAlgorithms, State.spdmReply_of_whole hver hfar hlen]
      case digests =>
        subst hr
        refine congrArg Host.Outcome.next ((State.spdmTake_of_held hs0 hhas State.spdmServe_digests).trans ?_)
        simp only [State.answerDigests, State.spdmReply_of_whole hver halgs hlen]
      case certificate =>
        subst hr hpart hrest
        refine congrArg Host.Outcome.next ((State.spdmTake_of_held hs0 hhas State.spdmServe_certificate).trans ?_)
        simp only [State.answerCertificate, State.spdmReply_of_whole hver halgs hlen]
      case slot =>
        refine congrArg Host.Outcome.next ((State.spdmTake_of_held hs0 hhas State.spdmServe_challenge).trans ?_)
        simp only [State.answerChallenge, State.spdmReply_of_whole hver halgs hlen, if_pos hslot]
      case challenge =>
        refine congrArg Host.Outcome.next ((State.spdmTake_of_held hs0 hhas State.spdmServe_challenge).trans ?_)
        subst hr hn
        simp only [State.answerChallenge, State.spdmReply_of_whole hver halgs hlen, if_neg (not_not.2 hslot)]
      case measurements =>
        subst hsign
        have hserve := State.spdmTake_of_held hs0 hhas State.spdmServe_measurements
        refine ⟨fun hbad => congrArg Host.Outcome.next (hserve.trans ?_), fun r l n hknown hslot hn hl hr => ?_⟩
        · subst hks
          simp only [State.answerMeasurements, State.spdmReply_of_whole hver halgs hlen, if_pos hbad]
        · have hgood : ¬ ((ks = [] ∧ fieldAt q.body 3 1 ≠ 0) ∨ (bitAt (fieldAt q.body 2 1) 0 = true ∧ fieldAt q.body 36 1 ≠ 0)) := by
            rintro (⟨hnone, hop⟩ | ⟨hs, hf⟩)
            · exact hknown.elim (· hnone) hop
            · exact hslot.elim (by rw [hs]; decide) hf
          change Host.Outcome.next (s.spdmTake q 0xE0) = _
          rw [hserve]
          subst hr hl hn hks
          simp only [State.answerMeasurements, State.spdmReply_of_whole hver halgs hlen, if_neg hgood]
          split
          · rfl
          · rw [List.append_nil]

end Sys2Proof.Proofs
end

section
/-!
PROOFS. Ring pairs and global rings (R478–R493, R516, R620, R693): their configuration, the taking of descriptors, FENCE, SEAL and the
writing of completions; and obligation O39.
-/
namespace Sys2Proof.Machine

/-! ### RNG.CFG -/

section RingCfg
variable {s : State} {r : Nat} {v : Word} {g x : Ring} (hg : g = s.ring r) (hx : x = g.fields v)
include hg hx

section Disabled
variable (hoff : g.enable = false)
include hoff

theorem State.writeRingCfg_of_start (hon : bitAt v.toNat 31 = true) : s.writeRingCfg r v = s.masterOn.setRing r x.start := by
  subst hx hg
  exact (if_neg (by simp [hoff])).trans (if_pos hon)

theorem State.writeRingCfg_of_fields (hon : bitAt v.toNat 31 = false) : s.writeRingCfg r v = s.setRing r x := by
  subst hx hg
  exact (if_neg (by simp [hoff])).trans (if_neg (by simp [hon]))

end Disabled

section Enabled
variable (hen : g.enable = true)
include hen

theorem State.writeRingCfg_of_stop (hsame : x = g) (hon : bitAt v.toNat 31 = false) :
    s.writeRingCfg r v = ((g.waiting.filterMap (·.clear)).foldl (fun s h => s.clearAborted h.toNat) s).setRing r g.stop := by
  subst hg
  exact (if_pos hen).trans (if_neg (by rw [← hx]; simp [hsame, hon]))

theorem State.writeRingCfg_of_ignored (hother : x ≠ g ∨ bitAt v.toNat 31 = true) : s.writeRingCfg r v = s := by
  subst hx hg
  exact (if_pos hen).trans (if_pos hother)

end Enabled
end RingCfg

section RingWrite
variable {s t : State} (r : Fin 4096) {v : Word}

theorem exec_ringCfg_of_write (hon : s.writable = true) (hw : s.writeRingCfg r v = t) :
    exec (.ringEnable r v) s = .next t ∧ exec (.ringDisable r v) s = .next t := by
  subst hw
  exact ⟨congrArg Host.Outcome.next (if_pos hon), congrArg Host.Outcome.next (if_pos hon)⟩

theorem exec_ringDrained_of_empty (hst : (s.ring r).st = .draining) (hnone : (s.ring r).taken = []) :
    exec (.ringDrained r) s = .next (s.setRing r { s.ring r with st := .off }) := congrArg Host.Outcome.next (if_pos ⟨hst, hnone⟩)

theorem exec_ringDrained_of_busy (hbusy : (s.ring r).st ≠ .draining ∨ (s.ring r).taken ≠ []) : exec (.ringDrained r) s = .next s :=
  congrArg Host.Outcome.next (if_neg (by tauto))

end RingWrite

/-! ### RGC.EVT_CFG and RGC.REAM_CFG -/

/-- The fields that a write of a global ring's CFG sets. -/
def GlobalRing.fields (g : GlobalRing) (v : Word) : GlobalRing :=
  { g with enable := bitAt v.toNat 31, log := BitVec.ofNat 4 (bitsOf v.toNat 27 4), vector := BitVec.ofNat 12 (bitsOf v.toNat 15 12) }

section GlobalCfg
variable {g : GlobalRing} {v : Word}

theorem GlobalRing.writeCfg_of_start (hon : bitAt v.toNat 31 = true) (hoff : g.enable = false) :
    g.writeCfg v = { g.fields v with loc := g.base, tail := 0, head := 0, used := 0, phase := true } := if_pos (by simp [hon, hoff])

theorem GlobalRing.writeCfg_of_fields (hstay : bitAt v.toNat 31 = false ∨ g.enable = true) : g.writeCfg v = g.fields v :=
  if_neg (by rcases hstay with h | h <;> simp [h])

end GlobalCfg

theorem exec_reamRingEnable_of_write {s u : State} {v : Word} (hon : s.writable = true) (hu : s.writeReamCfg v = u) :
    exec (.reamRingEnable v) s = .next (if s.bru.stage = .ready then u.copyRetained else u) := by
  subst hu
  exact congrArg Host.Outcome.next (if_pos hon)

section GlobalWrite
variable {s t : State} {v : Word} (ht : t = if bitAt v.toNat 31 then s.masterOn else s)
include ht

theorem State.masterOn_hif : t.hif = s.hif := by
  subst ht
  split <;> rfl

theorem State.writeEvtCfg_eq {g : GlobalRing} (hg : s.hif.rgc.evt.writeCfg v = g) :
    s.writeEvtCfg v = { t with hif := { t.hif with rgc := { t.hif.rgc with evt := g } } } := by
  have hif := State.masterOn_hif ht
  subst ht hg
  rw [State.writeEvtCfg, hif]

theorem State.writeReamCfg_eq {g : GlobalRing} {b : BitVec 64} (hg : s.hif.rgc.ream.writeCfg v = g)
    (hb : (if bitAt v.toNat 31 && !s.hif.rgc.ream.enable then s.hif.rgc.buf else s.hif.rgc.bufLoc) = b) :
    s.writeReamCfg v = { t with hif := { t.hif with rgc := { t.hif.rgc with ream := g, bufLoc := b } } } := by
  have hif := State.masterOn_hif ht
  subst ht hg hb
  rw [State.writeReamCfg, hif]

end GlobalWrite

/-! ### DESCRIPTOR_TAKE and FENCE -/

section Take
variable {s : State} {r : Fin 4096}

theorem exec_descriptorTake_of_not (hno : s.mayTake r = false) : exec (.descriptorTake r) s = .next s := if_pos (by simp [hno])

section May
variable (hmay : s.mayTake r = true)
include hmay

theorem exec_descriptorTake_of_refused {e : Refuse} (hbad : descRefused (s.headDesc r) = some e) :
    exec (.descriptorTake r) s = .next ((s.setRing r ((s.ring r).take (s.headDesc r))).finish r (s.ring r).nextSeq e.1 e.2
      (refuseInfo (s.headDesc r))) := by
  change execDescriptorTake r s = _
  simp only [execDescriptorTake, hmay, Bool.not_true, if_neg Bool.false_ne_true, hbad]

theorem exec_descriptorTake_of_sound (hsound : descRefused (s.headDesc r) = none) :
    exec (.descriptorTake r) s = .next ((s.accept r (s.headDesc r)).getD s) := by
  change execDescriptorTake r s = _
  simp only [execDescriptorTake, hmay, Bool.not_true, if_neg Bool.false_ne_true, hsound]

end May

theorem exec_fence_of_front {t : Taken} {rest : List Taken} (hfront : (s.ring r).taken = t :: rest) (hop : t.opcode = 8)
    (hrun : s.flt.halted = false) : exec (.fence r) s = .next (s.finish r t.seqNo outDone 0 0) := by
  change execFence r s = _
  simp only [execFence, hfront]
  exact congrArg Host.Outcome.next (if_pos ⟨hop, by simp [hrun]⟩)

theorem exec_fence_of_none (hnone : (∀ t ∈ (s.ring r).taken.head?, t.opcode ≠ 8) ∨ s.flt.halted = true) : exec (.fence r) s = .next s := by
  change execFence r s = _
  cases htaken : (s.ring r).taken with
  | nil => simp only [execFence, htaken]
  | cons t rest =>
    simp only [execFence, htaken]
    refine congrArg Host.Outcome.next (if_neg ?_)
    rintro ⟨hop, hrun⟩
    rcases hnone with hno | hhalt
    · exact hno t (by rw [htaken]; rfl) hop
    · simp [hhalt] at hrun

end Take

/-! ### SEAL -/

theorem not_seal_waiting {s : State} {first : List Taken} (hrun : s.flt.halted = false)
    (hfirst : (first.any fun t => t.opcode == 1 || t.opcode == 3 || t.opcode == 4) = false) :
    ¬ (s.flt.halted = true ∨ (first.any fun t => t.opcode == 1 || t.opcode == 3 || t.opcode == 4) = true) := by
  rw [hrun, hfirst]
  decide

section Seal
variable {s : State} {r : Fin 4096}

theorem exec_seal_of_waiting (hwait : (∀ t ∈ (s.ring r).taken, t.opcode ≠ 7) ∨ s.flt.halted = true ∨
    (((s.ring r).taken.take ((s.ring r).taken.findIdx fun t => t.opcode == 7)).any fun t =>
      t.opcode == 1 || t.opcode == 3 || t.opcode == 4) = true) : exec (.seal r) s = .next s := by
  change execSeal r s = _
  simp only [execSeal]
  split
  · rfl
  · next t ht =>
    refine if_pos ?_
    rcases hwait with hno | hblocked
    · have hend : (s.ring r).taken.findIdx (fun t => t.opcode == 7) = (s.ring r).taken.length :=
        List.findIdx_eq_length.2 fun t ht => by simpa using hno t ht
      rw [hend, List.getElem?_length] at ht
      cases ht
    · exact hblocked

section Front
variable {t : Taken} {k : Nat} (hk : k = (s.ring r).taken.findIdx fun t => t.opcode == 7) (ht : (s.ring r).taken[k]? = some t)
  (hrun : s.flt.halted = false)
  (hfirst : (((s.ring r).taken.take k).any fun t => t.opcode == 1 || t.opcode == 3 || t.opcode == 4) = false)
include hk ht hrun hfirst

theorem exec_seal_of_no_flag (hflag : fieldAt t.bytes 8 8 = 0) : exec (.seal r) s = .next (s.finish r t.seqNo outDone 0 0) := by
  have hgo := not_seal_waiting hrun hfirst
  subst hk
  change execSeal r s = _
  simp only [execSeal, ht, if_neg hgo, if_pos hflag]

variable (hflag : fieldAt t.bytes 8 8 ≠ 0)
include hflag

theorem exec_seal_of_refused {e : Refuse} (hbad : s.resolve r (fieldAt t.bytes 8 8) 8 = .error e) :
    exec (.seal r) s = .next (s.finish r t.seqNo e.1 e.2 0) := by
  have hgo := not_seal_waiting hrun hfirst
  subst hk
  change execSeal r s = _
  simp only [execSeal, ht, if_neg hgo, if_neg hflag, hbad]

variable {l : Loc} (hl : s.resolve r (fieldAt t.bytes 8 8) 8 = .ok l)
include hl

theorem exec_seal_of_unreached (hreach : s.reaches l = false) : exec (.seal r) s = .next s := by
  have hgo := not_seal_waiting hrun hfirst
  subst hk
  change execSeal r s = _
  simp only [execSeal, ht, if_neg hgo, if_neg hflag, hl, hreach, Bool.not_false, if_true]

variable (hreach : s.reaches l = true)
include hreach

theorem exec_seal_of_bad_line {a : Nat} (ha : l = .gddr a) (hbad : s.partBad a 8 = true) :
    exec (.seal r) s = .next (s.finish r t.seqNo 0x0F 0xA1 0) := by
  have hgo := not_seal_waiting hrun hfirst
  subst hk ha
  change execSeal r s = _
  simp only [execSeal, ht, if_neg hgo, if_neg hflag, hl, hreach, hbad, Bool.not_true, if_neg Bool.false_ne_true, if_true]

theorem exec_seal_of_sound (hsound : ∀ a, l = .gddr a → s.partBad a 8 = false) :
    exec (.seal r) s = .next ((s.devWrite l ((t.bytes.drop 0x10).take 8)).finish r t.seqNo outDone 0 0) := by
  have hgo := not_seal_waiting hrun hfirst
  subst hk
  change execSeal r s = _
  simp only [execSeal, ht, if_neg hgo, if_neg hflag, hl, hreach, Bool.not_true, if_neg Bool.false_ne_true]
  cases l with
  | gddr a => simp only [hsound a rfl, if_neg Bool.false_ne_true]
  | host a => rfl
  | sram c t off => rfl

end Front
end Seal

/-! ### COMPLETION_WRITE -/

section Completion
variable {s : State} {r : Fin 4096} {g : Ring} (hg : g = s.ring r)
include hg

theorem exec_completionWrite_of_none (hnone : g.waiting = [] ∨ (g.st ≠ .active ∧ g.st ≠ .error) ∨ s.hostUp = false ∨
    ringSize g.cqLog.toNat ≤ g.written.length) : exec (.completionWrite r) s = .next s := by
  subst hg
  change execCompletionWrite r s = _
  simp only [execCompletionWrite]
  split
  · rfl
  · next c rest hwait =>
    refine if_pos ?_
    rcases hnone with h | h | h | h
    · simp [h] at hwait
    · exact .inl h
    · exact .inr (.inl (by simp [h]))
    · exact .inr (.inr h)

theorem exec_completionWrite_of_room {c : Compl} {rest : List Compl} {s0 s1 : State} (hwait : g.waiting = c :: rest)
    (hst : g.st = .active ∨ g.st = .error) (hup : s.hostUp = true) (hroom : g.written.length < ringSize g.cqLog.toNat)
    (hs0 : s0 = c.clear.elim s fun h => s.clearAborted h.toNat)
    (hs1 : s1 = (s0.hostWrite (g.cqLoc.toNat + 16 * g.cqTail.toNat) (natLe 16 (c.pack g.phase g.sqHead.toNat))).setRing r g.post) :
    exec (.completionWrite r) s = .next (if c.quiet then s1 else s1.signal g.vector.toNat) := by
  have hgo : ¬ ((g.st ≠ .active ∧ g.st ≠ .error) ∨ (!s.hostUp) = true ∨ ringSize g.cqLog.toNat ≤ g.written.length) := by
    rintro (⟨hact, herr⟩ | hdown | hfull)
    · exact hst.elim hact herr
    · simp [hup] at hdown
    · exact hroom.not_ge hfull
  subst hs1 hs0 hg
  change execCompletionWrite r s = _
  simp only [execCompletionWrite, hwait, if_neg hgo]
  cases c.clear <;> rfl

end Completion
end Sys2Proof.Machine

namespace Sys2Proof.Proofs
open Sys2Proof.Machine

/-- Settles O39: each clause is one of the cases of its command above. -/
theorem ringsTakeFenceSealAndComplete : Obligations.RingsTakeFenceSealAndComplete := by
  unfold Obligations.RingsTakeFenceSealAndComplete
  intro s
  refine ⟨?cfg, fun r => ⟨exec_ringDrained_of_empty r, exec_ringDrained_of_busy r⟩, ?globals, ?unwritable, ?take,
    fun r => exec_descriptorTake_of_not, fun r => ⟨fun t rest => exec_fence_of_front, exec_fence_of_none⟩, ?sealed,
    fun r => exec_seal_of_waiting, ?completion, fun r g => exec_completionWrite_of_none⟩
  case cfg =>
    intro r v g x hon hg hx
    refine ⟨fun u hoff hset hu => ?_, fun hoff hset => ?_, fun u hen hsame hset hu => ?_, fun hen hother => ?_⟩
    · subst hu hx
      exact exec_ringCfg_of_write r hon (State.writeRingCfg_of_start hg rfl hoff hset)
    · exact exec_ringCfg_of_write r hon (State.writeRingCfg_of_fields hg hx hoff hset)
    · subst hu
      exact exec_ringCfg_of_write r hon (State.writeRingCfg_of_stop hg hx hen hsame hset)
    · exact exec_ringCfg_of_write r hon (State.writeRingCfg_of_ignored hg hx hen hother)
  case globals =>
    intro v on t y hon hset ht hy
    subst hset hy
    have evt {g} (hg : s.hif.rgc.evt.writeCfg v = g) : exec (.eventRingEnable v) s = .next _ :=
      (congrArg Host.Outcome.next (if_pos hon)).trans (congrArg Host.Outcome.next (State.writeEvtCfg_eq ht hg))
    refine ⟨fun hs hoff => evt (GlobalRing.writeCfg_of_start hs hoff), fun hstay => evt (GlobalRing.writeCfg_of_fields hstay),
      fun u hs hoff hu => ?_, fun u hstay hu => ?_⟩
    · subst hu
      exact exec_reamRingEnable_of_write hon
        (State.writeReamCfg_eq ht (GlobalRing.writeCfg_of_start hs hoff) (if_pos (by rw [hs, hoff]; rfl)))
    · have hkeep : ¬ ((bitAt v.toNat 31 && !s.hif.rgc.ream.enable) = true) := by rcases hstay with h | h <;> simp [h]
      subst hu
      rw [State.masterOn_hif ht]
      exact exec_reamRingEnable_of_write hon
        ((State.writeReamCfg_eq ht (GlobalRing.writeCfg_of_fields hstay) (if_neg hkeep)).trans (by rw [State.masterOn_hif ht]; rfl))
  case unwritable =>
    intro hoff r v
    have keeps (t : State) : (.next (if s.writable then t else s) : Result) = .next s := congrArg Host.Outcome.next (if_neg (by simp [hoff]))
    exact ⟨keeps _, keeps _, keeps _, keeps _⟩
  case take =>
    intro r hmay
    refine ⟨fun e => exec_descriptorTake_of_refused hmay, fun t hsound ht => ?_, fun hsound ht => ?_⟩ <;>
      rw [exec_descriptorTake_of_sound hmay hsound, ht] <;> rfl
  case sealed =>
    intro r t k hk ht hrun hfirst
    exact ⟨exec_seal_of_no_flag hk ht hrun hfirst, fun e hflag => exec_seal_of_refused hk ht hrun hfirst hflag, fun l hflag hl =>
      ⟨exec_seal_of_unreached hk ht hrun hfirst hflag hl,
        fun a ha hbad hreach => exec_seal_of_bad_line hk ht hrun hfirst hflag hl hreach ha hbad,
        fun hsound hreach => exec_seal_of_sound hk ht hrun hfirst hflag hl hreach hsound⟩⟩
  case completion =>
    intro r g c rest s1 hg hwait hst hup hroom hs1
    refine exec_completionWrite_of_room hg hwait hst hup hroom rfl (hs1.trans ?_)
    cases c.clear <;> rfl

end Sys2Proof.Proofs
end

section
/-!
PROOFS. Copies of the DMA channels (R486, R496, R502, R511–R519): their start, their pieces and entries, the poll and the end; and
obligation O41.
-/
namespace Sys2Proof.Machine

section Channel
variable {s : State} {ch : Fin 32} {x : Channel} (hx : x = s.chan ch)
include hx

/-! ### Starting -/

section Start
variable (hrun : s.flt.halted = false) {w : Work} {rest : List Work} (hidle : x.st = .idle) (hq : x.queue = w :: rest)
include hrun hidle hq

theorem exec_dmaCopy_of_start :
    exec (.dmaCopy ch) s = if bitAt (fieldAt w.bytes 4 1) 0 then .next s
      else .next ((s.setChan ch { x with queue := rest }).startCopy ch w) := by
  subst hx
  change execDmaCopy ch s = _
  simp only [execDmaCopy, hrun, if_neg Bool.false_ne_true, hidle, hq]

theorem exec_pacedCopy_of_start :
    exec (.pacedCopy ch) s = if bitAt (fieldAt w.bytes 4 1) 0 then .next ((s.setChan ch { x with queue := rest }).startPaced ch w)
      else .next s := by
  subst hx
  change execPacedCopy ch s = _
  simp only [execPacedCopy, hrun, if_neg Bool.false_ne_true, hidle, hq]

end Start

/-! ### Moving -/

section Move
variable (hrun : s.flt.halted = false) (hleft : x.moved < x.total) (hout : x.outcome = 0) (hsrc : s.reaches x.src = true)
  (hdst : s.reaches x.dst = true)

section Plain
variable (hst : x.st = .copy)
include hst hrun hleft hout hsrc hdst

theorem exec_dmaCopy_of_bad_source (hread : s.devRead (x.src.plus x.moved) x.piece = none) :
    exec (.dmaCopy ch) s = .next (s.memError ch) := by
  have hgo : ¬ (x.total ≤ x.moved ∨ x.outcome ≠ 0 ∨ (!s.reaches x.src) = true ∨ (!s.reaches x.dst) = true) := by
    simp [hleft, hout, hsrc, hdst]
  subst hx
  change execDmaCopy ch s = _
  simp only [execDmaCopy, hrun, if_neg Bool.false_ne_true, hst, if_neg hgo, hread]

theorem exec_dmaCopy_of_piece {bs : List Byte} {r : State × Bool} {y : Channel}
    (hread : s.devRead (x.src.plus x.moved) x.piece = some bs) (hr : r = s.copyWrite (x.src.plus x.moved) (x.dst.plus x.moved) bs)
    (hy : y = { x with moved := x.moved + x.piece, failed := x.failed || r.2 }) :
    exec (.dmaCopy ch) s = .next (if y.failed = true ∧ y.total ≤ y.moved then (r.1.setChan ch y).memError ch else r.1.setChan ch y) := by
  have hgo : ¬ (x.total ≤ x.moved ∨ x.outcome ≠ 0 ∨ (!s.reaches x.src) = true ∨ (!s.reaches x.dst) = true) := by
    simp [hleft, hout, hsrc, hdst]
  subst hy hr hx
  change execDmaCopy ch s = _
  simp only [execDmaCopy, hrun, if_neg Bool.false_ne_true, hst, if_neg hgo, hread]

end Plain

section Paced
variable (hst : x.st = .pacedActive)
include hst hrun hleft hout hsrc hdst

theorem exec_pacedCopy_of_bad_header (hread : s.devRead (.gddr x.header) 64 = none) :
    exec (.pacedCopy ch) s = .next (s.memError ch) := by
  have hgo : ¬ (x.total - x.moved = 0 ∨ x.outcome ≠ 0 ∨ (!s.reaches x.src) = true ∨ (!s.reaches x.dst) = true) := by
    simp [hleft, hout, hsrc, hdst, Nat.sub_eq_zero_iff_le]
  subst hx
  change execPacedCopy ch s = _
  simp only [execPacedCopy, hrun, if_neg Bool.false_ne_true, hst, if_neg hgo, hread]

theorem exec_pacedCopy_of_header {hdr : List Byte} {low : Nat} {s1 : State} (hread : s.devRead (.gddr x.header) 64 = some hdr)
    (hs1 : s1 = s.asks classDma false x.header 64)
    (hlow : low = if x.total - x.moved ≤ fieldAt x.cur.bytes 0x30 4 then 0 else fieldAt x.cur.bytes 0x34 4) :
    exec (.pacedCopy ch) s = .next (if low < x.level hdr then s1.moveEntry ch hdr else s1.setChan ch { x with st := .pacedIdle }) := by
  have hgo : ¬ (x.total - x.moved = 0 ∨ x.outcome ≠ 0 ∨ (!s.reaches x.src) = true ∨ (!s.reaches x.dst) = true) := by
    simp [hleft, hout, hsrc, hdst, Nat.sub_eq_zero_iff_le]
  subst hlow hs1 hx
  change execPacedCopy ch s = _
  simp only [execPacedCopy, hrun, if_neg Bool.false_ne_true, hst, if_neg hgo, hread]

end Paced
end Move

/-! ### Waiting -/

theorem exec_dmaCopy_of_waiting (hwait : s.flt.halted = true ∨ (x.st ≠ .idle ∧ x.st ≠ .copy) ∨ (x.st = .idle ∧ x.queue = []) ∨
    (x.st = .copy ∧ (x.total ≤ x.moved ∨ x.outcome ≠ 0 ∨ s.reaches x.src = false ∨ s.reaches x.dst = false))) :
    exec (.dmaCopy ch) s = .next s := by
  subst hx
  change execDmaCopy ch s = _
  rcases hwait with hhalt | ⟨hidle, hcopy⟩ | ⟨hidle, hq⟩ | ⟨hcopy, hstop⟩
  · exact if_pos hhalt
  · simp only [execDmaCopy]
    cases hst : (s.chan ch).st <;> simp_all
  · simp only [execDmaCopy, hidle, hq, ite_self]
  · have hend : (s.chan ch).total ≤ (s.chan ch).moved ∨ (s.chan ch).outcome ≠ 0 ∨ (!s.reaches (s.chan ch).src) = true ∨
        (!s.reaches (s.chan ch).dst) = true := by simpa using hstop
    simp only [execDmaCopy, hcopy, if_pos hend, ite_self]

theorem exec_pacedCopy_of_waiting (hwait : s.flt.halted = true ∨ (x.st ≠ .idle ∧ x.st ≠ .pacedActive) ∨ (x.st = .idle ∧ x.queue = []) ∨
    (x.st = .pacedActive ∧ (x.total ≤ x.moved ∨ x.outcome ≠ 0 ∨ s.reaches x.src = false ∨ s.reaches x.dst = false))) :
    exec (.pacedCopy ch) s = .next s := by
  subst hx
  change execPacedCopy ch s = _
  rcases hwait with hhalt | ⟨hidle, hcopy⟩ | ⟨hidle, hq⟩ | ⟨hcopy, hstop⟩
  · exact if_pos hhalt
  · simp only [execPacedCopy]
    cases hst : (s.chan ch).st <;> simp_all
  · simp only [execPacedCopy, hidle, hq, ite_self]
  · have hend : (s.chan ch).total - (s.chan ch).moved = 0 ∨ (s.chan ch).outcome ≠ 0 ∨ (!s.reaches (s.chan ch).src) = true ∨
        (!s.reaches (s.chan ch).dst) = true := by simpa [Nat.sub_eq_zero_iff_le] using hstop
    simp only [execPacedCopy, hcopy, if_pos hend, ite_self]

/-! ### The poll and the end -/

theorem exec_pacedPoll_of_waiting (hwait : x.st ≠ .pacedIdle ∨ x.outcome ≠ 0 ∨ x.pollFrame = some s.xms.regs.frame.toNat ∨
    s.flt.halted = true) : exec (.pacedPoll ch) s = .next s := by
  subst hx
  exact if_pos hwait

section Poll
variable (hrun : s.flt.halted = false) (hst : x.st = .pacedIdle) (hout : x.outcome = 0)
  (hframe : x.pollFrame ≠ some s.xms.regs.frame.toNat)
include hrun hst hout hframe

theorem exec_pacedPoll_of_bad_header (hread : s.devRead (.gddr x.header) 64 = none) :
    exec (.pacedPoll ch) s = .next (s.memError ch) := by
  have hgo : ¬ (x.st ≠ .pacedIdle ∨ x.outcome ≠ 0 ∨ x.pollFrame = some s.xms.regs.frame.toNat ∨ s.flt.halted = true) := by
    simp [hst, hout, hframe, hrun]
  subst hx
  change execPacedPoll ch s = _
  simp only [execPacedPoll, if_neg hgo, hread]

theorem exec_pacedPoll_of_header {hdr : List Byte} (hread : s.devRead (.gddr x.header) 64 = some hdr) :
    exec (.pacedPoll ch) s = .next ((s.asks classDma false x.header 64).setChan ch { x with
      pollFrame := some s.xms.regs.frame.toNat
      st := if min (fieldAt x.cur.bytes 0x30 4) (x.total - x.moved) ≤ x.level hdr then .pacedActive else .pacedIdle }) := by
  have hgo : ¬ (x.st ≠ .pacedIdle ∨ x.outcome ≠ 0 ∨ x.pollFrame = some s.xms.regs.frame.toNat ∨ s.flt.halted = true) := by
    simp [hst, hout, hframe, hrun]
  subst hx
  change execPacedPoll ch s = _
  simp only [execPacedPoll, if_neg hgo, hread]

end Poll

theorem exec_dmaCopyComplete_of_waiting (hwait : x.st = .idle ∨ (x.outcome = 0 ∧ x.moved < x.total) ∨ s.flt.halted = true) :
    exec (.dmaCopyComplete ch) s = .next s := by
  subst hx
  exact if_pos hwait

section Complete
variable (hrun : s.flt.halted = false) (hst : x.st ≠ .idle)
include hrun hst

theorem exec_dmaCopyComplete_of_done (hout : x.outcome = 0) (hall : x.total ≤ x.moved) :
    exec (.dmaCopyComplete ch) s = .next ((s.setChan ch { x.rest with done := x.done + 1 }).finish
      x.cur.ring.toNat x.cur.seqNo 0 x.check x.bytesMoved) := by
  have hgo : ¬ (x.st = .idle ∨ (x.outcome = 0 ∧ x.moved < x.total) ∨ s.flt.halted = true) := by simp [hst, hall, hrun]
  subst hx
  change execDmaCopyComplete ch s = _
  simp only [execDmaCopyComplete, if_neg hgo]
  simp only [hout, ne_eq, not_true_eq_false, decide_false, if_neg Bool.false_ne_true]

theorem exec_dmaCopyComplete_of_error (hout : x.outcome ≠ 0) :
    exec (.dmaCopyComplete ch) s = .next ((s.setChan ch { x.rest with errors := satBump x.errors 1 }).finish
      x.cur.ring.toNat x.cur.seqNo x.outcome x.check x.bytesMoved) := by
  have hgo : ¬ (x.st = .idle ∨ (x.outcome = 0 ∧ x.moved < x.total) ∨ s.flt.halted = true) := by
    rintro (hidle | ⟨hno, -⟩ | hhalt)
    · exact hst hidle
    · exact hout hno
    · simp [hrun] at hhalt
  subst hx
  change execDmaCopyComplete ch s = _
  simp only [execDmaCopyComplete, if_neg hgo]
  simp only [hout, ne_eq, not_false_eq_true, decide_true, if_true]

end Complete
end Channel
end Sys2Proof.Machine

namespace Sys2Proof.Proofs
open Sys2Proof.Machine

/-- Settles O41: each clause is one of the cases of its command above. -/
theorem copiesMoveAndComplete : Obligations.CopiesMoveAndComplete := by
  unfold Obligations.CopiesMoveAndComplete
  intro s ch x hx
  refine ⟨fun hrun => ⟨?start, ?plain, ?paced, ?poll, fun hst => ⟨exec_dmaCopyComplete_of_done hx hrun hst,
    exec_dmaCopyComplete_of_error hx hrun hst⟩⟩, exec_dmaCopy_of_waiting hx, exec_pacedCopy_of_waiting hx, exec_pacedPoll_of_waiting hx,
    exec_dmaCopyComplete_of_waiting hx⟩
  case start =>
    intro w rest hidle hq
    rw [exec_dmaCopy_of_start hx hrun hidle hq, exec_pacedCopy_of_start hx hrun hidle hq]
    exact ⟨fun hplain => by simp [hplain], fun hpaced => by simp [hpaced]⟩
  case plain =>
    intro hst hleft hout hsrc hdst
    refine ⟨exec_dmaCopy_of_bad_source hx hrun hleft hout hsrc hdst hst, fun bs r y hread hr hy => ?_⟩
    rw [exec_dmaCopy_of_piece hx hrun hleft hout hsrc hdst hst hread hr hy]
    have htotal : y.total = x.total := by rw [hy]
    have hmoved : y.moved = x.moved + x.piece := by rw [hy]
    rw [htotal, hmoved]
    refine ⟨fun hgood => congrArg Host.Outcome.next (if_neg ?_), fun hbad hend => congrArg Host.Outcome.next (if_pos ⟨hbad, hend⟩)⟩
    rintro ⟨hbad, hend⟩
    rcases hgood with h | h
    · simp [h] at hbad
    · exact h.not_ge hend
  case paced =>
    intro hst hleft hout hsrc hdst
    exact ⟨exec_pacedCopy_of_bad_header hx hrun hleft hout hsrc hdst hst,
      fun hdr low s1 => exec_pacedCopy_of_header hx hrun hleft hout hsrc hdst hst⟩
  case poll =>
    intro hst hout hframe
    exact ⟨exec_pacedPoll_of_bad_header hx hrun hst hout hframe, fun hdr => exec_pacedPoll_of_header hx hrun hst hout hframe⟩

end Sys2Proof.Proofs
end

section
/-!
PROOFS. Buckets, fencing, spares, repair fuses, moves and service cores (R591–R608, R617); and obligation O23.
-/
namespace Sys2Proof.Machine

/-! ### SPARE_BIST_COMPLETE -/

/-- The virtual cluster's image recovers once its spare is known, unless the spare is for a move (R595, R602). -/
def Bist.heal (b : Bist) (u : State) : State := b.owner.elim u fun o => if b.move then u else u.recover o.1.toNat

/-- The image that a spare in BIST is for, 0 for none. -/
def Bist.handle (b : Bist) : BitVec 16 := (b.owner.map (·.1)).getD 0

/-- The tile of a fault that an image has noted of a lost cluster, 0 for none. -/
def Image.lostTile (im : Image) (c : Nat) : Nat := ((im.lost.find? fun p => p.1 == c).map (·.2)).getD 0

section Spare
variable {s : State} {c : ClusterId} {b : Bist} (hb : s.svc.bist.find? (fun b => b.spare == c.val) = some b)
include hb

theorem exec_spareBistComplete_of_pass {u : State}
    (hu : u = { s with svc := { s.svc with bist := s.svc.bist.filter fun x => x.spare != c.val } }) :
    exec (.spareBistComplete c true) s = .next (b.heal (((u.setService c .inService).setCl c
      { u.cl c with st := if s.pwr.st = .trim then .off else .idle }).faultRecord
        { kind := 1, cls := if b.move then 0 else 1, action := 2, handle := b.handle, loc := clusterLoc b.failed
          spare := clusterLoc c, detail := BitVec.ofNat 32 ((s.cl b.failed).regs.faultCause.toNat +
            2 ^ 4 * (s.image b.handle.toNat).lostTile b.failed)
          ring := BitVec.ofNat 16 (s.imageRing b.handle.toNat) })) := by
  subst hu
  change execSpareBistComplete c true s = _
  simp only [execSpareBistComplete, hb, if_true, Bist.heal, Bist.handle, Image.lostTile]
  cases b.owner <;> rfl

theorem exec_spareBistComplete_of_fail :
    exec (.spareBistComplete c false) s = .next (b.heal ((((s.takeOut c 7).faultRecord
      { kind := 1, cls := 1, action := 1, loc := clusterLoc c, detail := 7 }).noteRepair 1 (clusterLoc c)).dropBist c)) := by
  change execSpareBistComplete c false s = _
  simp only [execSpareBistComplete, hb, if_neg Bool.false_ne_true, Bist.heal]
  cases b.owner <;> rfl

end Spare

/-! ### FUSE_BURN and CLUSTER_MOVE -/

section Fuse
variable {s : State} {r : BitVec 8 × BitVec 32} {rest : List (BitVec 8 × BitVec 32)} (hr : s.flt.unburned = r :: rest)
include hr

theorem exec_fuseBurn_of_room (hroom : s.flt.fuses < 512) :
    exec .fuseBurn s = .next { s with flt := { s.flt with
      unburned := rest, repairs := s.flt.repairs ++ [r], fuses := s.flt.fuses + 1
      fuseFull := s.flt.fuseFull || decide (512 ≤ s.flt.fuses + 1) } } := by
  change execFuseBurn s = _
  simp only [execFuseBurn, hr, if_pos hroom]

theorem exec_fuseBurn_of_full (hfull : 512 ≤ s.flt.fuses) :
    exec .fuseBurn s = .next { s with flt := { s.flt with unburned := rest, fuseFull := true } } := by
  change execFuseBurn s = _
  simp only [execFuseBurn, hr, if_neg hfull.not_gt]

end Fuse

section Move
variable {s : State} {c : ClusterId} (hmove : s.svc.moves.contains c.val = true)
  (hbist : s.svc.bist.any (fun b => b.failed == c.val) = false)
include hmove hbist

theorem not_clusterMove_waiting :
    ¬ ((!s.svc.moves.contains c.val || s.svc.bist.any fun b => b.failed == c.val) = true) := by
  rw [hmove, hbist]
  decide

theorem exec_clusterMove_of_released (hgone : s.loaded (s.cl c).regs.handle.toNat = false) :
    exec (.clusterMove c) s =
      .next (({ s with svc := { s.svc with moves := s.svc.moves.filter (· != c.val) } } : State).fenceUnowned c 0xFFFFFFFF) :=
  (if_neg (not_clusterMove_waiting hmove hbist)).trans (if_pos (by rw [hgone]; rfl))

theorem exec_clusterMove_of_loaded (hloaded : s.loaded (s.cl c).regs.handle.toNat = true) :
    exec (.clusterMove c) s = .next
      (if s.moveReady (s.cl c).regs.handle.toNat c then s.moveCluster (s.cl c).regs.handle.toNat c else s) := by
  change execClusterMove c s = _
  simp only [execClusterMove, if_neg (not_clusterMove_waiting hmove hbist), hloaded, Bool.not_true, if_neg Bool.false_ne_true]
  split <;> rfl

end Move

/-! ### Service cores -/

section Core
variable {s : State} {k : Fin 3}

theorem exec_serviceCoreError_of_corrected {u : State} (hu : u = (s.addBucket 4 k 1).1) :
    exec (.serviceCoreError k true) s = .next (if (s.addBucket 4 k 1).2 = true ∧ u.core k = .active then
      if u.spareCore then u.takeOver k 3 else u.spareLow 4 k 0 (coreLoc k) else u) := by
  subst hu
  change execServiceCoreError k true s = _
  simp only [execServiceCoreError, if_true, Bool.and_eq_true, beq_iff_eq]

theorem exec_serviceCoreError_of_active (hact : s.core k = .active) : exec (.serviceCoreError k false) s = .next (s.takeOver k 1) := by
  change execServiceCoreError k false s = _
  simp only [execServiceCoreError, if_neg Bool.false_ne_true, if_pos hact]

theorem exec_serviceCoreError_of_spare (hspare : s.core k = .spare) :
    exec (.serviceCoreError k false) s = .next
      (((s.setCore k .fenced).faultRecord { kind := 9, cls := 1, action := 1, loc := coreLoc k }).noteRepair 9 (coreLoc k)) := by
  have hidle : s.core k ≠ .active := by rw [hspare]; decide
  change execServiceCoreError k false s = _
  simp only [execServiceCoreError, if_neg Bool.false_ne_true, if_neg hidle, if_pos hspare]

end Core
end Sys2Proof.Machine

namespace Sys2Proof.Proofs
open Sys2Proof.Machine

/-- Settles O23: each clause is one of the cases of its command above. -/
theorem faultsSparesAndCores : Obligations.FaultsSparesAndCores := by
  unfold Obligations.FaultsSparesAndCores
  intro s
  refine ⟨fun k fall hfall => ?leak, fun c cause t => rfl, ?spare, fun r rest hr => ⟨exec_fuseBurn_of_room hr, exec_fuseBurn_of_full hr⟩,
    fun c hmove hbist => ⟨exec_clusterMove_of_released hmove hbist, exec_clusterMove_of_loaded hmove hbist⟩, fun c => rfl,
    fun r hact => if_pos hact, ?core⟩
  case leak =>
    subst hfall
    rfl
  case spare =>
    intro c b h tile heal hb hheal hh htile
    have hhandle : h = b.handle := by
      rw [hh, Bist.handle]
      cases b.owner <;> rfl
    have hlost : tile = (s.image b.handle.toNat).lostTile b.failed := by
      rw [htile, hhandle, Image.lostTile]
      cases List.find? _ _ <;> rfl
    have hhealed : heal = b.heal := by
      funext u
      rw [hheal, Bist.heal]
      cases b.owner <;> rfl
    rw [hhealed, hlost, hhandle]
    exact ⟨fun u => exec_spareBistComplete_of_pass hb, exec_spareBistComplete_of_fail hb⟩
  case core =>
    exact fun k => ⟨fun hact => ⟨congrArg Host.Outcome.next (if_pos hact), exec_serviceCoreError_of_active hact⟩,
      exec_serviceCoreError_of_spare, fun u => exec_serviceCoreError_of_corrected⟩

end Sys2Proof.Proofs
end

section
/-!
PROOFS. Xomos links (R531–R544): retry of packets, the flooding of the link map, routes and trigger packets; and obligation O42.
-/
namespace Sys2Proof.Machine

/-! ### Link-level retry -/

section Retry
variable {s : State} {p : Fin 8}

theorem exec_xomosPacketRx_of_closed {k : XPkt} (hoff : s.portOpen p = false ∨ packetClass k.cls.toNat = false) :
    exec (.xomosPacketRx p k) s = .next s := if_pos (by rcases hoff with h | h <;> simp [h])

theorem exec_retry_of_closed {cls : BitVec 4} (seq : BitVec 12) (hoff : s.portOpen p = false ∨ packetClass cls.toNat = false) :
    exec (.xomosAck p cls seq) s = .next s ∧ exec (.xomosNak p cls seq) s = .next s ∧ exec (.ackTimer p cls) s = .next s ∧
      exec (.resendTimeout p cls) s = .next s := by
  have hshut : (s.portOpen p && packetClass cls.toNat) = false := Bool.and_eq_false_iff.2 hoff
  refine ⟨if_pos (by rcases hoff with h | h <;> simp [h]), congrArg Host.Outcome.next (if_neg (by simp [hshut])),
    congrArg Host.Outcome.next (if_neg (by simp [hshut])), ?_⟩
  change execResendTimeout p cls s = _
  unfold execResendTimeout
  split
  · rfl
  · rw [hshut, if_neg Bool.false_ne_true]

theorem exec_ackProgressTimeout_of_closed (hoff : s.portOpen p = false) : exec (.ackProgressTimeout p) s = .next s :=
  congrArg Host.Outcome.next (if_neg (by simp [hoff]))

theorem exec_ackProgressTimeout_of_empty (hnone : ∀ k ∈ [3, 6, 8], ((s.xport p).clsOf k).store = []) :
    exec (.ackProgressTimeout p) s = .next s := by
  have hheld : ([3, 6, 8].any fun k => !((s.xport p).clsOf k).store.isEmpty) = false := by
    rw [List.any_eq_false]
    intro k hk
    simp [hnone k hk]
  change execAckProgressTimeout p s = _
  rw [execAckProgressTimeout, hheld, Bool.and_false, if_neg Bool.false_ne_true]

theorem exec_ackTimer_of_not_due {cls : BitVec 4} {x : XPort} {c : PortCls} (hx : x = s.xport p) (hc : c = x.clsOf cls.toNat)
    (hdue : c.ackDue = false) :
    exec (.ackTimer p cls) s = .next s := by
  subst hc hx
  exact congrArg Host.Outcome.next (if_neg (by simp [hdue]))

theorem exec_resendTimeout_of_empty {cls : BitVec 4} {x : XPort} {c : PortCls} (hx : x = s.xport p) (hc : c = x.clsOf cls.toNat)
    (hnone : c.store = []) :
    exec (.resendTimeout p cls) s = .next s := by
  subst hc hx
  change execResendTimeout p cls s = _
  simp only [execResendTimeout, hnone]

theorem exec_linkBlock_of_old {rank : BitVec 15} {active lsv : BitVec 8} {known : Bool} {d : Nat}
    (hknown : known = s.xms.map.any fun r => r.1 == rank.toNat)
    (hd : d = (lsv - (SMap.get {} s.xms.map rank.toNat : LinkMap).lsv).toNat)
    (hold : s.xms.st.placed = false ∨ rank = s.xms.regs.rank ∨ (known = true ∧ (d = 0 ∨ 128 ≤ d))) :
    exec (.linkBlock p rank active lsv) s = .next s := by
  have hstop : (!s.portOpen p || !s.xms.st.placed || rank == s.xms.regs.rank || (known && (d == 0 || decide (128 ≤ d)))) = true := by
    rcases hold with h | h | ⟨hk, h | h⟩
    · simp [h]
    · simp [h]
    · simp [hk, h]
    · simp [hk, h]
  subst hd hknown
  exact if_pos hstop

section Open
variable (hopen : s.portOpen p = true)
include hopen

section Packet
variable {k : XPkt} {x : XPort} {c : PortCls} (hx : x = s.xport p) (hc : c = x.clsOf k.cls.toNat)
  (hcls : packetClass k.cls.toNat = true)
include hx hc hcls

theorem exec_xomosPacketRx_of_sound (hsound : packetSound k = true) (hseq : k.seq = c.rxSeq) :
    exec (.xomosPacketRx p k) s = .next (
      (s.setXport p (x.setCls k.cls.toNat { c with nakAt := none, rxSeq := c.rxSeq + 1, ackDue := true })).takePacket p
        { seqNo := k.seq, cls := k.cls, dst := k.dst, src := k.src, kind := k.kind, tag := k.tag, data := k.data }) := by
  have hgood : ¬ ((!packetSound k) = true ∨ k.seq ≠ c.rxSeq) := by simp [hsound, hseq]
  subst hc hx
  exact (if_neg (by simp [hopen, hcls])).trans (if_neg hgood)

theorem exec_xomosPacketRx_of_broken (hseq : k.seq = c.rxSeq) (hbad : packetSound k = false) :
    exec (.xomosPacketRx p k) s = .next ((s.setXport p (x.setCls k.cls.toNat { c with nakAt := none })).sendNak p k.cls.toNat) := by
  subst hc hx
  refine (if_neg (by simp [hopen, hcls])).trans ((if_pos (.inl (by simp [hbad]))).trans ?_)
  rw [if_pos hseq]

theorem exec_xomosPacketRx_of_other_seq (hseq : k.seq ≠ c.rxSeq) :
    exec (.xomosPacketRx p k) s = .next (s.sendNak p k.cls.toNat) := by
  subst hc hx
  refine (if_neg (by simp [hopen, hcls])).trans ((if_pos (.inr hseq)).trans ?_)
  rw [if_neg hseq]

end Packet

section Class
variable {cls : BitVec 4} (hcls : packetClass cls.toNat = true)
include hcls

theorem portOpen_and_packetClass : (s.portOpen p && packetClass cls.toNat) = true := by rw [hopen, hcls, Bool.and_self]

section Port
variable {x : XPort} {c : PortCls} (hx : x = s.xport p) (hc : c = x.clsOf cls.toNat)
include hx hc

theorem exec_xomosAck_of_open (seq : BitVec 12) :
    exec (.xomosAck p cls seq) s = .next ((s.setXport p (x.setCls cls.toNat { c with
      store := c.store.filter fun k => decide (2048 ≤ (seq - k.seqNo).toNat) })).refill p cls.toNat c.queue.length) := by
  subst hc hx
  exact if_neg (by simp [hopen, hcls])

theorem exec_ackTimer_of_due (hdue : c.ackDue = true) :
    exec (.ackTimer p cls) s = .next ((s.setXport p (x.setCls cls.toNat { c with ackDue := false })).sendBlock p 0x84
      (ackFields (c.rxSeq - 1).toNat cls.toNat)) := by
  subst hc hx
  exact congrArg Host.Outcome.next (if_pos (by rw [hopen, hcls, hdue]; rfl))

theorem exec_resendTimeout_of_held {k : Packet} {rest : List Packet} (hstore : c.store = k :: rest) :
    exec (.resendTimeout p cls) s = .next (s.resend p cls.toNat k.seqNo) := by
  subst hc hx
  change execResendTimeout p cls s = _
  simp only [execResendTimeout, hstore, portOpen_and_packetClass hopen hcls, if_true]

theorem exec_ackProgressTimeout_of_held {k : Packet} {rest : List Packet} (hstore : c.store = k :: rest) :
    exec (.ackProgressTimeout p) s = .next (s.failPort p 2) := by
  have hmem : cls.toNat ∈ [3, 6, 8] := by simpa [packetClass, or_assoc] using hcls
  have hheld : ([3, 6, 8].any fun k => !((s.xport p).clsOf k).store.isEmpty) = true := by
    subst hc hx
    exact List.any_eq_true.2 ⟨cls.toNat, hmem, by simp [hstore]⟩
  exact congrArg Host.Outcome.next (if_pos (by rw [hopen, hheld]; rfl))

end Port
end Class

/-! ### LINK -/

section Link
variable {rank : BitVec 15} {active lsv : BitVec 8} {known : Bool} {d : Nat} (hknown : known = s.xms.map.any fun r => r.1 == rank.toNat)
  (hd : d = (lsv - (SMap.get {} s.xms.map rank.toNat : LinkMap).lsv).toNat)
include hknown hd

theorem exec_linkBlock_of_new (hplaced : s.xms.st.placed = true) (hrank : rank ≠ s.xms.regs.rank) (hnew : known = false ∨ (d ≠ 0 ∧ d < 128)) :
    exec (.linkBlock p rank active lsv) s = .next (({ s with xms := s.xms.take rank active lsv } : State).floodBlock (some p.val) 0x98
      (linkFields rank.toNat active.toNat lsv.toNat)) := by
  have hgo : ¬ ((!s.portOpen p || !s.xms.st.placed || rank == s.xms.regs.rank || (known && (d == 0 || decide (128 ≤ d)))) = true) := by
    rcases hnew with h | ⟨hzero, hfar⟩
    · simp [hopen, hplaced, hrank, h]
    · simp [hopen, hplaced, hrank, hzero, hfar]
  subst hd hknown
  exact if_neg hgo

end Link
end Open

theorem exec_linkBlock_of_closed {rank : BitVec 15} {active lsv : BitVec 8} (hoff : s.portOpen p = false) :
    exec (.linkBlock p rank active lsv) s = .next s := if_pos (by simp [hoff])

end Retry

/-! ### ROUTE_INSTALL -/

section Route
variable {s : State}

theorem exec_routeInstall_of_not
    (hno : s.xms.dirty = false ∨ s.xms.goSeen = false ∨ s.flt.halted = true ∨ s.xms.st.placed = false) : exec .routeInstall s = .next s :=
  if_pos (by rcases hno with h | h | h | h <;> simp [h])

theorem exec_routeInstall_of_changed {x : Xms} {far : Nat} {s1 : State} (hx : x = s.xms) (hdirty : x.dirty = true) (hgo : x.goSeen = true)
    (hrun : s.flt.halted = false) (hplaced : x.st.placed = true) (hfar : far = systemSize x.dims - 1 - s.findRoutes.length)
    (hs1 : s1 = { s with xms := { x with
      routes := s.findRoutes, dirty := false, st := if x.st = .confirmed then .routed else x.st
      cnt := { x.cnt with changes := satBump x.cnt.changes 1, unreach := BitVec.ofNat 15 far } } }) :
    exec .routeInstall s = .next (s1.reroute.postEvent 0x0065 noRing 0 (far + 2 ^ 32 * (x.last.1.toNat * 2 ^ 16 + x.last.2.toNat))) := by
  subst hs1 hfar hx
  exact if_neg (by simp [hdirty, hgo, hrun, hplaced])

end Route

/-! ### XOMOS_TRIGGER_PACKET -/

section Trigger
variable {s : State} {p : Fin 8} {m : BitVec 256} {hops : BitVec 6} {mine : Nat × Packet → Bool}
  (hmine : mine = fun a => a.1 == p.val && a.2.tag.setWidth 6 == hops &&
    (a.2.data == (List.range 3).map fun k => BitVec.ofNat 96 (bitsOf m.toNat (96 * k) 96)))
include hmine

theorem exec_xomosTriggerPacket_of_none (hnone : s.xms.arrived.find? mine = none ∨ s.flt.halted = true) :
    exec (.xomosTriggerPacket p m hops) s = .next s := by
  subst hmine
  change execXomosTriggerPacket p m hops s = _
  unfold execXomosTriggerPacket
  dsimp only
  split
  · rfl
  · next a ha =>
    refine if_pos (hnone.resolve_left ?_)
    rw [ha]
    exact Option.some_ne_none a

/-- An accepted trigger packet: one seen before, a stale one, one without room for its key, or one that is delivered. -/
theorem exec_xomosTriggerPacket_of_arrived {a : Nat × Packet} {keys : List TrigKey} {t : TrigMsg} {put : XmsCnt → List TrigKey → State}
    {s1 : State} (ha : s.xms.arrived.find? mine = some a) (hkeys : keys = s.xms.keys.filter fun k => decide (s.runNow < k.seen + hundredMicros))
    (ht : t = TrigMsg.remote m.toNat) (hrun : s.flt.halted = false)
    (hput : put = fun c keys => { s with xms := { s.xms with
      arrived := s.xms.arrived.eraseIdx (s.xms.arrived.findIdx mine), keys, cnt := c } })
    (hs1 : s1 = (put s.xms.cnt (keys ++ [{ rank := t.rank, pipe := t.pipe, tseq := t.tseq, bad := t.bad, seen := s.runNow }])).deliverRemote t) :
    exec (.xomosTriggerPacket p m hops) s =
      if (keys.any fun k => k.rank == t.rank && k.pipe == t.pipe && k.tseq == t.tseq && k.bad == t.bad) = true then
        .next (put { s.xms.cnt with dup := s.xms.cnt.dup + 1 } keys)
      else if t.due + hundredMicros < s.now then .next (put { s.xms.cnt with stale := satBump s.xms.cnt.stale 1 } keys)
      else if 4096 ≤ keys.length then .next (put { s.xms.cnt with full := satBump s.xms.cnt.full 1 } keys)
      else .next (if hops = 0 then s1
        else s1.floodPacket (some p.val) { a.2 with tag := BitVec.ofNat 32 (hops.toNat - 1), seqNo := 0, resends := 0 }) := by
  subst hs1 hput ht hkeys hmine
  change execXomosTriggerPacket p m hops s = _
  simp only [execXomosTriggerPacket, ha, hrun, if_neg Bool.false_ne_true]

end Trigger
end Sys2Proof.Machine

namespace Sys2Proof.Proofs
open Sys2Proof.Machine

/-- Settles O42: each clause is one of the cases of its command above. -/
theorem xomosLinksRetryAndRoute : Obligations.XomosLinksRetryAndRoute := by
  unfold Obligations.XomosLinksRetryAndRoute
  intro s
  refine ⟨fun p hopen => ⟨?packet, ?classes, exec_ackProgressTimeout_of_empty, ?link⟩, ?closed, fun x far s1 => exec_routeInstall_of_changed,
    exec_routeInstall_of_not, fun p m hops mine hmine => ⟨exec_xomosTriggerPacket_of_none hmine, ?trigger⟩⟩
  case packet =>
    intro k x c hx hc hcls
    exact ⟨exec_xomosPacketRx_of_sound hopen hx hc hcls, exec_xomosPacketRx_of_broken hopen hx hc hcls,
      exec_xomosPacketRx_of_other_seq hopen hx hc hcls⟩
  case classes =>
    intro cls seq x c hcls hx hc
    exact ⟨exec_xomosAck_of_open hopen hcls hx hc seq, congrArg Host.Outcome.next (if_pos (portOpen_and_packetClass hopen hcls)),
      exec_ackTimer_of_due hopen hcls hx hc, exec_ackTimer_of_not_due hx hc, fun k rest hstore =>
        ⟨exec_resendTimeout_of_held hopen hcls hx hc hstore, exec_ackProgressTimeout_of_held hopen hcls hx hc hstore⟩,
      exec_resendTimeout_of_empty hx hc⟩
  case link =>
    intro rank active lsv known d hknown hd
    exact ⟨exec_linkBlock_of_new hopen hknown hd, exec_linkBlock_of_old hknown hd⟩
  case closed =>
    exact fun p k cls seq rank active lsv => ⟨fun hoff => ⟨exec_ackProgressTimeout_of_closed hoff, exec_linkBlock_of_closed hoff⟩,
      exec_xomosPacketRx_of_closed, exec_retry_of_closed seq⟩
  case trigger =>
    intro a keys t seen put ha hkeys ht hrun hseen hput
    have arrived {s1} := exec_xomosTriggerPacket_of_arrived (s1 := s1) hmine ha hkeys ht hrun hput
    rw [← hseen] at arrived
    refine ⟨fun hdup => (arrived rfl).trans (if_pos hdup), fun hnew hstale => (arrived rfl).trans ?_,
      fun hnew htime hfull => (arrived rfl).trans ?_, fun s1 hnew htime hroom hs1 => (arrived hs1).trans ?_⟩
    · rw [if_neg (by simp [hnew]), if_pos hstale]
    · rw [if_neg (by simp [hnew]), if_neg htime.not_gt, if_pos hfull]
    · rw [if_neg (by simp [hnew]), if_neg htime.not_gt, if_neg hroom.not_ge]

end Sys2Proof.Proofs
end

section
/-!
PROOFS. Formation of a Xomos system (R545–R571): DISC and COORD, CONFIRM and GO, TSYNC and CALIGN, the origin; and obligation O43.
-/
namespace Sys2Proof.Machine

/-! ### DISC -/

section Disc
variable {s : State} {p : Fin 8} {devid : BitVec 32} {port : BitVec 4}

theorem exec_disc_of_active {s1 : State} (hrun : s.flt.halted = false) (hact : s.portActive p = true)
    (hs1 : s1 = s.setXport p { s.xport p with
      nbValid := true, nbId := devid, nbPort := port.setWidth 3, miswired := port.toNat != oppositePort p }) :
    exec (.disc p devid port 1) s = .next (if port.toNat ≠ oppositePort p then s1.tryConfirm else if s.xms.st.placed = false then s1
      else s1.sendBlock p 0x91 (s1.coordFields (s.xms.st != .flooded))) := by
  have hgo : ¬ ((!s.portActive p || s.flt.halted || (1 : BitVec 4) != 1) = true) := by simp [hact, hrun]
  change execDisc p devid port 1 s = _
  simp only [execDisc, if_neg hgo, ← hs1, bne_iff_ne, Bool.not_eq_true']

theorem exec_disc_of_not {version : BitVec 4} (hoff : s.portActive p = false ∨ s.flt.halted = true ∨ version ≠ 1) :
    exec (.disc p devid port version) s = .next s :=
  if_pos (by simpa [or_assoc] using hoff)

end Disc

/-! ### COORD -/

section Coord
variable {s : State} {p : Fin 8} {m : CoordMsg}

theorem exec_coord_of_out (hout : s.portOpen p = false ∨ s.xms.st = .alone ∨ s.xms.st = .duplicate) :
    exec (.coord p m) s = .next s :=
  if_pos (by rcases hout with h | h | h <;> simp [h])

section Taken
variable {q : Nat × Nat × Nat} {same : Bool} {s1 : State} (hopen : s.portOpen p = true) (halone : s.xms.st ≠ .alone)
  (hdup : s.xms.st ≠ .duplicate) (hq : q = impliedPlace p m) (hsame : same = (s.xms.st.placed && m.origin == s.xms.regs.originId))
  (hs1 : s1 = s.setXport p { s.xport p with
    coord := some { origin := m.origin, x := m.x, y := m.y, z := m.z, parent := m.parent, hops := m.hops, epoch := m.epoch }
    nbRank := BitVec.ofNat 15 (placeRank (CoordMsg_dims m) (CoordMsg_place m)) })
include hopen halone hdup hq hsame hs1

/-- The order of the checks of a COORD that is taken. -/
theorem exec_coord_of_taken : exec (.coord p m) s =
    if (same && q != s.xms.place) = true then .next (s.displaced p m q)
    else if (!s.xms.st.placed || decide (m.origin < s.xms.regs.originId)) = true then
      .next (if s.placeTaken p m.origin q then s.duplicate q else s1.joinSystem p m)
    else if (same && decide (s.xms.regs.epoch < m.epoch)) = true then .next (s1.newEpoch p m)
    else if (same && s.xms.st != .flooded && s.xms.goSeen && m.parent.toNat == oppositePort p) = true then .next (s1.sendMap p)
    else .next s1.tryConfirm := by
  subst hs1 hsame hq
  exact if_neg (by simp [hopen, halone, hdup])

theorem exec_coord_of_displaced (hown : same = true) (hplace : q ≠ s.xms.place) :
    exec (.coord p m) s = .next (s.displaced p m q) :=
  (exec_coord_of_taken hopen halone hdup hq hsame hs1).trans (if_pos (by simp [hown, hplace]))

/-- A COORD of a lower origin, or the first one, is of another system than the device's own. -/
theorem exec_coord_of_other_system (hnew : s.xms.st.placed = false ∨ m.origin < s.xms.regs.originId) :
    exec (.coord p m) s = .next (if s.placeTaken p m.origin q then s.duplicate q else s1.joinSystem p m) := by
  have hother : same = false := by
    rcases hnew with h | h
    · simp [hsame, h]
    · simp [hsame, BitVec.ne_of_lt h]
  refine (exec_coord_of_taken hopen halone hdup hq hsame hs1).trans ((if_neg (by simp [hother])).trans (if_pos ?_))
  simpa using hnew

/-- In the device's own system, at the place held, only the EPOCH, the map of a child and CONFIRM are left to look at. -/
theorem exec_coord_of_own (hown : same = true) (hplace : q = s.xms.place) : exec (.coord p m) s =
    if (same && decide (s.xms.regs.epoch < m.epoch)) = true then .next (s1.newEpoch p m)
    else if (same && s.xms.st != .flooded && s.xms.goSeen && m.parent.toNat == oppositePort p) = true then .next (s1.sendMap p)
    else .next s1.tryConfirm := by
  obtain ⟨hheld, horigin⟩ : s.xms.st.placed = true ∧ m.origin = s.xms.regs.originId := by simpa [hown] using hsame.symm
  refine (exec_coord_of_taken hopen halone hdup hq hsame hs1).trans ((if_neg (by simp [hplace])).trans (if_neg ?_))
  simp [hheld, horigin]

theorem exec_coord_of_new_epoch (hown : same = true) (hplace : q = s.xms.place) (hepoch : s.xms.regs.epoch < m.epoch) :
    exec (.coord p m) s = .next (s1.newEpoch p m) :=
  (exec_coord_of_own hopen halone hdup hq hsame hs1 hown hplace).trans (if_pos (by simp [hown, hepoch]))

theorem exec_coord_of_old_epoch (hown : same = true) (hplace : q = s.xms.place) (hepoch : m.epoch ≤ s.xms.regs.epoch) :
    exec (.coord p m) s = .next (
      if s.xms.st ≠ .flooded ∧ s.xms.goSeen = true ∧ m.parent.toNat = oppositePort p then s1.sendMap p else s1.tryConfirm) := by
  refine (exec_coord_of_own hopen halone hdup hq hsame hs1 hown hplace).trans ((if_neg (by simp [BitVec.not_lt.2 hepoch])).trans ?_)
  by_cases hmap : s.xms.st ≠ .flooded ∧ s.xms.goSeen = true ∧ m.parent.toNat = oppositePort p
  · rw [if_pos hmap, if_pos (by simp [hown, hmap.1, hmap.2.1, hmap.2.2])]
  · rw [if_neg hmap, if_neg (by simpa [hown] using hmap)]

theorem exec_coord_of_higher_origin (hheld : s.xms.st.placed = true) (horigin : s.xms.regs.originId < m.origin) :
    exec (.coord p m) s = .next s1.tryConfirm := by
  have hother : same = false := by simp [hsame, (BitVec.ne_of_lt horigin).symm]
  have hlater : ¬ m.origin < s.xms.regs.originId := BitVec.not_lt.2 (BitVec.le_of_lt horigin)
  rw [exec_coord_of_taken hopen halone hdup hq hsame hs1]
  simp [hother, hheld, hlater]

end Taken
end Coord

/-! ### CONFIRM and GO -/

section Confirm
variable {s : State} {p : Fin 8} {count : BitVec 15}

theorem exec_confirm_of_own (hopen : s.portOpen p = true) (hst : s.xms.st = .flooded) :
    exec (.confirm p s.xms.regs.originId s.xms.regs.epoch count) s =
      .next ((s.setXport p { s.xport p with confirm := some count }).tryConfirm) :=
  congrArg Host.Outcome.next (if_pos ⟨hopen, hst, rfl, rfl⟩)

theorem exec_confirm_of_not {origin : BitVec 32} {epoch : BitVec 8} (hnot : s.portOpen p = false ∨ s.xms.st ≠ .flooded ∨
    origin ≠ s.xms.regs.originId ∨ epoch ≠ s.xms.regs.epoch) : exec (.confirm p origin epoch count) s = .next s :=
  congrArg Host.Outcome.next (if_neg (by rcases hnot with h | h | h | h <;> simp [h]))

theorem exec_go_of_own (hopen : s.portOpen p = true) (hst : s.xms.st = .confirmed) (hgo : s.xms.goSeen = false) :
    exec (.go p s.xms.regs.originId s.xms.regs.epoch count) s =
      .next ((s.floodBlock (some p.val) 0x93 (s.confirmFields count.toNat)).confirmedWith count.toNat) :=
  congrArg Host.Outcome.next (if_pos ⟨hopen, hst, by simp [hgo], rfl, rfl⟩)

theorem exec_go_of_not {origin : BitVec 32} {epoch : BitVec 8} (hnot : s.portOpen p = false ∨ s.xms.st ≠ .confirmed ∨ s.xms.goSeen = true ∨
    origin ≠ s.xms.regs.originId ∨ epoch ≠ s.xms.regs.epoch) : exec (.go p origin epoch count) s = .next s :=
  congrArg Host.Outcome.next (if_neg (by rcases hnot with h | h | h | h | h <;> simp [h]))

end Confirm

/-! ### TSYNC -/

section Tsync
variable {s : State} {p : Fin 8} {m : TsyncMsg}

theorem exec_tsync_of_closed (hoff : s.portOpen p = false) : exec (.tsync p m) s = .next s := if_pos (by simp [hoff])

section Open
variable (hopen : s.portOpen p = true)
include hopen

theorem exec_tsync_of_request {f : Fin 64 × State} (hstage : m.stage = 0)
    (hf : f = (s.sendBlock p 0x88 (tsyncFields m.exch.toNat 1 (s.markTime m.mark))).takePhase) :
    exec (.tsync p m) s =
      .next ((f.2.sendBlock p 0x88 (tsyncFields m.exch.toNat 2 (f.2.markTime { phase := f.1 }))).sendCalign p 0) := by
  subst hf
  change execTsync p m s = _
  simp only [execTsync, hopen, hstage]
  rfl

theorem exec_tsync_of_response {t1 : TimeVal} (hstage : m.stage = 1) (hmine : (s.xport p).tsync = some (m.exch.toNat, t1)) :
    exec (.tsync p m) s = .next (s.setXport p { s.xport p with t2 := some m.time, t4 := some (s.markTime m.mark) }) := by
  have hown : (s.xport p).tsync.filter (fun t => t.1 == m.exch.toNat) = some (m.exch.toNat, t1) := by simp [hmine]
  change execTsync p m s = _
  simp only [execTsync, hopen, hstage, hown]
  rfl

theorem exec_tsync_of_follow_up {t1 t2 t4 : TimeVal} (hstage : m.stage = 2) (hmine : (s.xport p).tsync = some (m.exch.toNat, t1))
    (ht2 : (s.xport p).t2 = some t2) (ht4 : (s.xport p).t4 = some t4) :
    exec (.tsync p m) s = .next (s.syncDone p t1 t2 m.time t4) := by
  have hown : (s.xport p).tsync.filter (fun t => t.1 == m.exch.toNat) = some (m.exch.toNat, t1) := by simp [hmine]
  change execTsync p m s = _
  simp only [execTsync, hopen, hstage, hown, ht2, ht4]
  rfl

end Open

theorem tsync_filter_eq_none {o : Option (Nat × TimeVal)} {n : Nat} (hnone : ∀ t, o ≠ some (n, t)) :
    o.filter (fun t => t.1 == n) = none := by
  rcases o with _ | ⟨k, t⟩
  · rfl
  · have hk : k ≠ n := fun h => hnone t (h ▸ rfl)
    simp [Option.filter, hk]

/-- A response or follow-up without its exchange, and a follow-up without its times, is dropped. -/
theorem exec_tsync_of_stray (hstage : m.stage ≠ 0) (hstray : m.stage = 3 ∨ (∀ t1, (s.xport p).tsync ≠ some (m.exch.toNat, t1)) ∨
    (m.stage = 2 ∧ ((s.xport p).t2 = none ∨ (s.xport p).t4 = none))) : exec (.tsync p m) s = .next s := by
  change execTsync p m s = _
  unfold execTsync
  split
  · rfl
  dsimp only
  split
  case h_1 h => exact absurd (BitVec.eq_of_toNat_eq h) hstage
  case h_2 hone hmine =>
    rcases hstray with h | h | ⟨h, -⟩
    · simp [h] at hone
    · simp [tsync_filter_eq_none h] at hmine
    · simp [h] at hone
  case h_3 htwo hmine ht2 ht4 =>
    rcases hstray with h | h | ⟨-, h | h⟩
    · simp [h] at htwo
    · simp [tsync_filter_eq_none h] at hmine
    · simp [h] at ht2
    · simp [h] at ht4
  case h_4 => rfl

end Tsync

theorem exec_tsyncRequestTimer_of_not {s : State} (hnot : s.xms.regs.frame.toNat % 65536 ≠ 0 ∨ s.gddr.aligned = false ∨ s.flt.halted = true) :
    exec .tsyncRequestTimer s = .next s :=
  if_pos (by simpa using hnot)

/-! ### CALIGN -/

section Calign
variable {s : State} {p : Fin 8} {m : CalignMsg}

theorem exec_calign_of_closed (hoff : s.portOpen p = false) : exec (.calign p m) s = .next s := if_pos (by simp [hoff])

section Open
variable {up : Prop} {arm : State → Nat → State} (hopen : s.portOpen p = true) (hup : up = (s.xms.regs.parent.toNat = p.val))
  (harm : arm = fun t na => t.armAlign (t.boundaryOf p m) na (BitVec.ofNat 32 na - m.nk).toNat)
include hopen

section Offset
variable (hna : m.na = 0)
include hna hup

theorem exec_calign_of_late_child (harm : arm = fun t na => t.armAlign (t.boundaryOf p m) na (BitVec.ofNat 32 na - m.nk).toNat) (hpar : up)
    (hlate : s.xms.late = true) (hst : s.xms.st = .routed) (hnone : s.xms.na = none) :
    exec (.calign p m) s = .next (arm (s.frameOffset p m) (alignFrame m.nk.toNat ((3 * s.now : Nat) - s.boundaryOf p m : Int).toNat)) := by
  have halign : s.xms.regs.parent.toNat = p.val ∧ s.xms.late = true ∧ s.xms.st = .routed ∧ s.xms.na.isNone = true :=
    ⟨hup ▸ hpar, hlate, hst, by rw [hnone]; rfl⟩
  subst harm
  exact (if_neg (by simp [hopen])).trans ((if_pos hna).trans (congrArg Host.Outcome.next (if_pos halign)))

theorem exec_calign_of_offset (hnot : ¬ up ∨ s.xms.late = false ∨ s.xms.st ≠ .routed ∨ s.xms.na.isSome = true) :
    exec (.calign p m) s = .next (s.frameOffset p m) := by
  have hplain : ¬ (s.xms.regs.parent.toNat = p.val ∧ s.xms.late = true ∧ s.xms.st = .routed ∧ s.xms.na.isNone = true) := by
    rintro ⟨hpar, hlate, hst, hnone⟩
    rcases hnot with h | h | h | h
    · exact h (hup ▸ hpar)
    · simp [hlate] at h
    · exact h hst
    · simp_all
  exact (if_neg (by simp [hopen])).trans ((if_pos hna).trans (congrArg Host.Outcome.next (if_neg hplain)))

end Offset

section Arm
variable (hna : m.na ≠ 0)
include hna

theorem exec_calign_of_early (hnot : s.xms.goSeen = false ∨ (s.xms.st ≠ .confirmed ∧ s.xms.st ≠ .routed) ∨ s.xms.regs.parent = 0xF ∨
    s.xms.late = true) : exec (.calign p m) s = .next s :=
  (if_neg (by simp [hopen])).trans ((if_neg hna).trans (if_pos (by simpa using hnot)))

theorem exec_calign_of_arming {t : State} (hgo : s.xms.goSeen = true) (hst : s.xms.st = .confirmed ∨ s.xms.st = .routed)
    (hpar : s.xms.regs.parent ≠ 0xF) (hlate : s.xms.late = false)
    (ht : t = if s.xms.na.isNone then s.floodCalign (some p.val) m.na.toNat else s) :
    exec (.calign p m) s = .next (if s.xms.regs.parent.toNat = p.val then
        t.armAlign (t.boundaryOf p m) m.na.toNat (BitVec.ofNat 32 m.na.toNat - m.nk).toNat
      else { t with xms := { t.xms with na := some m.na.toNat } }) := by
  have hready : ¬ ((!s.xms.goSeen) = true ∨ (s.xms.st ≠ .confirmed ∧ s.xms.st ≠ .routed) ∨ s.xms.regs.parent = 0xF ∨ s.xms.late = true) := by
    rw [hgo, hlate]
    simpa [imp_iff_not_or, not_not] using ⟨hst, hpar⟩
  subst ht
  exact (if_neg (by simp [hopen])).trans ((if_neg hna).trans (if_neg hready))

end Arm
end Open
end Calign

/-! ### The origin and READY -/

section Origin
variable {s : State}

theorem exec_originFlood_of_started {s1 : State} (hrun : s.flt.halted = false) (hstart : s.xms.started = true)
    (horigin : s.xms.regs.origin = true) (hst : s.xms.st = .ports)
    (hs1 : s1 = { s with xms := { s.xms with
      st := .flooded, hops := 0, late := false, sysSkip := s.xms.regs.skip
      dims := (s.xms.regs.dx.toNat + 1, s.xms.regs.dy.toNat + 1, s.xms.regs.dz.toNat + 1)
      regs := { s.xms.regs with x := 0, y := 0, z := 0, rank := 0, parent := 0xF, epoch := 1, originId := s.devId } } }) :
    exec .originFlood s = .next (s1.floodBlock none 0x91 (s1.coordFields false)).tryConfirm := by
  subst hs1
  exact if_neg (by simp [hrun, hstart, horigin, hst])

theorem exec_originFlood_of_not
    (hnot : s.xms.started = false ∨ s.xms.regs.origin = false ∨ s.xms.st ≠ .ports ∨ s.flt.halted = true) :
    exec .originFlood s = .next s :=
  if_pos (by rcases hnot with h | h | h | h <;> simp [h])

theorem exec_systemReady_of_aligned (hrun : s.flt.halted = false) (hst : s.xms.st = .aligned) (hready : s.bru.stage = .ready) :
    exec .systemReady s = .next (({ s with xms := { s.xms with st := .ready } } : State).postEvent 0x0064 noRing 0
      (s.xms.regs.count.toNat + 2 ^ 16 * s.xms.regs.missing.toNat + 2 ^ 32 * s.xms.na.getD 0)) :=
  if_neg (by simp [hrun, hst, hready])

theorem exec_systemReady_of_not (hnot : s.xms.st ≠ .aligned ∨ s.bru.stage ≠ .ready ∨ s.flt.halted = true) :
    exec .systemReady s = .next s := if_pos hnot

end Origin
end Sys2Proof.Machine

namespace Sys2Proof.Proofs
open Sys2Proof.Machine

/-- Settles O43: each clause is one of the cases of its command above. -/
theorem systemsFormAlignAndStart : Obligations.SystemsFormAlignAndStart := by
  unfold Obligations.SystemsFormAlignAndStart
  intro s
  refine ⟨fun hrun => ⟨fun p devid port s1 => exec_disc_of_active hrun, ?notDisc, ?open', ?timer, ?start, ?lock,
    fun s1 => exec_originFlood_of_started hrun, exec_systemReady_of_aligned hrun⟩, ?closed, exec_tsyncRequestTimer_of_not,
    exec_originFlood_of_not, exec_systemReady_of_not, ?halted⟩
  case notDisc => exact fun p devid port version hoff => exec_disc_of_not (hoff.imp_right .inr)
  case open' =>
    refine fun p hopen => ⟨fun m hout => exec_coord_of_out (.inr hout), ?coord, ?confirm, ?tsync, ?calign⟩
    case coord =>
      intro m q same s1 halone hdup hq hsame hs1
      exact ⟨exec_coord_of_displaced hopen halone hdup hq hsame hs1, exec_coord_of_other_system hopen halone hdup hq hsame hs1,
        exec_coord_of_new_epoch hopen halone hdup hq hsame hs1, exec_coord_of_old_epoch hopen halone hdup hq hsame hs1,
        exec_coord_of_higher_origin hopen halone hdup hq hsame hs1⟩
    case confirm =>
      exact fun origin epoch count => ⟨exec_confirm_of_own hopen, fun hnot => exec_confirm_of_not (.inr hnot), exec_go_of_own hopen,
        fun hnot => exec_go_of_not (.inr hnot)⟩
    case tsync =>
      exact fun m => ⟨fun f => exec_tsync_of_request hopen, fun t1 => exec_tsync_of_response hopen,
        fun t1 t2 t4 => exec_tsync_of_follow_up hopen, exec_tsync_of_stray⟩
    case calign =>
      intro m up arm hup harm
      refine ⟨fun hna => exec_calign_of_late_child hopen hup hna harm, fun hna => exec_calign_of_offset hopen hup hna,
        exec_calign_of_early hopen, fun t hna hgo hst hpar hlate ht => ?_⟩
      rw [exec_calign_of_arming hopen hna hgo hst hpar hlate ht, hup, harm]
      exact ⟨fun h => by rw [if_pos h], fun h => by rw [if_neg h]⟩
  case timer => exact fun hframe haligned => if_neg (by simp [hframe, haligned, hrun])
  case start =>
    rintro v r r1 rfl rfl
    exact congrArg Host.Outcome.next (if_neg (by simp [hrun]))
  case lock => exact congrArg Host.Outcome.next (if_neg (by simp [hrun]))
  case closed =>
    exact fun p m origin epoch count t c hoff => ⟨exec_coord_of_out (.inl hoff), exec_confirm_of_not (.inl hoff), exec_go_of_not (.inl hoff),
      exec_tsync_of_closed hoff, exec_calign_of_closed hoff⟩
  case halted =>
    exact fun hhalt p devid port version v => ⟨exec_disc_of_not (.inr (.inl hhalt)), congrArg Host.Outcome.next (if_pos hhalt),
      congrArg Host.Outcome.next (if_pos hhalt)⟩

end Sys2Proof.Proofs
end

section
/-!
PROOFS. The collective engine (R550–R560): what COLL_REQUEST, COLL_TIMEOUT, MEMBER_LOST and COLL_REPLAY do; and obligation O44.
-/
namespace Sys2Proof.Machine

/-! ### The request at the head -/

section Perform
variable {t : State} {h : Nat} {q : CollReq} {members src dst : List Nat} {peers : List CollPeer} {m : Nat} {srcs : List (List Byte)}
  {bs : List Byte} {t' : State} (hm : m = members.idxOf t.xms.regs.rank.toNat)
  (hsrcs : srcs = (peers.map (·.src)).insertIdx m ((src.flatMap t.lineBytes).take q.srcBytes)) (hbs : bs = q.result srcs m)
  (ht' : t' = t.writeLines dst bs)
include hm hsrcs hbs ht'

theorem State.perform_of_clean (hclean : (if bs.length % 64 = 0 then none else dst.getLast?.filter t.lineBad) = none) :
    t.perform h q members src dst peers = t'.endRequest h q 1 0 := by
  subst ht' hbs hsrcs hm
  simp only [State.perform, hclean]

theorem State.perform_of_bad {l : Nat} (hbad : (if bs.length % 64 = 0 then none else dst.getLast?.filter t.lineBad) = some l) :
    t.perform h q members src dst peers = (t'.lineFault l h).collFatal h 0xA5 := by
  subst ht' hbs hsrcs hm
  simp only [State.perform, hbad]

end Perform

/-! ### The exchange -/

section Exchange
variable {t : State} {h : Nat} {im : Image} {q : CollReq} {members others : List Nat} {peers : List CollPeer} {own n : Nat} {t1 : State}
  (hown : own = t.xms.regs.rank.toNat) (hothers : others = members.filter (· != own)) (hn : n = t.collCount h q)
  (ht1 : t1 = t.sendHead h q others)
include hown hothers hn ht1

theorem State.exchange_of_absent (habsent : (others.any fun r => (t.peerHead q n r).isNone) = true) :
    t.exchange h q members peers = t1 := by
  subst ht1 hn hothers hown
  exact if_pos habsent

section Present
variable (him : im = t.image h) (hpresent : (others.any fun r => (t.peerHead q n r).isNone) = false)
include him hpresent

theorem State.exchange_of_mismatch {r : Nat}
    (hdiff : (others.find? fun r => t.peerHead q n r != some ((t.lineBytes (t.requestLine im im.collNext)).take 8)) = some r) :
    t.exchange h q members peers = t1.endRequest h q 2 r := by
  subst ht1 hn hothers hown him
  simp only [State.exchange, hpresent, if_neg Bool.false_ne_true, hdiff]

section Match
variable {src dst reads : List Nat}
  (hsame : (others.find? fun r => t.peerHead q n r != some ((t.lineBytes (t.requestLine im im.collNext)).take 8)) = none)
  (hsrc : t.imageLines im 0 q.src q.srcBytes = some src) (hdst : t.imageLines im 1 q.dst (q.dstBytes members.length) = some dst)
  (hreads : reads = if q.reads members own then src else [])
include hsame hsrc hdst hreads

theorem State.exchange_of_bad_source {l : Nat} (hbad : reads.find? t.lineBad = some l) :
    t.exchange h q members peers = (t1.lineFault l h).collFatal h 0xA5 := by
  subst hreads ht1 hn hothers hown him
  simp only [State.exchange, hpresent, if_neg Bool.false_ne_true, hsame, hsrc, hdst, hbad]

theorem State.exchange_of_sent {t2 : State} (hclean : reads.find? t.lineBad = none) (ht2 : t2 = t1.sendData h q others reads) :
    t.exchange h q members peers = if t.collPeers q n members = some peers then t2.perform h q members src dst peers else t2 := by
  subst ht2 hreads ht1 hn hothers hown him
  simp only [State.exchange, hpresent, if_neg Bool.false_ne_true, hsame, hsrc, hdst, hclean]

end Match
end Present
end Exchange

/-! ### The checks of a request -/

section Take
variable {t : State} {h : Nat} {im : Image} {q : CollReq} {members : List Nat} {peers : List CollPeer} {k own : Nat}
  (him : im = t.image h) (hk : k = im.collNext) (hq : q = CollReq.ofBytes (t.lineBytes (t.requestLine im k)))
  (hmembers : members = t.membersOf im q) (hown : own = t.xms.regs.rank.toNat)

theorem State.takeRequest_of_none (him : im = t.image h) (hk : k = im.collNext) (hnone : im.collSeen ≤ k) : t.takeRequest h peers = t := by
  subst hk him
  exact if_pos hnone

section Known
variable (hknown : k < im.collSeen)
include him hk hknown

theorem State.takeRequest_of_bad_entry (hbad : t.lineBad (t.requestLine im k) = true) :
    t.takeRequest h peers = (t.lineFault (t.requestLine im k) h).collFatal h 0xA5 := by
  subst hk him
  exact (if_neg hknown.not_ge).trans (if_pos hbad)

section Read
variable (hread : t.lineBad (t.requestLine im k) = false)
include hq hread

theorem State.takeRequest_of_bad_group (hbad : t.lineBad (t.collLine im (1 + q.group)) = true) :
    t.takeRequest h peers = (t.lineFault (t.collLine im (1 + q.group)) h).collFatal h 0xA5 := by
  subst hq hk him
  exact (if_neg hknown.not_ge).trans ((if_neg (by simp [hread])).trans (if_pos hbad))

include hmembers hown

/-- The checks of a request whose entry and group can be read. -/
theorem State.takeRequest_of_read (hgroup : t.lineBad (t.collLine im (1 + q.group)) = false) :
    t.takeRequest h peers =
      if !members.contains own then (t.askRequest h q).endRequest h q 4 own
      else if t.collRange im q members.length then (t.askRequest h q).endRequest h q 5 own
      else match members.find? t.rankLost with
        | some r => ((t.takeFree.2.askRequest h q).endRequest h q 6 r).collFatal h (BitVec.ofNat 8 t.takeFree.1)
        | none => t.exchange h q members peers := by
  subst hmembers hown hq hk him
  refine (if_neg hknown.not_ge).trans ((if_neg (by simp [hread])).trans ((if_neg (by simpa [State.requestAt] using hgroup)).trans ?_))
  rfl

end Read
end Known
end Take

/-! ### The commands -/

section Request
variable {s : State} {h : BitVec 16} {peers : List CollPeer}

theorem exec_collRequest_of_not_served (hnot : s.collServes h.toNat = false) : exec (.collRequest h peers) s = .next s :=
  if_pos (by simp [hnot])

variable {im0 : Image} (him0 : im0 = s.image h.toNat) (hserves : s.collServes h.toNat = true)
include him0 hserves

theorem exec_collRequest_of_bad_prod (hpoll : s.collPollDue im0 = true) (hbad : s.lineBad (s.collLine im0 0) = true) :
    exec (.collRequest h peers) s = .next ((s.lineFault (s.collLine im0 0) h.toNat).collFatal h.toNat 0xA5) := by
  subst him0
  exact (if_neg (by simp [hserves])).trans (if_pos (by simp [hpoll, hbad]))

theorem exec_collRequest_of_polled {t : State} (hgood : s.collPollDue im0 = false ∨ s.lineBad (s.collLine im0 0) = false)
    (ht : t = if s.collPollDue im0 then (s.asks classColl false (64 * s.collLine im0 0) 64).setImage h.toNat { im0 with
      collSeen := s.collProd im0, collFrame := some s.xms.regs.frame.toNat } else s) :
    exec (.collRequest h peers) s = .next (t.takeRequest h.toNat peers) := by
  subst ht him0
  exact (if_neg (by simp [hserves])).trans (if_neg (by simpa using (Bool.and_eq_false_iff.2 hgood)))

end Request

section Timeout
variable {s : State} {h : BitVec 16}

theorem exec_collTimeout_of_not_served (hnot : s.collServes h.toNat = false) : exec (.collTimeout h) s = .next s :=
  if_pos (.inl (by simp [hnot]))

variable {im : Image} {k : Nat} {q : CollReq} {members : List Nat} (him : im = s.image h.toNat) (hk : k = im.collNext)
  (hq : q = CollReq.ofBytes (s.lineBytes (s.requestLine im k))) (hmembers : members = s.membersOf im q)

theorem exec_collTimeout_of_none (him : im = s.image h.toNat) (hk : k = im.collNext) (hnone : s.collProd im ≤ k) :
    exec (.collTimeout h) s = .next s := by
  subst hk him
  exact if_pos (.inr (.inl hnone))

include him hk hq hmembers

theorem exec_collTimeout_of_open (hserves : s.collServes h.toNat = true) (hopen : k < s.collProd im)
    (hmember : members.contains s.xms.regs.rank.toNat = true) :
    exec (.collTimeout h) s = .next (s.takeFree.2.endRequest h.toNat q 3 (s.takeFree.1 % 2 ^ 15)) := by
  subst hmembers hq hk him
  refine if_neg ?_
  rintro (hnot | hnone | hout)
  · simp [hserves] at hnot
  · exact hopen.not_ge hnone
  · rw [hmember] at hout
    exact absurd hout (by decide)

theorem exec_collTimeout_of_no_member (hmember : members.contains s.xms.regs.rank.toNat = false) : exec (.collTimeout h) s = .next s := by
  subst hmembers hq hk him
  exact if_pos (.inr (.inr (by rw [hmember]; rfl)))

end Timeout

section Lost
variable {s : State}

theorem exec_memberLost_of_not {rank : BitVec 15} (hnot : rank = s.xms.regs.rank ∨ s.xms.st.placed = false ∨ s.flt.halted = true) :
    exec (.memberLost rank) s = .next s := if_pos (by simpa using hnot)

theorem exec_memberLost_of_placed {rank : BitVec 15} (hrank : rank ≠ s.xms.regs.rank) (hplaced : s.xms.st.placed = true)
    (hrun : s.flt.halted = false) :
    exec (.memberLost rank) s = .next ((s.images.map (·.1)).foldl (fun s h =>
      if !s.collServes h || s.lostRequests h rank.toNat == [] then s
      else
        let f := (s.loseMember h rank.toNat).takeFree
        f.2.collFatal h (BitVec.ofNat 8 f.1)) { s with xms := { s.xms with gone := SMap.set false s.xms.gone rank.toNat true } }) :=
  if_neg (by simp [hrank, hplaced, hrun])

theorem exec_collReplay_of_not {h : BitVec 16} (hnot : s.loaded h.toNat = false ∨ bitAt (s.image h.toNat).granted.toNat 6 = false ∨
    (s.image h.toNat).sheet.active = false ∨ s.xms.dirty = true ∨ s.flt.halted = true) : exec (.collReplay h) s = .next s :=
  if_pos (by simpa using hnot)

theorem exec_collReplay_of_active {h : BitVec 16} {im : Image} {u s1 : State} (him : im = s.image h.toNat) (hloaded : s.loaded h.toNat = true)
    (hgranted : bitAt im.granted.toNat 6 = true) (hactive : im.sheet.active = true) (hroutes : s.xms.dirty = false)
    (hrun : s.flt.halted = false)
    (hu : u = { s.takeFree.2 with xms := { s.takeFree.2.xms with
      replayDue := s.takeFree.2.xms.replayDue.filter (· != h.toNat)
      cnt := { s.takeFree.2.xms.cnt with replays := satBump s.takeFree.2.xms.cnt.replays 1 } } })
    (hs1 : s1 =
      u.faultRecord { kind := BitVec.ofNat 8 s.takeFree.1, cls := 1, action := 3, handle := h, ring := BitVec.ofNat 16 (s.imageRing h.toNat) }) :
    exec (.collReplay h) s =
      .next ((if im.sheet.replayWait then s1 else s1.interruptSheet h.toNat).recoverWith h.toNat fun s => s.replay h.toNat) := by
  subst hs1 hu him
  exact if_neg (by simp [hloaded, hgranted, hactive, hroutes, hrun])

end Lost
end Sys2Proof.Machine

namespace Sys2Proof.Proofs
open Sys2Proof.Machine

/-- Settles O44: the commands hand over to `State.takeRequest`, whose checks lead to `State.exchange` and `State.perform`. -/
theorem collectivesCompleteTimeOutAndReplay : Obligations.CollectivesCompleteTimeOutAndReplay := by
  unfold Obligations.CollectivesCompleteTimeOutAndReplay
  intro s
  refine ⟨?request, ?timeout, fun h peers hnot => ⟨exec_collRequest_of_not_served hnot, exec_collTimeout_of_not_served hnot⟩, ?lost,
    fun rank => exec_memberLost_of_not, fun h im u s1 => exec_collReplay_of_active, fun h => exec_collReplay_of_not⟩
  case request =>
    intro h im0 peers t im k own q members others him0 hserves ht him hk hq hmembers hown hothers
    refine ⟨exec_collRequest_of_bad_prod him0 hserves, fun hgood => ?_⟩
    have htake {u : State} (hu : t.takeRequest h.toNat peers = u) : exec (.collRequest h peers) s = .next u := by
      rw [exec_collRequest_of_polled him0 hserves hgood ht, hu]
    refine ⟨fun hnone => htake (State.takeRequest_of_none him hk hnone),
      fun hknown hbad => htake (State.takeRequest_of_bad_entry him hk hknown hbad),
      fun hknown hread hbad => htake (State.takeRequest_of_bad_group him hk hq hknown hread hbad), fun hknown hread hgroup => ?_⟩
    have hchecks := State.takeRequest_of_read (peers := peers) him hk hq hmembers hown hknown hread hgroup
    refine ⟨fun hout => htake (hchecks.trans (if_pos (by rw [hout]; rfl))), fun hin => ?_⟩
    have hmember : ¬ (!members.contains own) = true := by rw [hin]; decide
    refine ⟨fun hrange => htake (hchecks.trans ((if_neg hmember).trans (if_pos hrange))), fun r hrange hlost => htake ?_,
      fun n s1 hrange hlost hn hs1 => ?_⟩
    · rw [hchecks, if_neg hmember, hrange, if_neg Bool.false_ne_true, hlost]
    have hexch {u : State} (hu : t.exchange h.toNat q members peers = u) : exec (.collRequest h peers) s = .next u :=
      htake (by rw [hchecks, if_neg hmember, hrange, if_neg Bool.false_ne_true, hlost, ← hu])
    subst hk
    refine ⟨fun habsent => hexch (State.exchange_of_absent hown hothers hn hs1 habsent), fun hpresent =>
      ⟨fun r hdiff => hexch (State.exchange_of_mismatch hown hothers hn hs1 him hpresent hdiff),
      fun src dst reads hsame hsrc hdst hreads => ⟨fun l hbad => hexch
        (State.exchange_of_bad_source hown hothers hn hs1 him hpresent hsame hsrc hdst hreads hbad), fun s2 hclean hs2 => ?_⟩⟩⟩
    have hsent := State.exchange_of_sent (peers := peers) hown hothers hn hs1 him hpresent hsame hsrc hdst hreads hclean hs2
    refine ⟨fun hwait => hexch (hsent.trans (if_neg hwait)), fun m srcs bs s3 hall hm hsrcs hbs hs3 => ⟨fun hwhole => hexch ?_,
      fun l hpart => hexch ?_⟩⟩
    · rw [hsent, if_pos hall, State.perform_of_clean hm hsrcs hbs hs3 hwhole]
    · rw [hsent, if_pos hall, State.perform_of_bad hm hsrcs hbs hs3 hpart]
  case timeout =>
    exact fun h im k q members him hk hq hmembers hserves => ⟨exec_collTimeout_of_none him hk,
      exec_collTimeout_of_open him hk hq hmembers hserves, exec_collTimeout_of_no_member him hk hq hmembers⟩
  case lost =>
    rintro rank s1 hrank hplaced hrun rfl
    exact exec_memberLost_of_placed hrank hplaced hrun

end Sys2Proof.Proofs
end

section
/-!
PROOFS. Power, thermal limits, wakes and GPIO (R610–R613, R622–R647): Trim and the cap, Watch, throttling, emergencies, device-fatal causes;
and obligation O45.
-/
namespace Sys2Proof.Machine

section Writes
variable {s : State}

/-! ### Trim and Watch -/

section Writable
variable (hw : s.writable = true)
include hw

theorem exec_trimEnter_of_run (hst : s.pwr.st = .run) :
    exec .trimEnter s = .next { s.setUnowned .off with pwr := { s.pwr with st := .trim } } :=
  congrArg Host.Outcome.next ((if_pos hw).trans (if_pos ⟨rfl, hst⟩))

theorem exec_trimEnter_of_not_run (hst : s.pwr.st ≠ .run) : exec .trimEnter s = .next s :=
  congrArg Host.Outcome.next ((if_pos hw).trans ((if_neg (by simp [hst])).trans (if_neg (by simp))))

theorem exec_trimExit_of_trim (hst : s.pwr.st = .trim) :
    exec .trimExit s = .next { s.setUnowned .idle with pwr := { s.pwr with st := .run } } :=
  congrArg Host.Outcome.next ((if_pos hw).trans ((if_neg (by simp)).trans (if_pos ⟨rfl, hst⟩)))

theorem exec_trimExit_of_not_trim (hst : s.pwr.st ≠ .trim) : exec .trimExit s = .next s :=
  congrArg Host.Outcome.next ((if_pos hw).trans ((if_neg (by simp)).trans (if_neg (by simp [hst]))))

theorem exec_watch_of_refused (hrefused : s.watchRefusal ≠ 0) :
    exec .watch s = .next (({ s with pwr := { s.pwr with wref := BitVec.ofNat 4 s.watchRefusal } } : State).postEvent
      0x0054 noRing 0 s.watchRefusal) :=
  congrArg Host.Outcome.next ((if_pos hw).trans (if_pos hrefused))

theorem exec_watch_of_updating (hok : s.watchRefusal = 0) (hupdate : s.sec.ustate = 1) :
    exec .watch s = .next { s with pwr := { s.pwr with watchAsked := true } } :=
  congrArg Host.Outcome.next ((if_pos hw).trans ((if_neg (by simp [hok])).trans (if_pos hupdate)))

theorem exec_watch_of_entering {l : Loaded} {f : Nat × State} (hok : s.watchRefusal = 0) (hupdate : s.sec.ustate ≠ 1)
    (hload : s.dandyLoaded = some l) (hf : f = (s.loadDandy l).asleep.takeFree) :
    exec .watch s = .next { f.2 with pwr := { f.2.pwr with entryEnds := f.1 % 600001 } } := by
  have henter : s.requestWatch = s.enterWatch := (if_neg (by simp [hok])).trans (if_neg hupdate)
  refine congrArg Host.Outcome.next ((if_pos hw).trans (henter.trans ?_))
  rw [State.enterWatch, hload, hf]

/-! ### GPIO registers -/

section Gpio
variable {n : Fin 16} {v : Word} {func : BitVec 2}

theorem exec_gpioWrite_of_unclaimed (hnone : (s.holder 4 n).isNone = true) :
    exec (.gpioWrite n v) s = .next { s with pwr := { s.pwr with unclWr := satBump s.pwr.unclWr 1 } } :=
  congrArg Host.Outcome.next ((if_pos hw).trans (if_pos hnone))

variable (hfunc : func = BitVec.ofNat 2 (bitsOf v.toNat 30 2)) (hheld : (s.holder 4 n).isSome = true)
include hfunc hheld

theorem exec_gpioWrite_of_armed (hpulse : (s.gpio n).func = 1) (hother : func ≠ 1) (harmed : s.pulseArmed n = true) :
    exec (.gpioWrite n v) s = .next { s with pwr := { s.pwr with funcIgn := satBump s.pwr.funcIgn 1 } } := by
  subst hfunc
  exact congrArg Host.Outcome.next ((if_pos hw).trans ((if_neg (by simp [Option.isSome_iff_ne_none.1 hheld])).trans
    (if_pos ⟨hpulse, hother, harmed⟩)))

theorem exec_gpioWrite_of_free (hfree : (s.gpio n).func ≠ 1 ∨ func = 1 ∨ s.pulseArmed n = false) :
    exec (.gpioWrite n v) s = .next (s.setGpio n { s.gpio n with
      func, pol := bitAt v.toNat 29, width := BitVec.ofNat 10 (max 8 (bitsOf v.toNat 19 10)) }) := by
  subst hfunc
  refine congrArg Host.Outcome.next ((if_pos hw).trans ((if_neg (by simp [Option.isSome_iff_ne_none.1 hheld])).trans (if_neg ?_)))
  rintro ⟨hpulse, hother, harmed⟩
  rcases hfree with h | h | h
  · exact h hpulse
  · exact hother h
  · simp [harmed] at h

end Gpio
end Writable
end Writes

/-! ### Throttling and thermal emergencies -/

section Thermal
variable {s : State}

theorem exec_throttleUpdate_of_awake {watts : BitVec 12} {below : Bool} {temps : Vector (BitVec 8) 25} {calm : Nat} {t : BitVec 4}
    (hawake : s.awake = true)
    (hcalm : calm = if (below && decide (100 * watts.toNat < 98 * s.pwr.cap.toNat)) = true then s.pwr.calm + 1 else 0)
    (ht : t = throttleStep s.pwr.tlevel (decide (s.pwr.cap.toNat < watts.toNat)) (decide (10 ≤ calm))) :
    exec (.throttleUpdate watts below temps) s =
      .next (({ s with pwr := { s.pwr with
        power := watts, tlevel := t, calm, thrDue := s.pwr.thrDue || t != s.pwr.tlevel, thrWait := s.pwr.thrWait - 1, capWait := s.pwr.capWait - 1
        unmet := if s.pwr.cap.toNat < watts.toNat ∧ t = 15 then s.pwr.unmet + 1 else 0 } } : State).reportTemps temps).postThrottle.postCapUnmet := by
  have hgo : ¬ (!s.awake) = true := by simp [hawake]
  subst ht hcalm
  change execThrottleUpdate watts below temps s = _
  simp only [execThrottleUpdate, if_neg hgo, decide_eq_true_eq]

theorem exec_throttleUpdate_of_not_awake {watts : BitVec 12} {below : Bool} {temps : Vector (BitVec 8) 25} (hasleep : s.awake = false) :
    exec (.throttleUpdate watts below temps) s = .next s := if_pos (by simp [hasleep])

section Start
variable {die : Fin 25} {tj : BitVec 8}

theorem exec_thermalEmergencyStart_of_hot {u : State} (hreports : s.reports die = true)
    (hcool : (SMap.get {} s.pwr.therm die : Therm).emerg = false) (hhot : 95 < tj.toInt)
    (hu : u = { s.readTemps [(die, tj)] with pwr := { (s.readTemps [(die, tj)]).pwr with
      therm := SMap.modify {} (s.readTemps [(die, tj)]).pwr.therm die fun h : Therm => { h with emerg := true } } }) :
    exec (.thermalEmergencyStart die tj) s = .next ((if s.flt.halted then u
      else ((List.range 64).filter fun p => (u.pipeClusters p).any u.tooHot).foldl (fun s p => s.haltPipe p 2) u).thermalEvent die true tj) := by
  have hgo : ¬ ((!s.reports die || (SMap.get {} s.pwr.therm die : Therm).emerg || decide (tj.toInt ≤ 95)) = true) := by
    rw [hreports, hcool]
    simpa using hhot
  subst hu
  exact if_neg hgo

theorem exec_thermalEmergencyStart_of_not
    (hnot : s.reports die = false ∨ (SMap.get {} s.pwr.therm die : Therm).emerg = true ∨ tj.toInt ≤ 95) :
    exec (.thermalEmergencyStart die tj) s = .next s := by
  have hstop : (!s.reports die || (SMap.get {} s.pwr.therm die : Therm).emerg || decide (tj.toInt ≤ 95)) = true := by
    rcases hnot with h | h | h
    · simp [h]
    · rw [h, Bool.or_true, Bool.true_or]
    · simp [h]
  exact if_pos hstop

end Start

section End
variable {temps : List (Fin 25 × BitVec 8)}

theorem exec_thermalEmergencyEnd_of_cool {u : State} (hheld : s.bru.held = false) (hemerg : s.emergency = true)
    (hon : s.pwr.st = .watch ∨ s.awake = true) (hu : u = s.readTemps temps)
    (hcool : (u.pwr.therm.any fun p => decide (92 ≤ p.2.tj.toInt)) = false) :
    exec (.thermalEmergencyEnd temps) s = .next ((u.pwr.therm.filter fun p => p.2.emerg).foldl (fun s p => s.thermalEvent p.1 false p.2.tj)
      { u with pwr := { u.pwr with therm := u.pwr.therm.map fun p => (p.1, { p.2 with emerg := false }) } }) := by
  subst hu
  refine if_neg ?_
  rw [hheld, hemerg, hcool]
  rcases hon with h | h <;> simp [h]

theorem exec_thermalEmergencyEnd_of_not (hnot : s.bru.held = true ∨ s.emergency = false ∨ (s.pwr.st ≠ .watch ∧ s.awake = false) ∨
    ((s.readTemps temps).pwr.therm.any fun p => decide (92 ≤ p.2.tj.toInt)) = true) :
    exec (.thermalEmergencyEnd temps) s = .next s := by
  refine if_pos ?_
  rcases hnot with h | h | ⟨hst, h⟩ | h
  · simp [h]
  · simp [h]
  · simp [hst, h]
  · rw [h, Bool.or_true]

end End

theorem exec_thermtrip_of_hot {die : Fin 25} {tj : BitVec 8} (hheld : s.bru.held = false) (hhot : 105 ≤ tj.toInt) :
    exec (.thermtrip die tj) s = .next (s.off.emit .thermtrip) :=
  congrArg Host.Outcome.next (if_neg (by simp [hheld, hhot]))

theorem exec_thermtrip_of_not {die : Fin 25} {tj : BitVec 8} (hnot : s.bru.held = true ∨ tj.toInt < 105) :
    exec (.thermtrip die tj) s = .next s :=
  congrArg Host.Outcome.next (if_pos (by simpa using hnot))

end Thermal

/-! ### Wake sources -/

section Wake
variable {s : State} {b : Nat}

theorem or_bit_ne_zero {b : Nat} (w : BitVec 8) (hb : b < 8) : w ||| BitVec.ofNat 8 (2 ^ b) ≠ 0 := by
  intro hzero
  have hbit : (BitVec.ofNat 8 (2 ^ b)).toNat = 0 := by rw [(BitVec.or_eq_zero_iff.1 hzero).2]; rfl
  rw [BitVec.toNat_ofNat, Nat.mod_eq_of_lt (Nat.pow_lt_pow_right (by decide) hb)] at hbit
  exact absurd hbit (by positivity)

/-- An enabled source in Watch, outside the window of the edges, is recorded, and the exit begins once entry is complete. -/
theorem State.wakeBy_of_seen {u t : State} (hb : b < 8) (hu : u = { s with pwr := { s.pwr with wake := s.pwr.wake ||| BitVec.ofNat 8 (2 ^ b) } })
    (ht : t = if s.pwr.entryEnds ≤ s.pwr.sinceWait then { u with pwr := { u.pwr with waking := true }, enables := s.enables ||| 1 } else u)
    (hst : s.pwr.st = .watch) (hen : bitAt s.pwr.wakeEn.toNat b = true) (hwindow : b < 6 ∨ s.pwr.sinceWait < 20 ∨ 80 ≤ s.pwr.sinceWait) :
    s.wakeBy b = t := by
  have hseen : s.pwr.st = .watch ∧ bitAt s.pwr.wakeEn.toNat b = true ∧ ¬ (6 ≤ b ∧ s.pwr.edgeLost = true) := by
    refine ⟨hst, hen, ?_⟩
    simp only [Pwr.edgeLost, Bool.and_eq_true, decide_eq_true_eq]
    omega
  have hwoken : u.pwr.wake ≠ 0 := by
    rw [hu]
    exact or_bit_ne_zero _ hb
  rw [State.wakeBy, if_pos hseen, ← hu, State.beginExit, ht]
  by_cases hentry : s.pwr.entryEnds ≤ s.pwr.sinceWait
  · rw [if_pos hentry, if_pos ⟨by rw [hu]; exact hst, hwoken, by rw [hu]; exact hentry⟩, hu]
  · rw [if_neg hentry, if_neg fun h => hentry (by have hends := h.2.2; rw [hu] at hends; exact hends)]

theorem State.wakeBy_of_unseen (hdead : s.pwr.st ≠ .watch ∨ bitAt s.pwr.wakeEn.toNat b = false ∨
    (6 ≤ b ∧ 20 ≤ s.pwr.sinceWait ∧ s.pwr.sinceWait < 80)) : s.wakeBy b = s := by
  refine if_neg ?_
  rintro ⟨hst, hen, hwindow⟩
  rcases hdead with h | h | ⟨hb, hfrom, hto⟩
  · exact h hst
  · simp [hen] at h
  · exact hwindow ⟨hb, by simp [Pwr.edgeLost, hfrom, hto]⟩

theorem exec_wake_of_source {bit : Fin 8} (hsource : s.wakeSource bit = true) : exec (.wake bit) s = .next (s.wakeBy bit) :=
  congrArg Host.Outcome.next (if_pos hsource)

theorem exec_wake_of_no_source {bit : Fin 8} (hsource : s.wakeSource bit = false) : exec (.wake bit) s = .next s :=
  congrArg Host.Outcome.next (if_neg (by simp [hsource]))

theorem exec_smbusWake_of_up (hup : s.smbusUp = true) : exec .smbusWake s = .next (s.wakeBy 7) := congrArg Host.Outcome.next (if_pos hup)

theorem exec_smbusWake_of_down (hdown : s.smbusUp = false) : exec .smbusWake s = .next s :=
  congrArg Host.Outcome.next (if_neg (by simp [hdown]))

theorem exec_wake_of_unseen {bit : Fin 8} (hdead : s.wakeBy bit = s) : exec (.wake bit) s = .next s := by
  cases hsource : s.wakeSource bit
  · exact exec_wake_of_no_source hsource
  · rw [exec_wake_of_source hsource, hdead]

theorem exec_smbusWake_of_unseen (hdead : s.wakeBy 7 = s) : exec .smbusWake s = .next s := by
  cases hup : s.smbusUp
  · exact exec_smbusWake_of_down hup
  · rw [exec_smbusWake_of_up hup, hdead]

end Wake

/-! ### GPIO pulses -/

section Pulse
variable {s : State} {n : Fin 16}

theorem exec_gpioPulse_of_none (hnone : (s.gpio n).want = []) : exec (.gpioPulse n) s = .next s := by
  change execGpioPulse n s = _
  simp only [execGpioPulse, hnone]

theorem exec_gpioPulse_of_wanted {g : Gpio} {t0 : TimeVal} {rest : List TimeVal} {t : Nat} (hg : g = s.gpio n) (hwant : g.want = t0 :: rest)
    (ht : t = t0 / 1024 * 1024) :
    exec (.gpioPulse n) s = if g.func ≠ 1 then .next (s.setGpio n { g with want := rest })
      else if g.lastEnd ≠ 0 ∧ t < g.lastEnd + g.width.toNat * 65536 then
        .next (s.setGpio n { g with want := rest, merged := satBump g.merged 1 })
      else .next ((s.setGpio n { g with want := rest, lastEnd := t + g.width.toNat * 65536 }).emit (.gpio n t g.width.toNat g.pol)) := by
  subst ht hg
  change execGpioPulse n s = _
  simp only [execGpioPulse, hwant]

end Pulse

/-! ### Device-fatal causes -/

section Fatal
variable {s : State} {cause : Fin 6}

theorem exec_deviceFatal_of_zero (hzero : cause.val = 0) : exec (.deviceFatal cause) s = .next s := if_pos hzero

variable (hcause : cause.val ≠ 0)
include hcause

theorem exec_deviceFatal_of_halted (hhalt : s.flt.halted = true) : exec (.deviceFatal cause) s = .next s.takeFree.2 :=
  (if_neg hcause).trans (congrArg Host.Outcome.next (if_pos hhalt))

theorem exec_deviceFatal_of_run {k : Nat} {u : State} (hrun : s.flt.halted = false) (hk : k = fatalKind cause)
    (hu : u = ((s.takeFree.2.haltDevice cause).aerError 22).faultRecord
      { kind := BitVec.ofNat 8 k, cls := 4, action := 9, loc := fatalLoc k s.takeFree.1, detail := BitVec.ofNat 32 cause }) :
    exec (.deviceFatal cause) s = .next (u.postEvent 0x0043 noRing 0 cause).writeReam := by
  have hgo : ¬ s.takeFree.2.flt.halted = true := by
    change ¬ s.flt.halted = true
    simp [hrun]
  subst hu hk
  exact (if_neg hcause).trans (congrArg Host.Outcome.next (if_neg hgo))

end Fatal
end Sys2Proof.Machine

namespace Sys2Proof.Proofs
open Sys2Proof.Machine

/-- Settles O45: each clause is one of the cases of its command above. -/
theorem powerThermalAndGpio : Obligations.PowerThermalAndGpio := by
  unfold Obligations.PowerThermalAndGpio
  intro s
  refine ⟨?writes, ?dropped, fun hawake watts below temps calm t => exec_throttleUpdate_of_awake hawake,
    fun die tj u => exec_thermalEmergencyStart_of_hot, fun temps u => exec_thermalEmergencyEnd_of_cool,
    fun watts below all temps die tj => ⟨exec_throttleUpdate_of_not_awake, exec_thermalEmergencyStart_of_not, exec_thermalEmergencyEnd_of_not⟩,
    fun die tj => ⟨exec_thermtrip_of_hot, exec_thermtrip_of_not⟩, ?wake, ?unseen, fun n => ⟨exec_gpioPulse_of_none, ?pulse⟩, ?fatal⟩
  case writes =>
    intro hw
    exact ⟨exec_trimEnter_of_run hw, exec_trimEnter_of_not_run hw, exec_trimExit_of_trim hw, exec_trimExit_of_not_trim hw,
      fun v => congrArg Host.Outcome.next (if_pos hw), exec_watch_of_updating hw, fun l f => exec_watch_of_entering hw,
      exec_watch_of_refused hw, fun n v func hfunc => ⟨exec_gpioWrite_of_free hw hfunc, exec_gpioWrite_of_armed hw hfunc,
        exec_gpioWrite_of_unclaimed hw⟩⟩
  case dropped =>
    intro hdrop n v
    have hno : ¬ s.writable = true := by simp [hdrop]
    exact ⟨congrArg Host.Outcome.next (if_neg hno), congrArg Host.Outcome.next (if_neg hno), congrArg Host.Outcome.next (if_neg hno),
      congrArg Host.Outcome.next (if_neg hno), congrArg Host.Outcome.next (if_neg hno)⟩
  case wake =>
    intro b u t hu ht hst hen hwindow
    refine ⟨fun bit hbit hsource => ?_, fun hb hup => ?_⟩
    · subst hbit
      rw [exec_wake_of_source hsource, State.wakeBy_of_seen bit.isLt hu ht hst hen hwindow]
    · subst hb
      rw [exec_smbusWake_of_up hup, State.wakeBy_of_seen (by decide) hu ht hst hen hwindow]
  case unseen =>
    rintro bit dead rfl
    exact ⟨fun h => h.elim (fun hdead => exec_wake_of_unseen (State.wakeBy_of_unseen hdead)) exec_wake_of_no_source,
      fun h => h.elim (fun hdead => exec_smbusWake_of_unseen (State.wakeBy_of_unseen hdead)) exec_smbusWake_of_down⟩
  case pulse =>
    intro g t0 rest t hg hwant ht
    rw [exec_gpioPulse_of_wanted hg hwant ht]
    refine ⟨fun hfunc => if_pos hfunc, fun hfunc hfree => ?_, fun hfunc hlast hmerge => ?_⟩
    · rw [if_neg (by simp [hfunc]), if_neg fun hmerge => hfree.elim hmerge.1 hmerge.2.not_ge]
    · rw [if_neg (by simp [hfunc]), if_pos ⟨hlast, hmerge⟩]
  case fatal =>
    exact fun cause => ⟨exec_deviceFatal_of_zero, exec_deviceFatal_of_halted, fun k u hcause => exec_deviceFatal_of_run hcause⟩

end Sys2Proof.Proofs
end

section
/-!
PROOFS. The dandy's windows (R632–R637): load, tick, frames and decision; and obligation O46.
-/
namespace Sys2Proof.Machine

/-! ### Load and tick -/

section Load
variable {s : State}

theorem exec_dandyLoad_of_changed (hawake : s.awake = true) (hchanged : s.dnd.changed = true) (hrun : s.flt.halted = false) :
    exec .dandyLoad s = match s.dandyLoaded with
      | some l => .next (s.loadDandy l)
      | none => .next { s with dnd := { s.dnd with loaded := false, changed := false, win := {} } } := by
  refine (if_neg (by simp [hawake, hchanged, hrun])).trans ?_
  cases s.dandyLoaded <;> rfl

theorem exec_dandyLoad_of_not (hnot : s.awake = false ∨ s.dnd.changed = false ∨ s.flt.halted = true) : exec .dandyLoad s = .next s :=
  if_pos (by simpa [or_assoc] using hnot)

theorem exec_dandyWindowStart_of_tick {u : State} (hruns : s.dandyRuns = true) (hnone : s.dnd.win.active = false)
    (hu : u = if s.dnd.loaded then s.startDandy else s) :
    exec .dandyWindowStart s = .next { u with dnd := { u.dnd with windows := u.dnd.windows + 1, win := { active := true } } } := by
  subst hu
  exact if_neg (by simp [hruns, hnone])

theorem exec_dandyWindowStart_of_not (hnot : s.dandyRuns = false ∨ s.dnd.win.active = true) : exec .dandyWindowStart s = .next s :=
  if_pos (by simpa using hnot)

end Load

/-! ### Frames -/

section Frame
variable {s : State} {f : StockFrame}

theorem exec_dandyFrame_of_out (hout : s.dandyRuns = false ∨ s.dnd.win.active = false ∨ s.dnd.win.bad = true ∨
    atLeastOne s.dnd.nfr.toNat ≤ s.dnd.win.frames ∨ f.sid ≠ s.dnd.sid ∨ (s.group s.dnd.group.toNat).st ≠ .active) :
    exec (.dandyFrame f) s = .next s :=
  if_pos (by simpa [or_assoc] using hout)

section Window
variable {n : Nat} (hruns : s.dandyRuns = true) (hact : s.dnd.win.active = true) (hgood : s.dnd.win.bad = false) (hsid : f.sid = s.dnd.sid)
  (hgroup : (s.group s.dnd.group.toNat).st = .active) (hn : n = atLeastOne s.dnd.nfr.toNat) (hroom : s.dnd.win.frames < n)
include hruns hact hgood hsid hgroup hn hroom

/-- A frame of the watched stream in a window that takes frames goes on to the checks. -/
theorem dandyFrame_taken : ¬ ((!s.dandyRuns || !s.dnd.win.active || s.dnd.win.bad || decide (atLeastOne s.dnd.nfr.toNat ≤ s.dnd.win.frames) ||
    f.sid != s.dnd.sid || (s.group s.dnd.group.toNat).st != .active) = true) := by
  subst hn
  simp [hruns, hact, hgood, hsid, hgroup, hroom]

theorem exec_dandyFrame_of_next {j : BitVec 4 × BitVec 4} {x : Cluster} {u : State}
    (hseq : s.dnd.win.frames = 0 ∨ f.seq = s.dnd.win.seqNo) (hpass : s.watchedJoin.filter (framePasses f) = some j)
    (hx : x = if s.dnd.loaded then (frameEntries f j).foldl (fun x e => x.push s.dnd.itile.toNat 5 e) (s.cl 880) else s.cl 880)
    (hu : u = { s.setCl 880 x with dnd := { s.dnd with win := { s.dnd.win with frames := s.dnd.win.frames + 1, seqNo := f.seq + 1 } } }) :
    exec (.dandyFrame f) s = .next (if s.dnd.win.frames + 1 = n then u.endWindow else u) := by
  have hfollows : (!(s.dnd.win.frames != 0 && f.seq != s.dnd.win.seqNo)) = true := by rcases hseq with h | h <;> simp [h]
  have hgo := dandyFrame_taken hruns hact hgood hsid hgroup hn hroom
  subst hu hx hn
  change execDandyFrame f s = _
  simp only [execDandyFrame, if_neg hgo, hpass, hfollows]

theorem exec_dandyFrame_of_failed
    (hfail : (s.dnd.win.frames ≠ 0 ∧ f.seq ≠ s.dnd.win.seqNo) ∨ s.watchedJoin.filter (framePasses f) = none) :
    exec (.dandyFrame f) s = .next ({ s with dnd := { s.dnd with win := { s.dnd.win with bad := true } } } : State).endWindow := by
  have hgo := dandyFrame_taken hruns hact hgood hsid hgroup hn hroom
  change execDandyFrame f s = _
  simp only [execDandyFrame, if_neg hgo]
  split
  next j hpass hfollows =>
    rcases hfail with ⟨hframes, hseq⟩ | hnone
    · simp [hframes, hseq] at hfollows
    · rw [hnone] at hpass
      exact absurd hpass (by simp)
  next => rfl

end Window
end Frame

/-! ### Decision -/

section Decision
variable {s : State} {x x1 : Cluster}

/-- The dandy is drained where it neither works nor awaits its configuration, or where its drain has left it empty. -/
theorem dandy_drained_iff : (if x.working || x.awaits then x.st == .drain && x1.empty else true) = true ↔
    (x.working = false ∧ x.awaits = false) ∨ (x.st = .drain ∧ x1.empty = true) := by
  by_cases hbusy : (x.working || x.awaits) = true
  · rw [if_pos hbusy]
    have hnot : ¬ (x.working = false ∧ x.awaits = false) := by
      rintro ⟨hw, ha⟩
      simp [hw, ha] at hbusy
    simp [hnot]
  · rw [if_neg hbusy]
    have hidle : x.working = false ∧ x.awaits = false := by simpa using hbusy
    simp [hidle]

section Judged
variable {ready drained : Prop} (hready : ready = (s.dandyRuns = true ∧ s.dnd.win.active = true ∧
    (s.dnd.win.bad = true ∨ atLeastOne s.dnd.nfr.toNat ≤ s.dnd.win.frames)))
  (hdrained : drained = ((x.working = false ∧ x.awaits = false) ∨ (x.st = .drain ∧ x1.empty = true)))
include hready hdrained

/-- The guard of DANDY_DECISION in the words of the statement. -/
theorem dandyDecision_waits_iff :
    (!s.dandyRuns || !s.dnd.win.active || (!s.dnd.win.bad && decide (s.dnd.win.frames < atLeastOne s.dnd.nfr.toNat)) ||
      !(if x.working || x.awaits then x.st == .drain && x1.empty else true)) = true ↔ ¬ ready ∨ ¬ drained := by
  rw [hdrained, ← dandy_drained_iff, hready]
  generalize (if x.working || x.awaits then x.st == .drain && x1.empty else true) = done
  simp [imp_iff_not_or, or_assoc]

variable {y : Tile} (hx : x = s.cl 880) (hy : y = x.tile s.dnd.otile.toNat) (hx1 : x1 = x.setTile s.dnd.otile.toNat y.l1Taken)
include hx hy hx1

theorem exec_dandyDecision_of_waiting (hwait : ¬ ready ∨ ¬ drained) : exec .dandyDecision s = .next s := by
  have hstop := (dandyDecision_waits_iff hready hdrained).2 hwait
  subst hx1 hy hx
  exact if_pos hstop

section Taken
variable {es : List Entry} {u : State} (hes : es = y.queue 5 ++ (y.chest.filter fun p => p.1 == 5).map (·.2))
  (hu : u = s.setCl 880 (if x.working then { x1 with st := .drained } else x1)) (hr : ready) (hd : drained)
include hes hu hr hd

theorem exec_dandyDecision_of_score {e : Entry} {z : Dnd × Bool} (hone : es = [e]) (hgood : s.dnd.win.bad = false)
    (hz : z = s.dnd.judge (e.setWidth 32)) :
    exec .dandyDecision s = .next (if z.2 then ({ u with dnd := z.1 } : State).dandyHit else { u with dnd := z.1 }) := by
  have hgo := (dandyDecision_waits_iff hready hdrained).not.2 (by simp [hr, hd])
  rw [hes] at hone
  subst hz hu hx1 hy hx
  refine (if_neg hgo).trans ?_
  rw [hone]
  exact if_neg (by simp [hgood])

theorem exec_dandyDecision_of_abandoned (hmany : es.length ≠ 1 ∨ s.dnd.win.bad = true) :
    exec .dandyDecision s = .next { u with dnd := s.dnd.abandon } := by
  have hgo := (dandyDecision_waits_iff hready hdrained).not.2 (by simp [hr, hd])
  subst hes hu hx1 hy hx
  refine (if_neg hgo).trans ?_
  split
  next e hone => exact if_pos (hmany.resolve_left (by simp [hone]))
  next => rfl

end Taken
end Judged
end Decision
end Sys2Proof.Machine

namespace Sys2Proof.Proofs
open Sys2Proof.Machine

/-- Settles O46: each clause is one of the cases of its command above. -/
theorem dandyWatchesAStream : Obligations.DandyWatchesAStream := by
  unfold Obligations.DandyWatchesAStream
  intro s
  refine ⟨fun hawake hchanged hrun => ?load, exec_dandyLoad_of_not, fun u => exec_dandyWindowStart_of_tick, exec_dandyWindowStart_of_not,
    fun hruns hact hgood f n hsid hgroup hn hroom => ⟨fun j x u => exec_dandyFrame_of_next hruns hact hgood hsid hgroup hn hroom,
      exec_dandyFrame_of_failed hruns hact hgood hsid hgroup hn hroom⟩, fun f => exec_dandyFrame_of_out, ?decision⟩
  case load =>
    rw [exec_dandyLoad_of_changed hawake hchanged hrun]
    exact ⟨fun l hl => by rw [hl], fun hl => by rw [hl]⟩
  case decision =>
    intro x x1 y es ready drained u hx hy hx1 hes hready hdrained hu
    exact ⟨fun e z hr hd => exec_dandyDecision_of_score hready hdrained hx hy hx1 hes hu hr hd,
      exec_dandyDecision_of_abandoned hready hdrained hx hy hx1 hes hu, exec_dandyDecision_of_waiting hready hdrained hx hy hx1⟩

end Sys2Proof.Proofs
end

section
/-!
PROOFS. Resets, supplies and the stages of bring-up (R661–R687, R711–R714); and obligation O47.
-/
namespace Sys2Proof.Machine

/-! ### Resets and supplies -/

section Resets
variable {s : State}

theorem exec_resetRelease_of_held (hheld : s.bru.held = true) (hsupplied : s.enables = 3) : exec .resetRelease s = .next
    ({ s with bru := { s.bru with held := false }, pwr := { s.pwr with st := .run } } : State).romStage :=
  congrArg Host.Outcome.next (if_pos (by simp [hheld, hsupplied]))

theorem exec_resetRelease_of_not (hnot : s.bru.held = false ∨ s.enables ≠ 3) : exec .resetRelease s = .next s :=
  congrArg Host.Outcome.next (if_neg (by simpa [imp_iff_not_or] using hnot))

theorem exec_resetAssert_of_held (hheld : s.bru.held = true) : exec .resetAssert s = .next s := congrArg Host.Outcome.next (if_pos hheld)

theorem exec_resetAssert_of_watch (hheld : s.bru.held = false) (hst : s.pwr.st = .watch) :
    exec .resetAssert s = .next (({ s with enables := 1 } : State).afterReset true 3) :=
  congrArg Host.Outcome.next ((if_neg (by simp [hheld])).trans (if_pos hst))

theorem exec_resetAssert_of_not_watch (hheld : s.bru.held = false) (hst : s.pwr.st ≠ .watch) :
    exec .resetAssert s = .next (s.afterReset true 1) :=
  congrArg Host.Outcome.next ((if_neg (by simp [hheld])).trans (if_neg hst))

theorem exec_pcieOutOfReset_of_released (hheld : s.bru.held = false) (hdead : s.bru.stage ≠ .dead) (hst : s.pwr.st ≠ .watch) :
    exec .pcieOutOfReset s = .next { s with bru := { s.bru with pcieUp := true } } :=
  congrArg Host.Outcome.next (if_neg (by simp [hheld, hdead, hst]))

theorem exec_pcieOutOfReset_of_not (hnot : s.bru.held = true ∨ s.bru.stage = .dead ∨ s.pwr.st = .watch) :
    exec .pcieOutOfReset s = .next s :=
  congrArg Host.Outcome.next (if_pos (by simpa [or_assoc] using hnot))

theorem exec_softwareReset_of_key {v : Word} {u : State} (hbars : s.barsUp = true) (hkey : v.toNat % 2 ^ 16 = 0x5753)
    (hu : u = s.afterReset true 2) :
    exec (.softwareReset v) s = .next ({ u with bru := { u.bru with held := false } } : State).romStage := by
  subst hu
  exact congrArg Host.Outcome.next ((if_pos hbars).trans (if_pos hkey))

theorem exec_softwareReset_of_not {v : Word} (hnot : s.barsUp = false ∨ v.toNat % 2 ^ 16 ≠ 0x5753) : exec (.softwareReset v) s = .next s := by
  refine congrArg Host.Outcome.next ?_
  split
  next hbars => exact if_neg (hnot.resolve_left (by simp [hbars]))
  next => rfl

theorem exec_vddAo_of_not_watch (hst : s.pwr.st ≠ .watch) : exec (.supplyWithinLimits 0) s = .next { s with enables := s.enables ||| 1 } :=
  congrArg Host.Outcome.next (if_neg hst)

theorem exec_vddAo_of_watch (hst : s.pwr.st = .watch) : exec (.supplyWithinLimits 0) s = .next s := congrArg Host.Outcome.next (if_pos hst)

theorem exec_vddSoc_of_ao (hao : s.enables.getLsbD 0 = true) :
    exec (.supplyWithinLimits 1) s = .next { s with enables := s.enables ||| 2 } := congrArg Host.Outcome.next (if_pos hao)

theorem exec_vddSoc_of_not_ao (hao : s.enables.getLsbD 0 = false) : exec (.supplyWithinLimits 1) s = .next s :=
  congrArg Host.Outcome.next (if_neg (by rw [hao]; exact Bool.false_ne_true))

theorem exec_vddArith_of_waking (hsupplied : s.enables = 3) (hwaking : s.pwr.waking = true) :
    exec (.supplyWithinLimits 2) s = .next s.leaveWatch := congrArg Host.Outcome.next (if_pos ⟨hsupplied, hwaking⟩)

theorem exec_vddArith_of_not (hnot : s.enables ≠ 3 ∨ s.pwr.waking = false) : exec (.supplyWithinLimits 2) s = .next s :=
  congrArg Host.Outcome.next (if_neg (by simpa [imp_iff_not_or] using hnot))

end Resets

/-! ### ROOT_FW -/

section RootFw
variable {s : State} {ms : BitVec 16}

theorem exec_rootFwReport_of_due {u : State} (hstage : s.bru.stage = .rootFw) (hu : u = (List.range 3).foldl State.fuseCore s) :
    exec (.rootFwReport ms) s = .next ((({ u with
      bru := { u.bru with stage := .edge, tRootFw := ms }, pwr := { u.pwr with lock := true }
      gddr := { u.gddr with gcal := u.calTable gcalField 1024, mcal := u.calTable mcalField 1024 }
      xms := { u.xms with segments := u.calTable xcalField 32 } } : State).enableGroup 24).enableGroup 25) := by
  subst hu
  exact if_neg (by simp [hstage])

theorem exec_rootFwReport_of_not_due (hstage : s.bru.stage ≠ .rootFw) : exec (.rootFwReport ms) s = .next s := if_pos hstage

theorem exec_rootFwTimeout_of_due (hstage : s.bru.stage = .rootFw) : exec .rootFwTimeout s = .next (s.enterDead 2 1 0) :=
  congrArg Host.Outcome.next (if_pos hstage)

theorem exec_rootFwTimeout_of_not_due (hstage : s.bru.stage ≠ .rootFw) : exec .rootFwTimeout s = .next s :=
  congrArg Host.Outcome.next (if_neg hstage)

end RootFw

/-! ### EDGE -/

section Edge
variable {s : State} {e : Fin 4} {fail : BitVec 12}

theorem exec_edgeReport_of_due {up : BitVec 4} {s1 s2 s3 s4 : State} (hstage : s.bru.stage = .edge)
    (hdown : bitAt s.bru.edgeUp.toNat e = false) (hs1 : s1 = if s.bru.fromWatch then s else s.testQuarter e fail)
    (hs2 : s2 = s1.setQuarter e { s1.quarter e with
      gTable := BitVec.ofNat 16 (s.partField 5 0), mTable := BitVec.ofNat 16 (s.partField 5 1) })
    (hs3 : s3 = (s2.edgeGroups e).foldl State.enableGroup s2) (hup : up = s.bru.edgeUp ||| BitVec.ofNat 4 (2 ^ e.val))
    (hs4 : s4 = { s3 with
      bru := { s3.bru with edgeUp := up }
      xms := if s3.xms.regs.enable && s3.xms.st == .alone then { s3.xms with st := .ports } else s3.xms }) :
    exec (.edgeReport e fail) s = .next (if up = 0xF then s4.edgesUp else s4) := by
  have hgo : ¬ (s.bru.stage ≠ .edge ∨ bitAt s.bru.edgeUp.toNat e = true) := by simp [hstage, hdown]
  subst hs4 hup hs3 hs2 hs1
  exact if_neg hgo

theorem exec_edgeReport_of_not_due (hnot : s.bru.stage ≠ .edge ∨ bitAt s.bru.edgeUp.toNat e = true) :
    exec (.edgeReport e fail) s = .next s := if_pos hnot

theorem exec_edgeTimeout_of_due (hstage : s.bru.stage = .edge) (hdown : bitAt s.bru.edgeUp.toNat e = false) :
    exec (.edgeTimeout e) s = .next (s.enterDead 3 2 0) := congrArg Host.Outcome.next (if_pos ⟨hstage, by simp [hdown]⟩)

theorem exec_edgeTimeout_of_not_due (hnot : s.bru.stage ≠ .edge ∨ bitAt s.bru.edgeUp.toNat e = true) :
    exec (.edgeTimeout e) s = .next s :=
  congrArg Host.Outcome.next (if_neg (by rcases hnot with h | h <;> simp [h]))

end Edge

/-! ### COMPUTE and READY -/

section Compute
variable {s : State} {k : Fin 20} {fail : BitVec 44} {pll : Fin 3}

theorem exec_computeBistDone_of_due {s1 s2 : State} (hwaits : s.dieWaits k = true) (hs1 : s1 = (s.startPlls k pll).fenceFused k)
    (hs2 : s2 = if (s1.die k).pllLost then (dieClusters k).foldl (fun (s : State) c => s.fenceAtStart c 6) s1
      else ((dieClusters k).filter fun c => bitAt fail.toNat (c % 44)).foldl (fun (s : State) c => s.fenceAtStart c 7) s1) :
    exec (.computeBistDone k fail pll) s = .next ((((dieClusters k).filter fun c => s2.service c == .inService).foldl
      (fun (s : State) c => s.setCl c { s.cl c with st := .idle }) s2).dieDone k true) := by
  have hgo : ¬ (!s.dieWaits k) = true := by simp [hwaits]
  subst hs2 hs1
  exact if_neg hgo

theorem exec_computeBistDone_of_not_due (hwaits : s.dieWaits k = false) : exec (.computeBistDone k fail pll) s = .next s :=
  if_pos (by simp [hwaits])

theorem exec_computeTimeout_of_due (hwaits : s.dieWaits k = true) :
    exec (.computeTimeout k) s = .next (((dieClusters k).foldl (fun (s : State) c => s.fenceAtStart c 6) s).dieDone k false) :=
  congrArg Host.Outcome.next (if_pos hwaits)

theorem exec_computeTimeout_of_not_due (hwaits : s.dieWaits k = false) : exec (.computeTimeout k) s = .next s :=
  congrArg Host.Outcome.next (if_neg (by simp [hwaits]))

theorem exec_deviceReady_of_ready {ms : BitVec 16} {s1 s2 : State} (hready : s.readyNow = true)
    (hs1 : s1 = ({ s with bru := { s.bru with stage := .ready, tReady := ms } } : State).blowFuses.copyRetained)
    (hs2 : s2 = s1.hif.bells.foldl (fun (s : State) b => s.bell b.1 b.2.1 b.2.2) s1) :
    exec (.deviceReady ms) s = .next { s2 with hif := { s2.hif with bells := [] } } := by
  have hgo : ¬ (!s.readyNow) = true := by simp [hready]
  subst hs2 hs1
  change execDeviceReady ms s = _
  rw [execDeviceReady, if_neg hgo]

theorem exec_deviceReady_of_not_ready {ms : BitVec 16} (hready : s.readyNow = false) : exec (.deviceReady ms) s = .next s :=
  if_pos (by simp [hready])

end Compute
end Sys2Proof.Machine

namespace Sys2Proof.Proofs
open Sys2Proof.Machine

/-- Settles O47: each clause is one of the cases of its command above. -/
theorem startupReachesReady : Obligations.StartupReachesReady := by
  unfold Obligations.StartupReachesReady
  intro s
  refine ⟨exec_resetRelease_of_held, exec_resetRelease_of_not, exec_resetAssert_of_not_watch, exec_resetAssert_of_watch,
    exec_resetAssert_of_held, rfl, exec_pcieOutOfReset_of_released, exec_pcieOutOfReset_of_not, exec_vddAo_of_not_watch, exec_vddSoc_of_ao,
    exec_vddArith_of_waking, ⟨exec_vddAo_of_watch, exec_vddSoc_of_not_ao, exec_vddArith_of_not, rfl⟩,
    fun hstage => ⟨fun ms u => exec_rootFwReport_of_due hstage, exec_rootFwTimeout_of_due hstage⟩,
    fun hstage ms => ⟨exec_rootFwReport_of_not_due hstage, exec_rootFwTimeout_of_not_due hstage⟩, fun hstage e hdown => ⟨?report,
      exec_edgeTimeout_of_due hstage hdown⟩, fun e fail hnot => ⟨exec_edgeReport_of_not_due hnot, exec_edgeTimeout_of_not_due hnot⟩,
    fun k hwaits => ⟨fun fail pll s1 s2 => exec_computeBistDone_of_due hwaits, exec_computeTimeout_of_due hwaits⟩,
    fun k fail pll hwaits => ⟨exec_computeBistDone_of_not_due hwaits, exec_computeTimeout_of_not_due hwaits⟩,
    fun ms s1 s2 => exec_deviceReady_of_ready, fun ms => exec_deviceReady_of_not_ready, fun v u => exec_softwareReset_of_key,
    fun v => exec_softwareReset_of_not⟩
  case report =>
    intro fail up s1 s2 s3 s4 hs1 hs2 hs3 hup hs4
    rw [exec_edgeReport_of_due hstage hdown hs1 hs2 hs3 hup hs4]
    exact ⟨fun hmore => congrArg Host.Outcome.next (if_neg hmore), fun hall => congrArg Host.Outcome.next (if_pos hall)⟩

end Sys2Proof.Proofs
end

section
/-!
PROOFS. Updates of the boot flash (R659, R660) and the SMBus commands (R665–R667); and obligation O48.
-/
namespace Sys2Proof.Machine

section Update
variable {s : State}

/-! ### UPDATE_GO and the update -/

theorem exec_updateGo_of_updating (hw : s.writable = true) (hstate : s.sec.ustate = 1) :
    exec .updateGo s = .next { s with sec := { s.sec with ign := satBump s.sec.ign 1 } } :=
  congrArg Host.Outcome.next ((if_pos hw).trans (if_pos hstate))

theorem exec_updateGo_of_idle (hw : s.writable = true) (hstate : s.sec.ustate ≠ 1) :
    exec .updateGo s = .next { s with sec := { s.sec with ustate := 1, job := some (s.sec.uaddr.toNat, s.sec.ubytes.toNat) } } :=
  congrArg Host.Outcome.next ((if_pos hw).trans (if_neg hstate))

theorem exec_updateGo_of_not_writable (hw : s.writable = false) : exec .updateGo s = .next s :=
  congrArg Host.Outcome.next (if_neg (by simp [hw]))

theorem State.updateTick_of_job {a n : Nat} {z : State} (hjob : s.sec.job = some (a, n)) (hrun : s.flt.halted = false)
    (hz : z = s.stage a n) :
    s.updateTick = if z.pwr.watchAsked then ({ z with pwr := { z.pwr with watchAsked := false } } : State).requestWatch else z := by
  rw [State.updateTick, hjob, hz]
  exact if_neg (by simp [hrun])

theorem State.updateTick_of_halted (hhalt : s.flt.halted = true) : s.updateTick = s := by
  unfold State.updateTick
  split
  · rfl
  · exact if_pos hhalt

theorem State.stage_of_unstaged {a n : Nat} (hnone : s.stagedSet a n = none) :
    s.stage a n = { s with sec := { s.sec with ustate := 3, ucode := 1, job := none } } := by
  rw [State.stage, hnone]
  rfl

section Staged
variable {a n : Nat} {b : List Byte} {r : State} (hstaged : s.stagedSet a n = some b) (hr : r = s.asks classDma false a b.length)
include hstaged hr

theorem State.stage_of_no_pointer {code : Nat} (hpointer : r.pointer = none) (hcode : code = (r.verifySet b b.length).1) :
    s.stage a n = { r with sec := { r.sec with ustate := 3, ucode := BitVec.ofNat 4 (if code = 0 then 10 else code), job := none } } := by
  subst hcode hr
  simp only [State.stage, hstaged, hpointer]
  rfl

section Pointer
variable {p : Pointer} {copy : Nat} (hpointer : r.pointer = some (p, copy))
include hpointer

theorem State.stage_of_failed {code : Nat} (hcode : code = (r.verifySet b b.length).1) (hfail : code ≠ 0) :
    s.stage a n = { r with sec := { r.sec with ustate := 3, ucode := BitVec.ofNat 4 code, job := none } } := by
  subst hcode hr
  simp only [State.stage, hstaged, hpointer, if_pos hfail]
  rfl

theorem State.stage_of_verified {u : State} (hok : (r.verifySet b b.length).1 = 0)
    (hu : u = { r with sec := { r.sec with flash := flashWrite r.sec.flash (areaBase (1 - p.active)) (b.take (fieldAt b 0x18 4)) } }) :
    s.stage a n = (u.writePointer { p with pending := true, setid := fieldAt b 0x10 8 } copy).updateDone 2 0 := by
  have hpass : ¬ (r.verifySet b b.length).1 ≠ 0 := by simp [hok]
  subst hu hr
  simp only [State.stage, hstaged, hpointer, if_neg hpass]

end Pointer
end Staged
end Update

/-! ### SMBus -/

section Smbus
variable {s : State} {off : BitVec 32} {nonce : BitVec 256}

theorem exec_identity_of_up (hup : s.smbusUp = true) :
    exec .identity s = .next (s.emit (.smbus (natLe 4 s.devId.toNat ++ natLe 8 s.sec.serial.toNat ++ [s.stepping] ++
      natLe 8 s.sec.setid.toNat ++ natLe 1 s.sec.svn.toNat ++ natLe 1 s.identityState))) :=
  congrArg Host.Outcome.next (if_neg (by simp [hup]))

theorem exec_cert_of_up (hup : s.smbusUp = true) : exec (.cert off) s = .next (s.emit (.smbus ((s.certChain.drop off.toNat).take 255))) :=
  congrArg Host.Outcome.next (if_pos hup)

theorem exec_reamRead_of_up (hup : s.smbusUp = true) :
    exec (.reamRead off) s = .next (s.emit (.smbus ((s.flt.ream.drop off.toNat).take 255))) :=
  congrArg Host.Outcome.next (if_pos hup)

theorem exec_deadReport_of_dead (hup : s.smbusUp = true) (hdead : s.bru.stage = .dead) :
    exec (.deadReport nonce) s = .next (s.emit (.smbus (s.deadBody nonce ++ edSign s.deviceKey (s.deadBody nonce)))) :=
  congrArg Host.Outcome.next (if_pos (by simp [hup, hdead]))

theorem exec_deadReport_of_not (hnot : s.smbusUp = false ∨ s.bru.stage ≠ .dead) : exec (.deadReport nonce) s = .next s :=
  congrArg Host.Outcome.next (if_neg (by simpa [imp_iff_not_or] using hnot))

theorem exec_identity_of_down (hdown : s.smbusUp = false) : exec .identity s = .next s :=
  congrArg Host.Outcome.next (if_pos (by simp [hdown]))

theorem exec_cert_of_down (hdown : s.smbusUp = false) : exec (.cert off) s = .next s :=
  congrArg Host.Outcome.next (if_neg (by simp [hdown]))

theorem exec_reamRead_of_down (hdown : s.smbusUp = false) : exec (.reamRead off) s = .next s :=
  congrArg Host.Outcome.next (if_neg (by simp [hdown]))

end Smbus
end Sys2Proof.Machine

namespace Sys2Proof.Proofs
open Sys2Proof.Machine

/-- Settles O48: an update is `State.updateTick`, whose work `State.stage` goes by the staged set, the pointer record and the
verification. -/
theorem identityAndUpdatesAnswer : Obligations.IdentityAndUpdatesAnswer := by
  unfold Obligations.IdentityAndUpdatesAnswer
  intro s
  refine ⟨fun hw => ⟨exec_updateGo_of_updating hw, exec_updateGo_of_idle hw⟩, fun a n z hjob hrun hz => ?update, ?idle,
    fun hup => ⟨exec_identity_of_up hup, fun off => ⟨exec_cert_of_up hup, exec_reamRead_of_up hup⟩, fun nonce => exec_deadReport_of_dead hup⟩,
    exec_updateGo_of_not_writable, fun nonce => exec_deadReport_of_not,
    fun hdown => ⟨exec_identity_of_down hdown, fun off => ⟨exec_cert_of_down hdown, exec_reamRead_of_down hdown⟩⟩⟩
  case update =>
    have htick := State.updateTick_of_job hjob hrun hz
    refine ⟨fun hquiet => htick.trans (if_neg (by simp [hquiet])), fun hasked => htick.trans (if_pos hasked), ?_⟩
    subst hz
    exact ⟨State.stage_of_unstaged, fun b r hstaged hr => ⟨fun code => State.stage_of_no_pointer hstaged hr, fun p copy hpointer =>
      ⟨fun code => State.stage_of_failed hstaged hr hpointer, fun u => State.stage_of_verified hstaged hr hpointer⟩⟩⟩
  case idle => exact fun hnot => hnot.elim State.updateTick_of_no_job State.updateTick_of_halted

end Sys2Proof.Proofs
end
